-- ==== Sys2Proof/Word.lean ====
section
/-! DEFINITION. The word types of the PX-8 and their plainest arithmetic (R3, R4, R5). -/

namespace Sys2Proof

/-- A byte of memory. -/
abbrev Byte := BitVec 8
/-- A 32-bit lane, slot or literal word (R4). -/
abbrev W32 := BitVec 32
/-- A 64-bit scalar register or record word (R4). -/
abbrev W64 := BitVec 64
/-- A code address as the PC holds it (R12, R218). -/
abbrev CodeAddr := BitVec 48
/-- A vector register: 256 bytes, byte b in bits [8b+7:8b], lane l in bits [32l+31:32l] (R68). -/
abbrev Row := BitVec 2048

/-- Core of the package: die × 64 + core within the die (R2). -/
abbrev CoreId := Fin 512
/-- Context within a core (R118). -/
abbrev CtxId := Fin 4
/-- Partition (R2, R404). -/
abbrev PartId := Fin 16
/-- Die within the package (R402). -/
abbrev DieId := Fin 8
/-- Itinerary context: die × 16 + itinerary (R324). -/
abbrev ItinId := Fin 128
/-- Request gatherer: die × 64 + gatherer (R334). -/
abbrev GathererId := Fin 512
/-- Lugil port (R419). -/
abbrev PortId := Fin 18
/-- Host queue (R416). -/
abbrev QueueId := Fin 4096

end Sys2Proof
end

