-- ==== Sys2Proof/Syntax.lean ====
section
/-! DEFINITION. The instruction set as syntax: one constructor of `Instr` for each row of
spec/opcode_table.json. The first 206 rows are the slots of R48 (mown and lnscfg stand in two rows
each), grouped by operand form (R32); the other 116 rows are the device's own steps and the acts of
the outside world, which have no encoding. -/

namespace Sys2Proof

/-- Operand form RRR (R32): guard, D, A, B, the trap-on-empty bits and the keep bit. -/
structure RRR where
  g : BitVec 3
  d : BitVec 5
  a : BitVec 5
  b : BitVec 5
  ta : Bool
  tb : Bool
  h : Bool
  deriving DecidableEq, Repr

/-- Operand form RR (R32): as RRR with B zero; bit 1 is ignored and kept as `tb`. -/
structure RR where
  g : BitVec 3
  d : BitVec 5
  a : BitVec 5
  ta : Bool
  tb : Bool
  h : Bool
  deriving DecidableEq, Repr

/-- Operand form RRI (R32, R41): `lit` is the literal word when L = 1. -/
structure RRI where
  g : BitVec 3
  d : BitVec 5
  a : BitVec 5
  imm : BitVec 8
  lit : Option (BitVec 32)
  deriving DecidableEq, Repr

/-- Operand form RI (R32, R41). -/
structure RI where
  g : BitVec 3
  d : BitVec 5
  imm : BitVec 13
  lit : Option (BitVec 32)
  deriving DecidableEq, Repr

/-- Operand form SYS (R32, R114): the number of the system register. -/
structure SYS where
  g : BitVec 3
  d : BitVec 5
  num : BitVec 12
  deriving DecidableEq, Repr

/-- Operand form BR (R32, R41). -/
structure BR where
  g : BitVec 3
  off : BitVec 18
  lit : Option (BitVec 32)
  deriving DecidableEq, Repr

/-- Operand form N (R32). -/
structure NF where
  g : BitVec 3
  deriving DecidableEq, Repr

/-- Operand form U (R32, R35): the selector is fmt, rnd, sat. -/
structure UF where
  g : BitVec 3
  d : BitVec 5
  a : BitVec 5
  fmt : BitVec 4
  rnd : BitVec 2
  sat : Bool
  ta : Bool
  deriving DecidableEq, Repr

/-- Operand form M (R32, R193). -/
structure MF where
  g : BitVec 3
  d : BitVec 5
  a : BitVec 5
  b : BitVec 5
  ta : Bool
  tb : Bool
  z : Bool
  deriving DecidableEq, Repr

/-- Operand form CP (R32, R36): completion kind, shape register, A, B and token. -/
structure CP where
  g : BitVec 3
  kind : BitVec 2
  sh : BitVec 3
  a : BitVec 5
  b : BitVec 5
  tok : BitVec 3
  deriving DecidableEq, Repr

/-- Operand form AT (R32, R37): ordering and scope of an atomic. -/
structure AT where
  g : BitVec 3
  d : BitVec 5
  a : BitVec 5
  ord : BitVec 2
  scope : BitVec 3
  deriving DecidableEq, Repr

/-- An IOTLB entry as an ATS completion brings it (R223, R224): process, page of 4 KiB, run of pages, permissions. -/
structure TlbEntry where
  pasid : BitVec 20
  page : Nat
  count : Nat
  read : Bool
  write : Bool
  deriving DecidableEq, Repr

/-- The host's answer to a PRI Page Request (R224). -/
inductive PriAnswer where
  | success
  | invalidRequest
  | responseFailure
  deriving DecidableEq, Repr

/-- What stops an engine's walk when the cause lies outside what the model computes (R319, R328): a page the host
refuses, data uncorrectable after the retry, or an answer of the fabric. -/
inductive EngineFault where
  | pageRefused (va : BitVec 64)
  | uncorrectable (va : BitVec 64)
  | fabric (cause : BitVec 8) (info : BitVec 64)
  deriving DecidableEq, Repr

/-- A Lugil packet (R420): the four header words and the payload. -/
structure Packet where
  h0 : BitVec 64
  h1 : BitVec 64
  h2 : BitVec 64
  h3 : BitVec 64
  payload : List (BitVec 8)
  deriving DecidableEq, Repr

/-- A CXL device found at boot (R222, R408): its number, whether its medium is flash (T4), its range. -/
structure CxlDevice where
  dev : Nat
  flash : Bool
  base : Nat
  size : Nat
  deriving DecidableEq, Repr

/-- What a boot finds outside the device (R428, R429): the firmware and image bytes of the boot flash, the
minimum sequence number of the board controller, the CXL devices, the cores that fail their test, the trained ports, the boundaries between
dies that fail training (R402), whether the other links of step 5 train, the further steps that fail, and the banks of the weight stores
that the runtime grants each partition (R234; die × 16 + bank). -/
structure BootInput where
  firmware : List (BitVec 8)
  image : List (BitVec 8)
  minSeq : Nat
  devices : List CxlDevice
  failed : List (Fin 512)
  trained : BitVec 18
  apart : List (Fin 8 × Fin 8)
  linksOk : Bool
  broken : List Nat
  banks : List (Fin 16 × BitVec 128)
  deriving DecidableEq, Repr

/-- A scan through the one-bit bypass register (R432): the instruction code that selects it, and the bit shifted in. -/
structure BypassScan where
  code : BitVec 8
  tdi : Bool
  deriving DecidableEq, Repr

/-- One constructor per row of the opcode table. -/
inductive Instr where
  | add (f : RRR)
  | sub (f : RRR)
  | addi (f : RRI)
  | li (f : RI)
  | addpc (f : RI)
  | mul (f : RRR)
  | mulh (f : RRR)
  | mulhu (f : RRR)
  | div (f : RRR)
  | divu (f : RRR)
  | rem (f : RRR)
  | remu (f : RRR)
  | and (f : RRR)
  | or (f : RRR)
  | xor (f : RRR)
  | andn (f : RRR)
  | andi (f : RRI)
  | ori (f : RRI)
  | xori (f : RRI)
  | shl (f : RRR)
  | shr (f : RRR)
  | sar (f : RRR)
  | rol (f : RRR)
  | shli (f : RRI)
  | shri (f : RRI)
  | sari (f : RRI)
  | min (f : RRR)
  | max (f : RRR)
  | minu (f : RRR)
  | maxu (f : RRR)
  | clz (f : RR)
  | ctz (f : RR)
  | popc (f : RR)
  | bfx (f : RRR)
  | bfi (f : RRR)
  | sext (f : RRI)
  | cmpeq (f : RRR)
  | cmpne (f : RRR)
  | cmplt (f : RRR)
  | cmpge (f : RRR)
  | cmpltu (f : RRR)
  | cmpgeu (f : RRR)
  | cmpeqi (f : RRI)
  | cmplti (f : RRI)
  | sel (f : RRR)
  | gand (f : RRR)
  | gor (f : RRR)
  | gxor (f : RRR)
  | gset (f : RR)
  | gget (f : RR)
  | nop
  | br (f : BR)
  | call (f : BR)
  | jr (f : RR)
  | callr (f : RR)
  | ret (f : NF)
  | loop (f : RI)
  | rep (f : RI)
  | wait (f : RI)
  | yield (f : NF)
  | stop (f : NF)
  | trap (f : RI)
  | eret (f : NF)
  | mfs (f : SYS)
  | mts (f : SYS)
  | ckpt (f : NF)
  | brk (f : NF)
  | ldb (f : RRI)
  | ldbu (f : RRI)
  | ldh (f : RRI)
  | ldhu (f : RRI)
  | ldw (f : RRI)
  | ldwu (f : RRI)
  | ldd (f : RRI)
  | stb (f : RRI)
  | sth (f : RRI)
  | stw (f : RRI)
  | std (f : RRI)
  | ldx (f : RRR)
  | vld (f : RRI)
  | vst (f : RRI)
  | vldb (f : RRI)
  | vldx (f : RRR)
  | vstx (f : RRR)
  | lds (f : RR)
  | sts (f : RR)
  | stset (f : RRI)
  | stget (f : RRI)
  | stq (f : RRI)
  | wld (f : RRI)
  | vldt (f : RRI)
  | vldtc (f : RRI)
  | amoadd (f : AT)
  | amomin (f : AT)
  | amomax (f : AT)
  | amoand (f : AT)
  | amoor (f : AT)
  | amoxor (f : AT)
  | amoswp (f : AT)
  | amocas (f : AT)
  | fence (f : RI)
  | fwait (f : RR)
  | bind (f : RRR)
  | acq (f : RR)
  | rel (f : RR)
  | prf (f : RRI)
  | ninv (f : RRI)
  | vadd (f : RRR)
  | vsub (f : RRR)
  | vmul (f : RRR)
  | vfma (f : RRR)
  | vfms (f : RRR)
  | vmin (f : RRR)
  | vmax (f : RRR)
  | vabs (f : RR)
  | vneg (f : RR)
  | vcmpeq (f : RRR)
  | vcmplt (f : RRR)
  | vcmple (f : RRR)
  | vcmpun (f : RRR)
  | vsel (f : RRR)
  | vmov (f : RR)
  | vbcast (f : RR)
  | viota (f : RR)
  | viadd (f : RRR)
  | visub (f : RRR)
  | vimul (f : RRR)
  | viand (f : RRR)
  | vior (f : RRR)
  | vixor (f : RRR)
  | vishl (f : RRR)
  | vishr (f : RRR)
  | visar (f : RRR)
  | vimin (f : RRR)
  | vimax (f : RRR)
  | vicmpeq (f : RRR)
  | vicmplt (f : RRR)
  | vperm (f : RRR)
  | vrot (f : RRR)
  | vext (f : RRR)
  | vins (f : RRR)
  | vfmai (f : RRR)
  | vcvt (f : UF)
  | vcvtx (f : UF)
  | vpack (f : UF)
  | vunpk (f : UF)
  | vqmx (f : UF)
  | vdqmx (f : UF)
  | vq4n (f : UF)
  | vdq4n (f : UF)
  | vamax (f : RR)
  | vsum (f : RR)
  | vmaxi (f : RR)
  | vmini (f : RR)
  | vlog2 (f : UF)
  | vexp2 (f : UF)
  | vrcp (f : UF)
  | vrsqrt (f : UF)
  | vrng (f : RR)
  | vlsem (f : RRR)
  | vfxcvt (f : UF)
  | mpush (f : MF)
  | mswap (f : MF)
  | macc (f : MF)
  | maccp (f : MF)
  | mdrain (f : MF)
  | mdrainp (f : MF)
  | mclr (f : MF)
  | mownAcquire (f : MF)
  | mownRelease (f : MF)
  | shw (f : RRI)
  | cpy (f : CP)
  | cpyadd (f : CP)
  | cpymc (f : CP)
  | cpyt (f : CP)
  | cpyg (f : CP)
  | tlrd (f : RR)
  | tlwait (f : RR)
  | swset (f : RRR)
  | swwait (f : RR)
  | itstart (f : RR)
  | itstat (f : RR)
  | plan (f : RRR)
  | lnscfgTemplate (f : RRI)
  | lnscfgDescriptor (f : RRI)
  | lnsgo (f : RR)
  | gcfg (f : RRR)
  | gsub (f : RRR)
  | cpyw (f : CP)
  | spawn (f : RR)
  | qpush (f : RRR)
  | join (f : RR)
  | trig (f : NF)
  | park (f : RR)
  | wake (f : RR)
  | futwait (f : RR)
  | futset (f : RRR)
  | futpoison (f : RR)
  | talloc (f : RRI)
  | tfin (f : RR)
  | tdrop (f : RR)
  | bar (f : RI)
  | barr (f : RI)
  | barw (f : RI)
  | kvapp (f : RRR)
  | susp (f : NF)
  | bundleIssue (c : CoreId)
  | continuationStart (c : CoreId) (x : CtxId)
  | suspensionPoint (c : CoreId) (x : CtxId)
  | heldPushRetry (c : CoreId)
  | barrierEpisodeComplete (team scope dom : Nat)
  | tileStep (c : CoreId) (x : CtxId)
  | tileStepDone (c : CoreId) (x : CtxId)
  | divisionResult (c : CoreId) (x : CtxId) (id : Nat)
  | variableLoadResult (c : CoreId) (x : CtxId) (id : Nat)
  | atomicResult (c : CoreId) (x : CtxId) (id : Nat)
  | fenceComplete (c : CoreId) (x : CtxId)
  | tileGrant (c : CoreId) (pool : Fin 16)
  | planResult (c : CoreId) (x : CtxId) (id : Nat)
  | kvappResult (c : CoreId) (x : CtxId) (id : Nat)
  | rollback (c : CoreId) (x : CtxId)
  | page (c : CoreId) (x : CtxId) (id : Nat)
  | heldFault (c : CoreId) (x : CtxId)
  | int (c : CoreId) (x : CtxId)
  | watchdog (c : CoreId) (x : CtxId)
  | preempt (c : CoreId) (x : CtxId)
  | preemptHandlerTimeout (c : CoreId) (x : CtxId)
  | dispatch (p : PartId)
  | steal (p : PartId) (o c : CoreId)
  | preemption (p : PartId)
  | drainLimit (c : CoreId) (x : CtxId)
  | save (c : CoreId) (x : CtxId)
  | saveResume (c : CoreId) (x : CtxId)
  | kill (c : CoreId) (x : CtxId)
  | teamAbort (team : Nat)
  | killDrainDone (team : Nat)
  | gangPlacement (p : PartId) (gang : Nat)
  | priorityTokenPeriod (p : PartId)
  | budgetPeriod (p : PartId)
  | tstall (c : CoreId) (x : CtxId)
  | engineAllocWatchdog (c : CoreId) (pool : Fin 16) (id : Nat)
  | copyWalkStart (c : CoreId) (x : CtxId) (id : Nat)
  | copyComplete (c : CoreId) (x : CtxId) (id : Nat)
  | copyError (c : CoreId) (x : CtxId) (id : Nat) (f : EngineFault)
  | syncWordArrival (c : CoreId) (x : CtxId) (id bytes : Nat)
  | destinationAccumulate (c : CoreId) (x : CtxId) (id : Nat)
  | gatherPageLanded (c : CoreId) (x : CtxId) (id : Nat)
  | slipStart (it : ItinId)
  | slipComplete (it : ItinId) (num : Nat)
  | slipFailure (it : ItinId) (num : Nat) (f : EngineFault)
  | demotionTimer (e : Nat) (tier : Nat)
  | demotionMoveDone (e : Nat)
  | demotionRetry (e : Nat)
  | wakeWrite (token value : BitVec 64)
  | promotionResume (e : Nat)
  | promotionMoveDone (e : Nat)
  | gathererDeadline (g : GathererId)
  | powerAlarm (c : CoreId)
  | powerExcessNotify
  | bankFailure (c : CoreId) (bank : Fin 34)
  | bankRebuildDone (c : CoreId)
  | refreshWindow (d : DieId)
  | autonomousRefresh (d : DieId)
  | refreshOwnershipReturn (d : DieId)
  | refreshManagement (tier bank : Nat)
  | atsTranslationCompletion (d : DieId) (t : TlbEntry)
  | priPageResponse (c : CoreId) (x : CtxId) (r : PriAnswer)
  | atsInvalidationRequest (d : DieId) (pasid : BitVec 20) (page count : Nat)
  | writebackPoison (c : CoreId) (line : BitVec 64)
  | interruptPageWrite (v : BitVec 64)
  | intSend (v : BitVec 64)
  | hostQueueDoorbell (q : QueueId) (tail : BitVec 16)
  | registerWrite (block number : Nat) (v : BitVec 64)
  | rcRegisterRead (block number : Nat)
  | spillConfigWrite (c : CoreId) (number : Nat) (v : BitVec 64)
  | itOwnWrite (p : PartId) (v : BitVec 64)
  | freeListTailWrite (p : PartId) (tier : Fin 4) (v : BitVec 64)
  | cfgTranslationTable (v : BitVec 64)
  | tableInstall (p : PartId)
  | cfgPoolDescriptor (v : BitVec 64)
  | cfgParkClass (v : BitVec 64)
  | wsLockSet (p : PartId)
  | wsLockClear (p : PartId)
  | wsLockEffect (p : PartId)
  | ldacl
  | ldgrp
  | groupTableInstall
  | mcReq (v : BitVec 64)
  | retrainStart
  | thermalRetrain (target : Nat)
  | retrainDone (target : Nat)
  | multicastTransferStart (id : Nat)
  | data (p : Packet)
  | ack (p : Packet)
  | nack (p : Packet)
  | launch (p : Packet)
  | wakePacket (p : Packet)
  | barrier (p : Packet)
  | boot (b : BootInput)
  | packageReset
  | freezeSignal
  | idcode
  | freeze
  | status
  | scanout (bits : Nat)
  | bypass (scan : BypassScan)
  | getVersion
  | getCapabilities
  | negotiateAlgorithms
  | getDigests
  | getCertificate
  | challenge (nonce : BitVec 256)
  | getMeasurements
  | sessionRequest (code : BitVec 8)
  | powerAlarmEnd (c : CoreId)
  | partitionReset (p : PartId)
  | heartbeat (d : DieId)
  | portTrained (p : PortId)
  | portDown (p : PortId)
  | flitCrcError (p : PortId) (seq : BitVec 12)
  | replayRequest (p : PortId) (seq : BitVec 12)
  | hostQueuePageWrite (q : QueueId) (word : Fin 5) (v : BitVec 64)
  deriving DecidableEq, Repr

end Sys2Proof
end

