-- ==== Sys2Proof/WellFormed.lean ====
section
/-! DEFINITION. The static field rules of a slot (R33, R35, R37, R40, R41, R95, R170, R193, R202, R273, R282, R296, R344):
`fields` says that the fields a form keeps at zero are zero, `ranges` that the others hold values the instruction accepts.
`Instr.wf` is their conjunction. A slot that breaks one raises ILL at issue (R47). -/

namespace Sys2Proof

/-- A compare names the even guard of a pair: 2, 4 or 6 (R40). -/
def pairDest (d : BitVec 5) : Bool := d == 2 || d == 4 || d == 6
/-- A guard destination is g2 to g7 (R33). -/
def guardDest (d : BitVec 5) : Bool := decide (2 ≤ d.toNat) && decide (d.toNat < 8)
/-- A field that names a guard holds 0 to 7 (R33). -/
def guardNum (d : BitVec 5) : Bool := decide (d.toNat < 8)
/-- A vector destination is v0 to v27 (R33). -/
def vecDest (d : BitVec 5) : Bool := decide (d.toNat < 28)
/-- A field that names a stream register holds 0 to 15 (R33). -/
def streamNum (d : BitVec 5) : Bool := decide (d.toNat < 16)
/-- Scope codes 6 and 7 raise ILL (R37). -/
def scopeOk (s : BitVec 3) : Bool := decide (s.toNat < 6)
/-- The immediate, or the literal in its place, lies in [lo, hi) (R95). -/
def immBelow (imm : BitVec 8) (lit : Option (BitVec 32)) (lo hi : Nat) : Bool :=
  let n := match lit with
    | some l => l.toNat
    | none => imm.toNat
  decide (lo ≤ n) && decide (n < hi)
/-- The immediate, or the literal in its place, is zero (rep sD, R110). -/
def immZero (imm : BitVec 13) (lit : Option (BitVec 32)) : Bool :=
  match lit with
  | some l => l == 0
  | none => imm == 0
/-- Field numbers of stset and stget: 0 to 13 and the words 16 to 23 (R296). -/
def streamField (n : BitVec 8) : Bool := decide (n.toNat < 14) || (decide (16 ≤ n.toNat) && decide (n.toNat < 24))
/-- Field numbers of shw: 0 to 29 and the words 32 to 47 (R344). -/
def shapeField (n : BitVec 8) : Bool := decide (n.toNat < 30) || (decide (32 ≤ n.toNat) && decide (n.toNat < 48))
/-- With a literal the bits it replaces are ignored and read as zero here (R41). -/
def RRI.litOk (f : RRI) : Bool := f.lit.isNone || f.imm == 0
/-- As `RRI.litOk`. -/
def RI.litOk (f : RI) : Bool := f.lit.isNone || f.imm == 0
/-- As `RRI.litOk`. -/
def BR.litOk (f : BR) : Bool := f.lit.isNone || f.off == 0

/-- The fields that a form keeps at zero are zero, and a literal stands only where the form allows one (R32, R33, R41). -/
def Instr.fields : Instr → Bool
  | .add _ => true
  | .sub _ => true
  | .addi f => f.litOk
  | .li f => f.litOk
  | .addpc f => f.litOk
  | .mul _ => true
  | .mulh _ => true
  | .mulhu _ => true
  | .div _ => true
  | .divu _ => true
  | .rem _ => true
  | .remu _ => true
  | .and _ => true
  | .or _ => true
  | .xor _ => true
  | .andn _ => true
  | .andi f => f.litOk
  | .ori f => f.litOk
  | .xori f => f.litOk
  | .shl _ => true
  | .shr _ => true
  | .sar _ => true
  | .rol _ => true
  | .shli f => f.litOk
  | .shri f => f.litOk
  | .sari f => f.litOk
  | .min _ => true
  | .max _ => true
  | .minu _ => true
  | .maxu _ => true
  | .clz _ => true
  | .ctz _ => true
  | .popc _ => true
  | .bfx _ => true
  | .bfi _ => true
  | .sext f => f.litOk
  | .cmpeq _ => true
  | .cmpne _ => true
  | .cmplt _ => true
  | .cmpge _ => true
  | .cmpltu _ => true
  | .cmpgeu _ => true
  | .cmpeqi f => f.litOk
  | .cmplti f => f.litOk
  | .sel _ => true
  | .gand _ => true
  | .gor _ => true
  | .gxor _ => true
  | .gset _ => true
  | .gget _ => true
  | .nop => true
  | .br f => f.litOk
  | .call f => f.litOk
  | .jr f => f.d == 0
  | .callr f => f.d == 0
  | .ret _ => true
  | .loop f => f.litOk
  | .rep f => f.litOk
  | .wait f => f.lit.isNone && f.d == 0 && f.imm.toNat < 256
  | .yield _ => true
  | .stop _ => true
  | .trap f => f.litOk && f.d == 0
  | .eret _ => true
  | .mfs _ => true
  | .mts _ => true
  | .ckpt _ => true
  | .brk _ => true
  | .ldb f => f.litOk
  | .ldbu f => f.litOk
  | .ldh f => f.litOk
  | .ldhu f => f.litOk
  | .ldw f => f.litOk
  | .ldwu f => f.litOk
  | .ldd f => f.litOk
  | .stb f => f.litOk
  | .sth f => f.litOk
  | .stw f => f.litOk
  | .std f => f.litOk
  | .ldx _ => true
  | .vld f => f.litOk
  | .vst f => f.litOk
  | .vldb f => f.litOk
  | .vldx _ => true
  | .vstx _ => true
  | .lds _ => true
  | .sts _ => true
  | .stset f => f.lit.isNone
  | .stget f => f.lit.isNone
  | .stq f => f.lit.isNone
  | .wld f => f.litOk
  | .vldt f => f.lit.isNone
  | .vldtc f => f.lit.isNone
  | .amoadd _ => true
  | .amomin _ => true
  | .amomax _ => true
  | .amoand _ => true
  | .amoor _ => true
  | .amoxor _ => true
  | .amoswp _ => true
  | .amocas _ => true
  | .fence f => f.lit.isNone && f.imm.toNat < 8
  | .fwait f => f.d == 0
  | .bind _ => true
  | .acq _ => true
  | .rel _ => true
  | .prf f => f.litOk && f.d == 0
  | .ninv f => f.litOk && f.d == 0
  | .vadd _ => true
  | .vsub _ => true
  | .vmul _ => true
  | .vfma _ => true
  | .vfms _ => true
  | .vmin _ => true
  | .vmax _ => true
  | .vabs _ => true
  | .vneg _ => true
  | .vcmpeq _ => true
  | .vcmplt _ => true
  | .vcmple _ => true
  | .vcmpun _ => true
  | .vsel _ => true
  | .vmov _ => true
  | .vbcast _ => true
  | .viota _ => true
  | .viadd _ => true
  | .visub _ => true
  | .vimul _ => true
  | .viand _ => true
  | .vior _ => true
  | .vixor _ => true
  | .vishl _ => true
  | .vishr _ => true
  | .visar _ => true
  | .vimin _ => true
  | .vimax _ => true
  | .vicmpeq _ => true
  | .vicmplt _ => true
  | .vperm _ => true
  | .vrot _ => true
  | .vext _ => true
  | .vins _ => true
  | .vfmai _ => true
  | .vcvt _ => true
  | .vcvtx _ => true
  | .vpack _ => true
  | .vunpk _ => true
  | .vqmx _ => true
  | .vdqmx _ => true
  | .vq4n _ => true
  | .vdq4n _ => true
  | .vamax _ => true
  | .vsum _ => true
  | .vmaxi _ => true
  | .vmini _ => true
  | .vlog2 _ => true
  | .vexp2 _ => true
  | .vrcp _ => true
  | .vrsqrt _ => true
  | .vrng f => f.a == 0
  | .vlsem _ => true
  | .vfxcvt _ => true
  | .mpush f => f.d == 0 && f.b == 0
  | .mswap f => f.d == 0 && f.a == 0 && f.b == 0 && !f.z
  | .macc f => f.d == 0
  | .maccp _ => true
  | .mdrain f => f.b == 0 && !f.z
  | .mdrainp _ => true
  | .mclr f => f.d == 0 && !f.z
  | .mownAcquire f => f.d == 0 && f.a == 0 && f.b == 0 && !f.z
  | .mownRelease f => f.d == 1 && f.a == 0 && f.b == 0 && !f.z
  | .shw f => f.lit.isNone
  | .cpy _ => true
  | .cpyadd _ => true
  | .cpymc _ => true
  | .cpyt _ => true
  | .cpyg _ => true
  | .tlrd _ => true
  | .tlwait _ => true
  | .swset _ => true
  | .swwait _ => true
  | .itstart _ => true
  | .itstat _ => true
  | .plan f => f.b == 0
  | .lnscfgTemplate f => f.lit.isNone && f.d == 0 && f.imm == 0
  | .lnscfgDescriptor f => f.lit.isNone && f.d == 0 && f.imm == 1
  | .lnsgo f => f.d == 0 && f.a == 0
  | .gcfg f => f.d == 0
  | .gsub _ => true
  | .cpyw _ => true
  | .spawn f => f.d == 0
  | .qpush f => f.d == 0
  | .join f => f.d == 0
  | .trig _ => true
  | .park f => f.d == 0
  | .wake _ => true
  | .futwait _ => true
  | .futset f => f.d == 0
  | .futpoison _ => true
  | .talloc f => f.lit.isNone
  | .tfin f => f.d == 0
  | .tdrop f => f.d == 0
  | .bar f => f.lit.isNone && f.d == 0 && f.imm.toNat < 8
  | .barr f => f.lit.isNone && f.d == 0 && f.imm.toNat < 8
  | .barw f => f.lit.isNone && f.d == 0 && f.imm.toNat < 8
  | .kvapp _ => true
  | .susp _ => true
  | .bundleIssue _ => true
  | .continuationStart _ _ => true
  | .suspensionPoint _ _ => true
  | .heldPushRetry _ => true
  | .barrierEpisodeComplete _ _ _ => true
  | .tileStep _ _ => true
  | .tileStepDone _ _ => true
  | .divisionResult _ _ _ => true
  | .variableLoadResult _ _ _ => true
  | .atomicResult _ _ _ => true
  | .fenceComplete _ _ => true
  | .tileGrant _ _ => true
  | .planResult _ _ _ => true
  | .kvappResult _ _ _ => true
  | .rollback _ _ => true
  | .page _ _ _ => true
  | .heldFault _ _ => true
  | .int _ _ => true
  | .watchdog _ _ => true
  | .preempt _ _ => true
  | .preemptHandlerTimeout _ _ => true
  | .dispatch _ => true
  | .steal _ _ _ => true
  | .preemption _ => true
  | .drainLimit _ _ => true
  | .save _ _ => true
  | .saveResume _ _ => true
  | .kill _ _ => true
  | .teamAbort _ => true
  | .killDrainDone _ => true
  | .gangPlacement _ _ => true
  | .priorityTokenPeriod _ => true
  | .budgetPeriod _ => true
  | .tstall _ _ => true
  | .engineAllocWatchdog _ _ _ => true
  | .copyWalkStart _ _ _ => true
  | .copyComplete _ _ _ => true
  | .copyError _ _ _ _ => true
  | .syncWordArrival _ _ _ _ => true
  | .destinationAccumulate _ _ _ => true
  | .gatherPageLanded _ _ _ => true
  | .slipStart _ => true
  | .slipComplete _ _ => true
  | .slipFailure _ _ _ => true
  | .demotionTimer _ _ => true
  | .demotionMoveDone _ => true
  | .demotionRetry _ => true
  | .wakeWrite _ _ => true
  | .promotionResume _ => true
  | .promotionMoveDone _ => true
  | .gathererDeadline _ => true
  | .powerAlarm _ => true
  | .powerExcessNotify => true
  | .bankFailure _ _ => true
  | .bankRebuildDone _ => true
  | .refreshWindow _ => true
  | .autonomousRefresh _ => true
  | .refreshOwnershipReturn _ => true
  | .refreshManagement _ _ => true
  | .atsTranslationCompletion _ _ => true
  | .priPageResponse _ _ _ => true
  | .atsInvalidationRequest _ _ _ _ => true
  | .writebackPoison _ _ => true
  | .interruptPageWrite _ => true
  | .intSend _ => true
  | .hostQueueDoorbell _ _ => true
  | .registerWrite _ _ _ => true
  | .rcRegisterRead _ _ => true
  | .spillConfigWrite _ _ _ => true
  | .itOwnWrite _ _ => true
  | .freeListTailWrite _ _ _ => true
  | .cfgTranslationTable _ => true
  | .tableInstall _ => true
  | .cfgPoolDescriptor _ => true
  | .cfgParkClass _ => true
  | .wsLockSet _ => true
  | .wsLockClear _ => true
  | .wsLockEffect _ => true
  | .ldacl => true
  | .ldgrp => true
  | .groupTableInstall => true
  | .mcReq _ => true
  | .retrainStart => true
  | .thermalRetrain _ => true
  | .retrainDone _ => true
  | .multicastTransferStart _ => true
  | .data _ => true
  | .ack _ => true
  | .nack _ => true
  | .launch _ => true
  | .wakePacket _ => true
  | .barrier _ => true
  | .boot _ => true
  | .packageReset => true
  | .freezeSignal => true
  | .idcode => true
  | .freeze => true
  | .status => true
  | .scanout _ => true
  | .bypass scan => !([0x01, 0x02, 0x03, 0x04] : List (BitVec 8)).contains scan.code
  | .getVersion => true
  | .getCapabilities => true
  | .negotiateAlgorithms => true
  | .getDigests => true
  | .getCertificate => true
  | .challenge _ => true
  | .getMeasurements => true
  | .sessionRequest _ => true
  | .powerAlarmEnd _ => true
  | .partitionReset _ => true
  | .heartbeat _ => true
  | .portTrained _ => true
  | .portDown _ => true
  | .flitCrcError _ _ => true
  | .replayRequest _ _ => true
  | .hostQueuePageWrite _ _ _ => true

/-- The fields hold values that the instruction accepts. -/
def Instr.ranges : Instr → Bool
  | .add _ => true
  | .sub _ => true
  | .addi _ => true
  | .li _ => true
  | .addpc _ => true
  | .mul _ => true
  | .mulh _ => true
  | .mulhu _ => true
  | .div _ => true
  | .divu _ => true
  | .rem _ => true
  | .remu _ => true
  | .and _ => true
  | .or _ => true
  | .xor _ => true
  | .andn _ => true
  | .andi _ => true
  | .ori _ => true
  | .xori _ => true
  | .shl _ => true
  | .shr _ => true
  | .sar _ => true
  | .rol _ => true
  | .shli f => immBelow f.imm f.lit 0 64
  | .shri f => immBelow f.imm f.lit 0 64
  | .sari f => immBelow f.imm f.lit 0 64
  | .min _ => true
  | .max _ => true
  | .minu _ => true
  | .maxu _ => true
  | .clz _ => true
  | .ctz _ => true
  | .popc _ => true
  | .bfx _ => true
  | .bfi _ => true
  | .sext f => immBelow f.imm f.lit 1 65
  | .cmpeq f => pairDest f.d
  | .cmpne f => pairDest f.d
  | .cmplt f => pairDest f.d
  | .cmpge f => pairDest f.d
  | .cmpltu f => pairDest f.d
  | .cmpgeu f => pairDest f.d
  | .cmpeqi f => pairDest f.d
  | .cmplti f => pairDest f.d
  | .sel _ => true
  | .gand f => guardDest f.d && guardNum f.a && guardNum f.b
  | .gor f => guardDest f.d && guardNum f.a && guardNum f.b
  | .gxor f => guardDest f.d && guardNum f.a && guardNum f.b
  | .gset f => guardDest f.d
  | .gget f => guardNum f.a
  | .nop => true
  | .br _ => true
  | .call _ => true
  | .jr _ => true
  | .callr _ => true
  | .ret _ => true
  | .loop _ => true
  | .rep f => f.d == 0 || immZero f.imm f.lit
  | .wait _ => true
  | .yield _ => true
  | .stop _ => true
  | .trap _ => true
  | .eret _ => true
  | .mfs _ => true
  | .mts _ => true
  | .ckpt _ => true
  | .brk _ => true
  | .ldb _ => true
  | .ldbu _ => true
  | .ldh _ => true
  | .ldhu _ => true
  | .ldw _ => true
  | .ldwu _ => true
  | .ldd _ => true
  | .stb _ => true
  | .sth _ => true
  | .stw _ => true
  | .std _ => true
  | .ldx _ => true
  | .vld f => vecDest f.d
  | .vst _ => true
  | .vldb f => vecDest f.d
  | .vldx f => vecDest f.d
  | .vstx _ => true
  | .lds f => vecDest f.d && streamNum f.a
  | .sts f => streamNum f.a
  | .stset f => streamNum f.d && streamField f.imm
  | .stget f => streamNum f.a && streamField f.imm
  | .stq f => f.d.toNat < 4
  | .wld f => vecDest f.d
  | .vldt f => vecDest f.d
  | .vldtc f => vecDest f.d
  | .amoadd f => scopeOk f.scope
  | .amomin f => scopeOk f.scope
  | .amomax f => scopeOk f.scope
  | .amoand f => scopeOk f.scope
  | .amoor f => scopeOk f.scope
  | .amoxor f => scopeOk f.scope
  | .amoswp f => scopeOk f.scope
  | .amocas f => scopeOk f.scope && f.d != 31
  | .fence f => f.imm.toNat < 6
  | .fwait _ => true
  | .bind _ => true
  | .acq f => f.d.toNat < 6
  | .rel f => f.d.toNat < 6
  | .prf _ => true
  | .ninv _ => true
  | .vadd f => vecDest f.d
  | .vsub f => vecDest f.d
  | .vmul f => vecDest f.d
  | .vfma f => vecDest f.d
  | .vfms f => vecDest f.d
  | .vmin f => vecDest f.d
  | .vmax f => vecDest f.d
  | .vabs f => vecDest f.d
  | .vneg f => vecDest f.d
  | .vcmpeq f => pairDest f.d
  | .vcmplt f => pairDest f.d
  | .vcmple f => pairDest f.d
  | .vcmpun f => pairDest f.d
  | .vsel f => vecDest f.d
  | .vmov f => vecDest f.d
  | .vbcast f => vecDest f.d
  | .viota f => vecDest f.d
  | .viadd f => vecDest f.d
  | .visub f => vecDest f.d
  | .vimul f => vecDest f.d
  | .viand f => vecDest f.d
  | .vior f => vecDest f.d
  | .vixor f => vecDest f.d
  | .vishl f => vecDest f.d
  | .vishr f => vecDest f.d
  | .visar f => vecDest f.d
  | .vimin f => vecDest f.d
  | .vimax f => vecDest f.d
  | .vicmpeq f => pairDest f.d
  | .vicmplt f => pairDest f.d
  | .vperm f => vecDest f.d
  | .vrot f => vecDest f.d
  | .vext _ => true
  | .vins f => vecDest f.d
  | .vfmai f => vecDest f.d
  | .vcvt f => vecDest f.d && f.fmt.toNat < 9
  | .vcvtx f => vecDest f.d && (f.fmt == 0 || f.fmt == 5) && !f.sat
  | .vpack f => vecDest f.d && f.fmt.toNat < 9
  | .vunpk f => vecDest f.d && f.fmt.toNat < 9 && f.rnd == 0 && !f.sat
  | .vqmx f => vecDest f.d && f.fmt.toNat < 10 && !f.sat
  | .vdqmx f => vecDest f.d && f.fmt.toNat < 10
  | .vq4n f => vecDest f.d && f.fmt == 0 && !f.sat
  | .vdq4n f => vecDest f.d && f.fmt == 0
  | .vamax f => vecDest f.d
  | .vsum f => vecDest f.d
  | .vmaxi f => vecDest f.d
  | .vmini f => vecDest f.d
  | .vlog2 f => vecDest f.d && f.fmt == 0 && f.rnd == 0 && !f.sat
  | .vexp2 f => vecDest f.d && f.fmt == 0 && f.rnd == 0 && !f.sat
  | .vrcp f => vecDest f.d && f.fmt == 0 && f.rnd == 0 && !f.sat
  | .vrsqrt f => vecDest f.d && f.fmt == 0 && f.rnd == 0 && !f.sat
  | .vrng f => vecDest f.d
  | .vlsem f => vecDest f.d
  | .vfxcvt f => vecDest f.d && f.fmt == 0 && f.rnd == 0 && !f.sat
  | .mpush f => streamNum f.a
  | .mswap _ => true
  | .macc f => streamNum f.a
  | .maccp f => streamNum f.a && streamNum f.d && f.d != f.a
  | .mdrain f => f.d.toNat < 4
  | .mdrainp f => f.d.toNat < 4 && streamNum f.b
  | .mclr _ => true
  | .mownAcquire _ => true
  | .mownRelease _ => true
  | .shw f => f.d.toNat < 8 && shapeField f.imm
  | .cpy f => (f.kind.toNat < 2 || f.b != 31)
  | .cpyadd f => (f.kind.toNat < 2 || f.b != 31)
  | .cpymc f => (f.kind.toNat < 2 || f.b != 31)
  | .cpyt f => (f.kind.toNat < 2 || f.b != 31)
  | .cpyg f => f.a.toNat < 28 && (f.kind.toNat < 2 || f.b != 31)
  | .tlrd _ => true
  | .tlwait _ => true
  | .swset _ => true
  | .swwait _ => true
  | .itstart _ => true
  | .itstat _ => true
  | .plan _ => true
  | .lnscfgTemplate _ => true
  | .lnscfgDescriptor _ => true
  | .lnsgo _ => true
  | .gcfg _ => true
  | .gsub _ => true
  | .cpyw f => (f.kind.toNat < 2 || f.b != 31)
  | .spawn _ => true
  | .qpush _ => true
  | .join _ => true
  | .trig _ => true
  | .park _ => true
  | .wake _ => true
  | .futwait _ => true
  | .futset _ => true
  | .futpoison _ => true
  | .talloc f => f.imm.toNat < 64
  | .tfin _ => true
  | .tdrop _ => true
  | .bar f => f.imm.toNat < 6
  | .barr f => f.imm.toNat < 6
  | .barw f => f.imm.toNat < 6
  | .kvapp _ => true
  | .susp _ => true
  | .bundleIssue _ => true
  | .continuationStart _ _ => true
  | .suspensionPoint _ _ => true
  | .heldPushRetry _ => true
  | .barrierEpisodeComplete _ _ _ => true
  | .tileStep _ _ => true
  | .tileStepDone _ _ => true
  | .divisionResult _ _ _ => true
  | .variableLoadResult _ _ _ => true
  | .atomicResult _ _ _ => true
  | .fenceComplete _ _ => true
  | .tileGrant _ _ => true
  | .planResult _ _ _ => true
  | .kvappResult _ _ _ => true
  | .rollback _ _ => true
  | .page _ _ _ => true
  | .heldFault _ _ => true
  | .int _ _ => true
  | .watchdog _ _ => true
  | .preempt _ _ => true
  | .preemptHandlerTimeout _ _ => true
  | .dispatch _ => true
  | .steal _ _ _ => true
  | .preemption _ => true
  | .drainLimit _ _ => true
  | .save _ _ => true
  | .saveResume _ _ => true
  | .kill _ _ => true
  | .teamAbort _ => true
  | .killDrainDone _ => true
  | .gangPlacement _ _ => true
  | .priorityTokenPeriod _ => true
  | .budgetPeriod _ => true
  | .tstall _ _ => true
  | .engineAllocWatchdog _ _ _ => true
  | .copyWalkStart _ _ _ => true
  | .copyComplete _ _ _ => true
  | .copyError _ _ _ _ => true
  | .syncWordArrival _ _ _ _ => true
  | .destinationAccumulate _ _ _ => true
  | .gatherPageLanded _ _ _ => true
  | .slipStart _ => true
  | .slipComplete _ _ => true
  | .slipFailure _ _ _ => true
  | .demotionTimer _ _ => true
  | .demotionMoveDone _ => true
  | .demotionRetry _ => true
  | .wakeWrite _ _ => true
  | .promotionResume _ => true
  | .promotionMoveDone _ => true
  | .gathererDeadline _ => true
  | .powerAlarm _ => true
  | .powerExcessNotify => true
  | .bankFailure _ _ => true
  | .bankRebuildDone _ => true
  | .refreshWindow _ => true
  | .autonomousRefresh _ => true
  | .refreshOwnershipReturn _ => true
  | .refreshManagement _ _ => true
  | .atsTranslationCompletion _ _ => true
  | .priPageResponse _ _ _ => true
  | .atsInvalidationRequest _ _ _ _ => true
  | .writebackPoison _ _ => true
  | .interruptPageWrite _ => true
  | .intSend _ => true
  | .hostQueueDoorbell _ _ => true
  | .registerWrite _ _ _ => true
  | .rcRegisterRead _ _ => true
  | .spillConfigWrite _ _ _ => true
  | .itOwnWrite _ _ => true
  | .freeListTailWrite _ _ _ => true
  | .cfgTranslationTable _ => true
  | .tableInstall _ => true
  | .cfgPoolDescriptor _ => true
  | .cfgParkClass _ => true
  | .wsLockSet _ => true
  | .wsLockClear _ => true
  | .wsLockEffect _ => true
  | .ldacl => true
  | .ldgrp => true
  | .groupTableInstall => true
  | .mcReq _ => true
  | .retrainStart => true
  | .thermalRetrain _ => true
  | .retrainDone _ => true
  | .multicastTransferStart _ => true
  | .data _ => true
  | .ack _ => true
  | .nack _ => true
  | .launch _ => true
  | .wakePacket _ => true
  | .barrier _ => true
  | .boot _ => true
  | .packageReset => true
  | .freezeSignal => true
  | .idcode => true
  | .freeze => true
  | .status => true
  | .scanout _ => true
  | .bypass _ => true
  | .getVersion => true
  | .getCapabilities => true
  | .negotiateAlgorithms => true
  | .getDigests => true
  | .getCertificate => true
  | .challenge _ => true
  | .getMeasurements => true
  | .sessionRequest _ => true
  | .powerAlarmEnd _ => true
  | .partitionReset _ => true
  | .heartbeat _ => true
  | .portTrained _ => true
  | .portDown _ => true
  | .flitCrcError _ _ => true
  | .replayRequest _ _ => true
  | .hostQueuePageWrite _ _ _ => true

/-- A slot that breaks no static field rule. -/
def Instr.wf (i : Instr) : Bool := i.fields && i.ranges

end Sys2Proof
end

