-- ==== Sys2Proof/Decode.lean ====
section
/-! DEFINITION. The decoder of one slot (R30 to R41, R48, R49), total on every word, and the encoder written from the same
tables. The stop bit is no part of an instruction. Decoding refuses an unassigned opcode and a field that the form keeps at
zero by name; the other static rules stand in WellFormed. -/

namespace Sys2Proof

/-- Why a word is no instruction: its opcode is unassigned (R49), or a field that must be zero is not (R33, R41). -/
inductive Reject where
  | opcode (op : Nat)
  | field (op : Nat)
  deriving DecidableEq, Repr

/-- Bits [lo + n - 1 : lo] of a slot word. -/
def bits (w : W32) (lo n : Nat) : BitVec n := BitVec.ofNat n (w.toNat / 2 ^ lo)
/-- Bit k of a slot word. -/
def bit (w : W32) (k : Nat) : Bool := decide (w.toNat / 2 ^ k % 2 = 1)
/-- The stop bit (R30). -/
def stopBit (w : W32) : Bool := bit w 31
/-- The L bit (R30). -/
def litBit (w : W32) : Bool := bit w 21
/-- The opcode OP = class × 64 + function (R31). -/
def opcode (w : W32) : Nat := w.toNat / 2 ^ 22 % 512

/-- The fields of form RRR (R32). -/
def getRRR (w : W32) : RRR :=
  { g := bits w 18 3, d := bits w 13 5, a := bits w 8 5, b := bits w 3 5, ta := bit w 2, tb := bit w 1, h := bit w 0 }
/-- The fields of form RR. -/
def getRR (w : W32) : RR := { g := bits w 18 3, d := bits w 13 5, a := bits w 8 5, ta := bit w 2, tb := bit w 1, h := bit w 0 }
/-- The fields of form RRI; a literal replaces imm8 (R41). -/
def getRRI (w lit : W32) : RRI :=
  { g := bits w 18 3, d := bits w 13 5, a := bits w 8 5, imm := if litBit w then 0 else bits w 0 8,
    lit := if litBit w then some lit else none }
/-- The fields of form RI; a literal replaces imm13. -/
def getRI (w lit : W32) : RI :=
  { g := bits w 18 3, d := bits w 13 5, imm := if litBit w then 0 else bits w 0 13,
    lit := if litBit w then some lit else none }
/-- The fields of form SYS. -/
def getSYS (w : W32) : SYS := { g := bits w 18 3, d := bits w 13 5, num := bits w 0 12 }
/-- The fields of form BR; a literal replaces off18. -/
def getBR (w lit : W32) : BR :=
  { g := bits w 18 3, off := if litBit w then 0 else bits w 0 18, lit := if litBit w then some lit else none }
/-- The field of form N. -/
def getNF (w : W32) : NF := { g := bits w 18 3 }
/-- The fields of form U: fmt is [7:4], rnd is [3] and [1], sat is [0] (R35). -/
def getUF (w : W32) : UF :=
  { g := bits w 18 3, d := bits w 13 5, a := bits w 8 5, fmt := bits w 4 4,
    rnd := BitVec.ofNat 2 (w.toNat / 2 ^ 3 % 2 * 2 + w.toNat / 2 % 2), sat := bit w 0, ta := bit w 2 }
/-- The fields of form M. -/
def getMF (w : W32) : MF :=
  { g := bits w 18 3, d := bits w 13 5, a := bits w 8 5, b := bits w 3 5, ta := bit w 2, tb := bit w 1, z := bit w 0 }
/-- The fields of form CP (R36). -/
def getCP (w : W32) : CP :=
  { g := bits w 18 3, kind := bits w 16 2, sh := bits w 13 3, a := bits w 8 5, b := bits w 3 5, tok := bits w 0 3 }
/-- The fields of form AT (R37). -/
def getAT (w : W32) : AT := { g := bits w 18 3, d := bits w 13 5, a := bits w 8 5, ord := bits w 3 2, scope := bits w 0 3 }

/-- The bits that a form itself keeps at zero: L in the forms without a literal, B in RR, bit 12 in SYS, [17:0] in N,
[7:5] in AT (R32). -/
def noLit (w : W32) : Bool := !litBit w
/-- As `noLit`, with the B field. -/
def zeroRR (w : W32) : Bool := !litBit w && bits w 3 5 == 0
/-- As `noLit`, with bit 12. -/
def zeroSYS (w : W32) : Bool := !litBit w && !bit w 12
/-- As `noLit`, with bits [17:0]. -/
def zeroNF (w : W32) : Bool := !litBit w && bits w 0 18 == 0
/-- As `noLit`, with bits [7:5]. -/
def zeroAT (w : W32) : Bool := !litBit w && bits w 5 3 == 0

/-- The instruction i if its form's zero bits are zero and its own zero fields are (R33). -/
def form (ok : Bool) (op : Nat) (i : Instr) : Except Reject Instr :=
  if ok && i.fields then .ok i else .error (.field op)

/-- The instruction of a slot word, with the literal it owns when its L bit is 1. -/
def decodeSlot (w lit : W32) : Except Reject Instr :=
  match opcode w with
  | 0x000 => form (noLit w) 0x000 (.add (getRRR w))
  | 0x001 => form (noLit w) 0x001 (.sub (getRRR w))
  | 0x002 => form (true) 0x002 (.addi (getRRI w lit))
  | 0x003 => form (true) 0x003 (.li (getRI w lit))
  | 0x004 => form (true) 0x004 (.addpc (getRI w lit))
  | 0x005 => form (noLit w) 0x005 (.mul (getRRR w))
  | 0x006 => form (noLit w) 0x006 (.mulh (getRRR w))
  | 0x007 => form (noLit w) 0x007 (.mulhu (getRRR w))
  | 0x008 => form (noLit w) 0x008 (.div (getRRR w))
  | 0x009 => form (noLit w) 0x009 (.divu (getRRR w))
  | 0x00A => form (noLit w) 0x00A (.rem (getRRR w))
  | 0x00B => form (noLit w) 0x00B (.remu (getRRR w))
  | 0x00C => form (noLit w) 0x00C (.and (getRRR w))
  | 0x00D => form (noLit w) 0x00D (.or (getRRR w))
  | 0x00E => form (noLit w) 0x00E (.xor (getRRR w))
  | 0x00F => form (noLit w) 0x00F (.andn (getRRR w))
  | 0x010 => form (true) 0x010 (.andi (getRRI w lit))
  | 0x011 => form (true) 0x011 (.ori (getRRI w lit))
  | 0x012 => form (true) 0x012 (.xori (getRRI w lit))
  | 0x013 => form (noLit w) 0x013 (.shl (getRRR w))
  | 0x014 => form (noLit w) 0x014 (.shr (getRRR w))
  | 0x015 => form (noLit w) 0x015 (.sar (getRRR w))
  | 0x016 => form (noLit w) 0x016 (.rol (getRRR w))
  | 0x017 => form (true) 0x017 (.shli (getRRI w lit))
  | 0x018 => form (true) 0x018 (.shri (getRRI w lit))
  | 0x019 => form (true) 0x019 (.sari (getRRI w lit))
  | 0x01A => form (noLit w) 0x01A (.min (getRRR w))
  | 0x01B => form (noLit w) 0x01B (.max (getRRR w))
  | 0x01C => form (noLit w) 0x01C (.minu (getRRR w))
  | 0x01D => form (noLit w) 0x01D (.maxu (getRRR w))
  | 0x01E => form (zeroRR w) 0x01E (.clz (getRR w))
  | 0x01F => form (zeroRR w) 0x01F (.ctz (getRR w))
  | 0x020 => form (zeroRR w) 0x020 (.popc (getRR w))
  | 0x021 => form (noLit w) 0x021 (.bfx (getRRR w))
  | 0x022 => form (noLit w) 0x022 (.bfi (getRRR w))
  | 0x023 => form (true) 0x023 (.sext (getRRI w lit))
  | 0x024 => form (noLit w) 0x024 (.cmpeq (getRRR w))
  | 0x025 => form (noLit w) 0x025 (.cmpne (getRRR w))
  | 0x026 => form (noLit w) 0x026 (.cmplt (getRRR w))
  | 0x027 => form (noLit w) 0x027 (.cmpge (getRRR w))
  | 0x028 => form (noLit w) 0x028 (.cmpltu (getRRR w))
  | 0x029 => form (noLit w) 0x029 (.cmpgeu (getRRR w))
  | 0x02A => form (true) 0x02A (.cmpeqi (getRRI w lit))
  | 0x02B => form (true) 0x02B (.cmplti (getRRI w lit))
  | 0x02C => form (noLit w) 0x02C (.sel (getRRR w))
  | 0x02D => form (noLit w) 0x02D (.gand (getRRR w))
  | 0x02E => form (noLit w) 0x02E (.gor (getRRR w))
  | 0x02F => form (noLit w) 0x02F (.gxor (getRRR w))
  | 0x030 => form (zeroRR w) 0x030 (.gset (getRR w))
  | 0x031 => form (zeroRR w) 0x031 (.gget (getRR w))
  | 0x040 => form (bits w 0 22 == 0) 0x040 .nop
  | 0x041 => form (true) 0x041 (.br (getBR w lit))
  | 0x042 => form (true) 0x042 (.call (getBR w lit))
  | 0x043 => form (zeroRR w) 0x043 (.jr (getRR w))
  | 0x044 => form (zeroRR w) 0x044 (.callr (getRR w))
  | 0x045 => form (zeroNF w) 0x045 (.ret (getNF w))
  | 0x046 => form (true) 0x046 (.loop (getRI w lit))
  | 0x047 => form (true) 0x047 (.rep (getRI w lit))
  | 0x048 => form (true) 0x048 (.wait (getRI w lit))
  | 0x049 => form (zeroNF w) 0x049 (.yield (getNF w))
  | 0x04A => form (zeroNF w) 0x04A (.stop (getNF w))
  | 0x04B => form (true) 0x04B (.trap (getRI w lit))
  | 0x04C => form (zeroNF w) 0x04C (.eret (getNF w))
  | 0x04D => form (zeroSYS w) 0x04D (.mfs (getSYS w))
  | 0x04E => form (zeroSYS w) 0x04E (.mts (getSYS w))
  | 0x04F => form (zeroNF w) 0x04F (.ckpt (getNF w))
  | 0x050 => form (zeroNF w) 0x050 (.brk (getNF w))
  | 0x080 => form (true) 0x080 (.ldb (getRRI w lit))
  | 0x081 => form (true) 0x081 (.ldbu (getRRI w lit))
  | 0x082 => form (true) 0x082 (.ldh (getRRI w lit))
  | 0x083 => form (true) 0x083 (.ldhu (getRRI w lit))
  | 0x084 => form (true) 0x084 (.ldw (getRRI w lit))
  | 0x085 => form (true) 0x085 (.ldwu (getRRI w lit))
  | 0x086 => form (true) 0x086 (.ldd (getRRI w lit))
  | 0x087 => form (true) 0x087 (.stb (getRRI w lit))
  | 0x088 => form (true) 0x088 (.sth (getRRI w lit))
  | 0x089 => form (true) 0x089 (.stw (getRRI w lit))
  | 0x08A => form (true) 0x08A (.std (getRRI w lit))
  | 0x08B => form (noLit w) 0x08B (.ldx (getRRR w))
  | 0x08C => form (true) 0x08C (.vld (getRRI w lit))
  | 0x08D => form (true) 0x08D (.vst (getRRI w lit))
  | 0x08E => form (true) 0x08E (.vldb (getRRI w lit))
  | 0x08F => form (noLit w) 0x08F (.vldx (getRRR w))
  | 0x090 => form (noLit w) 0x090 (.vstx (getRRR w))
  | 0x091 => form (zeroRR w) 0x091 (.lds (getRR w))
  | 0x092 => form (zeroRR w) 0x092 (.sts (getRR w))
  | 0x093 => form (true) 0x093 (.stset (getRRI w lit))
  | 0x094 => form (true) 0x094 (.stget (getRRI w lit))
  | 0x095 => form (true) 0x095 (.stq (getRRI w lit))
  | 0x096 => form (true) 0x096 (.wld (getRRI w lit))
  | 0x097 => form (true) 0x097 (.vldt (getRRI w lit))
  | 0x098 => form (true) 0x098 (.vldtc (getRRI w lit))
  | 0x099 => form (zeroAT w) 0x099 (.amoadd (getAT w))
  | 0x09A => form (zeroAT w) 0x09A (.amomin (getAT w))
  | 0x09B => form (zeroAT w) 0x09B (.amomax (getAT w))
  | 0x09C => form (zeroAT w) 0x09C (.amoand (getAT w))
  | 0x09D => form (zeroAT w) 0x09D (.amoor (getAT w))
  | 0x09E => form (zeroAT w) 0x09E (.amoxor (getAT w))
  | 0x09F => form (zeroAT w) 0x09F (.amoswp (getAT w))
  | 0x0A0 => form (zeroAT w) 0x0A0 (.amocas (getAT w))
  | 0x0A1 => form (true) 0x0A1 (.fence (getRI w lit))
  | 0x0A2 => form (zeroRR w) 0x0A2 (.fwait (getRR w))
  | 0x0A3 => form (noLit w) 0x0A3 (.bind (getRRR w))
  | 0x0A4 => form (zeroRR w) 0x0A4 (.acq (getRR w))
  | 0x0A5 => form (zeroRR w) 0x0A5 (.rel (getRR w))
  | 0x0A6 => form (true) 0x0A6 (.prf (getRRI w lit))
  | 0x0A7 => form (true) 0x0A7 (.ninv (getRRI w lit))
  | 0x0C0 => form (noLit w) 0x0C0 (.vadd (getRRR w))
  | 0x0C1 => form (noLit w) 0x0C1 (.vsub (getRRR w))
  | 0x0C2 => form (noLit w) 0x0C2 (.vmul (getRRR w))
  | 0x0C3 => form (noLit w) 0x0C3 (.vfma (getRRR w))
  | 0x0C4 => form (noLit w) 0x0C4 (.vfms (getRRR w))
  | 0x0C5 => form (noLit w) 0x0C5 (.vmin (getRRR w))
  | 0x0C6 => form (noLit w) 0x0C6 (.vmax (getRRR w))
  | 0x0C7 => form (zeroRR w) 0x0C7 (.vabs (getRR w))
  | 0x0C8 => form (zeroRR w) 0x0C8 (.vneg (getRR w))
  | 0x0C9 => form (noLit w) 0x0C9 (.vcmpeq (getRRR w))
  | 0x0CA => form (noLit w) 0x0CA (.vcmplt (getRRR w))
  | 0x0CB => form (noLit w) 0x0CB (.vcmple (getRRR w))
  | 0x0CC => form (noLit w) 0x0CC (.vcmpun (getRRR w))
  | 0x0CD => form (noLit w) 0x0CD (.vsel (getRRR w))
  | 0x0CE => form (zeroRR w) 0x0CE (.vmov (getRR w))
  | 0x0CF => form (zeroRR w) 0x0CF (.vbcast (getRR w))
  | 0x0D0 => form (zeroRR w) 0x0D0 (.viota (getRR w))
  | 0x0D1 => form (noLit w) 0x0D1 (.viadd (getRRR w))
  | 0x0D2 => form (noLit w) 0x0D2 (.visub (getRRR w))
  | 0x0D3 => form (noLit w) 0x0D3 (.vimul (getRRR w))
  | 0x0D4 => form (noLit w) 0x0D4 (.viand (getRRR w))
  | 0x0D5 => form (noLit w) 0x0D5 (.vior (getRRR w))
  | 0x0D6 => form (noLit w) 0x0D6 (.vixor (getRRR w))
  | 0x0D7 => form (noLit w) 0x0D7 (.vishl (getRRR w))
  | 0x0D8 => form (noLit w) 0x0D8 (.vishr (getRRR w))
  | 0x0D9 => form (noLit w) 0x0D9 (.visar (getRRR w))
  | 0x0DA => form (noLit w) 0x0DA (.vimin (getRRR w))
  | 0x0DB => form (noLit w) 0x0DB (.vimax (getRRR w))
  | 0x0DC => form (noLit w) 0x0DC (.vicmpeq (getRRR w))
  | 0x0DD => form (noLit w) 0x0DD (.vicmplt (getRRR w))
  | 0x0DE => form (noLit w) 0x0DE (.vperm (getRRR w))
  | 0x0DF => form (noLit w) 0x0DF (.vrot (getRRR w))
  | 0x0E0 => form (noLit w) 0x0E0 (.vext (getRRR w))
  | 0x0E1 => form (noLit w) 0x0E1 (.vins (getRRR w))
  | 0x0E2 => form (noLit w) 0x0E2 (.vfmai (getRRR w))
  | 0x100 => form (noLit w) 0x100 (.vcvt (getUF w))
  | 0x101 => form (noLit w) 0x101 (.vcvtx (getUF w))
  | 0x102 => form (noLit w) 0x102 (.vpack (getUF w))
  | 0x103 => form (noLit w) 0x103 (.vunpk (getUF w))
  | 0x104 => form (noLit w) 0x104 (.vqmx (getUF w))
  | 0x105 => form (noLit w) 0x105 (.vdqmx (getUF w))
  | 0x106 => form (noLit w) 0x106 (.vq4n (getUF w))
  | 0x107 => form (noLit w) 0x107 (.vdq4n (getUF w))
  | 0x108 => form (zeroRR w) 0x108 (.vamax (getRR w))
  | 0x109 => form (zeroRR w) 0x109 (.vsum (getRR w))
  | 0x10A => form (zeroRR w) 0x10A (.vmaxi (getRR w))
  | 0x10B => form (zeroRR w) 0x10B (.vmini (getRR w))
  | 0x10C => form (noLit w) 0x10C (.vlog2 (getUF w))
  | 0x10D => form (noLit w) 0x10D (.vexp2 (getUF w))
  | 0x10E => form (noLit w) 0x10E (.vrcp (getUF w))
  | 0x10F => form (noLit w) 0x10F (.vrsqrt (getUF w))
  | 0x110 => form (zeroRR w) 0x110 (.vrng (getRR w))
  | 0x111 => form (noLit w) 0x111 (.vlsem (getRRR w))
  | 0x112 => form (noLit w) 0x112 (.vfxcvt (getUF w))
  | 0x140 => form (noLit w) 0x140 (.mpush (getMF w))
  | 0x141 => form (noLit w) 0x141 (.mswap (getMF w))
  | 0x142 => form (noLit w) 0x142 (.macc (getMF w))
  | 0x143 => form (noLit w) 0x143 (.maccp (getMF w))
  | 0x144 => form (noLit w) 0x144 (.mdrain (getMF w))
  | 0x145 => form (noLit w) 0x145 (.mdrainp (getMF w))
  | 0x146 => form (noLit w) 0x146 (.mclr (getMF w))
  | 0x147 => form (noLit w) 0x147 (if bits w 13 5 == 1 then .mownRelease (getMF w) else .mownAcquire (getMF w))
  | 0x180 => form (true) 0x180 (.shw (getRRI w lit))
  | 0x181 => form (noLit w) 0x181 (.cpy (getCP w))
  | 0x182 => form (noLit w) 0x182 (.cpyadd (getCP w))
  | 0x183 => form (noLit w) 0x183 (.cpymc (getCP w))
  | 0x184 => form (noLit w) 0x184 (.cpyt (getCP w))
  | 0x185 => form (noLit w) 0x185 (.cpyg (getCP w))
  | 0x186 => form (zeroRR w) 0x186 (.tlrd (getRR w))
  | 0x187 => form (zeroRR w) 0x187 (.tlwait (getRR w))
  | 0x188 => form (noLit w) 0x188 (.swset (getRRR w))
  | 0x189 => form (zeroRR w) 0x189 (.swwait (getRR w))
  | 0x18A => form (zeroRR w) 0x18A (.itstart (getRR w))
  | 0x18B => form (zeroRR w) 0x18B (.itstat (getRR w))
  | 0x18C => form (noLit w) 0x18C (.plan (getRRR w))
  | 0x18D => form true 0x18D (if bits w 0 8 == 1 then .lnscfgDescriptor (getRRI w lit) else .lnscfgTemplate (getRRI w lit))
  | 0x18E => form (zeroRR w) 0x18E (.lnsgo (getRR w))
  | 0x18F => form (noLit w) 0x18F (.gcfg (getRRR w))
  | 0x190 => form (noLit w) 0x190 (.gsub (getRRR w))
  | 0x191 => form (noLit w) 0x191 (.cpyw (getCP w))
  | 0x1C0 => form (zeroRR w) 0x1C0 (.spawn (getRR w))
  | 0x1C1 => form (noLit w) 0x1C1 (.qpush (getRRR w))
  | 0x1C2 => form (zeroRR w) 0x1C2 (.join (getRR w))
  | 0x1C3 => form (zeroNF w) 0x1C3 (.trig (getNF w))
  | 0x1C4 => form (zeroRR w) 0x1C4 (.park (getRR w))
  | 0x1C5 => form (zeroRR w) 0x1C5 (.wake (getRR w))
  | 0x1C6 => form (zeroRR w) 0x1C6 (.futwait (getRR w))
  | 0x1C7 => form (noLit w) 0x1C7 (.futset (getRRR w))
  | 0x1C8 => form (zeroRR w) 0x1C8 (.futpoison (getRR w))
  | 0x1C9 => form (true) 0x1C9 (.talloc (getRRI w lit))
  | 0x1CA => form (zeroRR w) 0x1CA (.tfin (getRR w))
  | 0x1CB => form (zeroRR w) 0x1CB (.tdrop (getRR w))
  | 0x1CC => form (true) 0x1CC (.bar (getRI w lit))
  | 0x1CD => form (true) 0x1CD (.barr (getRI w lit))
  | 0x1CE => form (true) 0x1CE (.barw (getRI w lit))
  | 0x1CF => form (noLit w) 0x1CF (.kvapp (getRRR w))
  | 0x1D0 => form (zeroNF w) 0x1D0 (.susp (getNF w))
  | op => .error (.opcode op)

/-- Slot word of opcode op, L bit, guard and low 18 bits, S clear (R31). -/
def word (op : Nat) (l : Bool) (g : BitVec 3) (low : Nat) : W32 :=
  BitVec.ofNat 32 (op * 2 ^ 22 + l.toNat * 2 ^ 21 + g.toNat * 2 ^ 18 + low)

/-- Form RRR (R32). -/
def putRRR (op : Nat) (f : RRR) : W32 :=
  word op false f.g (f.d.toNat * 2 ^ 13 + f.a.toNat * 2 ^ 8 + f.b.toNat * 2 ^ 3 + f.ta.toNat * 4 + f.tb.toNat * 2 + f.h.toNat)
/-- Form RR. -/
def putRR (op : Nat) (f : RR) : W32 :=
  word op false f.g (f.d.toNat * 2 ^ 13 + f.a.toNat * 2 ^ 8 + f.ta.toNat * 4 + f.tb.toNat * 2 + f.h.toNat)
/-- Form RRI. -/
def putRRI (op : Nat) (f : RRI) : W32 :=
  word op f.lit.isSome f.g (f.d.toNat * 2 ^ 13 + f.a.toNat * 2 ^ 8 + f.imm.toNat)
/-- Form RI. -/
def putRI (op : Nat) (f : RI) : W32 := word op f.lit.isSome f.g (f.d.toNat * 2 ^ 13 + f.imm.toNat)
/-- Form SYS. -/
def putSYS (op : Nat) (f : SYS) : W32 := word op false f.g (f.d.toNat * 2 ^ 13 + f.num.toNat)
/-- Form BR. -/
def putBR (op : Nat) (f : BR) : W32 := word op f.lit.isSome f.g f.off.toNat
/-- Form N. -/
def putNF (op : Nat) (f : NF) : W32 := word op false f.g 0
/-- Form U. -/
def putUF (op : Nat) (f : UF) : W32 :=
  word op false f.g (f.d.toNat * 2 ^ 13 + f.a.toNat * 2 ^ 8 + f.fmt.toNat * 2 ^ 4 + f.rnd.toNat / 2 * 8 + f.ta.toNat * 4
    + f.rnd.toNat % 2 * 2 + f.sat.toNat)
/-- Form M. -/
def putMF (op : Nat) (f : MF) : W32 :=
  word op false f.g (f.d.toNat * 2 ^ 13 + f.a.toNat * 2 ^ 8 + f.b.toNat * 2 ^ 3 + f.ta.toNat * 4 + f.tb.toNat * 2 + f.z.toNat)
/-- Form CP. -/
def putCP (op : Nat) (f : CP) : W32 :=
  word op false f.g (f.kind.toNat * 2 ^ 16 + f.sh.toNat * 2 ^ 13 + f.a.toNat * 2 ^ 8 + f.b.toNat * 2 ^ 3 + f.tok.toNat)
/-- Form AT. -/
def putAT (op : Nat) (f : AT) : W32 :=
  word op false f.g (f.d.toNat * 2 ^ 13 + f.a.toNat * 2 ^ 8 + f.ord.toNat * 2 ^ 3 + f.scope.toNat)

/-- The words of an instruction: its slot with S clear, then its literal if it owns one; none for a row without an
encoding. -/
def encode : Instr → List W32
  | .add f => [putRRR 0x000 f]
  | .sub f => [putRRR 0x001 f]
  | .addi f => putRRI 0x002 f :: f.lit.toList
  | .li f => putRI 0x003 f :: f.lit.toList
  | .addpc f => putRI 0x004 f :: f.lit.toList
  | .mul f => [putRRR 0x005 f]
  | .mulh f => [putRRR 0x006 f]
  | .mulhu f => [putRRR 0x007 f]
  | .div f => [putRRR 0x008 f]
  | .divu f => [putRRR 0x009 f]
  | .rem f => [putRRR 0x00A f]
  | .remu f => [putRRR 0x00B f]
  | .and f => [putRRR 0x00C f]
  | .or f => [putRRR 0x00D f]
  | .xor f => [putRRR 0x00E f]
  | .andn f => [putRRR 0x00F f]
  | .andi f => putRRI 0x010 f :: f.lit.toList
  | .ori f => putRRI 0x011 f :: f.lit.toList
  | .xori f => putRRI 0x012 f :: f.lit.toList
  | .shl f => [putRRR 0x013 f]
  | .shr f => [putRRR 0x014 f]
  | .sar f => [putRRR 0x015 f]
  | .rol f => [putRRR 0x016 f]
  | .shli f => putRRI 0x017 f :: f.lit.toList
  | .shri f => putRRI 0x018 f :: f.lit.toList
  | .sari f => putRRI 0x019 f :: f.lit.toList
  | .min f => [putRRR 0x01A f]
  | .max f => [putRRR 0x01B f]
  | .minu f => [putRRR 0x01C f]
  | .maxu f => [putRRR 0x01D f]
  | .clz f => [putRR 0x01E f]
  | .ctz f => [putRR 0x01F f]
  | .popc f => [putRR 0x020 f]
  | .bfx f => [putRRR 0x021 f]
  | .bfi f => [putRRR 0x022 f]
  | .sext f => putRRI 0x023 f :: f.lit.toList
  | .cmpeq f => [putRRR 0x024 f]
  | .cmpne f => [putRRR 0x025 f]
  | .cmplt f => [putRRR 0x026 f]
  | .cmpge f => [putRRR 0x027 f]
  | .cmpltu f => [putRRR 0x028 f]
  | .cmpgeu f => [putRRR 0x029 f]
  | .cmpeqi f => putRRI 0x02A f :: f.lit.toList
  | .cmplti f => putRRI 0x02B f :: f.lit.toList
  | .sel f => [putRRR 0x02C f]
  | .gand f => [putRRR 0x02D f]
  | .gor f => [putRRR 0x02E f]
  | .gxor f => [putRRR 0x02F f]
  | .gset f => [putRR 0x030 f]
  | .gget f => [putRR 0x031 f]
  | .nop => [word 0x040 false 0 0]
  | .br f => putBR 0x041 f :: f.lit.toList
  | .call f => putBR 0x042 f :: f.lit.toList
  | .jr f => [putRR 0x043 f]
  | .callr f => [putRR 0x044 f]
  | .ret f => [putNF 0x045 f]
  | .loop f => putRI 0x046 f :: f.lit.toList
  | .rep f => putRI 0x047 f :: f.lit.toList
  | .wait f => [putRI 0x048 f]
  | .yield f => [putNF 0x049 f]
  | .stop f => [putNF 0x04A f]
  | .trap f => putRI 0x04B f :: f.lit.toList
  | .eret f => [putNF 0x04C f]
  | .mfs f => [putSYS 0x04D f]
  | .mts f => [putSYS 0x04E f]
  | .ckpt f => [putNF 0x04F f]
  | .brk f => [putNF 0x050 f]
  | .ldb f => putRRI 0x080 f :: f.lit.toList
  | .ldbu f => putRRI 0x081 f :: f.lit.toList
  | .ldh f => putRRI 0x082 f :: f.lit.toList
  | .ldhu f => putRRI 0x083 f :: f.lit.toList
  | .ldw f => putRRI 0x084 f :: f.lit.toList
  | .ldwu f => putRRI 0x085 f :: f.lit.toList
  | .ldd f => putRRI 0x086 f :: f.lit.toList
  | .stb f => putRRI 0x087 f :: f.lit.toList
  | .sth f => putRRI 0x088 f :: f.lit.toList
  | .stw f => putRRI 0x089 f :: f.lit.toList
  | .std f => putRRI 0x08A f :: f.lit.toList
  | .ldx f => [putRRR 0x08B f]
  | .vld f => putRRI 0x08C f :: f.lit.toList
  | .vst f => putRRI 0x08D f :: f.lit.toList
  | .vldb f => putRRI 0x08E f :: f.lit.toList
  | .vldx f => [putRRR 0x08F f]
  | .vstx f => [putRRR 0x090 f]
  | .lds f => [putRR 0x091 f]
  | .sts f => [putRR 0x092 f]
  | .stset f => [putRRI 0x093 f]
  | .stget f => [putRRI 0x094 f]
  | .stq f => [putRRI 0x095 f]
  | .wld f => putRRI 0x096 f :: f.lit.toList
  | .vldt f => [putRRI 0x097 f]
  | .vldtc f => [putRRI 0x098 f]
  | .amoadd f => [putAT 0x099 f]
  | .amomin f => [putAT 0x09A f]
  | .amomax f => [putAT 0x09B f]
  | .amoand f => [putAT 0x09C f]
  | .amoor f => [putAT 0x09D f]
  | .amoxor f => [putAT 0x09E f]
  | .amoswp f => [putAT 0x09F f]
  | .amocas f => [putAT 0x0A0 f]
  | .fence f => [putRI 0x0A1 f]
  | .fwait f => [putRR 0x0A2 f]
  | .bind f => [putRRR 0x0A3 f]
  | .acq f => [putRR 0x0A4 f]
  | .rel f => [putRR 0x0A5 f]
  | .prf f => putRRI 0x0A6 f :: f.lit.toList
  | .ninv f => putRRI 0x0A7 f :: f.lit.toList
  | .vadd f => [putRRR 0x0C0 f]
  | .vsub f => [putRRR 0x0C1 f]
  | .vmul f => [putRRR 0x0C2 f]
  | .vfma f => [putRRR 0x0C3 f]
  | .vfms f => [putRRR 0x0C4 f]
  | .vmin f => [putRRR 0x0C5 f]
  | .vmax f => [putRRR 0x0C6 f]
  | .vabs f => [putRR 0x0C7 f]
  | .vneg f => [putRR 0x0C8 f]
  | .vcmpeq f => [putRRR 0x0C9 f]
  | .vcmplt f => [putRRR 0x0CA f]
  | .vcmple f => [putRRR 0x0CB f]
  | .vcmpun f => [putRRR 0x0CC f]
  | .vsel f => [putRRR 0x0CD f]
  | .vmov f => [putRR 0x0CE f]
  | .vbcast f => [putRR 0x0CF f]
  | .viota f => [putRR 0x0D0 f]
  | .viadd f => [putRRR 0x0D1 f]
  | .visub f => [putRRR 0x0D2 f]
  | .vimul f => [putRRR 0x0D3 f]
  | .viand f => [putRRR 0x0D4 f]
  | .vior f => [putRRR 0x0D5 f]
  | .vixor f => [putRRR 0x0D6 f]
  | .vishl f => [putRRR 0x0D7 f]
  | .vishr f => [putRRR 0x0D8 f]
  | .visar f => [putRRR 0x0D9 f]
  | .vimin f => [putRRR 0x0DA f]
  | .vimax f => [putRRR 0x0DB f]
  | .vicmpeq f => [putRRR 0x0DC f]
  | .vicmplt f => [putRRR 0x0DD f]
  | .vperm f => [putRRR 0x0DE f]
  | .vrot f => [putRRR 0x0DF f]
  | .vext f => [putRRR 0x0E0 f]
  | .vins f => [putRRR 0x0E1 f]
  | .vfmai f => [putRRR 0x0E2 f]
  | .vcvt f => [putUF 0x100 f]
  | .vcvtx f => [putUF 0x101 f]
  | .vpack f => [putUF 0x102 f]
  | .vunpk f => [putUF 0x103 f]
  | .vqmx f => [putUF 0x104 f]
  | .vdqmx f => [putUF 0x105 f]
  | .vq4n f => [putUF 0x106 f]
  | .vdq4n f => [putUF 0x107 f]
  | .vamax f => [putRR 0x108 f]
  | .vsum f => [putRR 0x109 f]
  | .vmaxi f => [putRR 0x10A f]
  | .vmini f => [putRR 0x10B f]
  | .vlog2 f => [putUF 0x10C f]
  | .vexp2 f => [putUF 0x10D f]
  | .vrcp f => [putUF 0x10E f]
  | .vrsqrt f => [putUF 0x10F f]
  | .vrng f => [putRR 0x110 f]
  | .vlsem f => [putRRR 0x111 f]
  | .vfxcvt f => [putUF 0x112 f]
  | .mpush f => [putMF 0x140 f]
  | .mswap f => [putMF 0x141 f]
  | .macc f => [putMF 0x142 f]
  | .maccp f => [putMF 0x143 f]
  | .mdrain f => [putMF 0x144 f]
  | .mdrainp f => [putMF 0x145 f]
  | .mclr f => [putMF 0x146 f]
  | .mownAcquire f => [putMF 0x147 f]
  | .mownRelease f => [putMF 0x147 f]
  | .shw f => [putRRI 0x180 f]
  | .cpy f => [putCP 0x181 f]
  | .cpyadd f => [putCP 0x182 f]
  | .cpymc f => [putCP 0x183 f]
  | .cpyt f => [putCP 0x184 f]
  | .cpyg f => [putCP 0x185 f]
  | .tlrd f => [putRR 0x186 f]
  | .tlwait f => [putRR 0x187 f]
  | .swset f => [putRRR 0x188 f]
  | .swwait f => [putRR 0x189 f]
  | .itstart f => [putRR 0x18A f]
  | .itstat f => [putRR 0x18B f]
  | .plan f => [putRRR 0x18C f]
  | .lnscfgTemplate f => [putRRI 0x18D f]
  | .lnscfgDescriptor f => [putRRI 0x18D f]
  | .lnsgo f => [putRR 0x18E f]
  | .gcfg f => [putRRR 0x18F f]
  | .gsub f => [putRRR 0x190 f]
  | .cpyw f => [putCP 0x191 f]
  | .spawn f => [putRR 0x1C0 f]
  | .qpush f => [putRRR 0x1C1 f]
  | .join f => [putRR 0x1C2 f]
  | .trig f => [putNF 0x1C3 f]
  | .park f => [putRR 0x1C4 f]
  | .wake f => [putRR 0x1C5 f]
  | .futwait f => [putRR 0x1C6 f]
  | .futset f => [putRRR 0x1C7 f]
  | .futpoison f => [putRR 0x1C8 f]
  | .talloc f => [putRRI 0x1C9 f]
  | .tfin f => [putRR 0x1CA f]
  | .tdrop f => [putRR 0x1CB f]
  | .bar f => [putRI 0x1CC f]
  | .barr f => [putRI 0x1CD f]
  | .barw f => [putRI 0x1CE f]
  | .kvapp f => [putRRR 0x1CF f]
  | .susp f => [putNF 0x1D0 f]
  | .bundleIssue _ => []
  | .continuationStart _ _ => []
  | .suspensionPoint _ _ => []
  | .heldPushRetry _ => []
  | .barrierEpisodeComplete _ _ _ => []
  | .tileStep _ _ => []
  | .tileStepDone _ _ => []
  | .divisionResult _ _ _ => []
  | .variableLoadResult _ _ _ => []
  | .atomicResult _ _ _ => []
  | .fenceComplete _ _ => []
  | .tileGrant _ _ => []
  | .planResult _ _ _ => []
  | .kvappResult _ _ _ => []
  | .rollback _ _ => []
  | .page _ _ _ => []
  | .heldFault _ _ => []
  | .int _ _ => []
  | .watchdog _ _ => []
  | .preempt _ _ => []
  | .preemptHandlerTimeout _ _ => []
  | .dispatch _ => []
  | .steal _ _ _ => []
  | .preemption _ => []
  | .drainLimit _ _ => []
  | .save _ _ => []
  | .saveResume _ _ => []
  | .kill _ _ => []
  | .teamAbort _ => []
  | .killDrainDone _ => []
  | .gangPlacement _ _ => []
  | .priorityTokenPeriod _ => []
  | .budgetPeriod _ => []
  | .tstall _ _ => []
  | .engineAllocWatchdog _ _ _ => []
  | .copyWalkStart _ _ _ => []
  | .copyComplete _ _ _ => []
  | .copyError _ _ _ _ => []
  | .syncWordArrival _ _ _ _ => []
  | .destinationAccumulate _ _ _ => []
  | .gatherPageLanded _ _ _ => []
  | .slipStart _ => []
  | .slipComplete _ _ => []
  | .slipFailure _ _ _ => []
  | .demotionTimer _ _ => []
  | .demotionMoveDone _ => []
  | .demotionRetry _ => []
  | .wakeWrite _ _ => []
  | .promotionResume _ => []
  | .promotionMoveDone _ => []
  | .gathererDeadline _ => []
  | .powerAlarm _ => []
  | .powerExcessNotify => []
  | .bankFailure _ _ => []
  | .bankRebuildDone _ => []
  | .refreshWindow _ => []
  | .autonomousRefresh _ => []
  | .refreshOwnershipReturn _ => []
  | .refreshManagement _ _ => []
  | .atsTranslationCompletion _ _ => []
  | .priPageResponse _ _ _ => []
  | .atsInvalidationRequest _ _ _ _ => []
  | .writebackPoison _ _ => []
  | .interruptPageWrite _ => []
  | .intSend _ => []
  | .hostQueueDoorbell _ _ => []
  | .registerWrite _ _ _ => []
  | .rcRegisterRead _ _ => []
  | .spillConfigWrite _ _ _ => []
  | .itOwnWrite _ _ => []
  | .freeListTailWrite _ _ _ => []
  | .cfgTranslationTable _ => []
  | .tableInstall _ => []
  | .cfgPoolDescriptor _ => []
  | .cfgParkClass _ => []
  | .wsLockSet _ => []
  | .wsLockClear _ => []
  | .wsLockEffect _ => []
  | .ldacl => []
  | .ldgrp => []
  | .groupTableInstall => []
  | .mcReq _ => []
  | .retrainStart => []
  | .thermalRetrain _ => []
  | .retrainDone _ => []
  | .multicastTransferStart _ => []
  | .data _ => []
  | .ack _ => []
  | .nack _ => []
  | .launch _ => []
  | .wakePacket _ => []
  | .barrier _ => []
  | .boot _ => []
  | .packageReset => []
  | .freezeSignal => []
  | .idcode => []
  | .freeze => []
  | .status => []
  | .scanout _ => []
  | .bypass _ => []
  | .getVersion => []
  | .getCapabilities => []
  | .negotiateAlgorithms => []
  | .getDigests => []
  | .getCertificate => []
  | .challenge _ => []
  | .getMeasurements => []
  | .sessionRequest _ => []
  | .powerAlarmEnd _ => []
  | .partitionReset _ => []
  | .heartbeat _ => []
  | .portTrained _ => []
  | .portDown _ => []
  | .flitCrcError _ _ => []
  | .replayRequest _ _ => []
  | .hostQueuePageWrite _ _ _ => []

/-- The instruction that a slot of the table's numbering decodes to: bits [31:0] are the slot word, whose S bit does not
matter; a literal it owns lies above and is zero there unless `nbits` covers it. -/
def decodeTableWord (nbits w : Nat) : Option Instr :=
  match decodeSlot (BitVec.ofNat 32 w) (BitVec.ofNat 32 (if nbits ≤ 32 then 0 else w / 2 ^ 32)) with
  | .ok i => some i
  | .error _ => none

end Sys2Proof
end

