-- ==== Sys2Proof/Config.lean ====
section
/-! DEFINITION. What one implementation fixes and the spec leaves open: constants without a value, so that nothing proved here
rests on one. -/

namespace Sys2Proof.Config

/-- Word `i` of what the device answers to an SPDM request of the given code and nonce: version, capability and algorithm blocks,
certificates, digests and Falcon-1024 signatures over its secret identity (R428, R430). Free value, log 10. -/
opaque spdmWord (code : BitVec 8) (nonce : BitVec 256) (i : Nat) : BitVec 64

/-- Bit `i` of the state chains that SCANOUT shifts out of a package frozen in a state (R432, R433): their order is not in the
spec. Free value, log 10. -/
opaque scanBit {σ : Type} (frozen : σ) (i : Nat) : Bool

/-- 64-bit word `i` of the SHAKE256 digest of some bytes (R430): the spec names the function and does not define it. Free value, log 10. -/
opaque digestWord (bytes : List (BitVec 8)) (i : Nat) : BitVec 64

/-- The bytes of the mask ROM, which measurement 1 digests (R428, R430). Free value, log 10. -/
opaque rom : List (BitVec 8)

/-- The memory controller that serves a 64-byte block of a physical key (R239: where an access lands among modules, channels and ports is not
architectural). Free value, log 41. -/
opaque controllerOf (block : Nat) : Nat

/-- The stack or module that holds a 64-byte block of a physical key, as a number to be taken modulo those of its tier (R239, R409). Free value,
log 41. -/
opaque moduleOf (block : Nat) : Nat

/-- The DRAM bank of a 64-byte block of a physical key (R239, R243). Free value, log 41. -/
opaque dramBank (block : Nat) : Nat

/-- The activation level at which a controller issues a refresh-management command: the runtime programs it through no register of the spec
(R243). Free value, log 41. -/
opaque refreshLevel : Nat

/-- Whether a firmware or configuration image carries a signature that its root key verifies (R428, R429): the keys are not
in the spec. Free value, log 10. -/
opaque signed (image : List (BitVec 8)) : Bool

/-- Microseconds that a PREEMPT handler is allowed (trap_info [63:32]): the spec names no source for it (R371, R382). Free value,
log 16. -/
opaque preemptTime : BitVec 32

end Sys2Proof.Config
end

