-- ==== Sys2Proof/Machine/State.lean ====
section
/-! DEFINITION. The state of the PX-8 as plain data: everything the spec gives the machine, the reasons a
step can stop, and the machine as it leaves reset. Sparse stores are lists in one canonical form. -/

namespace Sys2Proof.Machine

/-- A register file of 2^w registers. -/
abbrev File (w : Nat) (α : Type) := Vector α (2 ^ w)

/-- The bytes of every store, one list of (physical key, byte): strictly rising, no entry equal to the zero byte that an
unlisted key reads as (R28; DESIGN CHOICE for the other stores, log 5). -/
abbrev Memory := List Host.Cell

/-- The trap causes of R371. -/
inductive Cause where
  | ill | bundle | priv | empty | qovf | qunf | align | txlate | page | bounds | gate | dresolve | tcount | tstale
  | tstall | kvpoison | eccue | wslock | array | acl | badrec | swtrap | brk | int | preempt | watchdog
  | other (code : BitVec 8)
  deriving DecidableEq, Repr

/-- What a landing latch writes (R23, the kinds of R370). `guard` is the single guard register of R104. -/
inductive Dest where
  | scalar (r : BitVec 5)
  | guard (r : BitVec 3)
  | pair (r : BitVec 3)
  | vector (r : BitVec 5)
  | stream (r : BitVec 4) (field : Nat)
  | shape (r : BitVec 3) (field : Nat)
  | accRow (r : Nat)
  | shadow (row : BitVec 6) (newfmt : Option Byte)
  | exchange
  | queue (q : BitVec 2)
  | rowClear (first count : Nat)
  | flagsOnly
  deriving DecidableEq, Repr

/-- One result in flight (R23): where it lands, the lanes or bits it writes, its value, the flags it sets
(nv, dz, of, uf, nx from bit 4 down) and the bundles left. -/
structure Latch where
  dest : Dest
  mask : W64
  value : Row
  flags : BitVec 5
  left : Nat
  deriving DecidableEq, Repr

/-- An entry of the loop stack (R108). The addresses are as the instruction computes them, in 64 bits: a body may end at 2^48. -/
structure LoopEntry where
  start : W64
  exit : W64
  left : W64
  deriving DecidableEq, Repr

/-- A weight row of the array (R191): format code, the bytes as read from the stream, and the super-scales of its
Q4N records. A row never written is `none`: +0 codes. -/
structure WeightRow where
  fmt : Byte
  bytes : BitVec 1024
  sup0 : W32
  sup1 : W32
  deriving DecidableEq, Repr

/-- Array state (R191). `swapped` says that buffer 1 is the shadow. -/
structure ArrayState where
  swapped : Bool
  fill : BitVec 6
  pfmt : Option Byte
  bfmt0 : Option Byte
  bfmt1 : Option Byte
  rows0 : List (Nat × WeightRow)
  rows1 : List (Nat × WeightRow)
  deriving DecidableEq, Repr

/-- A loop-nest replay in progress (R340): bases at lnsgo, trip counts and counters of the levels (innermost first),
the template position next to issue, and where execution continues. -/
structure Replay where
  base0 : List W64
  trips : List W32
  counters : List W32
  pos : Nat
  resume : CodeAddr
  deriving DecidableEq, Repr

/-- The items that a rollback restores (R367). `clearing` says that the array was given up while drains were in flight, whose queues
are cleared when the last has landed (R141). -/
structure Regs where
  pc : CodeAddr
  s : File 5 W64
  sFull : BitVec 32
  v : Vector Row 28
  vFull : BitVec 28
  g : File 3 W64
  fpctl : W64
  rngSeed : W64
  rngCtr : W64
  latches : List Latch
  loops : List LoopEntry
  rep : Option Nat
  replay : Option Replay
  st : File 4 (File 3 W64)
  sh : File 3 (File 4 W64)
  bind : File 4 (File 2 W64)
  rows : List Row
  owns : Bool
  arr : ArrayState
  rq : File 2 (List (Option Row))
  clearing : Bool
  triggered : Bool
  arrived : BitVec 6
  deriving DecidableEq, Repr

/-- The binding slots of a context (R250). -/
abbrev Bindings := File 4 (File 2 W64)

/-- A line of the store gate (R368): aligned address, and the bytes its mask holds. -/
structure GateLine where
  addr : W64
  bytes : Vector (Option Byte) 64
  deriving DecidableEq, Repr

/-- The read-modify-writes of R300. -/
inductive AtomOp where
  | add | min | max | and | or | xor | swp | cas
  deriving DecidableEq, Repr

/-- A cause found after the issue of its bundle, with that bundle's address and length (R369, R370). -/
structure Late where
  cause : Cause
  info : W64
  pc : CodeAddr
  words : Nat
  deriving DecidableEq, Repr

/-- A fence in flight (R256): its token, its scope, the first operation that it does not cover, its bundle, its context's count of checkpoints at its
issue, and whether a handler issued it. -/
structure Fence where
  token : Nat
  scope : BitVec 3
  before : Nat
  pc : CodeAddr
  words : Nat
  epoch : Nat
  byHandler : Bool
  deriving DecidableEq, Repr

/-- What a variable-latency operation still has to do (R25). `own` keeps the bytes that the context's own gate held at issue:
a load samples the rest when it completes, and sees none of the context's later stores (R245, R284, R368). `bind` is what the binding
slots held at issue (R302). A `store` waits for the translation of lower-half bytes that stand in the gate (R223, R224). An `atomic`
has performed and brings its old value (R300). -/
inductive OpKind where
  | div (value : W64)
  | load (ea : W64) (bytes : Nat) (signed : Bool) (own : List (Option Byte))
  | vload (lanes : List (Nat × W64)) (own : List (Option Byte))
  | bload (ea : W64) (own : List (Option Byte))
  | wload (lanes : List (Nat × Nat))
  | tile (handle : W64) (unit : Nat) (consume : Bool) (own : List (Option Byte)) (bind : Bindings)
  | store (ea : W64) (bytes : Nat)
  | atomic (ea old : W64)
  | talloc (pool : BitVec 4) (share : BitVec 2) (reads : BitVec 12)
  | plan (desc : W64)
  | kvapp (desc : W64) (count : W64)
  deriving DecidableEq, Repr

/-- Destination of a variable-latency operation. -/
inductive OpDest where
  | none
  | scalar (r : BitVec 5)
  | vector (r : BitVec 5) (mask : W64)
  deriving DecidableEq, Repr

/-- An outstanding variable-latency operation of the bundle at `pc`; `epoch` is the checkpoint count at its issue (R367). -/
structure Op where
  id : Nat
  dest : OpDest
  kind : OpKind
  epoch : Nat
  pc : CodeAddr
  words : Nat
  deriving DecidableEq, Repr

/-- A continuation record as a context took it (R120): its name (R259), its words, the effective scope and the widening (R261), started,
the host queue and slot it came from (R418), its team and its member number in it (R131). -/
structure Record where
  name : W64
  words : File 3 W64
  scope : BitVec 3
  widening : BitVec 3
  started : Bool
  host : Option (QueueId × BitVec 16)
  team : Nat
  member : Nat
  deriving DecidableEq, Repr

/-- A record that the dispatcher has taken: its name, and the host queue and slot it came from (R379, R383, R417). -/
structure Taken where
  name : W64
  host : Option (QueueId × BitVec 16)
  deriving DecidableEq, Repr

/-- Why a context leaves its continuation (R16, R112, R206, R207, R357, R373). -/
inductive Why where
  | stop
  | yield
  | join
  | futwait
  | susp
  | park (desc : W64)
  | ended (status : Byte) (info : W64) (inhandler killed : Bool)
  deriving DecidableEq, Repr

/-- What a context is doing: nothing; issuing bundles; waiting for its operations and copies before it leaves, with the address
that the reason needs (R16, R306); waiting for the array before tile step n, or running it (R145, R147); waiting for the host's
answer to a page request (R224); being saved (R382); held empty for a gang (R385). -/
inductive Phase where
  | idle
  | running
  | suspending (why : Why) (pc : CodeAddr)
  | waitArray (step : Nat)
  | tileStep (step : Nat)
  | waitPage (f : Late)
  | saving (slot : Nat)
  | reserved (gang : Nat)
  deriving DecidableEq, Repr

/-- A context (R12, R116). `hgate` holds the stores of its handler while one runs (R368, R374), `badRows` and `badStore` the errors in
its accumulator rows and in its gate, duplicate set and latches (R378), `moved` that it has come past its checkpoint (R369), `ownFault` what a bundle of
its handler has met after its issue (R372),
`asked` the page request it has outstanding with the answer that came (R224), `paused` what a replay entry found it doing (R374), `commitDue`
that a tile was granted to the interrupted run while its handler ran (R274), `arrayWait` the cycle since when it has been held on the array
(R200), and `arrayKept` that it has released, since its checkpoint, an array that it acquired since then (R200, R367). -/
structure Ctx where
  r : Regs
  ck : Regs
  epoch : Nat
  gate : List GateLine
  hgate : List GateLine
  badRows : List Nat
  badStore : Bool
  moved : Bool
  code : Memory
  ops : List Op
  phase : Phase
  job : Record
  acc : Nat
  scratch : Nat
  seqDesc : Option (List W64)
  fenceCount : Nat
  fences : List Fence
  barWait : Option (BitVec 3 × Nat)
  bubble : Nat
  lastIssue : Nat
  since : Nat
  stepSince : Nat
  eccRetried : Bool
  pendInt : Option (BitVec 32)
  pendWatchdog : Option Nat
  pendPreempt : Option (BitVec 2 × BitVec 32)
  pendFault : Option Late
  ownFault : Option Late
  action : Option (BitVec 2)
  newcomer : Option Taken
  drainFrom : Option Nat
  handler : Bool
  replayEntry : Bool
  held : Option Late
  asked : Option (W64 × Option PriAnswer)
  paused : Option Phase
  commitDue : Bool
  arrayWait : Option Nat
  arrayKept : Bool
  frame : Option Regs
  trapWords : Nat
  trapCause : W64
  trapPc : CodeAddr
  trapInfo : W64
  eretCtl : W64
  eretPc : W64
  k : File 4 W64
  deriving DecidableEq, Repr

/-- Forms of a copy (R314). -/
inductive CopyForm where
  | plain | add | mcast | tile | gather | wstore
  deriving DecidableEq, Repr

/-- A copy in an engine context (R310 to R319). `moved` counts the bytes performed in walk order, `data` the bytes sampled from a queue's
row or a source tile, `entries` the block-table entries of a gather, `tile` the granted tile, `fault` the first page that a gather could not
read (R317), `page` the page that it asked the host for (R224), `retried` that its engine has read again after an uncorrectable error
(R378), `aborted` that its team was killed (R383), `bind` the binding slots at its issue (R251). -/
structure Copy where
  id : Nat
  form : CopyForm
  shape : File 4 W64
  src : W64
  dst : W64
  kind : BitVec 2
  caddr : W64
  tok : BitVec 3
  num : Option Nat
  started : Bool
  waiting : Bool
  moved : Nat
  data : Option (List Byte)
  entries : List W64
  tile : Option W64
  xfer : Option Nat
  since : Nat
  fault : Option (Cause × W64)
  page : Option W64
  retried : Bool
  aborted : Bool
  bind : Bindings
  deriving DecidableEq, Repr

/-- A copy engine context (R305, R306, R320). -/
structure Engine where
  counter : Nat
  issued : Nat
  copies : List Copy
  err : Option (Cause × W64)
  errAt : Option (BitVec 3 × Option Nat × W64)
  accof : Bool
  deriving DecidableEq, Repr

/-- States of a tile (R266). -/
inductive TileState where
  | free | open | published
  deriving DecidableEq, Repr

/-- A tile (R266). -/
structure Tile where
  state : TileState
  gen : BitVec 16
  reads : BitVec 12
  share : BitVec 2
  team : Nat
  deriving DecidableEq, Repr

/-- Who asked a pool for a tile (R270). -/
inductive Asker where
  | ctx (x : CtxId)
  | copy (core : CoreId) (x : CtxId) (id : Nat)
  | slip (it : ItinId) (num : Nat)
  | gather (g : GathererId) (num : Nat)
  | xfer (id : Nat)
  deriving DecidableEq, Repr

/-- A request waiting in a pool's queue (R270); `since` is the cycle it entered (R387). -/
structure PoolReq where
  who : Asker
  share : BitVec 2
  reads : BitVec 12
  team : Nat
  since : Nat
  deriving DecidableEq, Repr

/-- A tile pool (R264): descriptor words, the tiles that differ from FREE at generation 0, the waiting requests. -/
structure Pool where
  desc : File 2 W64
  tiles : List (Nat × Tile)
  waiting : List PoolReq
  deriving DecidableEq, Repr

/-- A near-cache line (R232), most recent first in its core's list: its valid bytes and its dirty mask. -/
structure NearLine where
  addr : W64
  bytes : Vector (Option Byte) 64
  dirty : W64
  deriving DecidableEq, Repr

/-- A save slot's continuation (R382): the context as it was saved, and the slot. -/
structure Saved where
  slot : Nat
  ctx : Ctx
  deriving DecidableEq, Repr

/-- A SAVE in progress: its slot, its deadline and whether a mandatory retrain met it (R412); times in cycles. -/
structure SaveRun where
  ctx : CtxId
  slot : Nat
  deadline : Nat
  late : Bool
  deriving DecidableEq, Repr

/-- A core: its contexts and what they share. `freshAt` and `fresh` are the cycle of the last pushes and the ranks of the entries that
it put at the queue's tail (R126); `stretchWas`, from cycle `stretchWasFrom` on, is the stretch in force
until cycle `stretchFrom` (R150); `arrayFreed` is the cycle in which the array last became free (R200). -/
structure Core where
  ctx : Vector Ctx 4
  engine : Vector Engine 4
  current : CtxId
  queue : List W64
  heldPushes : List W64
  freshAt : Nat
  fresh : List Nat
  saveBase : W64
  spillBase : W64
  spillSize : BitVec 5
  spillHead : BitVec 16
  spillTail : BitVec 16
  spillCount : Nat
  spillRefused : Bool
  corrErr : W64
  dropInt : W64
  saved : List Saved
  saves : List SaveRun
  pools : File 4 Pool
  templates : List (Nat × List W32)
  near : List NearLine
  poisoned : List W64
  narrow : Bool
  degraded : List Nat
  pace : List (ItinId × BitVec 3)
  stretch : BitVec 3
  stretchWas : BitVec 3
  stretchWasFrom : Nat
  stretchFrom : Nat
  out : Bool
  arrayLast : CtxId
  arrayFreed : Nat
  fullSince : Option Nat
  deriving DecidableEq, Repr

/-- An extent entry of a translation table (R220). -/
structure Extent where
  w0 : W64
  w1 : W64
  deriving DecidableEq, Repr

/-- A partition's own registers and state (R388, R391, R394, R395, R406); `failed` holds the T1 frames marked by a failed
promotion (R317), `served` the queue served last at each priority (R379), and the tokens and the slip starts left (none: no limit), the blocks spent
at each memory controller and the bytes spent on each fabric port belong to the period numbered beside them (R379, R386). -/
structure Part where
  table : List Extent
  hbase : W64
  pasid : W64
  tokens : W64
  pushLim : W64
  stealDly : W64
  drainLim : W64
  blkWdog : W64
  allocWdog : W64
  abandoned : W64
  staleWake : W64
  sringBase : W64
  sringCtl : W64
  sringLost : W64
  gangBase : W64
  budMem : W64
  budSlip : W64
  flBase : Vector W64 4
  flCtl : Vector W64 4
  itOwn : W64
  saveLate : W64
  budLugil : W64
  podGrp : W64
  park : File 2 (File 1 W64)
  tokensLeft : Option Nat
  tokenAt : Nat
  slipsLeft : Option Nat
  memSpent : List (Nat × Nat)
  lugilSpent : List (Nat × Nat)
  slipAt : Nat
  loading : Bool
  wsLocked : Bool
  wsWant : Bool
  wsBanks : BitVec 128
  reserving : Option Nat
  served : File 4 (Option QueueId)
  failed : List Nat
  deriving DecidableEq, Repr

/-- A host queue page (R416). -/
structure HostQueue where
  q0 : W64
  q1 : W64
  q2 : W64
  q3 : W64
  q4 : W64
  full : Bool
  deriving DecidableEq, Repr

/-- A completion entry (R418). -/
structure Completion where
  queue : QueueId
  slot : BitVec 16
  status : Byte
  killed : Bool
  info : W64
  deriving DecidableEq, Repr

/-- States of an itinerary (R328). -/
inductive ItinState where
  | idle | running | draining | done | error
  deriving DecidableEq, Repr

/-- A slip in flight (R325, R326); `retried` as for a copy (R378). -/
structure Slip where
  num : Nat
  words : File 2 W64
  waiting : Bool
  tile : Option W64
  moved : Bool
  xfer : Option Nat
  since : Nat
  retried : Bool
  deriving DecidableEq, Repr

/-- An itinerary context (R324 to R328). -/
structure Itin where
  state : ItinState
  cause : Byte
  lateness : Int
  maxLate : Option Int
  desc : File 3 W64
  part : PartId
  core : CoreId
  t0 : Nat
  base : Nat
  started : Nat
  counter : Nat
  issued : Nat
  flight : List Slip
  pace : BitVec 3
  team : Nat
  deriving DecidableEq, Repr

/-- A batch of a gatherer (R335, R336). -/
structure Batch where
  num : Nat
  first : Nat
  words : List W64
  tile : Option W64
  reason : Option (BitVec 2)
  config : File 3 W64
  deriving DecidableEq, Repr

/-- A request gatherer (R334, R335); `config` is none while DISABLED. -/
structure Gatherer where
  config : Option (File 3 W64)
  part : PartId
  batches : List Batch
  opened : Nat
  counter : Nat
  team : Nat
  deriving DecidableEq, Repr

/-- States of a reserve-shelf entry (R329 to R331). -/
inductive ShelfState where
  | free | parked | waking
  deriving DecidableEq, Repr

/-- A demotion in progress: page index, the frame it moves to and that frame's tier. -/
structure Move where
  page : Nat
  frame : Nat
  tier : Nat
  deriving DecidableEq, Repr

/-- A reserve-shelf entry (R329 to R333): the WAKE record, the park descriptor and its table, the class as it stood at the park,
the CRC-32C values kept per page, the timers already expired, the demotion step under way (tier, next page), the page move, the
pages in transit (page, old entry, T1 frame), whether its record was pushed and has not ended, and the demotion steps that found no frame
(tier, page, and when they are tried again). -/
structure Shelf where
  state : ShelfState
  gen : BitVec 16
  words : File 3 W64
  core : CoreId
  part : PartId
  table : W64
  pages : Nat
  cls : File 1 W64
  parkedAt : Nat
  crcs : List (Nat × List W32)
  timers : BitVec 3
  demote : Option (Nat × Nat)
  move : Option Move
  sources : List (Nat × W64 × Nat)
  pushed : Bool
  poison : Nat
  stalled : List (Nat × Nat × Nat)
  deriving DecidableEq, Repr

/-- A member of a killed team: its record, the context it stood on, whether it had triggered, and its trap_pc and trap_info (R383). -/
structure Exit where
  record : Record
  place : Option (CoreId × CtxId)
  triggered : Bool
  pc : CodeAddr
  info : W64
  deriving DecidableEq, Repr

/-- A team (R131, R136): members by context, who departed, arrivals of each member at each scope, episodes completed; once killed,
whether by an abort, the scratch units in quarantine and the members that end with it (R383). -/
structure Team where
  id : Nat
  gang : Option (BitVec 12)
  part : PartId
  members : List (CoreId × CtxId)
  departed : List Nat
  arrivals : List (Nat × Nat × Nat)
  complete : List (Nat × Nat × Nat)
  sent : Nat
  killed : Bool
  abort : Bool
  quarantine : List (CoreId × Nat)
  exits : List Exit
  deriving DecidableEq, Repr

/-- A gang whose members wait at the dispatcher (R385). -/
structure Gang where
  part : PartId
  gangid : BitVec 12
  ticket : Nat
  records : List Taken
  deriving DecidableEq, Repr

/-- Refresh of a die's weight store (R235 to R238, R413); times in cycles. `back` is the cycle of the last return of its ownership. -/
structure Refresh where
  auto : Bool
  origin : Nat
  beat : Nat
  beats : Nat
  due : Option Nat
  back : Option Nat
  deriving DecidableEq, Repr

/-- A transfer of a group in flight (R424, R425); `ctx` is the context whose copy it is, also after that copy has ended with an error. -/
structure Transfer where
  id : Nat
  group : BitVec 8
  part : PartId
  waiting : List Nat
  error : Option (Byte × W64)
  ctx : Option (CoreId × CtxId)
  copy : Option (CoreId × CtxId × Nat)
  slip : Option (ItinId × Nat)
  started : Bool
  deriving DecidableEq, Repr

/-- A received slip (R424): its packets so far; with the last one it waits for a tile. -/
structure Receive where
  id : Nat
  spkg : BitVec 6
  xfer : W32
  packets : List Packet
  deriving DecidableEq, Repr

/-- A retrain (R409 to R412); `since` is the cycle it started in. -/
structure Retrain where
  target : Nat
  rate : BitVec 2
  thermal : Bool
  running : Bool
  since : Nat
  deriving DecidableEq, Repr

/-- What the device sends outside: MSI-X, fabric packets, read-out and attestation answers, MCTP reports, ATS and PRI
requests, register reads, refresh-management commands (R223, R224, R243, R414, R415, R419, R420, R428 to R434). -/
inductive Out where
  | msix (vector : BitVec 11)
  | packet (p : Packet)
  | jtag (bits : List Bool)
  | spdm (code : BitVec 8) (body : List W64)
  | mctp (step : Nat)
  | ats (die : DieId) (pasid : BitVec 20) (page : Nat)
  | pri (core : CoreId) (ctx : CtxId) (pasid : BitVec 20) (va : W64)
  | regRead (block number : Nat) (value : W64)
  | atsDone (die : DieId) (pasid : BitVec 20)
  | replay (port : PortId) (seq : BitVec 12)
  | resend (port : PortId) (seq : BitVec 12)
  | refresh (tier bank : Nat)
  | powerExcess
  deriving DecidableEq, Repr

/-- The package's own registers (R388, R394, R406). -/
structure PkgRegs where
  wsLock : W64
  cfgAddr : W64
  cfgOp : W64
  fabCtl : W64
  aclBase : W64
  grpBase : W64
  fabLoad : W64
  linkUp : W64
  aclDeny : W64
  mcReq : W64
  route : File 6 W64
  deriving DecidableEq, Repr

/-- Where a boot stands (R428). -/
inductive Boot where
  | powerOn
  | ready
  | failed (step : Nat)
  deriving DecidableEq, Repr

/-- The configuration image in force (R429), with its signed bytes. -/
structure Image where
  seq : W64
  qmap : Vector Byte 128
  hrate : Byte
  lrate : Byte
  ports : BitVec 18
  debug : Bool
  plim : BitVec 16
  bytes : List Byte
  deriving DecidableEq, Repr

/-- The verdict of the bundle in flight: nothing yet, its issue is held, a slot raised a cause (`engine`: the one its copy engine
kept, R319), or a join or futwait left the
continuation before the bundle issued (R206). -/
inductive Verdict where
  | ok
  | held
  | raised (c : Cause) (info : W64) (engine : Bool)
  | left
  deriving DecidableEq, Repr

/-- A control transfer or suspension that the bundle in flight makes after its other effects (R19). -/
inductive Transfer1 where
  | none
  | jump (target : CodeAddr) (pops : Bool)
  | loop (start exit n : W64)
  | rep (n : Nat)
  | leave (why : Why)
  deriving DecidableEq, Repr

/-- The bundle in flight (R18, R19): the context that issues it, its address and length, the slot being run, the snapshot its sources
are read from (`pre`, and for memory `mem` and the core's near cache `near`), whether a slot has made memory change (`drained`), the
heads of the result queues it reads, the verdict, the transfer, whether a replay starts after it (R355), and whether it is a beat of a
template operator, which takes no issue slot (R147). Between bundles it keeps what the last bundle left. -/
structure Issue where
  core : CoreId
  ctx : CtxId
  pc : CodeAddr
  words : Nat
  slot : Nat
  pre : Ctx
  mem : Memory
  near : List NearLine
  drained : Bool
  live : Bool
  slots : List Instr
  ckpt : Bool
  pops : BitVec 4
  draws : Nat
  verdict : Verdict
  transfer : Transfer1
  replay : Bool
  oper : Bool
  effects : List (CoreId × CtxId)
  deriving DecidableEq, Repr

/-- Why a step stops the machine. Every cause the spec names is a trap, which is a next state (R369, R372, R373), so
there is no constructor: no meaning of this model answers a fault. -/
inductive Fault where
  deriving DecidableEq, Repr

/-- Why a step is refused. -/
inductive Refusal where
  /-- Raised by an arm of `exec` for an instruction that has no meaning yet, named by its mnemonic. Safe. -/
  | notModelled (mnemonic : String)
  deriving DecidableEq, Repr

/-- An error that strikes from outside (R230, R240, R378): in an aligned 8-byte word of a store, single or uncorrectable; in an
accumulator row; in a context's gate, duplicate set or landing latches; or a fault after which the management core takes a core out (R404). -/
inductive Upset where
  | word (key : Nat) (double : Bool)
  | row (core : CoreId) (ctx : CtxId) (r : Nat)
  | buffer (core : CoreId) (ctx : CtxId)
  | takeOut (core : CoreId)
  deriving DecidableEq, Repr

/-- A page request (R224, R225): who sent it, a context or its copy engine context, and for which address. -/
structure PageAsk where
  core : CoreId
  ctx : CtxId
  engine : Bool
  va : W64
  deriving DecidableEq, Repr

/-- How a completed or counted piece of asynchronous work is observed (R312, R313): by its copy's token and number, by the word that it
was counted into or that it resolved, or as a slip of an itinerary. -/
inductive LandBy where
  | token (core : CoreId) (ctx : CtxId) (tok : BitVec 3) (num : Option Nat)
  | word (key : Nat)
  | slip (it : ItinId) (num : Nat)
  deriving DecidableEq, Repr

/-- Destination bytes that such work has written: the base and the walk of its runs, and the bytes of a run. -/
structure Landed where
  via : LandBy
  dst : W64
  shape : File 4 W64
  run : Nat
  deriving DecidableEq, Repr

/-- The machine. `landed` is what waits acquire (R312). `ecc` lists the words whose check code holds an error, with whether it
is a double one; `upsets` are the errors to come from outside, each with its cycle; `pages` are the page requests of each die that the
host has not answered (R225); `crcs` are the values kept per page key since a demotion (R330). `slotDone` are the cores whose issue slot of
this cycle has passed, `completions` the completion entries that wait for a translation (R416), `outbox` the packets that wait for their
port's next period (R386), `activations` the activations of each DRAM bank since its last refresh-management command (R243), `firmware` the
bytes that the boot measured (R430), and `ir` the JTAG instruction register (R432; IDCODE at reset, PRESUMED, log 98). -/
structure State where
  cores : Vector Core 512
  parts : File 4 Part
  mem : Memory
  poison : List Nat
  ecc : List (Nat × Bool)
  upsets : List (Nat × Upset)
  cycle : Nat
  turn : CoreId
  slotDone : List CoreId
  agenda : List Instr
  nextId : Nat
  issue : Issue
  out : List Out
  pkg : PkgRegs
  acl : List (File 1 W64)
  groups : List (Nat × File 1 W64)
  groupLoad : Option (List (Nat × File 1 W64))
  queues : Vector HostQueue 4096
  completions : List Completion
  replaced : List (PartId × Taken)
  suspended : List Record
  shelf : List (Nat × Shelf)
  itins : Vector Itin 128
  gatherers : Vector Gatherer 512
  tlb : File 3 (List TlbEntry)
  asks : File 3 (List (BitVec 20 × Nat))
  pages : File 3 (List PageAsk)
  crcs : List (Nat × List W32)
  landed : List Landed
  refresh : File 3 Refresh
  activations : List (Nat × Nat)
  retrains : List Retrain
  rates : Vector (BitVec 2) 20
  teams : List Team
  gangs : List Gang
  transfers : List Transfer
  outbox : List Packet
  inbox : List Packet
  receives : List Receive
  barriers : List (PartId × BitVec 12 × BitVec 16 × BitVec 6)
  powerSince : Option Nat
  boot : Boot
  image : Option Image
  firmware : List Byte
  devices : List CxlDevice
  frozen : Bool
  ir : Byte
  bypass : Bool
  auto : Bool
  deriving DecidableEq, Repr

/-! The machine as it leaves reset. -/

/-- The array state of a new owner (R191). -/
def ArrayState.clear : ArrayState :=
  { swapped := false, fill := 0, pfmt := none, bfmt0 := none, bfmt1 := none, rows0 := [], rows1 := [] }

/-- The registers of a context that has started nothing (R15, R117). -/
def Regs.zero : Regs :=
  { pc := 0, s := Vector.replicate _ 0, sFull := BitVec.allOnes 32, v := Vector.replicate _ 0,
    vFull := BitVec.allOnes 28, g := (Vector.replicate (2 ^ 3) 0).set 0 (BitVec.allOnes 64), fpctl := 0, rngSeed := 0,
    rngCtr := 0, latches := [], loops := [], rep := none, replay := none,
    st := Vector.replicate _ (Vector.replicate _ 0), sh := Vector.replicate _ (Vector.replicate _ 0),
    bind := Vector.replicate _ (Vector.replicate _ 0), rows := [], owns := false, arr := ArrayState.clear,
    rq := Vector.replicate _ [], clearing := false, triggered := false, arrived := 0 }

/-- No record. -/
def Record.none : Record :=
  { name := 0, words := Vector.replicate _ 0, scope := 0, widening := 0, started := false, host := Option.none, team := 0,
    member := 0 }

/-- An idle context (R12, R389). -/
def Ctx.zero : Ctx :=
  { r := Regs.zero, ck := Regs.zero, epoch := 0, gate := [], hgate := [], badRows := [], badStore := false, moved := false,
    code := [], ops := [], phase := .idle, job := Record.none,
    acc := 0, scratch := 0, seqDesc := none, fenceCount := 0, fences := [], barWait := none, bubble := 0,
    lastIssue := 0, since := 0, stepSince := 0, eccRetried := false, pendInt := none, pendWatchdog := none,
    pendPreempt := none, pendFault := none, ownFault := none, action := none, newcomer := none, drainFrom := none, handler := false,
    replayEntry := false, held := none, asked := none, paused := none, commitDue := false, arrayWait := none, arrayKept := false, frame := none,
    trapWords := 0, trapCause := 0, trapPc := 0, trapInfo := 0, eretCtl := 0, eretPc := 0, k := Vector.replicate _ 0 }

/-- An engine context at reset (R305, R306, R320). -/
def Engine.zero : Engine :=
  { counter := 0, issued := 0, copies := [], err := none, errAt := none, accof := false }

/-- A core at reset (R127, R264, R388). -/
def Core.zero : Core :=
  { ctx := Vector.replicate _ Ctx.zero, engine := Vector.replicate _ Engine.zero, current := 0, queue := [],
    heldPushes := [], freshAt := 0, fresh := [], saveBase := 0, spillBase := 0, spillSize := 0, spillHead := 0, spillTail := 0, spillCount := 0,
    spillRefused := false, corrErr := 0, dropInt := 0, saved := [], saves := [],
    pools := Vector.replicate _ { desc := Vector.replicate _ 0, tiles := [], waiting := [] }, templates := [], near := [],
    poisoned := [], narrow := false, degraded := [], pace := [], stretch := 0, stretchWas := 0, stretchWasFrom := 0, stretchFrom := 0,
    out := false, arrayLast := 0, arrayFreed := 0, fullSince := none }

/-- A partition at reset (R388, R391): the rings' sizes are 6. -/
def Part.zero : Part :=
  { table := [], hbase := 0, pasid := 0, tokens := 0, pushLim := 0, stealDly := 0, drainLim := 0, blkWdog := 0,
    allocWdog := 0, abandoned := 0, staleWake := 0, sringBase := 0, sringCtl := 0x600000000#64, sringLost := 0,
    gangBase := 0, budMem := 0, budSlip := 0, flBase := Vector.replicate _ 0,
    flCtl := Vector.replicate _ 0x600000000000000#64, itOwn := 0, saveLate := 0, budLugil := 0, podGrp := 0,
    park := Vector.replicate _ (Vector.replicate _ 0), tokensLeft := none, tokenAt := 0,
    slipsLeft := none, memSpent := [], lugilSpent := [], slipAt := 0, loading := false,
    wsLocked := false, wsWant := false, wsBanks := 0, reserving := none, served := Vector.replicate _ none, failed := [] }

/-- A host queue page at reset (R416): size 4. -/
def HostQueue.zero : HostQueue := { q0 := 0, q1 := 4, q2 := 0, q3 := 0, q4 := 0, full := false }

/-- An itinerary at reset (R306, R328). -/
def Itin.zero : Itin :=
  { state := .idle, cause := 0, lateness := 0, maxLate := none, desc := Vector.replicate _ 0, part := 0, core := 0,
    t0 := 0, base := 0, started := 0, counter := 0, issued := 0, flight := [], pace := 0, team := 0 }

/-- A gatherer at reset (R306, R335). -/
def Gatherer.zero : Gatherer := { config := none, part := 0, batches := [], opened := 0, counter := 0, team := 0 }

/-- No bundle. -/
def Issue.none : Issue :=
  { core := 0, ctx := 0, pc := 0, words := 4, slot := 0, pre := Ctx.zero, mem := [], near := [], drained := false, live := false,
    slots := [], ckpt := false, pops := 0, draws := 0, verdict := .ok, transfer := .none, replay := false, oper := false, effects := [] }

/-- The machine right after reset: no image in force, every store and register zero but the sizes of R391 and R416. -/
def State.reset : State :=
  { cores := Vector.replicate _ Core.zero, parts := Vector.replicate _ Part.zero, mem := [], poison := [], ecc := [], upsets := [],
    cycle := 0, turn := 0, slotDone := [], agenda := [], nextId := 1, issue := Issue.none, out := [],
    pkg := { wsLock := 0, cfgAddr := 0, cfgOp := 0, fabCtl := 0, aclBase := 0, grpBase := 0, fabLoad := 0, linkUp := 0,
             aclDeny := 0, mcReq := 0, route := Vector.replicate _ 0 },
    acl := [], groups := [], groupLoad := none, queues := Vector.replicate _ HostQueue.zero, completions := [], replaced := [], suspended := [], shelf := [],
    itins := Vector.replicate _ Itin.zero, gatherers := Vector.replicate _ Gatherer.zero,
    tlb := Vector.replicate _ [], asks := Vector.replicate _ [], pages := Vector.replicate _ [], crcs := [], landed := [],
    refresh := Vector.replicate _ { auto := false, origin := 0, beat := 0, beats := 0, due := none, back := none }, activations := [], retrains := [],
    rates := Vector.replicate _ 0, teams := [], gangs := [], transfers := [], outbox := [], inbox := [], receives := [], barriers := [],
    powerSince := none, boot := .powerOn, image := none, firmware := [], devices := [], frozen := false, ir := 0x01, bypass := false, auto := false }

end Sys2Proof.Machine
end

