-- ==== Sys2Proof/Machine/Memory.lean ====
section
/-! DEFINITION. Register files, little-endian bytes, and the one list of bytes that holds every store. -/

namespace Sys2Proof.Machine

/-- Register r of a file. -/
def rget {w : Nat} {α : Type} (f : File w α) (r : BitVec w) : α := f[r.toNat]'r.isLt
/-- The file with register r replaced. -/
def rset {w : Nat} {α : Type} (f : File w α) (r : BitVec w) (x : α) : File w α := f.set r.toNat x r.isLt

/-- Value of a key in an association list, or the default. -/
def aget {α : Type} (d : α) : List (Nat × α) → Nat → α
  | [], _ => d
  | (k, x) :: t, n => if k = n then x else aget d t n

/-- The association list with the value of key n replaced, keys kept rising. -/
def aset {α : Type} : List (Nat × α) → Nat → α → List (Nat × α)
  | [], n, x => [(n, x)]
  | (k, y) :: t, n, x => if n < k then (n, x) :: (k, y) :: t else if n = k then (n, x) :: t else (k, y) :: aset t n x

/-- The association list without key n. -/
def adel {α : Type} (l : List (Nat × α)) (n : Nat) : List (Nat × α) := l.filter (fun p => p.1 != n)

/-- Value of little-endian bytes (R4). -/
def leNat : List Byte → Nat
  | [] => 0
  | b :: t => b.toNat + 256 * leNat t

/-- The n low bytes of a value, little-endian (R4). -/
def leBytes : Nat → Nat → List Byte
  | 0, _ => []
  | n + 1, v => BitVec.ofNat 8 v :: leBytes n (v / 256)

/-- Little-endian bytes as a word of w bits. -/
def leWord (w : Nat) (bs : List Byte) : BitVec w := BitVec.ofNat w (leNat bs)

/-- The byte a key reads as: zero when nothing is listed (log 5). -/
def Memory.read (m : Memory) (k : Nat) : Byte :=
  match m with
  | [] => 0
  | (a, b) :: t => if a = k then b else Memory.read t k

/-- The n bytes from key k. -/
def Memory.readRun (m : Memory) (k n : Nat) : List Byte := (List.range n).map (fun i => m.read (k + i))

/-- The cells of a run of bytes from key k, zero bytes left out. -/
def cells (k : Nat) : List Byte → Memory
  | [] => []
  | b :: t => if b = 0 then cells (k + 1) t else (k, b) :: cells (k + 1) t

/-- The memory with the bytes from key k written. -/
def Memory.writeRun (m : Memory) (k : Nat) (bs : List Byte) : Memory :=
  m.filter (fun c => decide (c.1 < k)) ++ (cells k bs ++ m.filter (fun c => decide (k + bs.length ≤ c.1)))

/-- The canonical form: keys strictly rising, no zero byte listed. -/
def Memory.wf (m : Memory) : Bool := decide (m.Pairwise (fun a b => a.1 < b.1)) && m.all (fun c => c.2 != 0)

/-! Physical keys: each store has its own range of keys. -/

/-- Key of byte o of the scratchpad of a core (R28). -/
def keyScratch (c : CoreId) (o : Nat) : Nat := c.val * 2 ^ 22 + o
/-- Key of offset o of a die's weight store (R234). -/
def keyWeight (d : DieId) (o : Nat) : Nat := 2 ^ 40 + d.val * 2 ^ 32 + o
/-- Key of physical address pa of tier 1 to 4 on device dev (R239). -/
def keyTier (tier dev pa : Nat) : Nat := 2 ^ 64 * (tier * 256 + dev) + pa
/-- Key of a host virtual address of a process (R223). -/
def keyHost (pasid : BitVec 20) (va : Nat) : Nat := 2 ^ 80 + pasid.toNat * 2 ^ 64 + va

/-! Cores, contexts and partitions. -/

/-- Die of a core. -/
def dieOf (c : CoreId) : DieId := ⟨c.val / 64, by omega⟩
/-- Rank of a core in its quad (R28). -/
def rankOf (c : CoreId) : Nat := c.val % 4
/-- Quad of a core, numbered die × 16 + quad within the die. -/
def quadOf (c : CoreId) : Fin 128 := ⟨c.val / 4, by omega⟩
/-- The core of rank r in the quad of c. -/
def peerOf (c : CoreId) (r : Fin 4) : CoreId := ⟨c.val / 4 * 4 + r.val, by omega⟩

/-- Core c. -/
def State.core (s : State) (c : CoreId) : Core := s.cores[c.val]'c.isLt
/-- The state with core c replaced. -/
def State.setCore (s : State) (c : CoreId) (k : Core) : State := { s with cores := s.cores.set c.val k c.isLt }
/-- Context x of core c. -/
def State.ctx (s : State) (c : CoreId) (x : CtxId) : Ctx := (s.core c).ctx[x.val]'x.isLt
/-- The core with context x replaced. -/
def Core.setCtx (k : Core) (x : CtxId) (y : Ctx) : Core := { k with ctx := k.ctx.set x.val y x.isLt }
/-- The state with context x of core c replaced. -/
def State.setCtx (s : State) (c : CoreId) (x : CtxId) (y : Ctx) : State := s.setCore c ((s.core c).setCtx x y)
/-- Copy engine context x of core c (R305). -/
def State.engine (s : State) (c : CoreId) (x : CtxId) : Engine := (s.core c).engine[x.val]'x.isLt
/-- The state with that engine context replaced. -/
def State.setEngine (s : State) (c : CoreId) (x : CtxId) (e : Engine) : State :=
  s.setCore c { s.core c with engine := (s.core c).engine.set x.val e x.isLt }
/-- Partition p. -/
def State.part (s : State) (p : PartId) : Part := s.parts[p.val]'p.isLt
/-- The state with partition p replaced. -/
def State.setPart (s : State) (p : PartId) (x : Part) : State := { s with parts := s.parts.set p.val x p.isLt }

/-- Partition of a quad under the image in force (R404, R429); a quad of no partition runs nothing. -/
def State.partOfQuad (s : State) (q : Fin 128) : Option PartId :=
  match s.image with
  | none => none
  | some im => let b := im.qmap[q.val]'q.isLt
    if h : b.toNat < 16 then some ⟨b.toNat, h⟩ else none
/-- Partition of a core. -/
def State.partOf (s : State) (c : CoreId) : Option PartId := s.partOfQuad (quadOf c)
/-- Partition of a core, 0 where it has none (no context of such a core runs). -/
def State.partIdOf (s : State) (c : CoreId) : PartId := (s.partOf c).getD 0

/-- Nanoseconds since reset (R5, R114). -/
def State.now (s : State) : Nat := s.cycle / 2

/-- The context that issues the bundle in flight. -/
def State.me (s : State) : Ctx := s.ctx s.issue.core s.issue.ctx
/-- The state with the issuing context replaced. -/
def State.setMe (s : State) (y : Ctx) : State := s.setCtx s.issue.core s.issue.ctx y
/-- The state with the issuing context's registers replaced. -/
def State.setRegs (s : State) (r : Regs) : State := s.setMe { s.me with r := r }
/-- The snapshot that the slots of the bundle in flight read their sources from (R18). -/
def State.src (s : State) : Regs := s.issue.pre.r

end Sys2Proof.Machine
end

