-- ==== Sys2Proof/Machine/Translate.lean ====
section
/-! DEFINITION. The address classes and the locked translation table (R217 to R222, R228): where an address goes, and why an
access is refused. -/

namespace Sys2Proof.Machine

/-- Bits [lo + n - 1 : lo] of a 64-bit word, as a number. -/
def wbits (w : W64) (lo n : Nat) : Nat := w.toNat / 2 ^ lo % 2 ^ n
/-- Bit k of a 64-bit word. -/
def wbit (w : W64) (k : Nat) : Bool := decide (w.toNat / 2 ^ k % 2 = 1)
/-- The word with bits [lo + n - 1 : lo] replaced by the low n bits of x. -/
def wset (w : W64) (lo n x : Nat) : W64 := BitVec.ofNat 64 (w.toNat - wbits w lo n * 2 ^ lo + x % 2 ^ n * 2 ^ lo)

/-- log2 of an extent's size: five bits for 16 to 38, so that 0 to 6 stand for 32 to 38 (R220; DEDUCED, log 15). -/
def Extent.size (e : Extent) : Nat := if wbits e.w0 0 5 < 7 then wbits e.w0 0 5 + 32 else wbits e.w0 0 5
/-- Size of an extent in bytes. -/
def Extent.bytes (e : Extent) : Nat := 2 ^ e.size
/-- An entry that is valid. -/
def Extent.valid (e : Extent) : Bool := wbit e.w0 5
/-- Tier of an extent. -/
def Extent.tier (e : Extent) : Nat := wbits e.w0 6 3
/-- Loads permitted. -/
def Extent.r (e : Extent) : Bool := wbit e.w0 9
/-- Stores permitted. -/
def Extent.w (e : Extent) : Bool := wbit e.w0 10
/-- Instruction fetch permitted. -/
def Extent.x (e : Extent) : Bool := wbit e.w0 11
/-- Accesses bypass the near cache. -/
def Extent.nc (e : Extent) : Bool := wbit e.w0 12
/-- Virtual base, without bit 63. -/
def Extent.vbase (e : Extent) : Nat := wbits e.w0 16 32 * 2 ^ 16
/-- Physical base in the tier. -/
def Extent.pbase (e : Extent) : Nat := wbits e.w1 16 32 * 2 ^ 16
/-- CXL device. -/
def Extent.dev (e : Extent) : Nat := wbits e.w1 48 8

/-- Whether an extent holds the 48-bit address a. -/
def Extent.holds (e : Extent) (a : Nat) : Bool := e.valid && decide (e.vbase ≤ a) && decide (a < e.vbase + e.bytes)

/-- The extent that an upper-half address hits (R219). -/
def extentAt (table : List Extent) (va : W64) : Option Extent := table.find? (fun e => e.holds (wbits va 0 48))

/-- How an access uses the bytes it names (R220, R221, R304); `read` and `write` are an engine's, which reach T4 too (R239). -/
inductive Access where
  | load | store | atomic | fetch | peek | read | write
  deriving DecidableEq, Repr

/-- Where a byte lies. -/
inductive Place where
  | scratch (core : CoreId) (off : Nat)
  | host (pasid : BitVec 20) (va : Nat)
  | tier (e : Extent) (pa : Nat)
  deriving DecidableEq, Repr

/-- Physical key of a place. -/
def Place.key : Place → Nat
  | .scratch c o => keyScratch c o
  | .host p a => keyHost p a
  | .tier e pa => keyTier e.tier e.dev pa

/-- The class of R217: 0 scratchpad, 1 lower half, 2 upper half. -/
def classOf (va : W64) : Nat := if va.toNat < 2 ^ 24 then 0 else if va.toNat < 2 ^ 63 then 1 else 2

/-- Permission of an access to an extent (R220). -/
def Extent.allows (e : Extent) : Access → Bool
  | .load => e.r
  | .store => e.w
  | .atomic => e.r && e.w
  | .fetch => e.x
  | .peek => true
  | .read => e.r
  | .write => e.w

/-- An engine's access. -/
def Access.engine : Access → Bool
  | .read | .write => true
  | _ => false

/-- The scratchpad of the rank that an address names, seen from core c (R28, R228). -/
def scratchCore (c : CoreId) (va : W64) : CoreId := peerOf c ⟨wbits va 22 2, by unfold wbits; omega⟩

/-- Where one byte lies for an access by partition p from core c, or the lowest reason of R221 that it meets by itself. -/
def placeByteIn (s : State) (p : PartId) (c : CoreId) (acc : Access) (va : W64) : Except Nat Place :=
  if classOf va = 0 then
    let t := scratchCore c va
    if t ≠ c ∧ ((s.core t).out ∨ (s.partOf t).isNone) then .error 6 else .ok (.scratch t (wbits va 0 22))
  else if classOf va = 1 then .ok (.host (BitVec.ofNat 20 (s.part p).pasid.toNat) va.toNat)
  else if wbits va 48 15 ≠ 0 then .error 2
  else match extentAt (s.part p).table va with
    | none => .error 1
    | some e =>
      if ¬ e.allows acc then .error 3
      else if e.tier = 4 ∧ ¬ acc.engine then .error 5
      else .ok (.tier e (e.pbase + (wbits va 0 48 - e.vbase)))

/-- As `placeByteIn`, for a context of core c. -/
def placeByte (s : State) (c : CoreId) (acc : Access) (va : W64) : Except Nat Place := placeByteIn s (s.partIdOf c) c acc va

/-- The address class of a byte, with the rank or the extent that it lies in (R28, R217, R220). -/
def zone (s : State) (p : PartId) (va : W64) : Nat × Nat :=
  (classOf va, match classOf va with
    | 0 => wbits va 22 2
    | 1 => 0
    | _ => match extentAt (s.part p).table va with
      | some e => e.vbase + 1
      | none => 0)

/-- The reason of a byte that has no place; 7 with a place. -/
def placeReason : Except Nat Place → Nat
  | .error r => r
  | .ok _ => 7

/-- Where the n contiguous bytes from va lie for partition p and core c, or the lowest reason of R221 that the access meets; its
bytes must lie in one rank's scratchpad, in the lower half, or in one extent (R283). -/
def placeIn (s : State) (p : PartId) (c : CoreId) (acc : Access) (va : W64) (n : Nat) : Except Nat Place :=
  let last := va + BitVec.ofNat 64 (n - 1)
  let x := placeByteIn s p c acc va
  let r := min (min (placeReason x) (placeReason (placeByteIn s p c acc last))) (if zone s p va = zone s p last then 7 else 4)
  if r < 7 then .error r else x

/-- As `placeIn`, for a context of core c. -/
def place (s : State) (c : CoreId) (acc : Access) (va : W64) (n : Nat) : Except Nat Place := placeIn s (s.partIdOf c) c acc va n

/-- trap_info of TXLATE (R221). -/
def txInfo (va : W64) (reason : Nat) : W64 := BitVec.ofNat 64 (va.toNat / 8 * 8 + reason)

/-! The lower half (R223 to R225). -/

/-- The IOTLB entry of a die that covers a lower-half address of a process (R223). -/
def tlbFind (s : State) (d : DieId) (pasid : BitVec 20) (va : Nat) : Option TlbEntry :=
  (rget s.tlb (BitVec.ofNat 3 d.val)).find? (fun t =>
    t.pasid == pasid && decide (t.page ≤ va / 4096) && decide (va / 4096 < t.page + t.count))

/-- PASID of a partition (R223, R388). -/
def Part.pid (p : Part) : BitVec 20 := BitVec.ofNat 20 p.pasid.toNat

/-- The device tells the outside something. -/
def State.emit (s : State) (o : Out) : State := { s with out := s.out ++ [o] }

/-- A translation that a die has not got is asked of the host, once; at most 256 requests of a die are outstanding
(R223). -/
def askHost (s : State) (d : DieId) (pasid : BitVec 20) (va : Nat) : State :=
  let i : BitVec 3 := BitVec.ofNat 3 d.val
  if (tlbFind s d pasid va).isSome || (rget s.asks i).contains (pasid, va / 4096) || 256 ≤ (rget s.asks i).length then s
  else { s with asks := rset s.asks i (rget s.asks i ++ [(pasid, va / 4096)]) }.emit (.ats d pasid (va / 4096))

/-- A page request goes to the host (R224), unless this party has it outstanding; none while the die has 512 outstanding (R225). -/
def askPage (s : State) (c : CoreId) (x : CtxId) (engine : Bool) (va : W64) : Option State :=
  let i : BitVec 3 := BitVec.ofNat 3 (dieOf c).val
  let ask : PageAsk := { core := c, ctx := x, engine := engine, va := va }
  if (rget s.pages i).contains ask then some s
  else if 512 ≤ (rget s.pages i).length then none
  else some ({ s with pages := rset s.pages i (rget s.pages i ++ [ask]) }.emit (.pri c x (s.part (s.partIdOf c)).pid va))

/-- What stands before an access to a place: nothing, a lower-half translation that the die has not got, or the host's refusal. -/
inductive Reach where
  | ready
  | missing
  | refused
  deriving DecidableEq, Repr

/-- What stands before an access to a place by die d (R223, R224). -/
def reach (s : State) (d : DieId) (p : Place) (write : Bool) : Reach :=
  match p with
  | .host pid va => match tlbFind s d pid va with
    | none => .missing
    | some t => if (if write then t.write else t.read) then .ready else .refused
  | _ => .ready

/-- The translation that an access to a place by die d lacks is asked for. -/
def askPlace (s : State) (d : DieId) (p : Place) : State :=
  match p with
  | .host pid va => askHost s d pid va
  | _ => s

/-- The first byte of each page among n bytes from a lower-half address. -/
def hostPages (va n : Nat) : List Nat :=
  ((List.range (n / 4096 + 2)).map (fun i => if i = 0 then va else (va / 4096 + i) * 4096)).filter (· < va + n)

/-- Why an access cannot go on yet: it waits for translations, or the host does not permit it. -/
inductive Bar where
  | ask (s : State)
  | page (va : W64)

/-- What bars the n bytes at offset i of an access to a place (R223, R224). -/
def engineBar (s : State) (c : CoreId) (p : Place) (i n : Nat) (write : Bool) : Option Bar :=
  match p with
  | .host pid va =>
    let find := tlbFind s (dieOf c) pid
    let pages := hostPages (va + i) n
    match pages.find? (fun a => (find a).any (fun t => !(if write then t.write else t.read))) with
    | some a => some (.page (BitVec.ofNat 64 a))
    | none =>
      let missing := pages.filter (fun a => (find a).isNone)
      if missing.isEmpty then none else some (.ask (missing.foldl (fun s a => askHost s (dieOf c) pid a) s))
  | _ => none

end Sys2Proof.Machine
end

