-- ==== Sys2Proof/Machine/Budget.lean ====
section
/-! DEFINITION. Budgets of a partition and the requests to the memory controllers and fabric ports (R243, R379, R386, R407, R409, R420). -/

namespace Sys2Proof.Machine

/-- A register's allowance; 0 is no limit. -/
def allowance (w : W64) : Option Nat := if w = 0 then none else some w.toNat

/-- The partition with the allowances of the present periods: 100 µs for tokens, 1 µs for slip starts, memory blocks and fabric bytes (log 6). -/
def refreshBudgets (s : State) (p : PartId) : State :=
  let k := s.part p
  let k := if k.tokenAt = s.cycle / 200000 + 1 then k else
    { k with tokenAt := s.cycle / 200000 + 1, tokensLeft := allowance k.tokens }
  let k := if k.slipAt = s.cycle / 2000 + 1 then k else
    { k with slipAt := s.cycle / 2000 + 1, slipsLeft := allowance k.budSlip, memSpent := [], lugilSpent := [] }
  s.setPart p k

/-- Blocks of 64 bytes, by their numbers, that n bytes from a key take at a T1 or T2 controller. -/
def keyBlocks (k n : Nat) : List Nat :=
  if k < keyTier 1 0 0 ∨ keyTier 3 0 0 ≤ k then [] else (List.range ((k % 64 + n + 63) / 64)).map (fun i => k / 64 + i)

/-- As `keyBlocks`, at a place. -/
def Place.blocks (p : Place) (n : Nat) : List Nat := keyBlocks p.key n

/-- The HBM4 stack or LPDDR-6 module that holds a block, numbered as mc_req numbers targets (R411). -/
def targetOf (b : Nat) : Option Nat :=
  let tier := b * 64 / 2 ^ 72
  if tier = 1 then some (Config.moduleOf b % 4) else if tier = 2 then some (4 + Config.moduleOf b % 16) else none

/-- Cycles that a retrain lasts at most: 2 ms (R409). -/
def retrainLimit : Nat := 4000000

/-- A retrain stops the accesses to a target (R409). -/
def stopped (s : State) (target : Nat) : Bool :=
  s.retrains.any (fun r => r.running && decide (s.cycle - r.since ≤ retrainLimit) && r.target == target)

/-- A block lies in a stack or module that retrains. -/
def stalled (s : State) (b : Nat) : Bool := !s.retrains.isEmpty && (targetOf b).any (stopped s)

/-- The partition may ask T1 and T2 for some blocks now: an allowance that is not exhausted suffices at each controller (R386), and none of
their stacks or modules retrains (R409). -/
def memReady (s : State) (p : PartId) (bs : List Nat) : Bool :=
  bs.isEmpty || (!bs.any (stalled s) && (let k := (refreshBudgets s p).part p
    (allowance k.budMem).all (fun n => bs.all (fun b => decide (aget 0 k.memSpent (Config.controllerOf b) < n)))))

/-- The blocks asked for: they are spent at their controllers, and activate their banks whichever die asks (R243, R407). -/
def spendMem (s : State) (p : PartId) (bs : List Nat) : State :=
  if bs.isEmpty then s
  else
    let s := { s with activations := bs.foldl (fun l b => aset l (Config.dramBank b) (aget 0 l (Config.dramBank b) + 1)) s.activations }
    if (s.part p).budMem = 0 then s
    else
      let s := refreshBudgets s p
      let k := s.part p
      s.setPart p { k with
        memSpent := bs.foldl (fun l b => aset l (Config.controllerOf b) (aget 0 l (Config.controllerOf b) + 1)) k.memSpent }

/-- The partition may send to a fabric port in this period. -/
def lugilReady (s : State) (p : PartId) (port : Nat) : Bool :=
  let k := (refreshBudgets s p).part p
  (allowance k.budLugil).all (fun n => decide (aget 0 k.lugilSpent port < n))

/-- Bytes sent to a fabric port. -/
def spendLugil (s : State) (p : PartId) (port n : Nat) : State :=
  if (s.part p).budLugil = 0 then s
  else
    let s := refreshBudgets s p
    let k := s.part p
    s.setPart p { k with lugilSpent := aset k.lugilSpent port (aget 0 k.lugilSpent port + n) }

end Sys2Proof.Machine
end

