-- ==== Sys2Proof/Machine/Near.lean ====
section
/-! DEFINITION. The near cache and the store gate (R232, R233, R252, R368): how a context reads a byte, and how its stores
reach memory. -/

namespace Sys2Proof.Machine

/-- The 64-byte line of an address. -/
def lineOf (va : W64) : W64 := BitVec.ofNat 64 (va.toNat / 64 * 64)

/-- The bytes a line holds, by position. -/
def lineByte (bs : Vector (Option Byte) 64) (i : Nat) : Option Byte := (bs[i]?).join

/-- No byte. -/
def noBytes : Vector (Option Byte) 64 := Vector.replicate 64 none

/-- Bytes of `new` over those of `old`. -/
def mergeBytes (old new : Vector (Option Byte) 64) : Vector (Option Byte) 64 :=
  Vector.ofFn (fun i : Fin 64 => (new[i.val]).or (old[i.val]))

/-- A line with the byte at position i set. -/
def putByte (bs : Vector (Option Byte) 64) (i : Nat) (b : Byte) : Vector (Option Byte) 64 := bs.setIfInBounds i (some b)

/-- Memory with the bytes that a line holds written from key k. -/
def Memory.merge (m : Memory) (k : Nat) (bs : List (Option Byte)) : Memory :=
  m.writeRun k (List.zipWith (fun o b => o.getD b) bs (m.readRun k bs.length))

/-- The words whose check code is still wrong after a write from key k: every write renews the codes of the words that it covers whole
(R230; log 36). -/
def eccAfter (ecc : List (Nat × Bool)) (k : Nat) (bs : List (Option Byte)) : List (Nat × Bool) :=
  ecc.filter (fun e => !(decide (k ≤ e.1) && decide (e.1 + 8 ≤ k + bs.length) && ((bs.drop (e.1 - k)).take 8).all Option.isSome))

/-- The bytes that a line holds written from key k. -/
def State.mergeAt (s : State) (k : Nat) (bs : List (Option Byte)) : State :=
  { s with mem := Memory.merge s.mem k bs, ecc := eccAfter s.ecc k bs }

/-- Bytes written from key k. -/
def State.writeAt (s : State) (k : Nat) (bs : List Byte) : State :=
  { s with mem := s.mem.writeRun k bs, ecc := eccAfter s.ecc k (bs.map some) }

/-! Check codes (R226, R230, R231, R234, R378). An entry of `ecc` is the key of an aligned 8-byte word whose code holds an error, and
whether it is a double one. -/

/-- A key of a scratchpad. -/
def inScratch (k : Nat) : Bool := decide (k < 2 ^ 31)
/-- Core whose scratchpad a key lies in. -/
def keyCore (k : Nat) : CoreId := Fin.ofNat 512 (k / 2 ^ 22)
/-- Data bank of a scratchpad key: o[10:6] (R226). -/
def bankOf (k : Nat) : Nat := k / 64 % 32
/-- Row of a scratchpad key, o[21:11] (R226), with its core. -/
def rowOf (k : Nat) : Nat := k / 2 ^ 11
/-- 8-byte code group of a scratchpad key within its bank word (R230). -/
def codeGroup (k : Nat) : Nat := k % 64 / 8

/-- The word lies in a failed bank, whose reads are rebuilt from the others (R231): an error in it is not read. -/
def carried (s : State) (w : Nat) : Bool := inScratch w && (s.core (keyCore w)).degraded.contains (bankOf w)

/-- Unknown symbols in the byte lanes of a word's code group over its row: those of failed banks and of words in erasure (R230, R231). -/
def unknown (s : State) (w : Nat) : Nat :=
  (s.ecc.filter (fun e => e.2 && rowOf e.1 == rowOf w && codeGroup e.1 == codeGroup w && !carried s e.1)).length
    + (s.core (keyCore w)).degraded.length

/-- Errors that a read of the n bytes from key k finds in banks that are not carried. -/
def eccAmong (s : State) (k n : Nat) : List (Nat × Bool) :=
  s.ecc.filter (fun e => decide (k < e.1 + 8) && decide (e.1 < k + n) && !carried s e.1)

/-- Whether the row of a scratchpad word can be rebuilt: no byte lane of it has more than two unknown symbols (R230, R231). A word of
another store has no such row (R234). -/
def rebuildable (s : State) (w : Nat) : Bool :=
  inScratch w && (List.range 8).all (fun g => decide (unknown s (w / 64 * 64 + 8 * g) ≤ 2))

/-- Single errors among the n bytes that core c or an engine reads from key k are corrected in the bank, and counted by the core of the
scratchpad, or by core c (R230, R378). -/
def eccCorrect (s : State) (c : CoreId) (k n : Nat) : State :=
  ((eccAmong s k n).filter (fun e => !e.2)).foldl (fun t e =>
    let d := if inScratch e.1 then keyCore e.1 else c
    State.setCore { t with ecc := t.ecc.filter (fun q => q != e) } d { t.core d with corrErr := (t.core d).corrErr + 1 }) s

/-- The row of a word rebuilt from the code and written back, when it can be (R230). -/
def rebuildRow (s : State) (w : Nat) : State :=
  if rebuildable s w then { s with ecc := s.ecc.filter (fun e => !(e.2 && rowOf e.1 == rowOf w)) } else s

/-- The first word among the n bytes from key k that cannot be read as it stands: one in erasure (R230), or one of a failed bank whose
row has too many unknown symbols to rebuild it (R231). -/
def doubleAt (s : State) (k n : Nat) : Option Nat :=
  if s.ecc.isEmpty then none
  else (((eccAmong s k n).find? (fun e => e.2)).map (fun e => e.1)).or
    (((List.range (n / 8 + 2)).map (fun i => k / 8 * 8 + 8 * i)).find?
      (fun w => decide (w < k + n) && carried s w && decide (2 < unknown s w)))

/-- A read of the n bytes from key k is uncorrectable: poisoned lines and words in erasure (R230, R240). -/
def uncorrectable (s : State) (k n : Nat) : Bool :=
  s.poison.any (fun l => decide (l < k + n) && decide (k < l + 64)) || (doubleAt s k n).isSome

/-- What is done before a failed read is tried again: the row of its first word in erasure is rebuilt. -/
def mendRead (s : State) (k n : Nat) : State := match doubleAt s k n with
  | some w => rebuildRow s w
  | none => s

/-! The near cache. -/

/-- The line of a core's near cache that holds an address (R232). -/
def nearFind (k : Core) (va : W64) : Option NearLine := k.near.find? (fun l => l.addr == lineOf va)

/-- The valid byte that the near cache of core k holds for an address. -/
def nearByte (k : Core) (va : W64) : Option Byte :=
  match nearFind k va with
  | some l => lineByte l.bytes (va.toNat % 64)
  | none => none

/-- Whether accesses to a place go through the near cache (R232, R233): the lower half, and tiers without nc. -/
def Place.cached : Place → Bool
  | .scratch _ _ => false
  | .host _ _ => true
  | .tier e _ => !e.nc

/-- The owner point of a line, whatever the permissions: where its write-back goes. -/
def ownerKey (s : State) (c : CoreId) (va : W64) : Option Nat :=
  match placeByte s c .peek va with
  | .ok p => some p.key
  | .error _ => none

/-- The dirty bytes of a line. -/
def NearLine.dirtyBytes (l : NearLine) : List (Option Byte) :=
  (List.range 64).map (fun i => if wbit l.dirty i then lineByte l.bytes i else none)

/-- The write-back of a line's dirty bytes to its owner point (R232). -/
def writeBack (s : State) (c : CoreId) (l : NearLine) : State :=
  if l.dirty = 0 then s
  else match ownerKey s c l.addr with
    | some k => (spendMem s (s.partIdOf c) (keyBlocks k 64)).mergeAt k l.dirtyBytes
    | none => s

/-- Set of the near cache that a line belongs to (R232). -/
def nearSet (va : W64) : Nat := wbits va 6 8

/-- The near cache with a line put first; the least recently used line of its set leaves, its dirty bytes written back, when the
set holds more than 8. -/
def nearPut (s : State) (c : CoreId) (l : NearLine) : State :=
  let rest := (s.core c).near.filter (fun m => m.addr != l.addr)
  let mates := rest.filter (fun m => nearSet m.addr == nearSet l.addr)
  match mates[7]? with
  | some v =>
    let t := writeBack s c v
    t.setCore c { t.core c with near := l :: rest.filter (fun m => m.addr != v.addr) }
  | none => s.setCore c { s.core c with near := l :: rest }

/-- A line as a fetch from its owner point at key k leaves it: the bytes that memory gives at this moment, merged under its dirty bytes
(R232, R246). A byte that cannot be read is not brought, so that the load which needs it meets the error (R240). -/
def NearLine.fetched (l : NearLine) (s : State) (k : Nat) : NearLine :=
  { l with bytes := Vector.ofFn (fun i : Fin 64 =>
      if wbit l.dirty i.val || uncorrectable s (k + i.val) 1 then l.bytes[i.val] else some (s.mem.read (k + i.val))) }

/-- An empty line. -/
def NearLine.none (va : W64) : NearLine := { addr := lineOf va, bytes := noBytes, dirty := 0 }

/-- A load's fetch (R232): the line becomes valid, its dirty bytes kept, and most recent. -/
def nearFetch (s : State) (c : CoreId) (va : W64) : State :=
  match ownerKey s c (lineOf va) with
  | none => s
  | some k => nearPut s c (((nearFind (s.core c) va).getD (NearLine.none va)).fetched s k)

/-- Whether the near cache of a core holds all n bytes from va. -/
def nearHas (k : Core) (va : W64) (n : Nat) : Bool := (List.range n).all (fun i => (nearByte k (va + BitVec.ofNat 64 i)).isSome)

/-- The line of an address becomes the most recent one of the core's near cache (R232). -/
def nearTouch (s : State) (c : CoreId) (va : W64) : State :=
  match nearFind (s.core c) va with
  | some l => nearPut s c l
  | none => s

/-- A load of n bytes from va uses its line: it is fetched, unless all of them are valid, and most recent (R232). -/
def nearNeed (s : State) (c : CoreId) (va : W64) (n : Nat) : State :=
  if nearHas (s.core c) va n then nearTouch s c va else nearFetch s c va

/-- The mask of the bytes a line holds. -/
def maskOf (bs : Vector (Option Byte) 64) : W64 :=
  BitVec.ofNat 64 ((List.range 64).foldl (fun a i => if (lineByte bs i).isSome then a + 2 ^ i else a) 0)

/-- A store's write of a line (R232): it allocates without reading memory and sets the dirty bits. -/
def nearStore (s : State) (c : CoreId) (line : W64) (bs : Vector (Option Byte) 64) : State :=
  let old := (nearFind (s.core c) line).getD (NearLine.none line)
  nearPut s c { old with bytes := mergeBytes old.bytes bs, dirty := old.dirty ||| maskOf bs }

/-- Release work (R252): every dirty byte of the core's near cache that `sel` covers is written back and stays valid. More may be
written back than covered. -/
def nearWriteBack (s : State) (c : CoreId) (sel : W64 → Bool) : State :=
  (s.core c).near.foldl (fun t l =>
    if l.dirty ≠ 0 ∧ (List.range 64).any (fun i => wbit l.dirty i && sel (l.addr + BitVec.ofNat 64 i)) then
      let u := writeBack t c l
      u.setCore c { u.core c with near := (u.core c).near.map (fun m => if m.addr = l.addr then { m with dirty := 0 } else m) }
    else t) s

/-- Acquire work (R252): every valid, clean byte that `sel` covers is invalidated; dirty bytes are kept. -/
def nearInvalidate (s : State) (c : CoreId) (sel : W64 → Bool) : State :=
  let near := (s.core c).near.map (fun l =>
    { l with bytes := Vector.ofFn (fun i : Fin 64 =>
        if !wbit l.dirty i.val && sel (l.addr + BitVec.ofNat 64 i.val) then none else l.bytes[i.val]) })
  s.setCore c { s.core c with near := near.filter (fun l => decide (maskOf l.bytes ≠ 0)) }

/-- One line written back and invalidated (R233, R304). -/
def nearDrop (s : State) (c : CoreId) (va : W64) : State :=
  match nearFind (s.core c) va with
  | none => s
  | some l =>
    let t := writeBack s c l
    t.setCore c { t.core c with near := (t.core c).near.filter (fun m => m.addr != l.addr) }

/-! The store gate. -/

/-- The byte a gate holds for an address (R368: a store to a line already in the gate merges into that entry). -/
def gateByte (g : List GateLine) (va : W64) : Option Byte :=
  match g.find? (fun l => l.addr == lineOf va) with
  | some l => lineByte l.bytes (va.toNat % 64)
  | none => none

/-- The gate with one byte stored; a new line goes to the end. -/
def gatePut (g : List GateLine) (va : W64) (b : Byte) : List GateLine :=
  match g with
  | [] => [{ addr := lineOf va, bytes := putByte noBytes (va.toNat % 64) b }]
  | l :: t => if l.addr = lineOf va then { l with bytes := putByte l.bytes (va.toNat % 64) b } :: t else l :: gatePut t va b

/-- The gate with bytes stored from an address on. -/
def gateStore (g : List GateLine) (va : W64) : List Byte → List GateLine
  | [] => g
  | b :: t => gateStore (gatePut g va b) (va + 1) t

/-- What the gate holds of n bytes from an address. -/
def gateRun (g : List GateLine) (va : W64) (n : Nat) : List (Option Byte) :=
  (List.range n).map (fun i => gateByte g (va + BitVec.ofNat 64 i))

/-- The gate with a line's bytes merged over what it holds. -/
def gateAdd : List GateLine → GateLine → List GateLine
  | [], l => [l]
  | m :: t, l => if m.addr = l.addr then { m with bytes := mergeBytes m.bytes l.bytes } :: t else m :: gateAdd t l

/-- One gate's bytes over another's. -/
def gateOver (g h : List GateLine) : List GateLine := h.foldl gateAdd g

/-- The gate without the bytes that another one holds. -/
def gateMinus (g h : List GateLine) : List GateLine :=
  (g.map (fun l => match h.find? (fun m => m.addr == l.addr) with
    | some m => { l with bytes := Vector.ofFn (fun i : Fin 64 => if (m.bytes[i.val]).isSome then none else l.bytes[i.val]) }
    | none => l)).filter (fun l => decide (maskOf l.bytes ≠ 0))

/-- What a context's reads take over memory (R368): its gate, and over it the stores of the handler that it runs (R374). -/
def Ctx.view (k : Ctx) : List GateLine := if k.handler then gateOver k.gate k.hgate else k.gate

/-- A store line performing for core c (R232, R233, R245, R368): in the near cache where its place is cached, else at its owner point. -/
def performLine (s : State) (c : CoreId) (l : GateLine) : State :=
  match placeByte s c .peek l.addr with
  | .error _ => s
  | .ok p =>
    if p.cached then nearStore s c l.addr l.bytes
    else (spendMem s (s.partIdOf c) (keyBlocks p.key 64)).mergeAt p.key l.bytes.toList

/-- Blocks of T1 and T2 that the release work of a checkpoint bundle may ask for: those of the store lines that go there, and of the core's
dirty lines (R386). -/
def drainBlocks (s : State) (c : CoreId) (x : CtxId) : List Nat :=
  (((s.ctx c x).gate ++ (s.ctx c x).hgate).map (fun l => l.addr) ++ ((s.core c).near.filter (fun l => l.dirty != 0)).map (fun l => l.addr)).flatMap
    (fun va => match ownerKey s c va with
      | some k => keyBlocks k 64
      | none => [])

/-- The gate of a context handed to memory in the order of allocation, and empty (R368). -/
def drainGate (s : State) (c : CoreId) (x : CtxId) : State :=
  let t := (s.ctx c x).gate.foldl (fun t l => performLine t c l) s
  t.setCtx c x { t.ctx c x with gate := [] }

/-- The stores of a handler handed to memory, which the interrupted run's own gate must not undo; that gate stays (R374). -/
def drainHandler (s : State) (c : CoreId) (x : CtxId) : State :=
  let g := (s.ctx c x).hgate
  let t := g.foldl (fun t l => performLine t c l) s
  t.setCtx c x { t.ctx c x with gate := gateMinus (t.ctx c x).gate g, hgate := [] }

/-- The byte of an address that the near cache of core k holds dirty. -/
def nearDirty (k : Core) (va : W64) : Option Byte :=
  match nearFind k va with
  | some l => if wbit l.dirty (va.toNat % 64) then lineByte l.bytes (va.toNat % 64) else none
  | none => none

/-- What the near cache gives of one byte of an access: a valid byte when the whole access hits, else only a dirty one, under which a
fetch merges what memory gives at one moment (R232, R246). -/
def heldByte (k : Core) (hit : Bool) (va : W64) : Option Byte := if hit then nearByte k va else nearDirty k va

/-- The n bytes from va that lie at p, as core c reads them: the given gate's over the near cache's and memory's (R232, R368). -/
def readRun (s : State) (c : CoreId) (g : List GateLine) (va : W64) (p : Place) (n : Nat) : List Byte :=
  let hit := nearHas (s.core c) va n
  (List.range n).map (fun i =>
    let a := va + BitVec.ofNat 64 i
    ((gateByte g a).or (if p.cached then heldByte (s.core c) hit a else none)).getD (s.mem.read (p.key + i)))

/-- The n bytes from va as an engine or the device reads them at the owner points, in the partition of core c; a byte
without a place reads as none. -/
def ownerRun (s : State) (c : CoreId) (acc : Access) (va : W64) (n : Nat) : Except Nat (List Byte) :=
  match place s c acc va n with
  | .error r => .error r
  | .ok p => .ok (s.mem.readRun p.key n)

/-- Bytes written at the owner point from va (engines, device writes). -/
def ownerWrite (s : State) (c : CoreId) (acc : Access) (va : W64) (bs : List Byte) : Except Nat State :=
  match place s c acc va bs.length with
  | .error r => .error r
  | .ok p => .ok (s.writeAt p.key bs)

end Sys2Proof.Machine
end

