-- ==== Sys2Proof/Machine/Regs.lean ====
section
/-! DEFINITION. Registers of a context, lanes of a row, the fields of stream and shape registers, and landing (R13, R22 to R24,
R68, R291, R308). -/

namespace Sys2Proof.Machine

/-! Rows of 64 lanes. -/

/-- Value of a list of lanes, lane 0 lowest (R68). -/
def lanesNat : List W32 → Nat
  | [] => 0
  | a :: t => a.toNat + 2 ^ 32 * lanesNat t

/-- The row whose lane l is f l. -/
def ofLanes (f : Nat → W32) : Row := BitVec.ofNat 2048 (lanesNat ((List.range 64).map f))

/-- Lane l of a row. -/
def lane (r : Row) (l : Nat) : W32 := BitVec.ofNat 32 (r.toNat / 2 ^ (32 * l))

/-- The lanes of a row. -/
def lanes (r : Row) : List W32 := (List.range 64).map (lane r)

/-- Whether bit l of a mask is 1. -/
def active (m : W64) (l : Nat) : Bool := wbit m l

/-- The active lanes of `new` over those of `old` (R154). -/
def blend (m : W64) (new old : Row) : Row := ofLanes (fun l => if active m l then lane new l else lane old l)

/-- Byte b of a row (R68). -/
def rowByte (r : Row) (b : Nat) : Byte := BitVec.ofNat 8 (r.toNat / 2 ^ (8 * b))

/-- The 256 bytes of a row. -/
def rowBytes (r : Row) : List Byte := (List.range 256).map (rowByte r)

/-- A row from its bytes. -/
def rowOfBytes (bs : List Byte) : Row := BitVec.ofNat 2048 (leNat bs)

/-- A 64-bit value in the low bits of a row. -/
def rowOfWord (w : W64) : Row := BitVec.ofNat 2048 w.toNat

/-- The low 64 bits of a row, from bit 64 k. -/
def rowWord (r : Row) (k : Nat) : W64 := BitVec.ofNat 64 (r.toNat / 2 ^ (64 * k))

/-- All 64 bits. -/
def allBits : W64 := BitVec.allOnes 64

/-! Scalars, vectors, guards. -/

/-- Scalar register r; s0 reads as zero (R12). -/
def Regs.getS (k : Regs) (r : BitVec 5) : W64 := if r = 0 then 0 else rget k.s r
/-- A write of a scalar register; s0 discards it (R13). -/
def Regs.setS (k : Regs) (r : BitVec 5) (x : W64) : Regs := if r = 0 then k else { k with s := rset k.s r x }
/-- Guard r; g0 reads all ones and g1 all zeros (R12). -/
def Regs.getG (k : Regs) (r : BitVec 3) : W64 := if r = 0 then allBits else if r = 1 then 0 else rget k.g r
/-- A write of a guard; g0 and g1 are constants. -/
def Regs.setG (k : Regs) (r : BitVec 3) (x : W64) : Regs := if r.toNat < 2 then k else { k with g := rset k.g r x }
/-- Vector register r, 0 to 27 (R116); the read ports are read elsewhere. -/
def Regs.getV (k : Regs) (r : BitVec 5) : Row := (k.v[r.toNat]?).getD 0
/-- A write of a vector register. -/
def Regs.setV (k : Regs) (r : BitVec 5) (x : Row) : Regs := { k with v := k.v.setIfInBounds r.toNat x }
/-- Full/empty bit of a scalar register; s0 is always full (R26). -/
def Regs.fullS (k : Regs) (r : BitVec 5) : Bool := r == 0 || k.sFull.getLsbD r.toNat
/-- Full/empty bit of a vector register (R117); a read port has none. -/
def Regs.fullV (k : Regs) (r : BitVec 5) : Bool := decide (28 ≤ r.toNat) || k.vFull.getLsbD r.toNat
/-- The register becomes full or empty. -/
def Regs.markS (k : Regs) (r : BitVec 5) (full : Bool) : Regs :=
  if r = 0 then k else
  { k with sFull := if full then k.sFull ||| BitVec.twoPow 32 r.toNat else k.sFull &&& ~~~BitVec.twoPow 32 r.toNat }
/-- As `markS`, for a vector register. -/
def Regs.markV (k : Regs) (r : BitVec 5) (full : Bool) : Regs :=
  { k with vFull := if full then k.vFull ||| BitVec.twoPow 28 r.toNat else k.vFull &&& ~~~BitVec.twoPow 28 r.toNat }

/-! Fields of stream and shape registers. -/

/-- A field: word, low bit, width. -/
structure FieldAt where
  word : Nat
  lo : Nat
  width : Nat
  deriving DecidableEq, Repr

/-- Fields 0 to 13 and words 16 to 23 of a stream register (R291, R296). -/
def streamFieldAt (n : Nat) : FieldAt :=
  match n with
  | 0 => ⟨0, 0, 64⟩ | 1 => ⟨1, 0, 8⟩ | 2 => ⟨1, 8, 8⟩ | 3 => ⟨1, 16, 1⟩ | 4 => ⟨1, 32, 32⟩ | 5 => ⟨2, 0, 32⟩
  | 6 => ⟨2, 32, 32⟩ | 7 => ⟨3, 0, 16⟩ | 8 => ⟨3, 16, 8⟩ | 9 => ⟨3, 24, 8⟩ | 10 => ⟨3, 32, 16⟩ | 11 => ⟨3, 48, 16⟩
  | 12 => ⟨4, 0, 64⟩ | 13 => ⟨5, 0, 32⟩ | k => ⟨k - 16, 0, 64⟩

/-- Fields 0 to 29 and words 32 to 47 of a shape register (R308, R344). -/
def shapeFieldAt (n : Nat) : FieldAt :=
  match n with
  | 0 => ⟨0, 0, 32⟩ | 1 => ⟨0, 32, 3⟩ | 2 => ⟨0, 40, 8⟩ | 3 => ⟨0, 48, 8⟩ | 4 => ⟨1, 0, 4⟩ | 5 => ⟨1, 4, 2⟩
  | 6 => ⟨1, 6, 12⟩ | 7 => ⟨1, 18, 8⟩ | 8 => ⟨1, 26, 4⟩ | 9 => ⟨1, 30, 1⟩ | 28 => ⟨1, 31, 1⟩ | 29 => ⟨1, 32, 2⟩
  | 10 => ⟨2, 0, 16⟩ | 11 => ⟨2, 16, 16⟩ | 12 => ⟨2, 32, 16⟩ | 13 => ⟨2, 48, 16⟩ | 14 => ⟨3, 0, 16⟩ | 15 => ⟨3, 16, 16⟩
  | k => if k < 22 then ⟨4 + (k - 16), 0, 64⟩ else if k < 28 then ⟨10 + (k - 22), 0, 64⟩ else ⟨k - 32, 0, 64⟩

/-- A field of a register image. -/
def FieldAt.get (f : FieldAt) (ws : Nat → W64) : Nat := wbits (ws f.word) f.lo f.width

/-- Word i of a stream image. -/
def stWord (f : File 3 W64) (i : Nat) : W64 := (f[i]?).getD 0
/-- Word i of a shape image. -/
def shWord (f : File 4 W64) (i : Nat) : W64 := (f[i]?).getD 0
/-- Field n of a stream image (R291). -/
def stField (f : File 3 W64) (n : Nat) : Nat := (streamFieldAt n).get (stWord f)
/-- Field n of a shape image (R308). -/
def shField (f : File 4 W64) (n : Nat) : Nat := (shapeFieldAt n).get (shWord f)
/-- A stream image with field n set to x. -/
def stPut (f : File 3 W64) (n x : Nat) : File 3 W64 :=
  let p := streamFieldAt n
  f.setIfInBounds p.word (wset (stWord f p.word) p.lo p.width x)
/-- A shape image with field n set to x. -/
def shPut (f : File 4 W64) (n x : Nat) : File 4 W64 :=
  let p := shapeFieldAt n
  f.setIfInBounds p.word (wset (shWord f p.word) p.lo p.width x)

/-! Landing. -/

/-- The sticky flags set in fpctl (R14, R389). -/
def Regs.setFlags (k : Regs) (f : BitVec 5) : Regs := { k with fpctl := k.fpctl ||| BitVec.ofNat 64 (f.toNat * 2 ^ 8) }

/-- Row +0 in accumulator rows first to first + count - 1 (R199). -/
def clearRows (rows : List Row) (first count : Nat) : List Row :=
  rows.mapIdx (fun i r => if first ≤ i ∧ i < first + count then 0 else r)

/-- A pushed weight row as a latch carries it. -/
def WeightRow.pack (w : WeightRow) : Row :=
  BitVec.ofNat 2048 (w.bytes.toNat + 2 ^ 1024 * (w.fmt.toNat + 2 ^ 32 * (w.sup0.toNat + 2 ^ 32 * w.sup1.toNat)))
/-- The weight row that a latch carries. -/
def WeightRow.unpack (r : Row) : WeightRow :=
  { fmt := BitVec.ofNat 8 (r.toNat / 2 ^ 1024), bytes := BitVec.ofNat 1024 r.toNat,
    sup0 := BitVec.ofNat 32 (r.toNat / 2 ^ 1056), sup1 := BitVec.ofNat 32 (r.toNat / 2 ^ 1088) }

/-- A push landing in the buffer that is the shadow now (R195). -/
def ArrayState.push (a : ArrayState) (row : BitVec 6) (newfmt : Option Byte) (w : WeightRow) : ArrayState :=
  if a.swapped then
    { a with rows1 := aset (if row = 0 then [] else a.rows1) row.toNat w, bfmt1 := if row = 0 then newfmt else a.bfmt1 }
  else
    { a with rows0 := aset (if row = 0 then [] else a.rows0) row.toNat w, bfmt0 := if row = 0 then newfmt else a.bfmt0 }

/-- The first entry of a queue whose drain has not landed receives its row (R142). -/
def fillQueue : List (Option Row) → Row → List (Option Row)
  | [], _ => []
  | none :: t, x => some x :: t
  | some y :: t, x => some y :: fillQueue t x

/-- What a latch writes when it lands (R22, R23, R27). -/
def Regs.write (k : Regs) (l : Latch) : Regs :=
  match l.dest with
  | .scalar r => k.setS r (rowWord l.value 0)
  | .guard r => k.setG r (rowWord l.value 0)
  | .pair r =>
    let k := k.setG r ((k.getG r &&& ~~~l.mask) ||| (rowWord l.value 0 &&& l.mask))
    k.setG (r + 1) ((k.getG (r + 1) &&& ~~~l.mask) ||| (rowWord l.value 1 &&& l.mask))
  | .vector r => k.setV r (blend l.mask l.value (k.getV r))
  | .stream r n => { k with st := rset k.st r (stPut (rget k.st r) n (rowWord l.value 0).toNat) }
  | .shape r n => { k with sh := rset k.sh r (shPut (rget k.sh r) n (rowWord l.value 0).toNat) }
  | .accRow r => { k with rows := k.rows.set r l.value }
  | .shadow row f => { k with arr := k.arr.push row f (WeightRow.unpack l.value) }
  | .exchange => { k with arr := { k.arr with swapped := !k.arr.swapped } }
  | .queue q => { k with rq := rset k.rq q (fillQueue (rget k.rq q) l.value) }
  | .rowClear f n => { k with rows := clearRows k.rows f n }
  | .flagsOnly => k

/-- A latch lands: its flags are set and its value is written (R14, R22). -/
def Regs.land (k : Regs) (l : Latch) : Regs := (k.setFlags l.flags).write l

/-- A drain in flight. -/
def Latch.drains (l : Latch) : Bool := match l.dest with
  | .queue _ => true
  | _ => false

/-- A result in flight that the end of array ownership discards (R141). -/
def Latch.beat (l : Latch) : Bool := match l.dest with
  | .accRow _ | .shadow _ _ | .exchange => true
  | _ => false

/-- Weight buffers and result queues cleared (R141 step 3). -/
def Regs.clearArray (k : Regs) : Regs := { k with arr := ArrayState.clear, rq := Vector.replicate _ [], clearing := false }

/-- The clearing that a release put off, once the last drain has landed (R141 step 3). -/
def Regs.settleArray (k : Regs) : Regs := if k.clearing && !k.latches.any Latch.drains then k.clearArray else k

/-- Ownership of the array ends (R141): macc results and other beats in flight are discarded, drains in flight still land, and buffers and
queues are cleared after the last of them; accumulator rows stay. -/
def Regs.releaseArray (k : Regs) : Regs :=
  Regs.settleArray { k with owns := false, clearing := true, latches := k.latches.filter (fun l => !l.beat) }

/-- Ownership of the array begins, from empty buffers and queues (R141 step 4, R191). -/
def Regs.takeArray (k : Regs) : Regs := { k.clearArray with owns := true, latches := k.latches.filter (fun l => !l.drains) }

/-- One bundle of the owning context issues: every latch counts down, and those at zero land in issue order before the
bundle's sources are read (R22 to R24). -/
def Regs.landAll (k : Regs) : Regs :=
  Regs.settleArray ((k.latches.filter (fun l => decide (l.left ≤ 1))).foldl Regs.land
    { k with latches := (k.latches.filter (fun l => decide (1 < l.left))).map (fun l => { l with left := l.left - 1 }) })

/-- A result in flight joins the latches (R23). -/
def Regs.latch (k : Regs) (l : Latch) : Regs := { k with latches := k.latches ++ [l] }

/-- The pending latches of a register that a variable-latency instruction takes keep only their flags (R24). -/
def Regs.dropLatches (k : Regs) (d : Dest) : Regs :=
  { k with latches := k.latches.map (fun l => if l.dest = d then { l with dest := .flagsOnly, mask := 0, value := 0 } else l) }

/-- A variable-latency instruction takes a scalar register: it becomes empty (R21, R24). -/
def Regs.takeS (k : Regs) (r : BitVec 5) : Regs := if r = 0 then k else (k.dropLatches (.scalar r)).markS r false
/-- As `takeS`, for a vector register (R117). -/
def Regs.takeV (k : Regs) (r : BitVec 5) : Regs := (k.dropLatches (.vector r)).markV r false

/-- A variable-latency result arrives: written, and the register full (R21). -/
def Regs.giveS (k : Regs) (r : BitVec 5) (x : W64) : Regs := (k.setS r x).markS r true
/-- As `giveS`, for the lanes of a vector register (R117). -/
def Regs.giveV (k : Regs) (r : BitVec 5) (m : W64) (x : Row) : Regs := (k.setV r (blend m x (k.getV r))).markV r true

end Sys2Proof.Machine
end

