-- ==== Sys2Proof/Machine/Flags.lean ====
section
/-! DEFINITION. Number formats, exact arithmetic on their values, rounding with its flags, the block scales and the random
generator (R61 to R85, R89, R90). Flags are five bits: nv, dz, of, uf, nx from bit 4 down. -/

namespace Sys2Proof.Machine

/-! Flags (R77). -/

/-- Invalid. -/
def flagNV : BitVec 5 := 16
/-- Division by zero. -/
def flagDZ : BitVec 5 := 8
/-- Overflow. -/
def flagOF : BitVec 5 := 4
/-- Underflow. -/
def flagUF : BitVec 5 := 2
/-- Inexact. -/
def flagNX : BitVec 5 := 1
/-- A flag when a condition holds. -/
def flagIf (b : Bool) (f : BitVec 5) : BitVec 5 := if b then f else 0

/-! Values. -/

/-- The value of a code: a NaN, which may be signalling, an infinity, or a signed magnitude num / den (den not zero). A zero
keeps its sign. -/
inductive Num where
  | nan (signalling : Bool)
  | inf (neg : Bool)
  | fin (neg : Bool) (num den : Nat)
  deriving DecidableEq, Repr

/-- Zero. -/
def Num.zero : Num := .fin false 0 1
/-- Whether a value is a NaN. -/
def Num.isNan : Num → Bool
  | .nan _ => true
  | _ => false
/-- Whether a value is a signalling NaN. -/
def Num.isSig : Num → Bool
  | .nan b => b
  | _ => false
/-- Whether a value is a finite number. -/
def Num.isFin : Num → Bool
  | .fin _ _ _ => true
  | _ => false
/-- Whether a value is a zero. -/
def Num.isZero : Num → Bool
  | .fin _ n _ => n == 0
  | _ => false
/-- Sign of a value that has one. -/
def Num.neg? : Num → Bool
  | .nan _ => false
  | .inf b => b
  | .fin b _ _ => b
/-- The value with its sign inverted. -/
def Num.negate : Num → Num
  | .nan b => .nan b
  | .inf b => .inf !b
  | .fin b n d => .fin (!b) n d
/-- The magnitude. -/
def Num.abs : Num → Num
  | .nan b => .nan b
  | .inf _ => .inf false
  | .fin _ n d => .fin false n d
/-- An integer. -/
def Num.ofInt (i : Int) : Num := .fin (decide (i < 0)) i.natAbs 1
/-- A magnitude times a power of two, as numerator and denominator. -/
def scale2 (n d : Nat) (k : Int) : Nat × Nat :=
  match k with
  | .ofNat a => (n * 2 ^ a, d)
  | .negSucc a => (n, d * 2 ^ (a + 1))
/-- A finite value times a power of two. -/
def Num.scale (x : Num) (k : Int) : Num :=
  match x with
  | .fin b n d => .fin b (scale2 n d k).1 (scale2 n d k).2
  | y => y

/-- Exact product; a quiet NaN for 0 × inf (R158). -/
def Num.mul : Num → Num → Num
  | .nan _, _ => .nan false
  | _, .nan _ => .nan false
  | .inf a, .inf b => .inf (a != b)
  | .inf a, .fin b n _ => if n = 0 then .nan false else .inf (a != b)
  | .fin a n _, .inf b => if n = 0 then .nan false else .inf (a != b)
  | .fin a n d, .fin b m e => .fin (a != b) (n * m) (d * e)

/-- Exact sum; a quiet NaN for inf - inf; an exact zero is +0 unless both are -0 (R158). -/
def Num.add : Num → Num → Num
  | .nan _, _ => .nan false
  | _, .nan _ => .nan false
  | .inf a, .inf b => if a = b then .inf a else .nan false
  | .inf a, .fin _ _ _ => .inf a
  | .fin _ _ _, .inf b => .inf b
  | .fin a n d, .fin b m e =>
    let l := if d % e = 0 then d else if e % d = 0 then e else d * e
    let x : Int := n * (l / d) * (if a then -1 else 1)
    let y : Int := m * (l / e) * (if b then -1 else 1)
    if x + y = 0 then .fin (a && b && n == 0 && m == 0) 0 1 else .fin (decide (x + y < 0)) (x + y).natAbs l

/-- Exact quotient of a finite value by a positive magnitude. -/
def Num.quo (x : Num) (n d : Nat) : Num :=
  match x with
  | .fin b m e => .fin b (m * d) (e * n)
  | y => y

/-- Order of two values that are not NaN, zeros equal. -/
def Num.lt : Num → Num → Bool
  | .inf a, .inf b => a && !b
  | .inf a, .fin _ _ _ => a
  | .fin _ _ _, .inf b => !b
  | .fin a n d, .fin b m e =>
    let x : Int := n * e * (if a then -1 else 1)
    let y : Int := m * d * (if b then -1 else 1)
    decide (x < y)
  | _, _ => false
/-- Equality of two values that are not NaN, zeros equal. -/
def Num.eq (a b : Num) : Bool := !a.isNan && !b.isNan && !a.lt b && !b.lt a

/-- floor(log2(n / d)) of a positive magnitude. -/
def floorLog2 (n d : Nat) : Int :=
  let k : Int := (Nat.log2 n : Int) - (Nat.log2 d : Int)
  let (x, y) := scale2 d 1 k
  if x ≤ n * y then k else k - 1

/-! Element formats (R61). -/

/-- What the codes with all exponent bits one mean: infinities and NaNs, one NaN (E4M3), or numbers. -/
inductive FpKind where
  | ieee | e4m3 | finite
  deriving DecidableEq, Repr

/-- A floating-point format. -/
structure Fp where
  ebits : Nat
  mbits : Nat
  bias : Nat
  kind : FpKind
  deriving DecidableEq, Repr

/-- FP32. -/
def fp32 : Fp := { ebits := 8, mbits := 23, bias := 127, kind := .ieee }
/-- FP16. -/
def fp16 : Fp := { ebits := 5, mbits := 10, bias := 15, kind := .ieee }
/-- BF16. -/
def bf16 : Fp := { ebits := 8, mbits := 7, bias := 127, kind := .ieee }
/-- E4M3. -/
def fpE4M3 : Fp := { ebits := 4, mbits := 3, bias := 7, kind := .e4m3 }
/-- E5M2. -/
def fpE5M2 : Fp := { ebits := 5, mbits := 2, bias := 15, kind := .ieee }
/-- E2M3. -/
def fpE2M3 : Fp := { ebits := 2, mbits := 3, bias := 1, kind := .finite }
/-- E3M2. -/
def fpE3M2 : Fp := { ebits := 3, mbits := 2, bias := 3, kind := .finite }
/-- E2M1. -/
def fpE2M1 : Fp := { ebits := 2, mbits := 1, bias := 1, kind := .finite }

/-- Width of a format in bits. -/
def Fp.width (f : Fp) : Nat := 1 + f.ebits + f.mbits
/-- Code of the largest finite magnitude. -/
def Fp.maxCode (f : Fp) : Nat :=
  match f.kind with
  | .ieee => (2 ^ f.ebits - 1) * 2 ^ f.mbits - 1
  | .e4m3 => 2 ^ (f.ebits + f.mbits) - 2
  | .finite => 2 ^ (f.ebits + f.mbits) - 1
/-- Sign bit. -/
def Fp.signBit (f : Fp) (neg : Bool) : Nat := if neg then 2 ^ (f.ebits + f.mbits) else 0
/-- Canonical NaN (R63); formats without one take +0 (R75). -/
def Fp.nanCode (f : Fp) : Nat :=
  match f.kind with
  | .ieee => (2 ^ f.ebits - 1) * 2 ^ f.mbits + 2 ^ (f.mbits - 1)
  | .e4m3 => 2 ^ (f.ebits + f.mbits) - 1
  | .finite => 0
/-- Infinity of a sign. -/
def Fp.infCode (f : Fp) (neg : Bool) : Nat := f.signBit neg + (2 ^ f.ebits - 1) * 2 ^ f.mbits

/-- Value of a code (R62, R61, R63). -/
def Fp.decode (f : Fp) (c : Nat) : Num :=
  let neg := decide (c / 2 ^ (f.ebits + f.mbits) % 2 = 1)
  let e := c / 2 ^ f.mbits % 2 ^ f.ebits
  let m := c % 2 ^ f.mbits
  if f.kind = .ieee ∧ e = 2 ^ f.ebits - 1 then (if m = 0 then .inf neg else .nan (decide (m < 2 ^ (f.mbits - 1))))
  else if f.kind = .e4m3 ∧ e = 2 ^ f.ebits - 1 ∧ m = 2 ^ f.mbits - 1 then .nan false
  else if e = 0 then (Num.fin neg m 1).scale (1 - (f.bias : Int) - f.mbits)
  else (Num.fin neg (2 ^ f.mbits + m) 1).scale ((e : Int) - f.bias - f.mbits)

/-- Value of an FP32 pattern. -/
def f32 (c : W32) : Num := fp32.decode c.toNat

/-! Rounding (R73 to R76). -/

/-- The rounding modes. -/
inductive Rm where
  | rne | rz | ru | rd | sr
  deriving DecidableEq, Repr

/-- Whether the discarded fraction rem / den rounds the magnitude up (R74). -/
def roundsUp (mode : Rm) (neg odd : Bool) (rem den : Nat) (r : W32) : Bool :=
  match mode with
  | .rne => decide (den < 2 * rem) || (decide (2 * rem = den) && odd)
  | .rz => false
  | .ru => decide (rem ≠ 0) && !neg
  | .rd => decide (rem ≠ 0) && neg
  | .sr => decide (2 ^ 32 ≤ rem * 2 ^ 32 / den + r.toNat)

/-- Result beyond the finite range (R75). -/
def Fp.overflow (f : Fp) (neg : Bool) (mode : Rm) (sat : Bool) : Nat × BitVec 5 :=
  let big := f.signBit neg + f.maxCode
  let code :=
    if sat then big
    else match f.kind with
      | .finite => big
      | .e4m3 => f.nanCode
      | .ieee => match mode with
        | .rne | .sr => f.infCode neg
        | .rz => big
        | .ru => if neg then big else f.infCode neg
        | .rd => if neg then f.infCode neg else big
  (code, flagOF ||| flagNX)

/-- NaN and infinite inputs (R75, R77, R177). -/
def Fp.special (f : Fp) (x : Num) (sat : Bool) : Nat × BitVec 5 :=
  match x with
  | .inf neg =>
    if sat ∨ f.kind = .finite then (f.signBit neg + f.maxCode, flagNV ||| flagOF ||| flagNX)
    else if f.kind = .e4m3 then (f.nanCode, flagNV) else (f.infCode neg, 0)
  | y => (f.nanCode, flagIf y.isSig flagNV ||| (if f.kind = .finite then flagNV ||| flagNX else 0))

/-- round_to for a floating-point format (R74): the code and the flags. -/
def Fp.round (f : Fp) (x : Num) (mode : Rm) (sat : Bool) (r : W32) : Nat × BitVec 5 :=
  match x with
  | .fin neg n d =>
    if n = 0 then (f.signBit neg, 0)
    else
      let emin : Int := 1 - (f.bias : Int)
      let qe : Int := max (floorLog2 n d) emin - f.mbits
      let (y, x) := scale2 d 1 qe
      let lo := n * x / y
      let rem := n * x % y
      let u := lo + (if roundsUp mode neg (decide (lo % 2 = 1)) rem y r then 1 else 0)
      let code := (qe + f.mbits - emin).toNat * 2 ^ f.mbits + u
      if f.maxCode < code then f.overflow neg mode sat
      else (f.signBit neg + code,
        if rem = 0 then 0 else if code < 2 ^ f.mbits then flagUF ||| flagNX else flagNX)
  | y => f.special y sat

/-- Rounding to an integer between two bounds (R76). -/
def roundInt (lo hi : Int) (x : Num) (mode : Rm) (r : W32) : Int × BitVec 5 :=
  match x with
  | .nan _ => (0, flagNV ||| flagNX)
  | .inf neg => (if neg then lo else hi, flagNV ||| flagOF ||| flagNX)
  | .fin neg n d =>
    let q := n / d
    let rem := n % d
    let u := q + (if roundsUp mode neg (decide (q % 2 = 1)) rem d r then 1 else 0)
    let v : Int := if neg then -(u : Int) else u
    if v < lo then (lo, flagOF ||| flagNX)
    else if hi < v then (hi, flagOF ||| flagNX)
    else (v, flagIf (decide (rem ≠ 0)) flagNX)

/-- round_f32 (R78): RNE, saturation off. -/
def roundF32 (x : Num) : W32 × BitVec 5 :=
  let (c, fl) := fp32.round x .rne false 0
  (BitVec.ofNat 32 c, fl)

/-! Arithmetic of R158, R159. -/

/-- A rounded result of operands: a NaN made from operands that are none is invalid. -/
def settle (operands : List Num) (x : Num) : W32 × BitVec 5 :=
  if operands.any Num.isNan then (0x7FC00000, flagIf (operands.any Num.isSig) flagNV)
  else if x.isNan then (0x7FC00000, flagNV)
  else roundF32 x

/-- FP32 sum. -/
def fadd (a b : Num) : W32 × BitVec 5 := settle [a, b] (a.add b)
/-- FP32 product. -/
def fmul (a b : Num) : W32 × BitVec 5 := settle [a, b] (a.mul b)
/-- FP32 fused multiply-add d + a × b. -/
def ffma (d a b : Num) : W32 × BitVec 5 := settle [d, a, b] (d.add (a.mul b))
/-- FP32 fused d - a × b. -/
def ffms (d a b : Num) : W32 × BitVec 5 := settle [d, a, b] (d.add (a.mul b).negate)

/-! Format codes (R66, R67) and elements (R68). -/

/-- What an element of a format is. -/
inductive Elem where
  | fp (f : Fp)
  | int8
  | q4n
  deriving DecidableEq, Repr

/-- Block scale of a format. -/
inductive Scale where
  | none | e8m0 | e8m2 | q4n
  deriving DecidableEq, Repr

/-- A format of R66: its element, element bits, record bytes and elements per record (0 for unblocked formats), its scale. -/
structure Format where
  elem : Elem
  bits : Nat
  record : Nat
  count : Nat
  scale : Scale
  deriving DecidableEq, Repr

/-- The table of R66; a code outside it is reserved (R67). -/
def formatOf (code : Nat) : Option Format :=
  match code with
  | 0x00 => some ⟨.fp fp32, 32, 0, 0, .none⟩
  | 0x01 => some ⟨.fp bf16, 16, 0, 0, .none⟩
  | 0x02 => some ⟨.fp fp16, 16, 0, 0, .none⟩
  | 0x10 => some ⟨.fp fpE4M3, 8, 0, 0, .none⟩
  | 0x11 => some ⟨.fp fpE5M2, 8, 0, 0, .none⟩
  | 0x12 => some ⟨.int8, 8, 0, 0, .none⟩
  | 0x20 => some ⟨.fp fpE2M3, 6, 0, 0, .none⟩
  | 0x21 => some ⟨.fp fpE3M2, 6, 0, 0, .none⟩
  | 0x30 => some ⟨.fp fpE2M1, 4, 0, 0, .none⟩
  | 0x40 => some ⟨.q4n, 4, 33, 64, .q4n⟩
  | 0x90 => some ⟨.fp fpE4M3, 8, 33, 32, .e8m0⟩
  | 0x91 => some ⟨.fp fpE5M2, 8, 33, 32, .e8m0⟩
  | 0x92 => some ⟨.int8, 8, 33, 32, .e8m0⟩
  | 0xA0 => some ⟨.fp fpE2M3, 6, 25, 32, .e8m0⟩
  | 0xA1 => some ⟨.fp fpE3M2, 6, 25, 32, .e8m0⟩
  | 0xB0 => some ⟨.fp fpE2M1, 4, 17, 32, .e8m0⟩
  | 0xD0 => some ⟨.fp fpE2M1, 4, 18, 32, .e8m2⟩
  | 0xD1 => some ⟨.fp fpE2M3, 6, 26, 32, .e8m2⟩
  | 0xD2 => some ⟨.fp fpE3M2, 6, 26, 32, .e8m2⟩
  | 0xD3 => some ⟨.fp fpE4M3, 8, 34, 32, .e8m2⟩
  | _ => none

/-- Magnitude of a Q4N index in 1/256 (R65). -/
def q4nMag (i : Nat) : Nat :=
  match i with
  | 0 => 11 | 1 => 33 | 2 => 55 | 3 => 80 | 4 => 107 | 5 => 139 | 6 => 181 | _ => 256

/-- Value of a Q4N code (R65). -/
def q4nValue (c : Nat) : Num := .fin (decide (c / 8 % 2 = 1)) (q4nMag (c % 8)) 256

/-- Value of an element code; INT8 gives the integer. -/
def Elem.decode (e : Elem) (c : Nat) : Num :=
  match e with
  | .fp f => f.decode c
  | .int8 => Num.ofInt (BitVec.ofNat 8 c).toInt
  | .q4n => q4nValue c

/-- Element i of a packed run of w-bit elements: little-endian with no padding (R68). -/
def packedAt (w : Nat) (run : Nat) (i : Nat) : Nat := run / 2 ^ (w * i) % 2 ^ w

/-- A packed run of w-bit elements. -/
def packElems (w : Nat) : List Nat → Nat
  | [] => 0
  | c :: t => c % 2 ^ w + 2 ^ w * packElems w t

/-! Scales (R64). -/

/-- Value of an E8M0 scale; NaN at 255. -/
def e8m0 (e : Nat) : Num := if e = 255 then .nan false else (Num.fin false 1 1).scale ((e : Int) - 127)
/-- Value of an E8M2 scale. -/
def e8m2 (c : Nat) : Num :=
  if c / 4 % 256 = 255 then .nan false else (Num.fin false (4 + c % 4) 4).scale (((c / 4 % 256 : Nat) : Int) - 127)

/-- Scale, elements and valid count of a record of a format, without the super-scale of Q4N: its scale is the byte q. -/
structure Block where
  scale : Num
  elems : List Num
  valid : Nat
  zero : Bool
  deriving DecidableEq, Repr

/-- Block scale of a Q4N record under super-scale S, and the flags of its rounding (R71). -/
def q4nScale (sup : W32) (run : Nat) : W32 × BitVec 5 := roundF32 ((f32 sup).mul (.fin false (run % 256) 256))

/-- A record given as a little-endian number (R69, R70, R71). For Q4N, b is the block scale under super-scale S, and a record with
q = 0 is all zeros. -/
def Format.block (f : Format) (sup : W32) (run : Nat) : Block :=
  match f.scale with
  | .none => { scale := .fin false 1 1, elems := [], valid := 0, zero := false }
  | .e8m0 =>
    { scale := match f.elem with
        | .int8 => (e8m0 (run % 256)).scale (-6)
        | _ => e8m0 (run % 256),
      elems := (List.range f.count).map (fun i => f.elem.decode (packedAt f.bits (run / 2 ^ 8) i)),
      valid := f.count, zero := false }
  | .e8m2 =>
    { scale := e8m2 (run % 1024),
      elems := (List.range f.count).map (fun i => f.elem.decode (packedAt f.bits (run / 2 ^ 16) i)),
      valid := run / 2 ^ 10 % 32 + 1, zero := false }
  | .q4n =>
    { scale := f32 (q4nScale sup run).1, elems := (List.range f.count).map (fun i => q4nValue (packedAt 4 (run / 2 ^ 8) i)),
      valid := f.count, zero := decide (run % 256 = 0) }

/-- Value of element i of a record, exact (R69 to R72). The sign of a Q4N element under a negative super-scale is that of R71's formula, the
code's times S's, also where the scale rounds to -0, though the sentence after the formula speaks of the code's sign alone (DESIGN CHOICE,
log 34). -/
def Block.value (b : Block) (i : Nat) : Num :=
  if b.zero ∨ b.valid ≤ i then .zero
  else match b.scale with
    | .nan _ => .nan false
    | s => match (b.elems[i]?).getD .zero with
      | .nan _ => .nan false
      | .inf g => .inf (g != s.neg?)
      | e => s.mul e

/-! Choosing block scales (R83 to R85). -/

/-- Largest magnitude of finite values, as numerator and denominator. -/
def maxMag (vs : List Num) : Nat × Nat :=
  vs.foldl (fun a v => match v with
    | .fin _ n d => if a.1 * d < n * a.2 then (n, d) else a
    | _ => a) (0, 1)

/-- emax of R83. -/
def Elem.emax : Elem → Int
  | .fp f => if f = fpE4M3 then 8 else if f = fpE5M2 then 15 else if f = fpE3M2 then 4 else 2
  | _ => 0

/-- An element code rounded from a value; INT8 by R76. -/
def Elem.round (e : Elem) (x : Num) (mode : Rm) (sat : Bool) (r : W32) : Nat × BitVec 5 :=
  match e with
  | .fp f => f.round x mode sat r
  | _ => let (v, fl) := roundInt (-128) 127 x mode r
    ((v % 256).toNat, fl)

/-- Codes and flags of a list of rounded elements. -/
def roundElems (e : Elem) (mode : Rm) (sat : Bool) (xs : List (Num × W32)) : List Nat × BitVec 5 :=
  xs.foldr (fun x acc => let (c, fl) := e.round x.1 mode sat x.2
    (c :: acc.1, fl ||| acc.2)) ([], 0)

/-- An MX record of 32 values (R83): the little-endian record and its flags. -/
def quantMx (f : Format) (mode : Rm) (vs : List (Num × W32)) : Nat × BitVec 5 :=
  if vs.any (fun v => !v.1.isFin) then (255, flagNV)
  else
    let (n, d) := maxMag (vs.map (fun v => v.1))
    if n = 0 then
      let (cs, fl) := roundElems f.elem mode true vs
      (2 ^ 8 * packElems f.bits cs, fl)
    else
      let u : Int := max (-127) (min 127 (floorLog2 n d - f.elem.emax))
      let k : Int := if f.elem = .int8 then 6 - u else -u
      let (cs, fl) := roundElems f.elem mode true (vs.map (fun v => (v.1.scale k, v.2)))
      ((u + 127).toNat + 2 ^ 8 * packElems f.bits cs, fl)

/-- M of R84 in halves. -/
def fineMax2 (f : Format) : Nat :=
  if f.elem = .fp fpE2M1 then 12 else if f.elem = .fp fpE2M3 then 15 else if f.elem = .fp fpE3M2 then 56 else 896

/-- The smallest E8M2 code whose value is at least n / d (R84). -/
def e8m2Ceil (n d : Nat) : Nat :=
  if n = 0 then 0
  else
    let e : Int := max (floorLog2 n d) (-127)
    let fits := fun (k : Nat) => match (Num.fin false (4 + k) 4).scale e with
      | .fin _ x y => decide (n * y ≤ x * d)
      | _ => false
    match (List.range 4).find? fits with
    | some k => (e + 127).toNat * 4 + k
    | none => (e + 128).toNat * 4

/-- A fine-scaled record of the first n of 32 values (R84). -/
def quantFine (f : Format) (mode : Rm) (n : Nat) (vs : List (Num × W32)) : Nat × BitVec 5 :=
  let head := (n - 1) * 2 ^ 10
  if vs.any (fun v => !v.1.isFin) then (0x3FC + head, flagNV)
  else
    let (a, b) := maxMag (vs.map (fun v => v.1))
    let x := e8m2Ceil (2 * a) (fineMax2 f * b)
    let (p, q) := match e8m2 x with
      | .fin _ p q => (p, q)
      | _ => (1, 1)
    let (cs, fl) := roundElems f.elem mode false ((vs.take n).map (fun v => (v.1.quo p q, v.2)))
    (x + head + 2 ^ 16 * packElems f.bits cs, fl)

/-- The Q4N code of a value for a block scale p / q (R85 steps 3 and 4). -/
def q4nCode (mode : Rm) (v : Num) (p q : Nat) (r : W32) : Nat × BitVec 5 :=
  match v with
  | .fin neg n d =>
    -- y = (n / d) / (p / q), compared in 1/256 as yn / yd
    let yn := n * q * 256
    let yd := d * p
    let sign := if neg then 8 else 0
    if yn ≤ 11 * yd then (sign, flagIf (decide (yn ≠ 11 * yd)) flagNX)
    else if 256 * yd ≤ yn then (sign + 7, flagIf (decide (yn ≠ 256 * yd)) (flagOF ||| flagNX))
    else
      let j := ((List.range 7).filter (fun k => decide (q4nMag k * yd ≤ yn))).length - 1
      let lo := q4nMag j * yd
      let hi := q4nMag (j + 1) * yd
      if yn = lo then (sign + j, 0)
      else
        let up := roundsUp mode neg (decide (j % 2 = 1)) (yn - lo) (hi - lo) r
        (sign + j + (if up then 1 else 0), flagNX)
  | _ => (0, 0)

/-- A Q4N record of 64 values under a super-scale (R85); a value that takes no part gives code 0 and no flag. -/
def quantQ4n (sup : W32) (mode : Rm) (vs : List (Option Num × W32)) : Nat × BitVec 5 :=
  let s := f32 sup
  let used := vs.filterMap (fun v => v.1)
  let positive := match s with
    | .fin false n _ => decide (n ≠ 0)
    | _ => false
  if !positive || used.any (fun v => !v.isFin) then (0, flagNV ||| flagNX)
  else
    let (n, d) := maxMag used
    if n = 0 then (2 ^ 8 * packElems 4 (vs.map (fun v => if (v.1.map Num.neg?).getD false then 8 else 0)), 0)
    else
      let scaleOf := fun (q : Nat) => f32 (roundF32 (s.mul (.fin false q 256))).1
      let q := (((List.range 255).map (· + 1)).find? (fun q => !(scaleOf q).lt (.fin false n d))).getD 255
      let (p, e) := match scaleOf q with
        | .fin _ p e => (p, e)
        | _ => (1, 1)
      let cs := vs.map (fun v => match v.1 with
        | some x => q4nCode mode x p e v.2
        | none => (0, 0))
      (q + 2 ^ 8 * packElems 4 (cs.map (fun c => c.1)), cs.foldl (fun a c => a ||| c.2) 0)

/-! The random generator (R79, R80, R82). -/

/-- mix64 (R80). -/
def mix64 (z : W64) : W64 :=
  let z := z ^^^ (z >>> 30)
  let z := z * 0xBF58476D1CE4E5B9
  let z := z ^^^ (z >>> 27)
  let z := z * 0x94D049BB133111EB
  z ^^^ (z >>> 31)

/-- x(l) of R79. -/
def draw (seed ctr : W64) (l : Nat) : W64 := mix64 (seed + (ctr * 64 + BitVec.ofNat 64 l) * 0x9E3779B97F4A7C15)

/-- The random value of lane l: the high half (R82). -/
def drawHigh (seed ctr : W64) (l : Nat) : W32 := BitVec.ofNat 32 ((draw seed ctr l).toNat / 2 ^ 32)

/-! Fixed-point words (R89, R90). -/

/-- A value added into a 128-bit fixed-point word: the new word, and whether the overflow flag is set (R89). -/
def fixedAdd (w : BitVec 128) (v : Num) : BitVec 128 × Bool :=
  match v with
  | .nan _ => (w, true)
  | .inf neg => (if neg then BitVec.ofInt 128 (-2 ^ 127) else BitVec.ofInt 128 (2 ^ 127 - 1), true)
  | .fin neg n d =>
    let (c, _) := roundInt (-2 ^ 200) (2 ^ 200) (.fin neg (n * 2 ^ 64) d) .rne 0
    let t := w.toInt + c
    if 2 ^ 127 - 1 < t then (BitVec.ofInt 128 (2 ^ 127 - 1), true)
    else if t < -2 ^ 127 then (BitVec.ofInt 128 (-2 ^ 127), true)
    else (BitVec.ofInt 128 t, false)

/-- FP32 of a fixed-point word (R90). -/
def fixedRead (w : BitVec 128) : W32 × BitVec 5 := roundF32 (.fin (decide (w.toInt < 0)) w.toInt.natAbs (2 ^ 64))

end Sys2Proof.Machine
end

