-- ==== Sys2Proof/Machine/Queue.lean ====
section
/-! DEFINITION. Records and their names, task queues with their spill rings, releases and acquires, join counters and futures
(R120 to R134, R251 to R263). -/

namespace Sys2Proof.Machine

/-! Device accesses. -/

/-- The near cache of core c keeps up with bytes that the device wrote from va (log 11). -/
def nearRefresh (s : State) (c : CoreId) (va : W64) (bs : List Byte) : State :=
  s.setCore c { s.core c with near := (s.core c).near.map (fun l =>
    let at? := fun (i : Nat) => bs[(l.addr + BitVec.ofNat 64 i - va).toNat]?
    { l with bytes := Vector.ofFn (fun i : Fin 64 => match at? i.val with
                | some b => (l.bytes[i.val]).map (fun _ => b)
                | none => l.bytes[i.val]),
             dirty := (List.range 64).foldl (fun d i => if (at? i).isSome then d &&& ~~~BitVec.twoPow 64 i else d) l.dirty }) }

/-- A device write of bytes from va, in the partition of core c; bytes with no place are not written (log 12). -/
def deviceWrite (s : State) (c : CoreId) (va : W64) (bs : List Byte) : State :=
  match ownerWrite s c .peek va bs with
  | .ok t => nearRefresh t c va bs
  | .error _ => s

/-- A device read of n bytes from va as core c sees them; zero where there is no place (log 12). -/
def deviceRead (s : State) (c : CoreId) (va : W64) (n : Nat) : List Byte :=
  match place s c .peek va n with
  | .ok p => readRun s c [] va p n
  | .error _ => List.replicate n 0

/-- A 64-bit word that the device reads. -/
def deviceWord (s : State) (c : CoreId) (va : W64) : W64 := leWord 64 (deviceRead s c va 8)

/-- A partition's device reads and writes go through its lowest core (its tables are one for the partition, R405). -/
def coreOfPart (s : State) (p : PartId) : CoreId :=
  match s.image with
  | none => 0
  | some im => Fin.ofNat 512 (4 * im.qmap.toList.findIdx (fun b => b.toNat == p.val))

/-! Record names (R259). -/

/-- The name of the record at va, pushed or taken by core c. -/
def nameOf (c : CoreId) (va : W64) : W64 :=
  match classOf va with
  | 0 => BitVec.ofNat 64 ((quadOf c).val * 2 ^ 24 + wbits va 6 18 * 2 ^ 6)
  | 1 => BitVec.ofNat 64 (2 ^ 62 + wbits va 6 42 * 2 ^ 6)
  | _ => BitVec.ofNat 64 (2 ^ 63 + wbits va 6 42 * 2 ^ 6)

/-- Class of a name: 0 scratchpad, 1 lower half, 2 upper half. -/
def nameClass (n : W64) : Nat := wbits n 62 2

/-- The address that a name gives (R259); for class 0 within the named quad. -/
def nameAddr (n : W64) : W64 :=
  match nameClass n with
  | 0 => BitVec.ofNat 64 (wbits n 6 18 * 2 ^ 6)
  | 1 => BitVec.ofNat 64 (wbits n 6 42 * 2 ^ 6)
  | _ => BitVec.ofNat 64 (2 ^ 63 + wbits n 6 42 * 2 ^ 6)

/-- A core of the quad that a class 0 name names; otherwise core c. -/
def nameCore (c : CoreId) (n : W64) : CoreId :=
  if nameClass n = 0 then ⟨wbits n 24 7 * 4, by unfold wbits; omega⟩ else c

/-- The name of reserve-shelf entry e (R259): upper-half names with [47:22] all ones stand for the shelf (log 13). -/
def shelfName (e : Nat) : W64 := BitVec.ofNat 64 (2 ^ 63 + (2 ^ 26 - 1) * 2 ^ 22 + e % 65536 * 64)
/-- The shelf entry that a name names. -/
def nameShelf (n : W64) : Option Nat := if wbits n 22 26 = 2 ^ 26 - 1 ∧ nameClass n = 2 then some (wbits n 6 16) else none

/-- An empty shelf entry (R329). -/
def Shelf.zero : Shelf :=
  { state := .free, gen := 0, words := Vector.replicate _ 0, core := 0, part := 0, table := 0, pages := 0,
    cls := Vector.replicate _ 0, parkedAt := 0, crcs := [], timers := 0, demote := none, move := none, sources := [],
    pushed := false, poison := 0, stalled := [] }

/-- A name stands for a record that core c's partition may have: a scratchpad of its own quads, a shelf entry of its own, or memory under its
own table (R10, R259). A name that software has altered, and that names another partition's record, names none (log 99). -/
def nameIn (s : State) (c : CoreId) (name : W64) : Bool :=
  match nameShelf name with
  | some e => (aget Shelf.zero s.shelf e).part == s.partIdOf c
  | none => nameClass name != 0 || s.partOf (nameCore c name) == s.partOf c

/-- Bytes of a record, as core c sees them; zero where the name gives none. -/
def recordBytes (s : State) (c : CoreId) (name : W64) : List Byte :=
  if !nameIn s c name then List.replicate 64 0
  else match nameShelf name with
    | some e => (aget Shelf.zero s.shelf e).words.toList.flatMap (fun w => leBytes 8 w.toNat)
    | none => deviceRead s (nameCore c name) (nameAddr name) 64

/-- The eight words of a record. -/
def recordWords (s : State) (c : CoreId) (name : W64) : File 3 W64 :=
  let bs := recordBytes s c name
  Vector.ofFn (fun i : Fin (2 ^ 3) => leWord 64 ((bs.drop (8 * i.val)).take 8))

/-- A device write of word i of a record (R120). -/
def recordPut (s : State) (c : CoreId) (name : W64) (i : Nat) (w : W64) : State :=
  if !nameIn s c name then s
  else match nameShelf name with
    | some e =>
      let h := aget Shelf.zero s.shelf e
      { s with shelf := aset s.shelf e { h with words := h.words.setIfInBounds i w } }
    | none => deviceWrite s (nameCore c name) (nameAddr name + BitVec.ofNat 64 (8 * i)) (leBytes 8 w.toNat)

/-- Word i of a record's words. -/
def recWord (w : File 3 W64) (i : Nat) : W64 := (w[i]?).getD 0
/-- A record is invalid (R121); its address is given. -/
def badRecord (w : File 3 W64) (va : W64) : Bool :=
  decide (3 < wbits (recWord w 0) 48 4) || decide (6 ≤ wbits (recWord w 0) 56 3) || decide (wbits (recWord w 0) 62 2 ≠ 0)
    || decide (4 < wbits (recWord w 2) 32 4) || decide (1024 < wbits (recWord w 2) 36 16)
    || decide ((recWord w 1).toNat % 16 ≠ 0) || decide (va.toNat % 64 ≠ 0) || decide (wbits va 48 15 ≠ 0)
/-- w0.gang (R120). -/
def gangBit (w : File 3 W64) : Bool := wbit (recWord w 0) 61

/-! Releases and acquires (R250 to R257). -/

/-- Whether binding slots bind a region holding va to the object (kind, obj) (R250, R302, R313). -/
def bound (slots : Bindings) (kind : Nat) (obj : W64) (va : W64) : Bool :=
  slots.toList.any (fun b =>
    let k := wbits ((b[3]?).getD 0) 0 3
    let same := if k = 3 then wbits ((b[2]?).getD 0) 0 41 == wbits obj 0 41
      else if k = 4 then wbits ((b[2]?).getD 0) 0 3 == wbits obj 0 3
      else if k = 5 then wbits ((b[2]?).getD 0) 0 6 == wbits obj 0 6
      else if k = 6 then wbits ((b[2]?).getD 0) 0 24 == wbits obj 0 24 else ((b[2]?).getD 0) == obj
    decide (k ≠ 0) && decide (k = kind) && same
      && decide ((va - (b[0]?).getD 0).toNat < wbits ((b[1]?).getD 0) 0 32))

/-- Every byte (R257). -/
def everyByte : W64 → Bool := fun _ => true

/-- The release work of core c at a scope over the covered bytes (R252): from .core on the stores to the lower half, from .quad on every
dirty covered byte too. -/
def release (s : State) (c : CoreId) (scope : Nat) (sel : W64 → Bool) : State :=
  if scope = 0 then s else nearWriteBack s c (fun a => classOf a == 1 || (decide (2 ≤ scope) && sel a))

/-- The acquire work of core c at a scope over the covered bytes (R252). -/
def acquire (s : State) (c : CoreId) (scope : Nat) (sel : W64 → Bool) : State :=
  if scope < 2 then s else nearInvalidate s c sel

/-- A recorded write-back error that an acquire covers (R263): the line, and the state without the record. Of several lines that it covers, the
first recorded is reported and the others stay for a later acquire (the spec does not say; DESIGN CHOICE, log 112). -/
def reported (s : State) (c : CoreId) (sel : W64 → Bool) : Option (W64 × State) :=
  match (s.core c).poisoned.find? (fun l => (List.range 64).any (fun i => sel (l + BitVec.ofNat 64 i))) with
  | none => none
  | some l => some (l, s.setCore c { s.core c with poisoned := (s.core c).poisoned.erase l })

/-! The walk (R310). -/

/-- Count of dimension k, 1 where it is not in use. -/
def dimCount (sh : File 4 W64) (k : Nat) : Nat := if k ≤ shField sh 1 then shField sh (9 + k) else 1
/-- Source stride of dimension k. -/
def srcStride (sh : File 4 W64) (k : Nat) : W64 := shWord sh (3 + k)
/-- Destination stride of dimension k. -/
def dstStride (sh : File 4 W64) (k : Nat) : W64 := shWord sh (9 + k)
/-- The dimensions. -/
def dims : List Nat := [1, 2, 3, 4, 5, 6]
/-- Bytes of a run. -/
def runLen (sh : File 4 W64) : Nat := shField sh 0
/-- Number of runs; none when a count in use, or the length, is zero. -/
def walkRuns (sh : File 4 W64) : Nat := if runLen sh = 0 then 0 else dims.foldl (fun a k => a * dimCount sh k) 1
/-- Bytes of the walk. -/
def walkBytes (sh : File 4 W64) : Nat := runLen sh * walkRuns sh
/-- Index of dimension k in run r. -/
def walkIndex (sh : File 4 W64) (r k : Nat) : Nat :=
  r / (dims.filter (· < k)).foldl (fun a j => a * dimCount sh j) 1 % dimCount sh k
/-- Offset of run r by the strides. -/
def walkOff (sh : File 4 W64) (stride : Nat → W64) (r : Nat) : W64 :=
  dims.foldl (fun a k => a + BitVec.ofNat 64 (walkIndex sh r k) * stride k) 0
/-- Lowest offset of a run's start, from the counts and the signs of the strides. -/
def spanLow (sh : File 4 W64) (stride : Nat → W64) : Int :=
  dims.foldl (fun a k => if k ≤ shField sh 1 then a + min 0 (((dimCount sh k : Int) - 1) * (stride k).toInt) else a) 0
/-- Highest offset of a run's start. -/
def spanHigh (sh : File 4 W64) (stride : Nat → W64) : Int :=
  dims.foldl (fun a k => if k ≤ shField sh 1 then a + max 0 (((dimCount sh k : Int) - 1) * (stride k).toInt) else a) 0
/-- Every source byte of a walk lies from 0 to n - 1. -/
def srcWithin (sh : File 4 W64) (n : Nat) : Bool :=
  decide (walkRuns sh = 0) || (decide (0 ≤ spanLow sh (srcStride sh)) && decide (spanHigh sh (srcStride sh) + runLen sh ≤ n))
/-- Every destination byte of a walk lies from 0 to n - 1. -/
def dstWithin (sh : File 4 W64) (n : Nat) : Bool :=
  decide (walkRuns sh = 0) || (decide (0 ≤ spanLow sh (dstStride sh)) && decide (spanHigh sh (dstStride sh) + runLen sh ≤ n))

/-! Observed work (R312, R313). -/

/-- A byte that such work has written: it lies in one of the runs of its walk. -/
def Landed.covers (l : Landed) (a : W64) : Bool :=
  (List.range (walkRuns l.shape)).any (fun r => decide ((a - (l.dst + walkOff l.shape (dstStride l.shape) r)).toNat < l.run))

/-- The bytes that the work observed in a given way has written. -/
def landedBytes (s : State) (f : LandBy → Bool) : W64 → Bool := fun a => s.landed.any (fun l => f l.via && l.covers a)

/-- Work that has written destination bytes is noted, once; bytes of a scratchpad are never cached, so they need no acquire. -/
def noteLanded (s : State) (l : Landed) : State :=
  if classOf l.dst = 0 ∨ s.landed.contains l then s else { s with landed := s.landed ++ [l] }

/-- The smallest scope that holds both cores (R37, R135, R257). -/
def scopeOf (a b : CoreId) : Nat := if a = b then 1 else if quadOf a = quadOf b then 2 else if dieOf a = dieOf b then 3 else 4

/-! Task queues (R126 to R130, R259). -/

/-- A task-queue entry (R259). -/
def queueEntry (name : W64) (started : Bool) (scope : Nat) (origin : CoreId) (host : Bool) : W64 :=
  BitVec.ofNat 64 (started.toNat * 4 + scope % 8 * 8 + wbits name 6 42 * 2 ^ 6 + origin.val * 2 ^ 48 + host.toNat * 2 ^ 57
    + nameClass name * 2 ^ 62)

/-- The record name of an entry. -/
def entryName (e : W64) : W64 := BitVec.ofNat 64 (wbits e 6 42 * 2 ^ 6 + wbits e 62 2 * 2 ^ 62)

/-- Why a push is not made: the queue is full, or its ring entry has no place, waits for a translation, or lies in a page that the host does
not let the device write (R127, R128, R223, R224). -/
inductive PushFail where
  | full
  | txlate (info : W64)
  | missing (p : Place)
  | refused (va : W64)
  deriving DecidableEq, Repr

/-- Entries of a spill ring (R127). -/
def spillEntries (k : Core) : Nat := if k.spillSize.toNat < 6 ∨ 16 < k.spillSize.toNat then 0 else 2 ^ k.spillSize.toNat

/-- The head of the spill ring moves to the hardware queue while that has room (R127); in the lower half it waits for its translation, and for
the host to let the device read it (R223, R224). -/
def refill : Nat → State → CoreId → State
  | 0, s, _ => s
  | n + 1, s, c =>
    let k := s.core c
    if k.spillCount = 0 ∨ 32 ≤ k.queue.length ∨ spillEntries k = 0 then s
    else
      let va := k.spillBase + BitVec.ofNat 64 (8 * k.spillHead.toNat)
      let p := placeByte s c .peek va
      match p.toOption.map (fun q => (q, reach s (dieOf c) q false)) with
      | some (q, .missing) => askPlace s (dieOf c) q
      | some (_, .refused) => s
      | _ =>
        refill n (s.setCore c { k with
          queue := k.queue ++ [deviceWord s c va], spillHead := BitVec.ofNat 16 ((k.spillHead.toNat + 1) % spillEntries k),
          spillCount := k.spillCount - 1 }) c

/-- An entry at the tail of the queue of core c: in the hardware queue while it has room and the ring is empty, else in the ring. -/
def pushTail (s : State) (c : CoreId) (e : W64) : Except PushFail State :=
  let k := s.core c
  if k.queue.length < 32 ∧ k.spillCount = 0 then .ok (s.setCore c { k with queue := k.queue ++ [e] })
  else if k.spillCount < spillEntries k then
    let va := k.spillBase + BitVec.ofNat 64 (8 * k.spillTail.toNat)
    match place s c .store va 8 with
    | .error r => .error (.txlate (txInfo va r))
    | .ok p => match reach s (dieOf c) p true with
      | .missing => .error (.missing p)
      | .refused => .error (.refused va)
      | .ready =>
        let t := nearRefresh (s.writeAt p.key (leBytes 8 e.toNat)) c va (leBytes 8 e.toNat)
        .ok (t.setCore c { t.core c with
          spillTail := BitVec.ofNat 16 ((k.spillTail.toNat + 1) % spillEntries k), spillCount := k.spillCount + 1 })
  else .error .full

/-- Entries of a core's task queue, hardware queue and ring together. -/
def queueLength (k : Core) : Nat := k.queue.length + k.spillCount

/-- Address of position i of the queue that lies in the ring. -/
def ringAddr (k : Core) (i : Nat) : W64 :=
  k.spillBase + BitVec.ofNat 64 (8 * ((k.spillHead.toNat + (i - k.queue.length)) % spillEntries k))

/-- The entry at position i of the queue of core c. -/
def entryAt (s : State) (c : CoreId) (i : Nat) : W64 := ((s.core c).queue[i]?).getD (deviceWord s c (ringAddr (s.core c) i))

/-- The queue of core c with position i replaced. -/
def putEntryAt (s : State) (c : CoreId) (i : Nat) (e : W64) : State :=
  if i < (s.core c).queue.length then s.setCore c { s.core c with queue := (s.core c).queue.set i e }
  else deviceWrite s c (ringAddr (s.core c) i) (leBytes 8 e.toNat)

/-- The entry at position i moves m places towards the head, those that it passes one place back. -/
def moveUp (c : CoreId) : Nat → Nat → State → State
  | 0, _, s => s
  | m + 1, i, s => moveUp c m (i - 1) (putEntryAt (putEntryAt s c i (entryAt s c (i - 1))) c (i - 1) (entryAt s c i))

/-- Order of the pushes of one cycle (R126): the core's own spawn or yield first, then qpush by core, then the dispatcher and the device's
own pushes. -/
inductive Pusher where
  | own
  | qpush (c : CoreId)
  | device

/-- Rank of a push. -/
def Pusher.rank : Pusher → Nat
  | .own => 0
  | .qpush c => 1 + c.val
  | .device => 513

/-- The entry at the tail of the queue of core c leaves it. -/
def dropTail (s : State) (c : CoreId) : State :=
  let k := s.core c
  s.setCore c (if k.spillCount = 0 then { k with queue := k.queue.dropLast, fresh := k.fresh.dropLast }
    else { k with spillTail := BitVec.ofNat 16 ((k.spillTail.toNat + spillEntries k - 1) % spillEntries k), spillCount := k.spillCount - 1,
                  fresh := k.fresh.dropLast })

/-- An entry at the tail of the queue of core c; when it is full, the last entry that the dispatcher or the device pushed in this cycle, which
comes after the other pushes of the cycle, is held again and makes place (R126, R128; log 25). -/
def pushPlace (s : State) (c : CoreId) (w : Pusher) (e : W64) : Except PushFail State :=
  let k := s.core c
  match pushTail s c e with
  | .error .full =>
    if k.freshAt = s.cycle ∧ k.fresh.getLast? = some Pusher.device.rank ∧ w.rank < Pusher.device.rank ∧ queueLength k ≠ 0 then
      let last := entryAt s c (queueLength k - 1)
      match pushTail (dropTail s c) c e with
      | .error f => .error f
      | .ok t => .ok (t.setCore c { t.core c with heldPushes := (t.core c).heldPushes ++ [last] })
    else .error .full
  | r => r

/-- A push of an entry to the queue of core c: at the tail, but before the entries that pushes of a later rank put there in the same
cycle (R126; log 25). -/
def push (s : State) (c : CoreId) (w : Pusher) (e : W64) : Except PushFail State :=
  match pushPlace s c w e with
  | .error f => .error f
  | .ok t =>
    let k := t.core c
    let old := if k.freshAt = s.cycle then k.fresh else []
    let m := min (old.filter (fun r => decide (w.rank < r))).length (queueLength k - 1)
    let t := t.setCore c { t.core c with
      freshAt := s.cycle, fresh := old.filter (fun r => decide (r ≤ w.rank)) ++ w.rank :: old.filter (fun r => decide (w.rank < r)) }
    .ok (moveUp c m (queueLength k - 1) t)

/-- Held pushes are placed in order while the queue takes them, ahead of any push attempted later (R128). -/
def retryHeld : Nat → State → CoreId → State
  | 0, s, _ => s
  | n + 1, s, c =>
    match (s.core c).heldPushes with
    | [] => s
    | e :: t =>
      match pushTail s c e with
      | .ok u => retryHeld n (u.setCore c { u.core c with heldPushes := t, fresh := [] }) c
      | .error (.missing p) => askPlace s (dieOf c) p
      | .error _ => s

/-- A push after those that are held, which were attempted before it and go first; it fails as the first of them does (R127, R128). -/
def pushAfterHeld (s : State) (c : CoreId) (w : Pusher) (e : W64) : Except PushFail State :=
  let s := retryHeld (s.core c).heldPushes.length (refill 32 s c) c
  match (s.core c).heldPushes with
  | [] => push s c w e
  | h :: _ => match pushTail s c h with
    | .ok _ => .error .full
    | .error f => .error f

/-- A push that is held when it cannot be made, never lost (R128). -/
def heldPush (s : State) (c : CoreId) (w : Pusher) (e : W64) : State :=
  match pushAfterHeld s c w e with
  | .ok t => t
  | .error f =>
    let s := match f with
      | .missing p => askPlace s (dieOf c) p
      | _ => s
    s.setCore c { s.core c with heldPushes := (s.core c).heldPushes ++ [e] }

/-- A push that the device makes on its own account (R128). -/
def devicePush (s : State) (c : CoreId) (e : W64) : State := heldPush s c .device e

/-- The head entry leaves the queue, and the ring moves up (R127). -/
def popQueue (s : State) (c : CoreId) : State :=
  refill 32 (s.setCore c { s.core c with queue := (s.core c).queue.tail }) c

/-! Read-modify-writes at the owner point (R124, R132, R233, R248). -/

/-- The near-cache lines of the bytes leave the core, written back, and the place is found; the host carries no atomic of 16 bytes (R248). -/
def atOwner (s : State) (c : CoreId) (acc : Access) (va : W64) (n : Nat) : Except W64 (State × Nat) :=
  match (if 8 < n ∧ classOf va = 1 then .error 3 else place s c acc va n) with
  | .error r => .error (txInfo va r)
  | .ok p => let t := if p.cached then nearDrop s c va else s
    .ok (t, p.key)

/-- The two words of a counter or future. -/
def pairAt (s : State) (key : Nat) : W64 × W64 := (leWord 64 (s.mem.readRun key 8), leWord 64 (s.mem.readRun (key + 8) 8))
/-- The two words written in one operation. -/
def pairPut (s : State) (key : Nat) (w0 w1 : W64) : State :=
  s.writeAt key (leBytes 8 w0.toNat ++ leBytes 8 w1.toNat)

/-- Core held in a counter's word 1 or a waiter link, bits [56:48] (R124, R133). -/
def linkCore (w : W64) : CoreId := ⟨wbits w 48 9, by unfold wbits; omega⟩
/-- Record name held in a counter's word 1 or a waiter link. -/
def linkName (w : W64) : W64 := BitVec.ofNat 64 (wbits w 6 42 * 2 ^ 6 + wbits w 62 2 * 2 ^ 62)
/-- A link naming a record that waits on a core. -/
def linkTo (name : W64) (c : CoreId) : W64 :=
  BitVec.ofNat 64 (wbits name 6 42 * 2 ^ 6 + c.val * 2 ^ 48 + nameClass name * 2 ^ 62)

/-- The partition of a record that the device keeps: that of its team, or of the host queue it came from. -/
def State.recPart (s : State) (r : Record) : Option PartId :=
  match s.teams.find? (fun t => t.id == r.team) with
  | some t => some t.part
  | none => r.host.map (fun h => ⟨wbits (s.queues[h.1.val]'h.1.isLt).q1 8 4, by unfold wbits; omega⟩)

/-- A kept record goes by a name in a partition. -/
def State.names (s : State) (p : PartId) (name : W64) (r : Record) : Bool := r.name == name && s.recPart r == some p

/-- What the device keeps of a suspended record of a partition (its effective scope, host slot and team) under its name. -/
def State.kept (s : State) (p : PartId) (name : W64) : Option Record := s.suspended.find? (s.names p name)

/-- The record that goes by a name is no longer kept. -/
def State.forget (s : State) (p : PartId) (name : W64) : State :=
  { s with suspended := s.suspended.filter (fun r => !s.names p name r) }

/-- The effective scope with which a waiting record is pushed: the one its context had (R261), kept while it waits. -/
def waitScope (s : State) (c : CoreId) (name : W64) : Nat :=
  match s.kept (s.partIdOf c) name with
  | some r => r.scope.toNat
  | none => wbits (recWord (recordWords s c name) 0) 56 3

/-- A record released by a counter or a future is pushed to the queue of the core in its link, when that core is in the partition of core c:
a link that software has altered reaches no other partition (R10, R124, R134; log 99). -/
def releasePush (s : State) (c : CoreId) (link name : W64) : State :=
  if nameIn s c name && s.partOf (linkCore link) == s.partOf c then
    devicePush s (linkCore link) (queueEntry name true (waitScope s (linkCore link) name) (linkCore link) false)
  else s

/-- A decrement of the join counter at w1 for core c (R124): at zero a waiting record is pushed where it waits. Where w1 has no place at
the completion there is no counter to change, and nothing is done (the spec is silent; DESIGN CHOICE, log 12). -/
def joinDown (s : State) (c : CoreId) (w1 : W64) : State :=
  match atOwner s c .atomic w1 16 with
  | .error _ => s
  | .ok (s, key) =>
    let (n, w) := pairAt s key
    if n = 0 then
      let p := s.partIdOf c
      s.setPart p { s.part p with abandoned := (s.part p).abandoned + 1 }
    else if n = 1 ∧ w ≠ 0 then
      releasePush (pairPut s key 0 0) c w (linkName w)
    else pairPut s key (n - 1) w

/-- State of a future (R132). -/
def futState (w0 : W64) : Nat := wbits w0 0 2
/-- Waiters of a future. -/
def futWaiters (w0 : W64) : Nat := wbits w0 2 14
/-- Name at the head of a future's chain. -/
def futHead (w0 : W64) : W64 := BitVec.ofNat 64 (wbits w0 16 42 * 2 ^ 6 + wbits w0 62 2 * 2 ^ 62)
/-- Word 0 of a future. -/
def futWord (state waiters : Nat) (head : W64) : W64 :=
  BitVec.ofNat 64 (state + waiters % 2 ^ 14 * 4 + wbits head 6 42 * 2 ^ 16 + nameClass head * 2 ^ 62)

/-- The chain of waiting records is released from its head (R134); core c gives the partition. -/
def releaseChain : Nat → State → CoreId → W64 → State
  | 0, s, _, _ => s
  | n + 1, s, c, name =>
    if name = 0 ∨ !nameIn s c name then s
    else
      let link := recWord (recordWords s c name) 3
      releaseChain n (recordPut (releasePush s c link name) c name 3 0) c (linkName link)

/-- A future at va resolved (state 2) or poisoned (state 3) with a value (R133, R134, R208). -/
def resolveFuture (s : State) (c : CoreId) (va : W64) (state : Nat) (value : W64) : Except (Cause × W64) State :=
  match atOwner s c .atomic va 16 with
  | .error i => .error (.txlate, i)
  | .ok (s, key) =>
    let (w0, _) := pairAt s key
    if 2 ≤ futState w0 then .error (.dresolve, va)
    else .ok (releaseChain (futWaiters w0) (pairPut s key (futWord state 0 0) value) c
      (if futWaiters w0 = 0 then 0 else futHead w0))

end Sys2Proof.Machine
end

