-- ==== Sys2Proof/Machine/Tiles.lean ====
section
/-! DEFINITION. Tile pools, handles, grants and the acts on a tile (R264 to R280). -/

namespace Sys2Proof.Machine

/-- A tile never granted: FREE at generation 0 (R266). -/
def Tile.zero : Tile := { state := .free, gen := 0, reads := 0, share := 0, team := 0 }

/-- Word i of a pool descriptor. -/
def Pool.word (p : Pool) (i : Nat) : W64 := (p.desc[i]?).getD 0
/-- The pool is valid. -/
def Pool.valid (p : Pool) : Bool := wbit (p.word 0) 25
/-- Scratchpad offset of tile 0. -/
def Pool.base (p : Pool) : Nat := wbits (p.word 0) 0 22
/-- Bytes of a tile: 4 KiB to 64 KiB. -/
def Pool.tsize (p : Pool) : Nat := 4096 * 2 ^ wbits (p.word 0) 22 3
/-- Number of tiles. -/
def Pool.count (p : Pool) : Nat := wbits (p.word 0) 32 13
/-- Reserved minimum of share s. -/
def Pool.res (p : Pool) (s : Nat) : Nat := wbits (p.word 1) (16 * s) 13
/-- Quota of share s. -/
def Pool.quota (p : Pool) (s : Nat) : Nat := wbits (p.word 2) (16 * s) 13
/-- Tile i of a pool. -/
def Pool.tile (p : Pool) (i : Nat) : Tile := aget Tile.zero p.tiles i
/-- The pool with tile i replaced. -/
def Pool.setTile (p : Pool) (i : Nat) (t : Tile) : Pool := { p with tiles := aset p.tiles i t }
/-- The 4 KiB units that a valid pool withholds from the scratch grants (R229, R265). -/
def Pool.units (p : Pool) : Nat := if p.valid then p.count * p.tsize / 4096 else 0

/-- Tiles of share s that are not FREE (R269). -/
def Pool.held (p : Pool) (s : Nat) : Nat :=
  ((List.range p.count).filter (fun i => decide ((p.tile i).state ≠ .free) && (p.tile i).share.toNat == s)).length
/-- FREE tiles of the pool. -/
def Pool.freeCount (p : Pool) : Nat := ((List.range p.count).filter (fun i => decide ((p.tile i).state = .free))).length

/-- Whether a request of share s can be granted (R269). -/
def Pool.grantable (p : Pool) (s : Nat) : Bool :=
  p.valid && decide (p.held s < p.quota s)
    && decide (((List.range 4).filter (· != s)).foldl (fun a t => a + (p.res t - p.held t)) 0 + 1 ≤ p.freeCount)

/-- The FREE tile with the lowest index. -/
def Pool.firstFree (p : Pool) : Option Nat := (List.range p.count).find? (fun i => decide ((p.tile i).state = .free))

/-- Handle of tile i of pool q of core c at a generation (R267). -/
def handleOf (c q i : Nat) (gen : BitVec 16) : W64 :=
  BitVec.ofNat 64 (gen.toNat + i % 4096 * 2 ^ 16 + q * 2 ^ 28 + c % 64 * 2 ^ 32 + c / 64 * 2 ^ 38)

/-- Core of a handle (R267). -/
def handleCore (h : W64) : CoreId := ⟨wbits h 38 3 * 64 + wbits h 32 6, by unfold wbits; omega⟩
/-- Pool of a handle. -/
def handlePool (h : W64) : Fin 16 := ⟨wbits h 28 4, by unfold wbits; omega⟩
/-- Index of a handle. -/
def handleIndex (h : W64) : Nat := wbits h 16 12

/-- The pool that a handle names. -/
def State.pool (s : State) (c : CoreId) (q : Fin 16) : Pool := (s.core c).pools[q.val]'q.isLt
/-- The state with that pool replaced. -/
def State.setPool (s : State) (c : CoreId) (q : Fin 16) (p : Pool) : State :=
  s.setCore c { s.core c with pools := (s.core c).pools.set q.val p q.isLt }
/-- The pool of a handle. -/
def poolOf (s : State) (h : W64) : Pool := s.pool (handleCore h) (handlePool h)
/-- The tile of a handle. -/
def tileOf (s : State) (h : W64) : Tile := (poolOf s h).tile (handleIndex h)
/-- The state with the tile of a handle replaced. -/
def setTile (s : State) (h : W64) (t : Tile) : State :=
  s.setPool (handleCore h) (handlePool h) ((poolOf s h).setTile (handleIndex h) t)

/-- A tile that a killed team holds and whose last read has been spent: it is FREE for its readers, and granted to no one before its drain is
confirmed (R279, R383 step 4). -/
def Tile.spent (t : Tile) : Bool := t.state == .published && t.reads == 0

/-- A handle matches its tile (R267). -/
def handleMatches (s : State) (h : W64) : Bool :=
  (poolOf s h).valid && decide (handleIndex h < (poolOf s h).count) && ((tileOf s h).gen.toNat == wbits h 0 16)
    && decide ((tileOf s h).state ≠ .free) && !(tileOf s h).spent

/-- Scratchpad offset of a handle's tile (R268). -/
def tileOffset (s : State) (h : W64) : Nat := (poolOf s h).base + handleIndex h * (poolOf s h).tsize
/-- Scratchpad address of a handle's tile, seen from its quad (R268). -/
def tileAddr (s : State) (h : W64) : W64 := BitVec.ofNat 64 ((handleCore h).val % 4 * 2 ^ 22 + tileOffset s h)

/-- trap_info of TSTALE (R277). -/
def tstaleInfo (h : W64) (reason : Nat) : W64 := BitVec.ofNat 64 (wbits h 0 41 + reason * 2 ^ 56)

/-- A tile returns to FREE: its generation advances (R266). -/
def Tile.toFree (t : Tile) : Tile := { t with state := .free, gen := t.gen + 1, reads := 0 }

/-- A context's cause that waits for its next bundle boundary (R369); an earlier one keeps its place. -/
def Ctx.pend (k : Ctx) (f : Late) : Ctx := { k with pendFault := k.pendFault.or (some f) }

/-- The cause of an operation. -/
def Op.late (o : Op) (c : Cause) (info : W64) : Late := { cause := c, info := info, pc := o.pc, words := o.words }

/-- The operation is of a bundle that a handler of the context has issued (R372). -/
def Ctx.ofHandler (k : Ctx) (o : Op) : Bool := k.handler && decide (k.epoch < o.epoch)

/-- A tile load of the handle h that waits for its publication. -/
def Op.awaits (o : Op) (h : W64) : Bool := match o.kind with
  | .tile g _ _ _ _ => wbits g 0 41 == wbits h 0 41
  | _ => false

/-- A waiting tile load ends with TSTALE (R272): it is gone, its destination full with the value it held, in the registers, in those of
the checkpoint when the load stands before it (a vldtc), and in those that a handler will return to. One of a handler's own bundle ends the
continuation at the next boundary (R372). -/
def Ctx.dropRead (k : Ctx) (o : Op) : Ctx :=
  let h := match o.kind with
    | .tile g _ _ _ _ => g
    | _ => 0
  let f := fun (r : Regs) => match o.dest with
    | .vector d _ => r.markV d true
    | _ => r
  let y := { k with r := f k.r, ck := if o.epoch < k.epoch then f k.ck else k.ck,
                    frame := if o.epoch ≤ k.epoch then k.frame.map f else k.frame, ops := k.ops.filter (fun p => p.id != o.id) }
  let t := o.late .tstale (tstaleInfo h 1)
  if k.ofHandler o then { y with ownFault := y.ownFault.or (some t) } else y.pend t

/-- The tile loads that wait for the tile of h end with TSTALE reason 1 (R272). -/
def staleReads (s : State) (h : W64) : State :=
  let c := handleCore h
  ([0, 1, 2, 3] : List (Fin 4)).foldl (fun s r => ([0, 1, 2, 3] : List CtxId).foldl (fun s x =>
    let k := s.ctx (peerOf c r) x
    if k.ops.any (·.awaits h) then
      s.setCtx (peerOf c r) x ((k.ops.filter (·.awaits h)).foldl Ctx.dropRead k)
    else s) s) s

/-- The team has been killed and its drain is not confirmed (R383). -/
def quarantined (s : State) (team : Nat) : Bool := s.teams.any (fun t => t.id == team && t.killed)

/-- The tile of a handle leaves its readers: FREE, or spent while its team is in quarantine. -/
def giveUpTile (s : State) (h : W64) : State :=
  let t := tileOf s h
  setTile s h (if quarantined s t.team then { t with state := .published, reads := 0 } else t.toFree)

/-- The tile of a handle is given up; loads that waited for its publication end. -/
def freeTile (s : State) (h : W64) : State := staleReads (giveUpTile s h) h

/-- One read spent (R271, R276): the last one frees the tile. -/
def spendTile (s : State) (h : W64) : State :=
  let t := tileOf s h
  if t.reads.toNat ≤ 1 then giveUpTile s h else setTile s h { t with reads := t.reads - 1 }

/-- The tile of a handle published (R271, R275). -/
def publishTile (s : State) (h : W64) : State := setTile s h { tileOf s h with state := .published }

/-- A request enters a pool's queue (R270). -/
def askTile (s : State) (c : CoreId) (q : Fin 16) (r : PoolReq) : State :=
  s.setPool c q { s.pool c q with waiting := (s.pool c q).waiting ++ [r] }

/-- An asker's requests leave the queue of every pool of core c. -/
def withdraw (s : State) (c : CoreId) (who : Asker) : State :=
  s.setCore c { s.core c with
    pools := (s.core c).pools.map (fun p => { p with waiting := p.waiting.filter (fun r => decide (r.who ≠ who)) }) }

/-- The first waiting request that R269 allows, with its tile. -/
def firstGrant (p : Pool) : Option (PoolReq × Nat) :=
  match p.waiting.find? (fun r => p.grantable r.share.toNat), p.firstFree with
  | some r, some i => some (r, i)
  | _, _ => none

/-- The pool after that grant (R269). -/
def Pool.grant (p : Pool) (r : PoolReq) (i : Nat) : Pool :=
  { p.setTile i { p.tile i with state := .open, reads := r.reads, share := r.share, team := r.team } with
    waiting := p.waiting.erase r }

/-- The handles of the tiles that a team holds anywhere in the package, lowest core, pool and index first (R278). -/
def heldTiles (s : State) (team : Nat) : List W64 :=
  s.cores.toList.zipIdx.flatMap (fun k => k.1.pools.toList.zipIdx.flatMap (fun p =>
    (p.1.tiles.filter (fun t => decide (t.2.state ≠ .free) && t.2.team == team)).map
      (fun t => handleOf k.2 p.2 t.1 t.2.gen)))

/-- The held tile with the lowest pool and index (R278). Of two on different cores that agree in both, that of the lowest core: the spec does not
say which (DESIGN CHOICE, log 101). -/
def lowestTile (hs : List W64) : W64 := hs.foldl (fun a h => if wbits h 16 16 < wbits a 16 16 then h else a) (hs.headD 0)

/-- Every tile a team holds set FREE at its end by status (R278); loads that wait for one end as those of a dropped tile (log 26). -/
def reclaim (s : State) (team : Nat) : State :=
  (heldTiles s team).foldl (fun s h => staleReads (setTile s h (tileOf s h).toFree) h) s

/-- A consuming copy that waits for the publication of one of the tiles. -/
def Copy.awaits (k : Copy) (hs : List W64) : Bool :=
  k.waiting && !k.started && k.form == .plain && hs.any (fun h => wbits k.src 0 41 == wbits h 0 41)

/-- Every tile a killed team holds set FREE, with no trap in any context (R279). The spec does not say what becomes of the reads that wait for
the publication of one, a vldt, a vldtc or a consuming copy: they wait without end (DESIGN CHOICE, log 26); a copy that does counts as started,
so that it never finds the newer generation. -/
def reclaimSilently (s : State) (team : Nat) : State :=
  let hs := heldTiles s team
  let s := hs.foldl (fun s h => setTile s h (tileOf s h).toFree) s
  if hs.isEmpty then s
  else { s with cores := s.cores.map (fun k => { k with engine := k.engine.map (fun e =>
      { e with copies := e.copies.map (fun q => if q.awaits hs then { q with started := true } else q) }) }) }

end Sys2Proof.Machine
end

