-- ==== Sys2Proof/Machine/Host.lean ====
section
/-! DEFINITION. What the device writes for the host: completion entries, status-ring entries, MSI-X (R373, R391, R414 to R418). -/

namespace Sys2Proof.Machine

/-- Host queue page q (R416). -/
def State.queue (s : State) (q : QueueId) : HostQueue := s.queues[q.val]'q.isLt
/-- The state with that page replaced. -/
def State.setQueue (s : State) (q : QueueId) (h : HostQueue) : State := { s with queues := s.queues.set q.val h q.isLt }

/-- log2 of the slots. -/
def HostQueue.size (h : HostQueue) : Nat := wbits h.q1 0 4
/-- Partition of the queue. -/
def HostQueue.part (h : HostQueue) : PartId := ⟨wbits h.q1 8 4, by unfold wbits; omega⟩
/-- The dispatcher serves the queue. -/
def HostQueue.en (h : HostQueue) : Bool := wbit h.q1 12
/-- Fed by LAUNCH packets. -/
def HostQueue.fabric (h : HostQueue) : Bool := wbit h.q1 13
/-- MSI-X vector of completions. -/
def HostQueue.vec (h : HostQueue) : BitVec 11 := BitVec.ofNat 11 (wbits h.q1 16 11)
/-- Next slot to fill. -/
def HostQueue.tail (h : HostQueue) : Nat := wbits h.q2 0 16
/-- Next slot the dispatcher takes. -/
def HostQueue.head (h : HostQueue) : Nat := wbits h.q2 16 16
/-- Slots taken and not yet completed. -/
def HostQueue.busy (h : HostQueue) : Nat := wbits h.q2 32 16
/-- Completion entries written. -/
def HostQueue.ctail (h : HostQueue) : Nat := wbits h.q4 0 16
/-- The queue stops with an error: en reads as 0 (R416). -/
def HostQueue.stop (h : HostQueue) (err : Nat) : HostQueue := { h with q4 := wset h.q4 16 8 err, q1 := wset h.q1 12 1 0 }
/-- Slots filled and not taken: all of them when the device has filled the last one. -/
def HostQueue.pending (h : HostQueue) : Nat := if h.full then 2 ^ h.size else (h.tail + 2 ^ 16 - h.head) % 2 ^ h.size

/-- What the host does through the host port, which boot step 7 enables (R428): nothing before. -/
def hostAct (s : State) (f : State → State) : State := if s.boot = .ready then f s else s

/-- What stands before an access of the host port to a lower-half address of a partition's process (R223, R416): it uses the IOTLB of die
0 (DESIGN CHOICE, log 97). -/
def hostReach (s : State) (p : PartId) (va : Nat) (write : Bool) : Reach := reach s 0 (.host (s.part p).pid va) write

/-- The translation that an access of the host port lacks is asked for. -/
def askHostPort (s : State) (p : PartId) (va : Nat) : State := askHost s 0 (s.part p).pid va

/-- Where the next completion entry of a queue goes. -/
def HostQueue.entryAddr (h : HostQueue) : Nat := h.q3.toNat + 16 * (h.ctail % 2 ^ h.size)

/-- The completion entry of a slot taken from a host queue (R416, R418): it waits for its translation, behind those of the queue that wait
already; a ring that the host does not let the device write stops the queue. -/
def writeCompletion (s : State) (e : Completion) : State :=
  let h := s.queue e.queue
  let n := h.ctail
  let va := h.entryAddr
  let later := { s with completions := s.completions ++ [e] }
  if s.completions.any (fun f => f.queue == e.queue) then later
  else match hostReach s h.part va true with
    | .missing => askHostPort later h.part va
    | .refused => s.setQueue e.queue (h.stop 2)
    | .ready =>
      let c0 := e.slot.toNat + e.status.toNat * 2 ^ 16 + e.killed.toNat * 2 ^ 24 + n / 2 ^ h.size % 2 * 2 ^ 31
      let s := s.writeAt (keyHost (s.part h.part).pid va) (leBytes 8 c0 ++ leBytes 8 e.info.toNat)
      (s.setQueue e.queue { h with q4 := wset h.q4 0 16 (n + 1), q2 := wset h.q2 32 16 (h.busy - 1) }).emit (.msix h.vec)

/-- The completion entries that wait are tried again, in their order. -/
def retryCompletions (s : State) : State := s.completions.foldl writeCompletion { s with completions := [] }

/-- The completion entry of a slot with its contents. -/
def completeSlot (s : State) (q : QueueId) (slot : BitVec 16) (status : Byte) (killed : Bool) (info : W64) : State :=
  writeCompletion s { queue := q, slot := slot, status := status, killed := killed, info := info }

/-- The completion entry of a record, if it came from a host queue. -/
def completeHost (s : State) (r : Record) (status : Byte) (killed : Bool) (info : W64) : State :=
  match r.host with
  | some (q, slot) => completeSlot s q slot status killed info
  | none => s

/-- A status-ring entry of a partition (R373, R391). -/
def statusEntry (s : State) (p : PartId) (c : CoreId) (x : CtxId) (name : W64) (status : Byte) (inhandler killed : Bool)
    (pc : CodeAddr) (info : W64) : State :=
  let k := s.part p
  let n := wbits k.sringCtl 32 5
  let head := wbits k.sringCtl 0 16
  let tail := wbits k.sringCtl 16 16
  if (tail + 1) % 2 ^ n = head then s.setPart p { k with sringLost := k.sringLost + 1 }
  else
    let e1 := status.toNat + inhandler.toNat * 2 ^ 8 + killed.toNat * 2 ^ 9 + c.val * 2 ^ 32 + x.val * 2 ^ 41
    let s := deviceWrite s c (k.sringBase + BitVec.ofNat 64 (32 * tail))
      (leBytes 8 (nameAddr name).toNat ++ leBytes 8 e1 ++ leBytes 8 pc.toNat ++ leBytes 8 info.toNat)
    let s := s.setPart p { s.part p with sringCtl := wset k.sringCtl 16 16 ((tail + 1) % 2 ^ n) }
    s.emit (.msix (BitVec.ofNat 11 (deviceWord s c (k.hbase + 0x1F8)).toNat))

end Sys2Proof.Machine
end

