-- ==== Sys2Proof/Machine/Shelf.lean ====
section
/-! DEFINITION. Circulation's data: free lists (R391), pages of tiers (R317, R318, R330), the CRC-32C of sectors, and the reserve
shelf with its wake writes (R329 to R333). -/

namespace Sys2Proof.Machine

/-! CRC-32C (R330). -/

/-- One bit of a CRC-32C, reflected polynomial. -/
def crcBit (c : W32) : W32 := if c.getLsbD 0 then (c >>> 1) ^^^ 0x82F63B78#32 else c >>> 1
/-- One byte of a CRC-32C. -/
def crcByte (c : W32) (b : Byte) : W32 := (List.range 8).foldl (fun c _ => crcBit c) (c ^^^ BitVec.ofNat 32 b.toNat)
/-- CRC-32C of bytes. -/
def crc32c (bs : List Byte) : W32 := ~~~(bs.foldl crcByte (BitVec.allOnes 32))
/-- The values of the 32 sectors of a page from key k. -/
def pageCrcs (s : State) (k : Nat) : List W32 := (List.range 32).map (fun i => crc32c (s.mem.readRun (k + 512 * i) 512))

/-! Free lists (R391), tiers 1 to 4. -/

/-- Index of a tier's free list. -/
def flIndex (tier : Nat) : Fin 4 := ⟨(tier + 3) % 4, by omega⟩
/-- Control word of a tier's list. -/
def Part.fl (p : Part) (tier : Nat) : W64 := p.flCtl[(flIndex tier).val]'(flIndex tier).isLt
/-- Positions of a tier's list. -/
def Part.flSize (p : Part) (tier : Nat) : Nat := 2 ^ wbits (p.fl tier) 56 5
/-- Frames that a tier's list holds. -/
def Part.flCount (p : Part) (tier : Nat) : Nat :=
  (wbits (p.fl tier) 28 28 + p.flSize tier - wbits (p.fl tier) 0 28 % p.flSize tier) % p.flSize tier
/-- The partition with the control word of a tier's list replaced. -/
def Part.setFl (p : Part) (tier : Nat) (w : W64) : Part := { p with flCtl := p.flCtl.set (flIndex tier).val w (flIndex tier).isLt }
/-- Address of position i of a tier's list. -/
def Part.flAddr (p : Part) (tier i : Nat) : W64 :=
  (p.flBase[(flIndex tier).val]'(flIndex tier).isLt) + BitVec.ofNat 64 (8 * (i % p.flSize tier))

/-- The first n frames of a tier's list leave it, or there are not so many; a taken T1 frame is no longer marked (R317). -/
def takeFrames (s : State) (p : PartId) (tier n : Nat) : Option (List Nat × State) :=
  let k := s.part p
  if k.flCount tier < n then none
  else
    let h := wbits (k.fl tier) 0 28
    let fs := (List.range n).map (fun i => wbits (deviceWord s (coreOfPart s p) (k.flAddr tier (h + i))) 0 48)
    let k := k.setFl tier (wset (k.fl tier) 0 28 ((h + n) % k.flSize tier))
    some (fs, s.setPart p { k with failed := if tier = 1 then k.failed.filter (fun f => !fs.contains f) else k.failed })

/-- A frame returns to a tier's list, or the list is full and the move waits. -/
def giveFrame (s : State) (p : PartId) (tier frame : Nat) : Option State :=
  let k := s.part p
  let t := wbits (k.fl tier) 28 28
  if k.flCount tier + 1 = k.flSize tier then none
  else
    let s := deviceWrite s (coreOfPart s p) (k.flAddr tier t) (leBytes 8 frame)
    let k := s.part p
    some (s.setPart p (k.setFl tier (wset (k.fl tier) 28 28 ((t + 1) % k.flSize tier))))

/-! Pages and block-table entries (R317, R318). -/

/-- Bytes of a page. -/
def pageBytes : Nat := 16384

/-- The extent of a partition in whose physical range a page of a tier lies. -/
def pageExtent (s : State) (p : PartId) (tier frame : Nat) : Option Extent :=
  (s.part p).table.find? (fun e => e.valid && e.tier == tier && decide (e.pbase ≤ frame * pageBytes)
    && decide ((frame + 1) * pageBytes ≤ e.pbase + e.bytes))

/-- Such an extent with r, by which a gather may read the page (R317). -/
def readableExtent (s : State) (p : PartId) (tier frame : Nat) : Option Extent :=
  (s.part p).table.find? (fun e => e.valid && e.r && e.tier == tier && decide (e.pbase ≤ frame * pageBytes)
    && decide ((frame + 1) * pageBytes ≤ e.pbase + e.bytes))

/-- Key of a page of a tier in the partition's extents. -/
def pageKey (s : State) (p : PartId) (tier frame : Nat) : Option Nat :=
  (pageExtent s p tier frame).map (fun e => keyTier tier e.dev (frame * pageBytes))

/-- State of an entry. -/
def entryState (e : W64) : Nat := wbits e 0 3
/-- The page is pinned. -/
def entryPinned (e : W64) : Bool := wbit e 3
/-- Frame of an entry. -/
def entryFrame (e : W64) : Nat := wbits e 16 48
/-- An entry with a new state and frame; bits [15:3] stay (R318). -/
def entryPut (e : W64) (state frame : Nat) : W64 := wset (wset e 0 3 state) 16 48 frame

/-- Shelf entry e. -/
def State.shelfAt (s : State) (e : Nat) : Shelf := aget Shelf.zero s.shelf e
/-- The state with shelf entry e replaced. -/
def State.setShelf (s : State) (e : Nat) (h : Shelf) : State := { s with shelf := aset s.shelf e h }

/-- Block-table entry i of a parked continuation, at its owner point (R318). -/
def tableEntry (s : State) (h : Shelf) (i : Nat) : W64 :=
  match ownerRun s h.core .peek (h.table + BitVec.ofNat 64 (8 * i)) 8 with
  | .ok bs => leWord 64 bs
  | .error _ => 0
/-- That entry changed by the device in one atomic at its owner point; bits [15:3] stay (R318). -/
def putEntry (s : State) (h : Shelf) (i state frame : Nat) : State :=
  match ownerWrite s h.core .peek (h.table + BitVec.ofNat 64 (8 * i)) (leBytes 8 (entryPut (tableEntry s h i) state frame).toNat) with
  | .ok t => t
  | .error _ => s

/-! Parking (R329, R330, R358). -/

/-- The token of shelf entry e (R329). -/
def tokenOf (e : Nat) (h : Shelf) : W64 := BitVec.ofNat 64 (e % 65536 + h.gen.toNat * 2 ^ 16 + h.part.val * 2 ^ 32)

/-- The lowest entry that can be taken, FREE and with no record of its own still to end; `n` is where the search stands. -/
def shelfSlotFrom : List (Nat × Shelf) → Nat → Nat
  | [], n => n
  | (k, h) :: t, n =>
    if n < k then n else if h.state = .free ∧ ¬ h.pushed then k else shelfSlotFrom t (k + 1)
/-- The entry that a park takes, if the shelf is not full. -/
def shelfSlot (s : State) : Option Nat :=
  let n := shelfSlotFrom s.shelf 0
  if n < 65536 then some n else none

/-- The CRC-32C values kept for a place go with the page that leaves it, or is lost there. -/
def dropCrcs (s : State) (k : Option Nat) : State := { s with crcs := s.crcs.filter (fun q => some q.1 != k) }

/-- CRC-32C values of a page at a key: those kept from its own demotion, else those of its bytes now (R330). -/
def heldCrcs (s : State) (k : Nat) : List W32 := aget (pageCrcs s k) s.crcs k

/-- CRC-32C values of the pages that stand in T3 or T4 at the park. -/
def parkedCrcs (s : State) (h : Shelf) : List (Nat × List W32) :=
  (List.range h.pages).filterMap (fun i =>
    let e := tableEntry s h i
    if entryState e = 3 ∨ entryState e = 4 then
      (pageKey s h.part (entryState e) (entryFrame e)).map (fun k => (i, heldCrcs s k))
    else none)

/-- A continuation filed on entry e (R329, R358): the token is written, the WAKE record made, the timers started. -/
def fileShelf (s : State) (e : Nat) (c : CoreId) (desc : W64) (rec : W64) (words : File 3 W64) (pc : CodeAddr) : State :=
  let d1 := deviceWord s c (desc + 8)
  let p := s.partIdOf c
  let w0 := wset (wset (recWord words 0) 0 48 pc.toNat) 48 4 3
  let old := s.shelfAt e
  let h : Shelf := { Shelf.zero with
    state := .parked, gen := old.gen, core := c, part := p, table := deviceWord s c desc, pages := wbits d1 0 32,
    words := #v[w0, recWord words 1, recWord words 2, recWord words 3, 0, desc, rec, 0],
    cls := rget (s.part p).park (BitVec.ofNat 2 (wbits d1 32 2)), parkedAt := s.cycle }
  let h := { h with crcs := parkedCrcs s h }
  (deviceWrite s c (desc + 16) (leBytes 8 (tokenOf e h).toNat)).setShelf e h

/-- The record of a shelf entry has ended, or parked again: the entry may be taken. -/
def releaseShelf (s : State) (name : W64) : State :=
  match nameShelf name with
  | some e => s.setShelf e { s.shelfAt e with pushed := false }
  | none => s

/-! Waking (R331 to R333). -/

/-- Timers of a class, in milliseconds (R330). -/
def classTimer (cls : File 1 W64) (step : Nat) : Nat :=
  match step with
  | 0 => wbits (cls[0]) 0 24
  | 1 => wbits (cls[0]) 24 24
  | _ => wbits (cls[1]) 0 24
/-- Pages that must be resident before the record runs. -/
def classStage (cls : File 1 W64) : Nat := wbits (cls[0]) 48 16

/-- A page made POISON (R332): frame 0, its count kept for the record. -/
def poisonPage (s : State) (e i : Nat) : State :=
  let s := putEntry s (s.shelfAt e) i 6 0
  let h := s.shelfAt e
  s.setShelf e { h with poison := h.poison + 1, words := h.words.set 7 (BitVec.ofNat 64 (h.poison + 1)) (by decide) }

/-- From page i on, each page in T3 or T4 receives a T1 frame and is in transit, until the T1 list runs dry (R331 step 2); a page
with no place in its tier becomes POISON (R333). The answer tells whether every page was reached. -/
def transit (e : Nat) : Nat → Nat → State → State × Bool
  | 0, _, s => (s, true)
  | n + 1, i, s =>
    let h := s.shelfAt e
    let w := tableEntry s h i
    if entryState w = 3 ∨ entryState w = 4 then
      if (pageKey s h.part (entryState w) (entryFrame w)).isNone then transit e n (i + 1) (poisonPage s e i)
      else match takeFrames s h.part 1 1 with
        | some (f :: _, t) =>
          let t := putEntry t (t.shelfAt e) i 5 f
          let h := t.shelfAt e
          transit e n (i + 1) (t.setShelf e { h with sources := h.sources ++ [(i, w, f)] })
        | _ => (s, false)
    else transit e n (i + 1) s

/-- A page among the first n that is still in transit, or still waits for a frame. -/
def stagePending (s : State) (h : Shelf) (n : Nat) : Bool :=
  (List.range n).any (fun i => let st := entryState (tableEntry s h i); st == 5 || st == 3 || st == 4)

/-- The WAKE record pushed once its stage is resident (R331 step 4), and the entry freed once every page has arrived (step 5). -/
def settleWake (s : State) (e : Nat) : State :=
  let h := s.shelfAt e
  if h.state ≠ .waking ∨ h.move.isSome then s
  else
    let s :=
      if h.pushed ∨ stagePending s h (min (classStage h.cls) h.pages) then s
      else
        let s := s.setShelf e { h with pushed := true }
        devicePush s h.core (queueEntry (shelfName e) true (waitScope s h.core (shelfName e)) h.core false)
    let h := s.shelfAt e
    if h.pushed ∧ h.sources.isEmpty ∧ ¬ stagePending s h h.pages then
      s.setShelf e { h with state := .free, gen := h.gen + 1, demote := none, stalled := [] }
    else s

/-- Promotion goes on: the pages that wait for a frame, then the tests of the stage and of the end. -/
def promote (s : State) (e : Nat) : State :=
  let h := s.shelfAt e
  if h.state = .waking ∧ h.move.isNone then settleWake (transit e h.pages 0 s).1 e else s

/-- A wake write of a token and a value in a partition (R331, R333). A demotion that is moving completes first. -/
def wakeToken (s : State) (p : PartId) (token value : W64) : State :=
  let e := wbits token 0 16
  let h := s.shelfAt e
  if h.state = .parked ∧ h.gen.toNat = wbits token 16 16 ∧ h.part = p then
    promote (s.setShelf e { h with state := .waking, demote := none, stalled := [],
                                   words := h.words.set 4 value (by decide) }) e
  else s.setPart p { s.part p with staleWake := (s.part p).staleWake + 1 }

end Sys2Proof.Machine
end

