-- ==== Sys2Proof/Machine/Ops.lean ====
section
/-! DEFINITION. The named operations of a context: checkpoints (R366, R367), taking an exception (R369 to R374, R390) and
returning from one (R375, R392), suspension and completion (R16, R123, R373), start of a record (R15, R117, R122). -/

namespace Sys2Proof.Machine

/-! Cause codes (R371). -/

/-- Code of a trap cause. -/
def Cause.code : Cause → Byte
  | .ill => 0x01 | .bundle => 0x02 | .priv => 0x03 | .empty => 0x04 | .qovf => 0x05 | .qunf => 0x06 | .align => 0x07
  | .txlate => 0x08 | .page => 0x09 | .bounds => 0x0A | .gate => 0x0B | .dresolve => 0x0C | .tcount => 0x0D
  | .tstale => 0x0E | .tstall => 0x0F | .kvpoison => 0x10 | .eccue => 0x11 | .wslock => 0x12 | .array => 0x13
  | .acl => 0x14 | .badrec => 0x15 | .swtrap => 0x16 | .brk => 0x17 | .int => 0x20 | .preempt => 0x21 | .watchdog => 0x22
  | .other b => b

/-- The cause of a code; a peer may send one outside R371's list, which is carried as it is (R425; log 83). -/
def Cause.ofCode (b : Byte) : Cause :=
  ([Cause.ill, .bundle, .priv, .empty, .qovf, .qunf, .align, .txlate, .page, .bounds, .gate, .dresolve, .tcount, .tstale,
   .tstall, .kvpoison, .eccue, .wslock, .array, .acl, .badrec, .swtrap, .brk, .int, .preempt, .watchdog].find?
    (fun c => c.code == b)).getD (.other b)

/-! Checkpoints. -/

/-- One byte of an access of core c that hits the near cache or not; none where its word cannot be read, which the load itself meets
later (R230, R240). -/
def sampleByte (s : State) (c : CoreId) (hit : Bool) (va : W64) : Option Byte :=
  match placeByte s c .peek va with
  | .ok p =>
    (if p.cached then heldByte (s.core c) hit va else none).or
      (if uncorrectable s p.key 1 then (if p.cached then nearByte (s.core c) va else none) else some (s.mem.read p.key))
  | .error _ => none

/-- Bytes of a pending load sampled at one moment (R246, R284), the gate's bytes of its issue kept. -/
def sampleRun (s : State) (c : CoreId) (va : W64) (own : List (Option Byte)) : List (Option Byte) :=
  let hit := nearHas (s.core c) va own.length
  own.mapIdx (fun i o => o.or (sampleByte s c hit (va + BitVec.ofNat 64 i)))

/-- A pending load that has sampled every byte. -/
def OpKind.sampled (s : State) (c : CoreId) : OpKind → OpKind
  | .load ea n sg own => .load ea n sg (sampleRun s c ea own)
  | .bload ea own => .bload ea (sampleRun s c ea own)
  | .vload ls own => .vload ls (ls.zipIdx.flatMap (fun l => sampleRun s c l.1.2 ((own.drop (4 * l.2)).take 4)))
  | k => k

/-- The pending loads of a context sample before any of its stores reaches memory (R245). -/
def sampleLoads (s : State) (c : CoreId) (x : CtxId) : State :=
  let k := s.ctx c x
  s.setCtx c x { k with ops := k.ops.map (fun o => { o with kind := o.kind.sampled s c }) }

/-- What a context has stored is handed to memory (R368): its gate, or in handler mode the handler's own stores (R374). -/
def drainStores (s : State) (c : CoreId) (x : CtxId) : State :=
  let s := sampleLoads s c x
  if (s.ctx c x).handler then drainHandler s c x else drainGate s c x

/-- A context has the array of its core: it owns it now or at its checkpoint, to which a rollback brings it back, or has released it since
(R200, R367). -/
def Ctx.keepsArray (k : Ctx) : Bool := k.r.owns || k.ck.owns || k.arrayKept

/-- The array becomes free, if context x had it and a new state of the context has not (R200). -/
def freeArray (s : State) (c : CoreId) (x : CtxId) (now : Bool) : State :=
  if (s.ctx c x).keepsArray && !now then s.setCore c { s.core c with arrayLast := x, arrayFreed := s.cycle } else s

/-- A checkpoint commits (R366 to R368): pending loads have sampled, the gate is handed to memory, the duplicate set is empty. The
count of ECCUE retries starts anew where the checkpoint has advanced (R369), and an array released since the last one is free (R367). -/
def commit (s : State) (c : CoreId) (x : CtxId) : State :=
  let s := drainGate (sampleLoads s c x) c x
  let k := s.ctx c x
  (freeArray s c x k.r.owns).setCtx c x { k with
    ck := k.r, epoch := k.epoch + 1, eccRetried := k.eccRetried && !k.moved, moved := false, arrayKept := false }

/-- Accumulator rows with an error that a rollback leaves: those that the duplicate set does not hold, which it writes back otherwise
(R367, R378; a row counts as held when its value has changed, log 27). -/
def Ctx.badAfter (k : Ctx) : List Nat := k.badRows.filter (fun i => k.r.rows[i]? == k.ck.rows[i]?)

/-- A context back at its checkpoint (R367, R369 steps 2 and 3): results of operations issued since are discarded. -/
def Ctx.rolledBack (k : Ctx) : Ctx :=
  { k with r := k.ck, gate := [], hgate := [], badRows := k.badAfter, moved := false, commitDue := false, arrayWait := none,
           arrayKept := false,
           fences := k.fences.filter (fun f => f.byHandler || decide (f.epoch < k.epoch)),
           ops := k.ops.filter (fun o => decide (o.epoch < k.epoch)) }

/-- A context rolled back; an allocation issued since its checkpoint is withdrawn (R274, R280). -/
def rollBack (s : State) (c : CoreId) (x : CtxId) : State :=
  let k := s.ctx c x
  let pend := k.ops.any (fun o => decide (k.epoch ≤ o.epoch) && match o.kind with
    | .talloc _ _ _ => true
    | _ => false)
  let s := (freeArray s c x k.ck.owns).setCtx c x k.rolledBack
  if pend then withdraw s c (.ctx x) else s

/-! The trap frame (R370) and the register image (R382, R390). -/

/-- Base of a context's trap frame. -/
def frameBase (s : State) (c : CoreId) (x : CtxId) : W64 := (s.core c).saveBase + BitVec.ofNat 64 (0x10000 * x.val)

/-- Kind, destination and field of a latch record; a single guard is kind 2 with field 1 (log 14), and a shadow row keeps the
format that a row-0 push set in its field (log 14). -/
def Dest.record : Dest → Nat × Nat × Nat
  | .scalar r => (1, r.toNat, 0)
  | .guard r => (2, r.toNat, 1)
  | .pair r => (2, r.toNat, 0)
  | .vector r => (3, r.toNat, 0)
  | .stream r n => (4, r.toNat, n)
  | .shape r n => (5, r.toNat, n)
  | .accRow r => (6, r, 0)
  | .shadow row f => (7, row.toNat, match f with
    | some b => b.toNat + 256
    | none => 0)
  | .exchange => (8, 0, 0)
  | .queue q => (9, q.toNat, 0)
  | .rowClear f n => (10, f, n)
  | .flagsOnly => (11, 0, 0)

/-- A latch record (R370). -/
def Latch.bytes (l : Latch) : List Byte :=
  let (kind, dest, field) := l.dest.record
  leBytes 8 (kind + dest % 256 * 2 ^ 8 + l.left % 256 * 2 ^ 16 + l.flags.toNat * 2 ^ 24 + field % 65536 * 2 ^ 32)
    ++ leBytes 8 l.mask.toNat ++ List.replicate 16 0 ++ rowBytes l.value

/-- The latches in order of remaining count, then issue order (R370). -/
def sortedLatches (r : Regs) : List Latch := (List.range 73).flatMap (fun n => r.latches.filter (fun l => l.left == n))

/-- What a frame says of its trap. -/
structure Trap where
  cause : Byte
  pc : CodeAddr
  info : W64
  words : Nat
  replay : Bool
  inhandler : Bool
  deriving DecidableEq, Repr

/-- The bytes of a trap frame. -/
def frameBytes (r : Regs) (ckpt : CodeAddr) (now : Nat) (t : Trap) : List Byte :=
  let f0 := t.cause.toNat + t.replay.toNat * 2 ^ 8 + t.inhandler.toNat * 2 ^ 10
  let loops := (List.range 4).flatMap (fun e => match r.loops.reverse[e]? with
    | some l => leBytes 8 l.start.toNat ++ leBytes 8 l.exit.toNat ++ leBytes 8 l.left.toNat
    | none => List.replicate 24 0)
  let counters := match r.replay with
    | some p => p.counters
    | none => []
  let levels := (List.range 6).flatMap (fun i => leBytes 4 ((counters[i]?).getD 0).toNat)
  let queues := (List.range 4).foldl (fun a q =>
    let es := (r.rq[q]?).getD []
    a + (es.filter Option.isSome).length * 2 ^ (16 * q) + (es.filter Option.isNone).length * 2 ^ (16 * q + 8)) 0
  leBytes 8 f0 ++ leBytes 8 t.pc.toNat ++ leBytes 8 t.info.toNat ++ leBytes 8 ckpt.toNat ++ leBytes 8 0
    ++ leBytes 8 (r.rep.getD 0 % 2 ^ 32 + r.loops.length * 2 ^ 32) ++ leBytes 8 r.latches.length ++ leBytes 8 now
    ++ loops ++ levels ++ leBytes 8 queues ++ List.replicate 64 0 ++ (sortedLatches r).flatMap Latch.bytes

/-- The register image, from offset 0xC100 (R382, R390). -/
def imageBytes (r : Regs) : List Byte :=
  (List.range 32).flatMap (fun i => leBytes 8 (r.getS (BitVec.ofNat 5 i)).toNat)
    ++ (List.range 8).flatMap (fun i => leBytes 8 (r.getG (BitVec.ofNat 3 i)).toNat)
    ++ leBytes 8 (r.sFull.toNat + r.vFull.toNat * 2 ^ 32)
    ++ leBytes 8 r.fpctl.toNat ++ leBytes 8 r.rngSeed.toNat ++ leBytes 8 r.rngCtr.toNat

/-- The vector registers of an image, at offset 0xE000. -/
def vectorBytes (r : Regs) : List Byte := r.v.toList.flatMap rowBytes

/-- The trap registers and the trap frame of a context are written (R370, R389). -/
def writeTrap (s : State) (c : CoreId) (x : CtxId) (r : Regs) (t : Trap) : State :=
  let k := s.ctx c x
  let cause := t.cause.toNat + t.words % 16 * 2 ^ 8 + t.replay.toNat * 2 ^ 12
  let s := s.setCtx c x { k with trapCause := BitVec.ofNat 64 cause, trapPc := t.pc, trapInfo := t.info, trapWords := t.words }
  deviceWrite s c (frameBase s c x) (frameBytes r k.ck.pc s.now t)

/-- The handler's address for a cause in the partition's table; zero when there is none (R390). -/
def handlerAt (s : State) (c : CoreId) (cause : Byte) : CodeAddr :=
  BitVec.ofNat 48 (deviceWord s c ((s.part (s.partIdOf c)).hbase + BitVec.ofNat 64 (8 * cause.toNat))).toNat

/-- A handler is entered (R372, R390): the image of the continuation is written, and bundles of one slot issue at its address. -/
def enterHandler (s : State) (c : CoreId) (x : CtxId) (pc : CodeAddr) (replay : Bool) : State :=
  let r := (s.ctx c x).r
  let s := deviceWrite s c (frameBase s c x + 0xC100) (imageBytes r)
  let s := deviceWrite s c (frameBase s c x + 0xE000) (vectorBytes r)
  let k := s.ctx c x
  s.setCtx c x { k with
    r := { r with pc := pc, latches := [], rep := none, replay := none }, handler := true, replayEntry := replay,
    frame := some r, hgate := [], arrayWait := none, eretCtl := 0, eretPc := BitVec.ofNat 64 k.trapPc.toNat, bubble := 0 }

/-- The continuation is an OPERATOR (R122). -/
def Ctx.operator (k : Ctx) : Bool := wbits (recWord k.job.words 0) 48 4 == 1

/-- What a context does from its checkpoint on: an OPERATOR begins its tile step again (R145), any other issues bundles. -/
def Ctx.going (k : Ctx) : Phase := if k.operator then .waitArray (recWord k.job.words 3).toNat else .running

/-! Teams (R131, R136, R278). -/

/-- A team by its number. -/
def State.team (s : State) (id : Nat) : Option Team := s.teams.find? (fun t => t.id == id)
/-- The state with a team replaced. -/
def State.setTeam (s : State) (t : Team) : State := { s with teams := s.teams.map (fun u => if u.id = t.id then t else u) }
/-- Members that have not departed. -/
def Team.present (t : Team) : List Nat := (List.range t.members.length).filter (fun i => !t.departed.contains i)
/-- The member is the last one present. -/
def lastMember (s : State) (r : Record) : Bool :=
  match s.team r.team with
  | some t => t.present == [r.member]
  | none => true

/-- The team of a gang whose partition has counterparts on other packages, for which its departed members still count as arrived
(R136, R427). -/
def podTeam (s : State) (t : Team) : Bool := t.gang.isSome && decide (wbits (s.part t.part).podGrp 0 8 ≠ 0)

/-- A member departs (R136, R373); a team nobody is present in, with no quarantine and no counterpart on other packages, is forgotten. -/
def depart (s : State) (r : Record) : State :=
  match s.team r.team with
  | none => s
  | some t =>
    let t := { t with departed := r.member :: t.departed }
    if t.present.isEmpty ∧ ¬ t.killed ∧ ¬ podTeam s t then { s with teams := s.teams.filter (fun u => u.id != t.id) } else s.setTeam t

/-! Leaving a continuation. -/

/-- The context holds nothing any more; the trap and handler registers keep their values for the host (R388, R401), and the context a
record that waits for it (R381). Granted units, the array and
the scratch return with it (R123, R130, R141). -/
def freeCtx (s : State) (c : CoreId) (x : CtxId) : State :=
  let k := s.ctx c x
  let s := freeArray s c x false
  let s := if k.pendInt.isSome then s.setCore c { s.core c with dropInt := (s.core c).dropInt + 1 } else s
  let s := s.setCore c { s.core c with saves := (s.core c).saves.filter (fun v => v.ctx != x), fullSince := none }
  s.setCtx c x { Ctx.zero with trapCause := k.trapCause, trapPc := k.trapPc, trapInfo := k.trapInfo,
                               trapWords := k.trapWords, ck := { Regs.zero with pc := k.ck.pc }, epoch := k.epoch, k := k.k,
                               eretCtl := k.eretCtl, eretPc := k.eretPc, newcomer := k.newcomer }

/-- The suspended record's scope, host slot and team are kept under its name (R261, R418). -/
def keepRecord (s : State) (r : Record) : State :=
  let s := s.forget ((s.recPart r).getD 0) r.name
  { s with suspended := r :: s.suspended }

/-- The full release of a context's writes at its effective scope (R257). -/
def releaseOwn (s : State) (c : CoreId) (x : CtxId) : State := release s c (s.ctx c x).job.scope.toNat everyByte

/-- The decrement of a continuation's join counter (R123 step 1). -/
def joinOwn (s : State) (c : CoreId) (x : CtxId) : State :=
  let w1 := recWord (s.ctx c x).job.words 1
  if w1 ≠ 0 then joinDown s c w1 else s

/-- Completion effects of R123 steps 1 and 2: the release, then the join counter. -/
def completionEffects (s : State) (c : CoreId) (x : CtxId) : State := joinOwn (releaseOwn s c x) c x

/-- A continuation that has completed (R123): its effects, which a triggered one has had before (R125), its completion entry, its
departure. -/
def completeCtx (s : State) (c : CoreId) (x : CtxId) : State :=
  let s := drainGate s c x
  let s := if (s.ctx c x).r.triggered then s else completionEffects s c x
  let job := (s.ctx c x).job
  let s := depart s job
  freeCtx (releaseShelf (completeHost s job 0 false 0) job.name) c x

/-- A continuation that has ended with a status (R373): the release, the decrement unless it has triggered, then its status-ring entry,
then its completion entry. -/
def endCtx (s : State) (c : CoreId) (x : CtxId) (status : Byte) (info : W64) (inhandler killed : Bool) : State :=
  let s := if (s.ctx c x).r.triggered then releaseOwn s c x else completionEffects s c x
  let k := s.ctx c x
  let s := if lastMember s k.job ∧ ¬ killed then reclaim s k.job.team else s
  let s := depart s k.job
  let s := statusEntry s (s.partIdOf c) c x k.job.name status inhandler killed k.trapPc info
  freeCtx (releaseShelf (completeHost s k.job status killed info) k.job.name) c x

/-- The resume address goes into w0 of the record (R16, R207). -/
def writeResume (s : State) (c : CoreId) (x : CtxId) (pc : CodeAddr) : State :=
  let job := (s.ctx c x).job
  let w0 := recWord (recordWords s c job.name) 0
  recordPut s c job.name 0 (wset w0 0 48 pc.toNat)

/-- A park (R358): the continuation is filed on a shelf entry before the release, and its record is kept under that entry's
name; the device reads its table at the owner point, where its stores are by then (R318). With a full shelf it waits. -/
def parkCtx (s : State) (c : CoreId) (x : CtxId) (desc : W64) (pc : CodeAddr) : State :=
  match shelfSlot s with
  | none => s
  | some e =>
    let job := (s.ctx c x).job
    let s := nearWriteBack (drainGate s c x) c everyByte
    let s := fileShelf s e c desc (nameAddr job.name) (recordWords s c job.name) pc
    let s := releaseOwn s c x
    let s := keepRecord (releaseShelf s job.name) { job with name := shelfName e }
    freeCtx s c x

/-- A suspension without completion (R16): the gate is handed over, the release made, the record written and released. -/
def suspendCtx (s : State) (c : CoreId) (x : CtxId) (why : Why) (pc : CodeAddr) : State :=
  match why with
  | .park desc => parkCtx s c x desc pc
  | _ =>
    let s := drainGate s c x
    let s := releaseOwn s c x
    let job := (s.ctx c x).job
    let s := writeResume s c x pc
    let s := match why with
      | .susp =>
        let w0 := recWord (recordWords s c job.name) 0
        recordPut s c job.name 0 (wset w0 56 3 job.scope.toNat)
      | _ => s
    let s := keepRecord s job
    let s := freeCtx s c x
    match why with
    | .yield => heldPush s c .own (queueEntry job.name true job.scope.toNat c false)
    | _ => s

/-- A transfer that a context has started still lacks an answer, its copy's error apart (R425). -/
def unanswered (s : State) (c : CoreId) (x : CtxId) : Bool :=
  s.transfers.any (fun t => t.started && !t.waiting.isEmpty && t.ctx == some (c, x))

/-- Whether nothing of the context is outstanding: no variable-latency operation and no copy (R16, R306), nor, where it will release at .pod, an
answer to one of its transfers (R252, R425). -/
def quiet (s : State) (c : CoreId) (x : CtxId) : Bool :=
  (s.ctx c x).ops.isEmpty && (s.engine c x).copies.isEmpty && !((s.ctx c x).job.scope == 5 && unanswered s c x)

/-- A continuation ends with a status (R373): at once, or when its operations and copies are done (R306, R384). -/
def endWith (s : State) (c : CoreId) (x : CtxId) (status : Byte) (info : W64) (inhandler killed : Bool) : State :=
  let s := s.setCtx c x { s.ctx c x with gate := [], hgate := [], handler := false }
  if quiet s c x then endCtx s c x status info inhandler killed
  else s.setCtx c x { s.ctx c x with phase := .suspending (.ended status info inhandler killed) (s.ctx c x).trapPc }

/-- A continuation whose gate, duplicate set or landing latches hold an uncorrectable error ends with ECCUE where a rollback, a replay or
a drain reads them (R378). -/
def endBad (s : State) (c : CoreId) (x : CtxId) (pc : CodeAddr) (words : Nat) : State :=
  let s := rollBack s c x
  let s := s.setCtx c x { s.ctx c x with phase := .running, bubble := 0, paused := none, badStore := false }
  let t : Trap := { cause := Cause.code .eccue, pc := pc, info := 0x8000000000000000, words := words, replay := false, inhandler := false }
  endWith (writeTrap s c x (s.ctx c x).r t) c x t.cause t.info false false

/-- A checkpoint commits where the context stands; a gate, duplicate set or latches that cannot be read end the continuation instead
(R366, R378). -/
def checkpoint (s : State) (c : CoreId) (x : CtxId) : State :=
  if (s.ctx c x).badStore then endBad s c x (s.ctx c x).r.pc 0 else commit s c x

/-- A continuation runs on the context. -/
def running (k : Ctx) : Bool := match k.phase with
  | .idle | .reserved _ => false
  | _ => true

/-- A continuation of a core that stops ends with status ECCUE, its trap registers and frame written as every trap writes them (R231, R370). -/
def endByFailure (s : State) (c : CoreId) (x : CtxId) : State :=
  let k := s.ctx c x
  if running k then
    let s := rollBack s c x
    let s := s.setCtx c x { s.ctx c x with phase := .running, bubble := 0, paused := none, ops := [] }
    let t : Trap := { cause := Cause.code .eccue, pc := k.r.pc, info := 0, words := 0, replay := false, inhandler := k.handler }
    endWith (writeTrap s c x (s.ctx c x).r t) c x t.cause t.info k.handler false
  else s

/-- A core stops and is left out of its partition: its continuations end (R231, R404; for a core that the management core takes out this is
the model's reading, log 100). -/
def leaveOut (s : State) (c : CoreId) : State :=
  let s := ([0, 1, 2, 3] : List CtxId).foldl (fun s x => endByFailure s c x) s
  s.setCore c { s.core c with out := true }

/-- TAKING AN EXCEPTION by rollback (R369 to R373, R390): the context returns to its checkpoint, the trap registers and frame are
written, and the partition's handler is entered, or the continuation ends with the cause as its status. A cause of a
handler-mode bundle ends the continuation. -/
def deliver (s : State) (c : CoreId) (x : CtxId) (cause : Cause) (info : W64) (pc : CodeAddr) (words : Nat) : State :=
  if (s.ctx c x).badStore then endBad s c x pc words
  else
  let inh := (s.ctx c x).handler
  let s := rollBack s c x
  let s := s.setCtx c x { s.ctx c x with phase := .running, bubble := 0, paused := none }
  let t : Trap := { cause := cause.code, pc := pc, info := info, words := words, replay := false, inhandler := inh }
  let s := writeTrap s c x (s.ctx c x).r t
  if inh then endWith s c x cause.code info true false
  else
    let h := handlerAt s c cause.code
    if h = 0 then endWith s c x cause.code info false false else enterHandler s c x h false

/-- The context is back at its checkpoint, with its trap registers and frame written (R369 steps 1 to 4). -/
def backWith (s : State) (c : CoreId) (x : CtxId) (f : Late) (p : Phase) : State :=
  let s := rollBack s c x
  let t : Trap := { cause := f.cause.code, pc := f.pc, info := f.info, words := f.words, replay := false, inhandler := false }
  let s := writeTrap s c x (s.ctx c x).r t
  s.setCtx c x { s.ctx c x with phase := p, bubble := 0, paused := none }

/-- An automatic retry of an ECCUE from the checkpoint, with no handler (R369). -/
def retry (s : State) (c : CoreId) (x : CtxId) (f : Late) : State :=
  if (s.ctx c x).badStore then endBad s c x f.pc f.words
  else
    let s := backWith s c x f (s.ctx c x).going
    s.setCtx c x { s.ctx c x with eccRetried := true }

/-- A context whose access the host refuses ends with PAGE, bit 0 of its trap_info set, or enters its handler; one whose page is there
now goes on from its checkpoint (R224, R369). -/
def answerPage (s : State) (c : CoreId) (x : CtxId) (f : Late) (a : PriAnswer) : State :=
  let s := s.setCtx c x { s.ctx c x with asked := none }
  match a with
  | .success => s.setCtx c x { s.ctx c x with phase := (s.ctx c x).going }
  | _ => deliver s c x .page (f.info ||| 1) f.pc f.words

/-- The context is back at its checkpoint, with its frame written, and waits for the host's answer (R224, R369, R400), or takes the one
that came before. -/
def waitHost (s : State) (c : CoreId) (x : CtxId) (f : Late) : State :=
  if (s.ctx c x).badStore then endBad s c x f.pc f.words
  else
    let s := backWith s c x f (.waitPage f)
    match (s.ctx c x).asked with
    | some (_, some a) => answerPage s c x f a
    | _ => s

/-- A fault of the interrupted run recorded in the frame while a handler entered by replay runs; a second one is dropped (R375). -/
def holdFault (s : State) (c : CoreId) (x : CtxId) (f : Late) : State :=
  let k := s.ctx c x
  if k.held.isSome then s
  else
    let s := s.setCtx c x { k with held := some f, trapCause := k.trapCause ||| 0x2000 }
    let w := deviceWord s c (frameBase s c x)
    let s := deviceWrite s c (frameBase s c x) (leBytes 8 (w.toNat + 0x200 + f.cause.code.toNat * 2 ^ 16))
    deviceWrite s c (frameBase s c x + 32) (leBytes 8 f.info.toNat)

/-- A fault found after issue (R369, R375): held while a handler entered by replay runs; a first ECCUE since the checkpoint is
retried, but not one that an acquire reports (R263, bit 0 of its info); PAGE waits for the host. -/
def faultAfter (s : State) (c : CoreId) (x : CtxId) (f : Late) : State :=
  let k := s.ctx c x
  if k.handler then (if k.replayEntry then holdFault s c x f else deliver s c x f.cause f.info f.pc f.words)
  else match f.cause with
    | .page => waitHost s c x f
    | .eccue =>
      if k.eccRetried || wbit f.info 0 then deliver s c x f.cause f.info f.pc f.words else retry s c x f
    | _ => deliver s c x f.cause f.info f.pc f.words

/-- TAKING AN EXCEPTION by replay (R374, R390): the latches go to the frame, and the handler is entered; the answer is none when
the partition has no handler for the cause. -/
def deliverReplay (s : State) (c : CoreId) (x : CtxId) (cause : Cause) (info : W64) : Option State :=
  let h := handlerAt s c cause.code
  if h = 0 then none
  else if (s.ctx c x).badStore then some (endBad s c x (s.ctx c x).r.pc 0)
  else
    let r := (s.ctx c x).r
    let t : Trap := { cause := cause.code, pc := r.pc, info := info, words := 0, replay := true, inhandler := false }
    let k := s.ctx c x
    let s := s.setCtx c x { k with phase := .running, paused := if k.phase = .running then none else some k.phase }
    some (enterHandler (writeTrap s c x r t) c x h true)

/-! Return from an exception (R392). -/

/-- Bytes of the frame area as the handler left them: its own gate over memory (R368, R390). -/
def frameRead (s : State) (c : CoreId) (x : CtxId) (off n : Nat) : Option (List Byte) :=
  let va := frameBase s c x + BitVec.ofNat 64 off
  match place s c .peek va n with
  | .ok p => some (readRun s c (s.ctx c x).view va p n)
  | .error _ => none

/-- Word i of a byte list. -/
def wordAt (bs : List Byte) (i : Nat) : W64 := leWord 64 ((bs.drop (8 * i)).take 8)

/-- The registers with what a register image and its vector registers hold (R382, R390, R392). -/
def Regs.withImage (r : Regs) (a b : List Byte) : Regs :=
  { r with
    s := (Vector.ofFn (fun i : Fin (2 ^ 5) => wordAt a i.val)).set 0 0,
    g := ((Vector.ofFn (fun i : Fin (2 ^ 3) => wordAt a (32 + i.val))).set 0 allBits).set 1 0,
    sFull := BitVec.ofNat 32 ((wordAt a 40).toNat + (1 - (wordAt a 40).toNat % 2)),
    vFull := BitVec.ofNat 28 ((wordAt a 40).toNat / 2 ^ 32),
    fpctl := wordAt a 41 &&& 0x1F0F#64, rngSeed := wordAt a 42, rngCtr := wordAt a 43,
    v := Vector.ofFn (fun i : Fin 28 => rowOfBytes ((b.drop (256 * i.val)).take 256)) }

/-- The latches with the values that a frame's records hold, read at their offsets: software may change these only (R370, R374). -/
def Regs.withLatches (r : Regs) (read : Nat → Option (List Byte)) : List Latch :=
  (sortedLatches r).mapIdx (fun i l => match read (0x100 + 288 * i + 32) with
    | some bs => { l with value := rowOfBytes bs }
    | none => l)

/-- The image reloaded over the registers that entry kept (R390, R392). -/
def reloadImage (s : State) (c : CoreId) (x : CtxId) (r : Regs) : Regs :=
  match frameRead s c x 0xC100 352, frameRead s c x 0xE000 7168 with
  | some a, some b => r.withImage a b
  | _, _ => r

/-- The latches re-injected from the frame. -/
def reloadLatches (s : State) (c : CoreId) (x : CtxId) (r : Regs) : List Latch :=
  r.withLatches (fun off => frameRead s c x off 256)

/-- The continuation's registers as the frame and image give them. -/
def reload (s : State) (c : CoreId) (x : CtxId) : Regs :=
  let r := ((s.ctx c x).frame).getD (s.ctx c x).r
  { reloadImage s c x r with latches := reloadLatches s c x r }

/-- A continuation goes on with what a replay entry found it doing (R374); one that waited for the host takes the answer that came
meanwhile. -/
def resumePaused (s : State) (c : CoreId) (x : CtxId) : State :=
  let k := s.ctx c x
  let s := s.setCtx c x { k with paused := none }
  match k.paused with
  | none => s
  | some (.waitPage f) => (match k.asked with
    | some (_, some a) => answerPage s c x f a
    | _ => s.setCtx c x { s.ctx c x with phase := .waitPage f })
  | some p => s.setCtx c x { s.ctx c x with phase := p }

/-- Handler mode is left with the given registers (R372, R390): the handler's stores are the context's own now, what its operations
still bring is dropped, and an OPERATOR goes on with its tile step. -/
def leaveHandler (s : State) (c : CoreId) (x : CtxId) (r : Regs) : State :=
  let k := s.ctx c x
  s.setCtx c x { k with r := r, phase := k.going, handler := false, replayEntry := false, frame := none, held := none,
                        commitDue := false, gate := gateOver k.gate k.hgate, hgate := [],
                        ops := k.ops.filter (fun o => decide (o.epoch ≤ k.epoch)), lastIssue := s.cycle }

/-- RETURN FROM AN EXCEPTION (R375, R392), by the form in eret_ctl. A checkpoint that a grant made due commits at the boundary where the
interrupted run goes on (R274). -/
def eretCtx (s : State) (c : CoreId) (x : CtxId) : State :=
  let k := s.ctx c x
  let form := wbits k.eretCtl 0 2
  let fail := fun (cause : Cause) (info : W64) =>
    let s := rollBack s c x
    let t : Trap := { cause := cause.code, pc := k.trapPc, info := info, words := k.trapWords, replay := false,
                      inhandler := true }
    endWith (writeTrap s c x (s.ctx c x).r t) c x cause.code info true false
  if form = 0 then
    match k.held with
    | some f => faultAfter (leaveHandler s c x ((k.frame).getD k.r)) c x f
    | none =>
      if k.replayEntry then
        let t := leaveHandler s c x { reload s c x with pc := k.trapPc }
        resumePaused (if k.commitDue then checkpoint t c x else t) c x
      else checkpoint (leaveHandler s c x { reload s c x with pc := k.ck.pc }) c x
  else if form = 1 then
    if k.replayEntry then fail .ill 0
    else if k.eretPc.toNat % 4 ≠ 0 then fail .align k.eretPc
    else
      let s := leaveHandler s c x { reload s c x with pc := BitVec.ofNat 48 k.eretPc.toNat }
      checkpoint (s.setCtx c x { s.ctx c x with moved := true }) c x
  else if form = 2 then
    let status := BitVec.ofNat 8 (wbits k.eretCtl 8 8)
    let s := leaveHandler s c x ((k.frame).getD k.r)
    if status = 0 then s.setCtx c x { s.ctx c x with phase := .suspending .stop k.trapPc }
    else endWith (rollBack s c x) c x status k.trapInfo false false
  else fail .ill 0

/-! Suspension points (R16). -/

/-- trap_info of TCOUNT (R278): the handle of the tile with the lowest pool and index, and the number of tiles. -/
def tcountInfo (hs : List W64) : W64 := BitVec.ofNat 64 (wbits (lowestTile hs) 0 41 + hs.length % 65536 * 2 ^ 48)

/-- The stop that would complete a continuation (R123, R278, R319): a held copy error is delivered first, then TCOUNT if the last
present member of the team leaves tiles held. -/
def finishStop (s : State) (c : CoreId) (x : CtxId) (pc : CodeAddr) : State :=
  let k := s.ctx c x
  match (s.engine c x).err with
  | some (cause, info) =>
    let e := s.engine c x
    deliver (s.setEngine c x { e with err := none, errAt := none }) c x cause info pc k.trapWords
  | none =>
    let hs := if lastMember s k.job then heldTiles s k.job.team else []
    if hs.isEmpty then completeCtx s c x else deliver s c x .tcount (tcountInfo hs) pc k.trapWords

/-- The context leaves its continuation, once nothing is outstanding; a bad gate is found as it drains (R378). -/
def finishLeave (s : State) (c : CoreId) (x : CtxId) (why : Why) (pc : CodeAddr) : State :=
  match why with
  | .ended st info inh killed => endCtx s c x st info inh killed
  | w =>
    if (s.ctx c x).badStore then endBad s c x pc 0
    else match w with
      | .stop => finishStop s c x pc
      | w => suspendCtx s c x w pc

/-- A suspension point is reached (R16, R306): it takes effect now, or when the operations and copies are done. -/
def leave (s : State) (c : CoreId) (x : CtxId) (why : Why) (pc : CodeAddr) : State :=
  let s := s.setCtx c x { s.ctx c x with phase := .suspending why pc, bubble := 0 }
  if quiet s c x then finishLeave s c x why pc else s

/-! Start of a record. -/

/-- Accumulator units free on a core (R130). -/
def accFree (k : Core) : Nat := 4 - (k.ctx.toList.map (fun y => y.acc)).sum
/-- Scratch units free on a core (R229). -/
def scratchFree (s : State) (c : CoreId) : Nat :=
  let k := s.core c
  1024 - (k.pools.toList.map Pool.units).sum - (k.ctx.toList.map (fun y => y.scratch)).sum
    - (k.saved.map (fun v => v.ctx.scratch)).sum
    - (s.teams.flatMap (fun t => (t.quarantine.filter (fun q => q.1 == c)).map (fun q => q.2))).sum

/-- Accumulator units a record declares. -/
def recAcc (w : File 3 W64) : Nat := wbits (recWord w 2) 32 4
/-- Scratch units a record declares. -/
def recScratch (w : File 3 W64) : Nat := wbits (recWord w 2) 36 16
/-- The core can grant what a record declares (R130). -/
def canGrant (s : State) (c : CoreId) (w : File 3 W64) : Bool :=
  decide (recAcc w ≤ accFree (s.core c)) && decide (recScratch w ≤ scratchFree s c)

/-- Registers at the start of a record (R15, R117). All 48 bits of w0[47:0] become the pc, bits [1:0] too: R12 says that they are
zero and R121 refuses no record for them, so what a record with other bits does is the model's choice (DESIGN CHOICE, log 28); so for the
entry of a handler (R390). -/
def startRegs (job : Record) : Regs :=
  let w := job.words
  let r := Regs.zero
  let r := { r with pc := BitVec.ofNat 48 (recWord w 0).toNat, rows := List.replicate (64 * recAcc w) 0 }
  ((((r.setS 1 (recWord w 4)).setS 2 (recWord w 5)).setS 3 (recWord w 6)).setS 4 (recWord w 7)).setS 5 (nameAddr job.name)

/-- Work that only the waits of one context's continuation observe: a copy of kind 1 counts on, and any context of the core may wait for its
number (R306, R312). -/
def LandBy.ofCtx (l : LandBy) (c : CoreId) (x : CtxId) : Bool := match l with
  | .token d y _ n => d == c && y == x && n.isNone
  | _ => false

/-- The full acquire that a start or a resume makes (R257), and the recorded write-back error that it reports (R263). -/
def fullAcquire (s : State) (c : CoreId) : Option W64 × State :=
  match reported s c everyByte with
  | some (l, t) => (some (l ||| 1), acquire t c 5 everyByte)
  | none => (none, acquire s c 5 everyByte)

/-- The words of a record as the acquire of its start on core c lets the core see them (R257, R262, R417). -/
def startWords (s : State) (c : CoreId) (name : W64) : File 3 W64 := recordWords (fullAcquire (nearWriteBack s c everyByte) c).2 c name

/-- A record starts, or resumes, on a context (R15, R117, R122, R257, R320): a full acquire, the registers set, a checkpoint. What the
core's contexts stored before is in memory by then, so that the code image has it (R17; log 23). -/
def startCtx (s : State) (c : CoreId) (x : CtxId) (job : Record) : State :=
  let (bad, s) := fullAcquire (nearWriteBack s c everyByte) c
  let k := s.ctx c x
  let op := wbits (recWord job.words 0) 48 4 = 1
  let r := startRegs job
  let y : Ctx := {
    Ctx.zero with
    r := r, ck := r, epoch := k.epoch + 1, code := s.mem, job := job, acc := recAcc job.words, scratch := recScratch job.words,
    phase := if op then .waitArray (recWord job.words 3).toNat else .running, lastIssue := s.cycle, since := s.cycle,
    stepSince := s.cycle, pendFault := bad.map (fun l => { cause := .eccue, info := l, pc := r.pc, words := 0 }),
    trapCause := k.trapCause, trapPc := k.trapPc, trapInfo := k.trapInfo, trapWords := k.trapWords, eretCtl := k.eretCtl, eretPc := k.eretPc }
  let s := s.setCtx c x y
  let s := { s with landed := s.landed.filter (fun l => !l.via.ofCtx c x) }
  s.setEngine c x { s.engine c x with accof := false }

/-- A record takes a context of core c: the device recalls what it kept of a suspended one, and a new one founds a team of its own
(R131, R261). The widening is the entry's for a started record, a steal's for a stolen one (R262), else 0. -/
def takeRecord (s : State) (c : CoreId) (x : CtxId) (name : W64) (started : Bool) (widening : Nat)
    (host : Option (QueueId × BitVec 16)) : State :=
  let words := startWords s c name
  let w0scope := wbits (recWord words 0) 56 3
  let p := s.partIdOf c
  let host := match s.kept p name with
    | some r => r.host
    | none => host
  match (s.kept p name).filter (fun r => r.team != 0) with
  | some r =>
    let sc : BitVec 3 := BitVec.ofNat 3 (max w0scope widening)
    let job : Record := { r with words := words, started := started, scope := sc, widening := BitVec.ofNat 3 widening }
    let s := s.forget p name
    let s := match s.team job.team with
      | some t => s.setTeam { t with members := t.members.set job.member (c, x) }
      | none => s
    startCtx s c x job
  | none =>
    let s := s.forget p name
    let id := s.nextId
    let t : Team := { id := id, gang := none, part := p, members := [(c, x)], departed := [], arrivals := [],
                      complete := [], sent := 0, killed := false, abort := false, quarantine := [], exits := [] }
    let job : Record := { name := name, words := words, scope := BitVec.ofNat 3 (max w0scope widening),
                          widening := BitVec.ofNat 3 widening, started := started, host := host, team := id, member := 0 }
    startCtx { s with teams := t :: s.teams, nextId := id + 1 } c x job

end Sys2Proof.Machine
end

