-- ==== Sys2Proof/Machine/Operands.lean ====
section
/-! DEFINITION. How a slot reads its operands and answers (R18, R26, R32 to R41, R91, R155): sources come from the snapshot of the
bundle in flight, results join the landing latches. -/

namespace Sys2Proof.Machine

/-- What an instruction answers. -/
abbrev Answer := Host.Outcome State Fault Refusal

/-- Why a slot has no effect now: it raises a cause, its bundle is held (R20), perhaps asking the
host for a translation (R300), or a join or futwait leaves the continuation before
the bundle issues, with the state after that (R206). -/
inductive Stop where
  | trap (c : Cause) (info : W64)
  | engine (c : Cause) (info : W64)
  | hold
  | asking (s : State)
  | left (s : State)

/-- The state with the verdict of the bundle in flight set. -/
def State.verdict (s : State) (v : Verdict) : State := { s with issue := { s.issue with verdict := v } }

/-- The error that a copy engine context holds is delivered (R319, R320). -/
def clearError (s : State) (c : CoreId) (x : CtxId) : State :=
  s.setEngine c x { s.engine c x with err := none, errAt := none }

/-- A slot raises a cause: the issuing context takes the exception (R369), and the verdict says so. `eng` tells that the cause is
the one its copy engine held. -/
def raise (s : State) (c : Cause) (info : W64) (eng : Bool) : State :=
  let s := if eng then clearError s s.issue.core s.issue.ctx else s
  (deliver s s.issue.core s.issue.ctx c info s.issue.pc s.issue.words).verdict (.raised c info eng)

/-- The answer of a slot whose body gives a state or a reason to stop. -/
def finish (s : State) : Except Stop State → Answer
  | .ok t => .next t
  | .error (.trap c info) => .next (raise s c info false)
  | .error (.engine c info) => .next (raise s c info true)
  | .error .hold => .next (s.verdict .held)
  | .error (.asking t) => .next (t.verdict .held)
  | .error (.left t) => .next (t.verdict .left)

/-- A cause found at issue whose delivery is that of one found after it (R369): a retry, or a wait for the host. A handler's own bundle
ends the continuation (R372). -/
def stopLate (s : State) (cause : Cause) (info : W64) : Stop :=
  let c := s.issue.core
  let x := s.issue.ctx
  .left (if s.me.handler then deliver s c x cause info s.issue.pc s.issue.words
    else faultAfter s c x { cause := cause, info := info, pc := s.issue.pc, words := s.issue.words })

/-- A lower-half access asks for the translation it needs. -/
def askFor (s : State) (p : Place) : State := askPlace s (dieOf s.issue.core) p

/-- An access at issue for which the host gives no permission: the page request is sent, and PAGE raised (R224); without room for the
request the bundle is held (R225). -/
def pageAtIssue (s : State) (va : W64) : Stop :=
  let info := va &&& ~~~7
  match askPage s s.issue.core s.issue.ctx false info with
  | none => .hold
  | some t => stopLate (t.setMe { t.me with asked := some (info, none) }) .page info

/-- A scalar or vector register. -/
inductive Ref where
  | s (r : BitVec 5)
  | v (r : BitVec 5)
  deriving DecidableEq, Repr

/-- Full/empty bit of a register. -/
def Regs.full (k : Regs) : Ref → Bool
  | .s r => k.fullS r
  | .v r => k.fullV r

/-- Every source is full: an empty one holds the bundle, or raises EMPTY when its trap-on-empty bit is set (R26); in handler mode it
always holds it (R372). -/
def sources (s : State) (rs : List (Ref × Bool)) : Except Stop Unit :=
  if rs.any (fun p => !s.src.full p.1 && (!p.2 || s.me.handler)) then .error .hold
  else if rs.any (fun p => !s.src.full p.1) then .error (.trap .empty 0)
  else .ok ()

/-- A bundle does not issue while a slot of it, on or off, names an empty destination (R26, R39). -/
def dests (s : State) (rs : List Ref) : Except Stop Unit := if rs.all s.src.full then .ok () else .error .hold

/-- Bit 0 of the guard (R38). -/
def on (s : State) (g : BitVec 3) : Bool := wbit (s.src.getG g) 0

/-- A scalar-type slot (R38, R39): its destinations must be full; guarded off it does nothing. -/
def slot (s : State) (g : BitVec 3) (ds : List Ref) (body : Except Stop State) : Answer :=
  finish s (match dests s ds with
    | .error e => .error e
    | .ok () => if on s g then body else .ok s)

/-- A lane-masked slot (R38, R39): the body gets the mask; with no active lane the slot is off. -/
def slotV (s : State) (g : BitVec 3) (ds : List Ref) (body : W64 → Except Stop State) : Answer :=
  finish s (match dests s ds with
    | .error e => .error e
    | .ok () => if s.src.getG g = 0 then .ok s else body (s.src.getG g))

/-- trap_info of ARRAY (R439). -/
def arrayInfo (reason n : Nat) : W64 := BitVec.ofNat 64 (reason + n % 256 * 2 ^ 8)

/-- The queue that a vector source names, if it is a read port (R34). -/
def portOf (r : BitVec 5) : Option (BitVec 2) := if r.toNat < 28 then none else some (BitVec.ofNat 2 (r.toNat - 28))

/-- The head row of a queue, if its drain has landed (R143). -/
def headRow (k : Regs) (q : BitVec 2) : Option Row := ((rget k.rq q).head?).join

/-- The read ports among the sources are owned, and have a row (R140, R143, R155). Where A and B name two ports that both fail, the first
of them gives the queue number: the spec gives A and B no order (DESIGN CHOICE, log 29). -/
def ports (s : State) (rs : List (BitVec 5)) : Except Stop Unit :=
  let qs := rs.filterMap portOf
  if qs.isEmpty then .ok ()
  else if !s.src.owns then .error (.trap .array (arrayInfo 1 ((qs.headD 0).toNat)))
  else match qs.find? (fun q => (headRow s.src q).isNone) with
    | some q => .error (.trap .qunf (BitVec.ofNat 64 q.toNat))
    | none => .ok ()

/-- A vector source: a register, or the head row of a queue. -/
def vsrc (s : State) (r : BitVec 5) : Row :=
  match portOf r with
  | some q => (headRow s.src q).getD 0
  | none => s.src.getV r

/-- The pops that a slot asks for: each port once, unless the keep bit is set (R34). -/
def pop (s : State) (keep : Bool) (rs : List (BitVec 5)) : State :=
  if keep then s
  else { s with issue := { s.issue with pops := (rs.filterMap portOf).foldl (fun a q => a ||| BitVec.twoPow 4 q.toNat) s.issue.pops } }

/-- Latency as the issuing context counts it: handler mode is interlocked, so a result lands at the next bundle (R372). -/
def latency (s : State) (n : Nat) : Nat := if s.me.handler then 1 else n

/-- A result in flight (R22, R23). -/
def result (s : State) (d : Dest) (mask : W64) (value : Row) (flags : BitVec 5) (lat : Nat) : State :=
  s.setRegs (s.me.r.latch { dest := d, mask := mask, value := value, flags := flags, left := latency s lat })

/-- A scalar result. -/
def resultS (s : State) (d : BitVec 5) (x : W64) (lat : Nat) : State := result s (.scalar d) allBits (rowOfWord x) 0 lat
/-- A vector result in the active lanes. -/
def resultV (s : State) (d : BitVec 5) (mask : W64) (x : Row) (flags : BitVec 5) (lat : Nat) : State :=
  result s (.vector d) mask x flags lat
/-- A guard result (R104). -/
def resultG (s : State) (d : BitVec 5) (x : W64) (lat : Nat) : State :=
  result s (.guard (BitVec.ofNat 3 d.toNat)) allBits (rowOfWord x) 0 lat
/-- A compare's result: the even guard and its complement in the odd one, in the bits of the mask (R40). -/
def resultP (s : State) (d : BitVec 5) (mask x : W64) (flags : BitVec 5) (lat : Nat) : State :=
  result s (.pair (BitVec.ofNat 3 d.toNat)) mask (BitVec.ofNat 2048 (x.toNat + (~~~x).toNat * 2 ^ 64)) flags lat

/-- Memory as the bundle in flight found it: what its slots read (R18). -/
def State.before (s : State) : State :=
  if s.issue.drained then State.setCore { s with mem := s.issue.mem } s.issue.core { s.core s.issue.core with near := s.issue.near } else s

/-- A variable-latency operation starts (R21, R24, R25): its destination becomes empty. One that a handler issues carries a later
checkpoint count than any of the interrupted run (R372). After a slot of the bundle has made memory change, a load samples what the
bundle found (R18). -/
def startOp (s : State) (d : OpDest) (kind : OpKind) : State :=
  let k := s.me
  let r := match d with
    | .none => k.r
    | .scalar r => k.r.takeS r
    | .vector r _ => k.r.takeV r
  let o : Op := {
    id := s.nextId, dest := d, kind := if s.issue.drained then kind.sampled s.before s.issue.core else kind,
    epoch := k.epoch + k.handler.toNat, pc := s.issue.pc, words := s.issue.words }
  let t := s.setMe { k with r := r, ops := k.ops ++ [o] }
  { t with nextId := s.nextId + 1 }

/-- Destination of a scalar variable-latency result; s0 discards it. -/
def opS (d : BitVec 5) : OpDest := if d = 0 then .none else .scalar d

/-! Immediates (R95). -/

/-- Sign extension of the low n bits of x to 64 bits. -/
def sextN (n x : Nat) : W64 :=
  let y := x % 2 ^ n
  if n = 0 then 0 else if 64 ≤ n then BitVec.ofNat 64 x
  else BitVec.ofNat 64 (if 2 ^ (n - 1) ≤ y then y + (2 ^ 64 - 2 ^ n) else y)

/-- imm8 or the literal, sign-extended. -/
def immS (f : RRI) : W64 := match f.lit with
  | some l => sextN 32 l.toNat
  | none => sextN 8 f.imm.toNat
/-- imm8 or the literal, zero-extended. -/
def immZ (f : RRI) : W64 := match f.lit with
  | some l => BitVec.ofNat 64 l.toNat
  | none => BitVec.ofNat 64 f.imm.toNat
/-- imm13 or the literal, sign-extended. -/
def imm13S (f : RI) : W64 := match f.lit with
  | some l => sextN 32 l.toNat
  | none => sextN 13 f.imm.toNat
/-- imm13 or the literal, zero-extended. -/
def imm13Z (f : RI) : W64 := match f.lit with
  | some l => BitVec.ofNat 64 l.toNat
  | none => BitVec.ofNat 64 f.imm.toNat
/-- off18 or the literal, sign-extended, in words. -/
def brOffset (f : BR) : W64 := match f.lit with
  | some l => sextN 32 l.toNat
  | none => sextN 18 f.off.toNat

/-- A code address moved by a number of words. -/
def addWords (pc : CodeAddr) (n : W64) : CodeAddr := BitVec.ofNat 48 (pc.toNat + 4 * n.toNat)

/-- The address after the bundle in flight, in 64 bits (R42, R106): a bundle may end at 2^48. -/
def State.endPc (s : State) : W64 := BitVec.ofNat 64 (s.issue.pc.toNat + 4 * s.issue.words)
/-- The address of the next sequential bundle (R42). -/
def State.nextPc (s : State) : CodeAddr := BitVec.ofNat 48 (s.issue.pc.toNat + 4 * s.issue.words)

/-- What the issuing context has stored is handed over, by its own bundle too: what a release or an atomic has to do first (R253,
R368). -/
def drainMe (s : State) : State :=
  let t := drainStores s s.issue.core s.issue.ctx
  { t with issue := { t.issue with drained := true } }

/-- A store that waits for its translation (R223). -/
def OpKind.waitsStore : OpKind → Bool
  | .store _ _ => true
  | _ => false

/-- Whether a handler's own stores wait for translations: its stores are not handed over before. -/
def handlerStores (k : Ctx) : Bool := k.ops.any (fun o => decide (k.epoch < o.epoch) && o.kind.waitsStore)

/-- The bundle in flight makes a transfer after its other effects (R19). -/
def State.transfer (s : State) (t : Transfer1) : State := { s with issue := { s.issue with transfer := t } }

end Sys2Proof.Machine
end

