-- ==== Sys2Proof/Machine/Bundle.lean ====
section
/-! DEFINITION. Fetch, decode and checks of a bundle (R42 to R47, R49, R218), its issue (R18 to R20, R119, R149), and what
happens when its slots have run (R19, R107 to R110, R340, R366). -/

namespace Sys2Proof.Machine

/-! What the checks need to know of an instruction. -/

/-- A register that R44 looks at. -/
inductive Target where
  | s (r : BitVec 5)
  | v (r : BitVec 5)
  | g (r : BitVec 3)
  | st (r : BitVec 5)
  | sh (r : BitVec 5)
  deriving DecidableEq, Repr

/-- A compare writes both registers of its pair. -/
def pairWrite (d : BitVec 5) (lat : Nat) : List (Target × Option Nat) :=
  [(.g (BitVec.ofNat 3 d.toNat), some lat), (.g (BitVec.ofNat 3 (d.toNat + 1)), some lat)]

/-- The registers an instruction writes, with the exposed latency, or none for a variable one; loads and atomics count as
variable, and a stream advance as a write of the stream at issue (R27, R44, R287). futwait counts as an exposed write of latency 1, as R27
and R206 have it, though R25 names future waits among the variable-latency operations (DESIGN CHOICE, log 30). -/
def writes : Instr → List (Target × Option Nat)
  | .add f => [(.s f.d, some 1)]
  | .sub f => [(.s f.d, some 1)]
  | .and f => [(.s f.d, some 1)]
  | .or f => [(.s f.d, some 1)]
  | .xor f => [(.s f.d, some 1)]
  | .andn f => [(.s f.d, some 1)]
  | .shl f => [(.s f.d, some 1)]
  | .shr f => [(.s f.d, some 1)]
  | .sar f => [(.s f.d, some 1)]
  | .rol f => [(.s f.d, some 1)]
  | .min f => [(.s f.d, some 1)]
  | .max f => [(.s f.d, some 1)]
  | .minu f => [(.s f.d, some 1)]
  | .maxu f => [(.s f.d, some 1)]
  | .bfx f => [(.s f.d, some 1)]
  | .bfi f => [(.s f.d, some 1)]
  | .sel f => [(.s f.d, some 1)]
  | .addi f => [(.s f.d, some 1)]
  | .li f => [(.s f.d, some 1)]
  | .addpc f => [(.s f.d, some 1)]
  | .andi f => [(.s f.d, some 1)]
  | .ori f => [(.s f.d, some 1)]
  | .xori f => [(.s f.d, some 1)]
  | .shli f => [(.s f.d, some 1)]
  | .shri f => [(.s f.d, some 1)]
  | .sari f => [(.s f.d, some 1)]
  | .clz f => [(.s f.d, some 1)]
  | .ctz f => [(.s f.d, some 1)]
  | .popc f => [(.s f.d, some 1)]
  | .sext f => [(.s f.d, some 1)]
  | .gget f => [(.s f.d, some 1)]
  | .mul f => [(.s f.d, some 3)]
  | .mulh f => [(.s f.d, some 3)]
  | .mulhu f => [(.s f.d, some 3)]
  | .div f => [(.s f.d, none)]
  | .divu f => [(.s f.d, none)]
  | .rem f => [(.s f.d, none)]
  | .remu f => [(.s f.d, none)]
  | .cmpeq f => pairWrite f.d 1
  | .cmpne f => pairWrite f.d 1
  | .cmplt f => pairWrite f.d 1
  | .cmpge f => pairWrite f.d 1
  | .cmpltu f => pairWrite f.d 1
  | .cmpgeu f => pairWrite f.d 1
  | .cmpeqi f => pairWrite f.d 1
  | .cmplti f => pairWrite f.d 1
  | .gand f => [(.g (BitVec.ofNat 3 f.d.toNat), some 1)]
  | .gor f => [(.g (BitVec.ofNat 3 f.d.toNat), some 1)]
  | .gxor f => [(.g (BitVec.ofNat 3 f.d.toNat), some 1)]
  | .gset f => [(.g (BitVec.ofNat 3 f.d.toNat), some 1)]
  | .call _ => [(.s 31, some 1)]
  | .callr _ => [(.s 31, some 1)]
  | .mfs f => [(.s f.d, some 1)]
  | .ldb f => [(.s f.d, none)]
  | .ldbu f => [(.s f.d, none)]
  | .ldh f => [(.s f.d, none)]
  | .ldhu f => [(.s f.d, none)]
  | .ldw f => [(.s f.d, none)]
  | .ldwu f => [(.s f.d, none)]
  | .ldd f => [(.s f.d, none)]
  | .ldx f => [(.s f.d, none)]
  | .amoadd f => [(.s f.d, none)]
  | .amomin f => [(.s f.d, none)]
  | .amomax f => [(.s f.d, none)]
  | .amoand f => [(.s f.d, none)]
  | .amoor f => [(.s f.d, none)]
  | .amoxor f => [(.s f.d, none)]
  | .amoswp f => [(.s f.d, none)]
  | .amocas f => [(.s f.d, none)]
  | .vld f => [(.v f.d, none)]
  | .vldb f => [(.v f.d, none)]
  | .vldx f => [(.v f.d, none)]
  | .wld f => [(.v f.d, none)]
  | .vldt f => [(.v f.d, none)]
  | .vldtc f => [(.v f.d, none)]
  | .lds f => [(.v f.d, none), (.st f.a, some 0)]
  | .sts f => [(.st f.a, some 0)]
  | .stset f => [(.st f.d, some 1)]
  | .stget f => [(.s f.d, some 1)]
  | .fence f => [(.s f.d, some 1)]
  | .vabs f => [(.v f.d, some 1)]
  | .vneg f => [(.v f.d, some 1)]
  | .vmov f => [(.v f.d, some 1)]
  | .vbcast f => [(.v f.d, some 1)]
  | .viota f => [(.v f.d, some 1)]
  | .viadd f => [(.v f.d, some 1)]
  | .visub f => [(.v f.d, some 1)]
  | .vimul f => [(.v f.d, some 1)]
  | .viand f => [(.v f.d, some 1)]
  | .vior f => [(.v f.d, some 1)]
  | .vixor f => [(.v f.d, some 1)]
  | .vishl f => [(.v f.d, some 1)]
  | .vishr f => [(.v f.d, some 1)]
  | .visar f => [(.v f.d, some 1)]
  | .vimin f => [(.v f.d, some 1)]
  | .vimax f => [(.v f.d, some 1)]
  | .vmin f => [(.v f.d, some 2)]
  | .vmax f => [(.v f.d, some 2)]
  | .vsel f => [(.v f.d, some 2)]
  | .vperm f => [(.v f.d, some 2)]
  | .vrot f => [(.v f.d, some 2)]
  | .vins f => [(.v f.d, some 2)]
  | .vrng f => [(.v f.d, some 2)]
  | .vadd f => [(.v f.d, some 4)]
  | .vsub f => [(.v f.d, some 4)]
  | .vmul f => [(.v f.d, some 4)]
  | .vfma f => [(.v f.d, some 4)]
  | .vfms f => [(.v f.d, some 4)]
  | .vfmai f => [(.v f.d, some 4)]
  | .vcvt f => [(.v f.d, some 3)]
  | .vcvtx f => [(.v f.d, some 3)]
  | .vpack f => [(.v f.d, some 3)]
  | .vunpk f => [(.v f.d, some 3)]
  | .vdqmx f => [(.v f.d, some 3)]
  | .vdq4n f => [(.v f.d, some 3)]
  | .vfxcvt f => [(.v f.d, some 3)]
  | .vqmx f => [(.v f.d, some 6)]
  | .vq4n f => [(.v f.d, some 6)]
  | .vsum f => [(.v f.d, some 6)]
  | .vamax f => [(.v f.d, some 5)]
  | .vmaxi f => [(.v f.d, some 5)]
  | .vmini f => [(.v f.d, some 5)]
  | .vlog2 f => [(.v f.d, some 8)]
  | .vexp2 f => [(.v f.d, some 8)]
  | .vrcp f => [(.v f.d, some 8)]
  | .vrsqrt f => [(.v f.d, some 8)]
  | .vlsem f => [(.v f.d, some 8)]
  | .vcmpeq f => pairWrite f.d 2
  | .vcmplt f => pairWrite f.d 2
  | .vcmple f => pairWrite f.d 2
  | .vcmpun f => pairWrite f.d 2
  | .vicmpeq f => pairWrite f.d 2
  | .vicmplt f => pairWrite f.d 2
  | .vext f => [(.s f.d, some 2)]
  | .mpush f => [(.st f.a, some 0)]
  | .macc f => [(.st f.a, some 0)]
  | .maccp f => [(.st f.a, some 0), (.st f.d, some 0)]
  | .mdrainp f => [(.st f.b, some 0)]
  | .shw f => [(.sh f.d, some 3)]
  | .tlrd f => [(.s f.d, some 2)]
  | .itstat f => [(.s f.d, some 2)]
  | .gsub f => [(.s f.d, some 2)]
  | .plan f => [(.s f.d, none)]
  | .talloc f => [(.s f.d, none)]
  | .kvapp f => [(.s f.d, none)]
  | .futwait f => [(.s f.d, some 1)]
  | _ => []

/-- Irrevocable instructions: their bundle commits a checkpoint (R203, R286, R343, R366). -/
def irrevocable : Instr → Bool
  | .shw _ => true
  | .cpy _ => true
  | .cpyadd _ => true
  | .cpymc _ => true
  | .cpyt _ => true
  | .cpyg _ => true
  | .tlrd _ => true
  | .tlwait _ => true
  | .swset _ => true
  | .swwait _ => true
  | .itstart _ => true
  | .itstat _ => true
  | .plan _ => true
  | .lnscfgTemplate _ => true
  | .lnscfgDescriptor _ => true
  | .lnsgo _ => true
  | .gcfg _ => true
  | .gsub _ => true
  | .cpyw _ => true
  | .spawn _ => true
  | .qpush _ => true
  | .join _ => true
  | .trig _ => true
  | .park _ => true
  | .wake _ => true
  | .futwait _ => true
  | .futset _ => true
  | .futpoison _ => true
  | .talloc _ => true
  | .tfin _ => true
  | .tdrop _ => true
  | .bar _ => true
  | .barr _ => true
  | .barw _ => true
  | .kvapp _ => true
  | .susp _ => true
  | .amoadd _ => true
  | .amomin _ => true
  | .amomax _ => true
  | .amoand _ => true
  | .amoor _ => true
  | .amoxor _ => true
  | .amoswp _ => true
  | .amocas _ => true
  | .fence _ => true
  | .acq _ => true
  | .rel _ => true
  | .vldtc _ => true
  | _ => false

/-- Instructions that raise PRIV in handler mode (R372). -/
def handlerForbids : Instr → Bool
  | .mpush _ => true
  | .mswap _ => true
  | .macc _ => true
  | .maccp _ => true
  | .mdrain _ => true
  | .mdrainp _ => true
  | .mclr _ => true
  | .mownAcquire _ => true
  | .mownRelease _ => true
  | .shw _ => true
  | .cpy _ => true
  | .cpyadd _ => true
  | .cpymc _ => true
  | .cpyt _ => true
  | .cpyg _ => true
  | .tlrd _ => true
  | .tlwait _ => true
  | .swset _ => true
  | .swwait _ => true
  | .itstart _ => true
  | .itstat _ => true
  | .plan _ => true
  | .lnscfgTemplate _ => true
  | .lnscfgDescriptor _ => true
  | .lnsgo _ => true
  | .gcfg _ => true
  | .gsub _ => true
  | .cpyw _ => true
  | .spawn _ => true
  | .qpush _ => true
  | .join _ => true
  | .trig _ => true
  | .park _ => true
  | .wake _ => true
  | .futwait _ => true
  | .futset _ => true
  | .futpoison _ => true
  | .talloc _ => true
  | .tfin _ => true
  | .tdrop _ => true
  | .bar _ => true
  | .barr _ => true
  | .barw _ => true
  | .kvapp _ => true
  | .susp _ => true
  | .yield _ => true
  | .stop _ => true
  | .loop _ => true
  | _ => false

/-- Instructions that a template bundle must not contain (R341). -/
def templateForbids : Instr → Bool
  | .br _ => true
  | .call _ => true
  | .jr _ => true
  | .callr _ => true
  | .ret _ => true
  | .loop _ => true
  | .rep _ => true
  | .wait _ => true
  | .yield _ => true
  | .stop _ => true
  | .trap _ => true
  | .eret _ => true
  | .mfs _ => true
  | .mts _ => true
  | .ckpt _ => true
  | .brk _ => true
  | .spawn _ => true
  | .qpush _ => true
  | .join _ => true
  | .trig _ => true
  | .park _ => true
  | .wake _ => true
  | .futwait _ => true
  | .futset _ => true
  | .futpoison _ => true
  | .talloc _ => true
  | .tfin _ => true
  | .tdrop _ => true
  | .bar _ => true
  | .barr _ => true
  | .barw _ => true
  | .kvapp _ => true
  | .susp _ => true
  | .mownAcquire _ => true
  | .mownRelease _ => true
  | .lnscfgTemplate _ => true
  | .lnscfgDescriptor _ => true
  | .lnsgo _ => true
  | _ => false

/-- Non-nop class C (R110). -/
def isControl : Instr → Bool
  | .br _ => true
  | .call _ => true
  | .jr _ => true
  | .callr _ => true
  | .ret _ => true
  | .loop _ => true
  | .rep _ => true
  | .wait _ => true
  | .yield _ => true
  | .stop _ => true
  | .trap _ => true
  | .eret _ => true
  | .mfs _ => true
  | .mts _ => true
  | .ckpt _ => true
  | .brk _ => true
  | _ => false

/-- Atomics. -/
def isAtomic : Instr → Bool
  | .amoadd _ => true
  | .amomin _ => true
  | .amomax _ => true
  | .amoand _ => true
  | .amoor _ => true
  | .amoxor _ => true
  | .amoswp _ => true
  | .amocas _ => true
  | _ => false

/-- Vector sources by which a slot can read a queue port; only these forms can (R34, R155, R171, R283). -/
def portSources (w : W32) (i : Instr) : List (BitVec 5) :=
  let cls := opcode w / 64
  let d : BitVec 5 := bits w 13 5
  let a : BitVec 5 := bits w 8 5
  let b : BitVec 5 := bits w 3 5
  match i with
  | .vbcast _ | .viota _ | .vrng _ | .vins _ => []
  | .vrot _ | .vext _ | .vfmai _ | .vldx _ => [a]
  | .vst _ | .sts _ => [d]
  | .vstx _ => [d, a]
  | .stq f => [f.d ||| 28]
  | _ => if cls = 3 then [a, b] else if cls = 4 then [a] ++ (match i with
    | .vlsem _ => [b]
    | _ => []) else []

/-- Unprivileged system registers (R114). -/
def sysUser (n : BitVec 12) : Bool := decide (n.toNat ≤ 0x00C)
/-- Assigned privileged system registers (R388, R406). -/
def sysPriv (n : BitVec 12) : Bool :=
  let k := n.toNat
  decide (0x100 ≤ k ∧ k ≤ 0x105) || decide (0x110 ≤ k ∧ k ≤ 0x11F) || decide (0x120 ≤ k ∧ k ≤ 0x126)
    || decide (0x200 ≤ k ∧ k ≤ 0x21B) || decide (0x300 ≤ k ∧ k ≤ 0x34F) && !decide (0x30A ≤ k ∧ k ≤ 0x30F)
/-- Privileged registers that handler mode writes: eret_ctl, eret_pc, k0 to k15, int_send (R388). -/
def sysHandlerWrites (n : BitVec 12) : Bool :=
  let k := n.toNat
  decide (k = 0x104 ∨ k = 0x105 ∨ k = 0x125) || decide (0x110 ≤ k ∧ k ≤ 0x11F)

/-- How the bundle stands: handler mode, the repeated bundle of a rep, a template bundle. -/
structure BundleMode where
  handler : Bool
  rep : Bool
  template : Bool
  deriving DecidableEq, Repr

/-- A decoded slot: its word and its instruction. -/
structure Slot where
  word : W32
  instr : Except Reject Instr

/-- Step 2 of R47 for one slot: assigned opcode and field rules. -/
def slotIll (m : BundleMode) (words : Nat) (sl : Slot) : Bool :=
  match sl.instr with
  | .error _ => true
  | .ok i =>
    !i.wf || (m.rep && isControl i) || (m.template && templateForbids i) ||
    match i with
    | .loop f => decide ((imm13Z f).toNat ≤ words)
    | .mfs f => !sysUser f.num && !sysPriv f.num
    | .mts f => if sysUser f.num then decide (2 < f.num.toNat) else !sysPriv f.num
    | _ => false

/-- Step 3 of R47 for one slot: privilege (R372, R388, R392). -/
def slotPriv (m : BundleMode) (sl : Slot) : Bool :=
  match sl.instr with
  | .error _ => false
  | .ok i =>
    if m.handler then
      handlerForbids i || (portSources sl.word i).any (fun r => (portOf r).isSome) ||
      match i with
      | .mts f => sysPriv f.num && !sysHandlerWrites f.num
      | _ => false
    else match i with
      | .eret _ => true
      | .mfs f => sysPriv f.num
      | .mts f => sysPriv f.num
      | _ => false

/-- Class of a slot word (R30). -/
def classNum (w : W32) : Nat := opcode w / 64

/-- Whether a slot is a nop. -/
def Slot.nop (sl : Slot) : Bool := match sl.instr with
  | .ok .nop => true
  | _ => false

/-- Class maxima of R43. -/
def classMax (c : Nat) : Nat := if c = 0 ∨ c = 2 ∨ c = 3 then 2 else 1

/-- Whether the slots before a slot make it break the order or a maximum of R43. Of two slots in the wrong order, or past a maximum, it is the
later one that fails and whose index is recorded (R47 does not say which; DESIGN CHOICE, log 106). -/
def slotOrder (before : List Slot) (sl : Slot) : Bool :=
  if sl.nop then false
  else
    let cs := (before.filter (fun b => !b.nop)).map (fun b => classNum b.word)
    cs.any (fun c => decide (classNum sl.word < c)) || decide (classMax (classNum sl.word) ≤ (cs.filter (· == classNum sl.word)).length)

/-- Writes of a slot; those of s0 are discarded (R44). -/
def Slot.writes (sl : Slot) : List (Target × Option Nat) := match sl.instr with
  | .ok i => (Machine.writes i).filter (fun w => decide (w.1 ≠ .s 0))
  | .error _ => []

/-- Two writes that R44 forbids in one bundle. -/
def clash (a b : Target × Option Nat) : Bool := decide (a.1 = b.1) && (a.2 == b.2 || a.2.isNone || b.2.isNone)

/-- Whether a slot clashes with a slot after it: of two slots that write one register, the lower one decides (R47; log 22). -/
def slotClash (sl : Slot) (after : List Slot) : Bool :=
  after.any (fun b => b.writes.any (fun x => sl.writes.any (clash x)))

/-- The first slot for which a test of the slots before it, itself and those after it holds. -/
def firstSlot (test : List Slot → Slot → List Slot → Bool) : List Slot → List Slot → Option Nat
  | _, [] => none
  | before, sl :: t => if test before sl t then some before.length else firstSlot test (before ++ [sl]) t

/-- The checks of R47 after the stop slot has been found: the cause and the index it records. -/
def checkBundle (m : BundleMode) (slots : List Slot) (words : Nat) : Option (Cause × Nat) :=
  if ¬ m.handler ∧ (words < 4 ∨ 8 < words) then some (.bundle, slots.length - 1)
  else match firstSlot (fun _ sl _ => slotIll m words sl) [] slots with
    | some i => some (.ill, i)
    | none => match firstSlot (fun _ sl _ => slotPriv m sl) [] slots with
      | some i => some (.priv, i)
      | none =>
        if m.handler then none
        else match firstSlot (fun b sl t => slotOrder b sl || slotClash sl t) [] slots with
          | some i => some (.bundle, i)
          | none => none

/-! Fetch. -/

/-- A code word as the context's code image holds it (R17, R218): the address of the failing fetch and its reason otherwise. -/
def fetchWord (s : State) (c : CoreId) (code : Memory) (pc : CodeAddr) : Except W64 W32 :=
  let va : W64 := BitVec.ofNat 64 (2 ^ 63 + pc.toNat)
  match place s c .fetch va 4 with
  | .error r => .error (txInfo va r)
  | .ok p => .ok (leWord 32 (code.readRun p.key 4))

/-- The words from an address: slots up to the first stop bit, at most n of them. -/
def fetchSlots (get : CodeAddr → Except W64 W32) : Nat → CodeAddr → Except W64 (List W32)
  | 0, _ => .ok []
  | n + 1, pc =>
    match get pc with
    | .error e => .error e
    | .ok w =>
      if stopBit w then .ok [w]
      else match fetchSlots get n (pc + 4) with
        | .error e => .error e
        | .ok t => .ok (w :: t)

/-- The n words from an address. -/
def fetchRun (get : CodeAddr → Except W64 W32) : Nat → CodeAddr → Except W64 (List W32)
  | 0, _ => .ok []
  | n + 1, pc =>
    match get pc with
    | .error e => .error e
    | .ok w => match fetchRun get n (pc + 4) with
      | .error e => .error e
      | .ok t => .ok (w :: t)

/-- The slots with their literals, in the order of the slots whose L bit is 1 (R41). -/
def pairLits : List W32 → List W32 → List Slot
  | [], _ => []
  | w :: t, lits =>
    if litBit w then { word := w, instr := decodeSlot w (lits.headD 0) } :: pairLits t lits.tail
    else { word := w, instr := decodeSlot w 0 } :: pairLits t lits

/-- A bundle: what stops it at decode, or its slots and word count. -/
inductive Bundle where
  | bad (c : Cause) (info : W64) (words : Nat)
  | good (slots : List Slot) (words : Nat)

/-- The bundle at an address (R42, R46, R47). The literals are fetched before a bundle of fewer than 4 words is refused, so TXLATE wins
over that BUNDLE, but after the test for more than 8: the spec does not order them (DESIGN CHOICE, log 31). -/
def decodeBundle (m : BundleMode) (get : CodeAddr → Except W64 W32) (pc : CodeAddr) : Bundle :=
  match fetchSlots get (if m.handler then 1 else 8) pc with
  | .error e => .bad .txlate e 0
  | .ok ws =>
    if ¬ stopBit (ws.getLast?.getD 0) then .bad .bundle (if m.handler then 0 else 7) (ws.length)
    else
      let nl := (ws.filter litBit).length
      let words := ws.length + nl
      if ¬ m.handler ∧ 8 < words then .bad .bundle (BitVec.ofNat 64 (ws.length - 1)) words
      else match fetchRun get nl (BitVec.ofNat 48 (pc.toNat + 4 * ws.length)) with
        | .error e => .bad .txlate e words
        | .ok lits =>
          let slots := pairLits ws lits
          match checkBundle m slots words with
          | some (c, i) => .bad c (BitVec.ofNat 64 i) words
          | none => .good slots words

/-- Words of a template position as a fetch sees them (R339): past the end there is no stop slot. -/
def templateWord (ws : List W32) (pc base : CodeAddr) : Except W64 W32 :=
  .ok ((ws[(pc - base).toNat / 4]?).getD 0)

/-! Issue. -/

/-- What the sequencer replays: the template position now (R340). -/
def templateAt (k : Core) (y : Ctx) (p : Replay) : List W32 :=
  let first := wbits ((y.seqDesc.getD []).headD 0) 0 8
  aget [] k.templates (first + p.pos)

/-- The bundle that a context issues next. -/
def nextBundle (s : State) (c : CoreId) (x : CtxId) : Bundle :=
  let k := s.ctx c x
  let m : BundleMode := { handler := k.handler, rep := k.r.rep.isSome && k.r.replay.isNone, template := k.r.replay.isSome }
  match k.r.replay with
  | some p => decodeBundle m (fun pc => templateWord (templateAt (s.core c) k p) pc k.r.pc) k.r.pc
  | none => decodeBundle m (fun pc => fetchWord s c k.code pc) k.r.pc

/-- Whether memory accesses or an allocation of the context are outstanding: no checkpoint bundle issues (R366, R274). -/
def ckptBlocked (k : Ctx) : Bool :=
  k.ops.any (fun o => match o.kind with
    | .load _ _ _ _ | .vload _ _ | .bload _ _ | .wload _ | .tile _ _ _ _ _ | .store _ _ | .talloc _ _ _ => true
    | _ => false)

/-- Episodes completed at a scope in a domain (R136). -/
def Team.completed (t : Team) (scope dom : Nat) : Nat :=
  ((t.complete.find? (fun e => e.1 == scope && e.2.1 == dom)).map (fun e => e.2.2)).getD 0

/-- Number of the domain of a core at a scope (R135). -/
def domainOf (c : CoreId) (scope : Nat) : Nat :=
  if scope = 1 then c.val else if scope = 2 then c.val / 4 else if scope = 3 then c.val / 64 else 0

/-- Whether episode n at a scope has completed for a context's team in its domain; a lone continuation waits for nobody. -/
def episodeDone (s : State) (c : CoreId) (job : Record) (scope n : Nat) : Bool :=
  scope == 0 || match s.team job.team with
  | none => true
  | some t => decide (t.members.length ≤ 1) && decide (scope < 5 ∨ t.gang.isNone) || decide (n ≤ t.completed scope (domainOf c scope))

/-- A cause waits at the boundary of a context in program mode; one that arises while a handler runs is held until eret (R376), but for a
fault of the handler's own (R372). -/
def causeWaits (k : Ctx) : Bool :=
  k.ownFault.isSome || !k.handler && (k.pendFault.isSome || k.pendPreempt.isSome || k.pendInt.isSome || k.pendWatchdog.isSome)

/-- A template operator whose next beat has nothing before it (R147, R341). -/
def operReady (k : Ctx) : Bool := k.r.replay.isSome && !causeWaits k && match k.phase with
  | .tileStep _ => true
  | _ => false

/-- A context that can issue as far as its own condition goes: it runs, is not in a bubble, waits for no barrier and no cause. -/
def ctxReady (s : State) (c : CoreId) (x : CtxId) : Bool :=
  let k := s.ctx c x
  (k.phase == .running) && (k.bubble == 0) && !causeWaits k && (k.handler || match k.barWait with
    | some (sc, n) => episodeDone s c k.job sc.toNat n
    | none => true)

/-- A ratio of R149. -/
def stretchRatio (code : BitVec 3) : Nat × Nat :=
  match code.toNat with
  | 0 => (1, 1) | 1 => (9, 8) | 2 => (5, 4) | 3 => (3, 2) | 4 => (2, 1) | 5 => (3, 1) | _ => (4, 1)

/-- The stretch in force in this cycle, and since when: a change takes effect at the next cycle (R150). -/
def stretchNow (s : State) (k : Core) : BitVec 3 × Nat :=
  if s.cycle < k.stretchFrom then (k.stretchWas, k.stretchWasFrom) else (k.stretch, k.stretchFrom)

/-- Whether the stretch in force allows an issue in this cycle (R149). -/
def stretchAllows (s : State) (k : Core) : Bool :=
  let (a, b) := stretchRatio (stretchNow s k).1
  let n := s.cycle - (stretchNow s k).2
  decide (n * b / a < (n + 1) * b / a)

/-- The acquire that the bar of a context's last bundle makes, its episode complete (R209, R251). -/
def barAcquire (s : State) (c : CoreId) (x : CtxId) : State :=
  let k := s.ctx c x
  match k.barWait with
  | some (sc, _) => if k.handler then s else acquire s c sc.toNat (bound k.r.bind 4 (BitVec.ofNat 64 sc.toNat))
  | none => s

/-- A recorded write-back error that this acquire covers (R263). -/
def barError (s : State) (c : CoreId) (x : CtxId) : Option (W64 × State) :=
  let k := s.ctx c x
  match k.barWait with
  | some (sc, _) => if k.handler then none else reported s c (bound k.r.bind 4 (BitVec.ofNat 64 sc.toNat))
  | none => none

/-- The code address in the low 48 bits of a word. -/
def codeAddr (w : W64) : CodeAddr := BitVec.ofNat 48 w.toNat

/-- The loop stack and the next address after a bundle without a taken transfer, whose end is n (R109). -/
def loopNext : List LoopEntry → W64 → List LoopEntry × CodeAddr
  | [], n => ([], codeAddr n)
  | e :: t, n =>
    if n = e.exit then (if 1 < e.left.toNat then ({ e with left := e.left - 1 } :: t, codeAddr e.start) else loopNext t n)
    else (e :: t, codeAddr n)

/-- What a context's next bundle comes to before its slots run. -/
inductive Prepared where
  | blocked
  | done (s : State)
  | ready (s : State)

/-- A result in flight that writes an accumulator row whole. -/
def Latch.renews (l : Latch) (row : Nat) : Bool := match l.dest with
  | .accRow r => r == row
  | .rowClear f n => decide (f ≤ row) && decide (row < f + n)
  | _ => false

/-- A ckpt slot that is on makes its bundle a checkpoint bundle (R392). -/
def ckptSlot (r : Regs) : Instr → Bool
  | .ckpt f => wbit (r.getG f.g) 0
  | _ => false

/-- The memory controllers take what a checkpoint bundle of a context hands to memory: its budget is not exhausted, and no stack or module
that it goes to retrains (R386, R409). -/
def drainReady (s : State) (c : CoreId) (x : CtxId) : Bool :=
  ((s.part (s.partIdOf c)).budMem == 0 && s.retrains.isEmpty) || memReady s (s.partIdOf c) (drainBlocks s c x)

/-- The bundle of one that is ready to issue, prepared: decode faults at once; a rep of zero skips the bundle; a checkpoint bundle
commits, which finds a bad gate (R378); the latches that are due land; the snapshot is taken (R18, R20, R22, R47, R110, R366). R109's
check of the loop exit is made after a skipped bundle too, though the spec speaks of issued ones (DESIGN CHOICE, log 32). In handler mode
no checkpoint commits: an instruction that would is preceded by the handler's own stores (R374). -/
def prepareNext (s : State) (c : CoreId) (x : CtxId) (oper : Bool) : Prepared :=
  let k := s.ctx c x
  match barError s c x with
  | some (l, t) => .done (deliver t c x .eccue (l ||| 1) k.r.pc 0)
  | none => match nextBundle s c x with
    | .bad cause info words => .done (deliver s c x cause info k.r.pc words)
    | .good slots words =>
      let instrs := slots.filterMap (fun sl => match sl.instr with
        | .ok i => some i
        | .error _ => none)
      let next : W64 := BitVec.ofNat 64 (k.r.pc.toNat + 4 * words)
      if k.r.rep = some 0 ∧ k.r.replay.isNone then
        let (ls, pc) := loopNext k.r.loops next
        .done (s.setCtx c x { k with r := { k.r with pc := pc, loops := ls, rep := none } })
      else
        let landed := k.r.landAll
        let irr := instrs.any irrevocable
        let ck := !k.handler && (irr || instrs.any (ckptSlot landed))
        if (ck ∧ ckptBlocked k) ∨ (irr ∧ handlerStores k) ∨ ((ck ∨ irr) ∧ ¬ drainReady s c x) then .blocked
        else if (ck ∨ irr) ∧ k.badStore then .done (endBad s c x k.r.pc words)
        else
          let s := if ck then commit s c x else if irr then drainStores s c x else s
          let s := barAcquire s c x
          let k := s.ctx c x
          let k := { k with r := landed, badRows := k.badRows.filter (fun i => !k.r.latches.any (fun l => decide (l.left ≤ 1) && l.renews i)),
                            barWait := if k.handler then k.barWait else none }
          let s := s.setCtx c x k
          .ready { s with
            issue := { core := c, ctx := x, pc := landed.pc, words := words, slot := 0, pre := k, mem := s.mem, near := (s.core c).near,
                       drained := false, live := true, slots := instrs, ckpt := ck, pops := 0, draws := 0, verdict := .ok,
                       transfer := .none, replay := false, oper := oper, effects := [] } }

/-- The next bundle of a context prepared for issue, if the context can issue. -/
def prepare (s : State) (c : CoreId) (x : CtxId) : Prepared := if ctxReady s c x then prepareNext s c x false else .blocked

/-- The contexts in the order in which the selector tries them (R119): the current one, then those after it. -/
def order (k : Core) : List CtxId := [k.current, k.current + 1, k.current + 2, k.current + 3]

/-- A core may have something to issue. -/
def coreBusy (k : Core) : Bool := k.ctx.toList.any (fun y => y.phase == .running)

/-- Numbers, from n on, of the cores in a list that may have something to issue. -/
def busyFrom : Nat → List Core → List Nat
  | _, [] => []
  | n, k :: t => if coreBusy k then n :: busyFrom (n + 1) t else busyFrom (n + 1) t

/-- Since when the core has had a non-empty queue and no free context (R380). -/
def Core.noteFull (k : Core) (cycle : Nat) : Core :=
  let full := !k.queue.isEmpty && k.ctx.toList.all (fun y => y.phase != .idle)
  if full == k.fullSince.isSome then k else { k with fullSince := if full then some cycle else none }

/-- An error strikes (R230, R240, R378, R404). -/
def strike (s : State) : Upset → State
  | .word key double => { s with ecc := (key / 8 * 8, double) :: s.ecc.filter (fun e => e.1 != key / 8 * 8) }
  | .row c x r => s.setCtx c x { s.ctx c x with badRows := r :: (s.ctx c x).badRows }
  | .buffer c x => s.setCtx c x { s.ctx c x with badStore := true }
  | .takeOut c => if (s.core c).out then s else leaveOut s c

/-- The errors due by this cycle strike. -/
def strikes (s : State) : State :=
  ((s.upsets.filter (fun u => decide (u.1 ≤ s.cycle))).foldl (fun t u => strike t u.2)
    { s with upsets := s.upsets.filter (fun u => decide (s.cycle < u.1)) })

/-- The cycle ends: what each core notes of it, and the errors that strike in it. -/
def endCycle (s : State) : State :=
  let t : State := { s with cores := s.cores.map (fun k => k.noteFull s.cycle) }
  let u := if t.upsets.isEmpty then t else strikes t
  { u with cycle := s.cycle + 1 }

/-- The bundle that a core is about to issue pushes to its own queue. -/
def ownPush (s : State) (c : CoreId) : Bool :=
  match (order (s.core c)).find? (ctxReady s c) with
  | none => false
  | some x => match nextBundle s c x with
    | .bad _ _ _ => false
    | .good slots _ => slots.any (fun sl => match sl.instr with
      | .ok (.spawn _) | .ok (.yield _) => true
      | _ => false)

/-- The core whose issue slot comes first among some: one that pushes to its own queue, before the qpushes of others (R126), then the
lowest (log 2, log 25). -/
def firstCore (s : State) (l : List Nat) : Option Nat :=
  if l.length ≤ 1 then l.head? else (l.find? (fun c => ownPush s (Fin.ofNat 512 c))).or l.head?

/-- The issue slot passes to the next busy core that has not had it in this cycle; after the last one the cycle ends (R119; log 2). -/
def tick (s : State) : State :=
  let had := s.turn :: s.slotDone
  match firstCore s ((busyFrom 0 s.cores.toList).filter (fun c => !had.any (fun d => d.val == c))) with
  | some c => { s with turn := Fin.ofNat 512 c, slotDone := had }
  | none =>
    let t := endCycle { s with slotDone := [] }
    { t with turn := Fin.ofNat 512 ((firstCore t (busyFrom 0 t.cores.toList)).getD 0) }

/-- The issue slot of core c in this cycle: nothing while the package is frozen, the current context is in a bubble, whose cycles pass
whatever the stretch, or the stretch forbids it (R20, R119, R149, R431); otherwise the first context whose bundle is not blocked is prepared. -/
def issueFrom (s : State) (c : CoreId) : List CtxId → State
  | [] => tick s
  | x :: t =>
    match prepare s c x with
    | .blocked => issueFrom s c t
    | .done u => tick (u.setCore c { u.core c with current := x })
    | .ready u => u.setCore c { u.core c with current := x }

/-- No bundle is in flight. -/
def State.calm (s : State) : State := { s with issue := { s.issue with live := false, verdict := .ok } }

/-- The issue slot of core c: the bundle prepared, or the cycle passed. -/
def issueSlot (s : State) (c : CoreId) : State :=
  let s := s.calm
  let k := s.core c
  let y := s.ctx c k.current
  if s.frozen then s
  else if k.out then tick s
  else if y.phase = .running ∧ y.bubble ≠ 0 then
    tick (s.setCtx c k.current { y with bubble := y.bubble - 1, lastIssue := if y.handler then y.lastIssue else s.cycle + 1 })
  else if ¬ stretchAllows s k then tick s
  else issueFrom s c (order k)

/-! After the slots. -/

/-- Entries whose body does not contain the target leave the loop stack (R107). -/
def loopPop : List LoopEntry → CodeAddr → List LoopEntry
  | [], _ => []
  | e :: t, n => if e.start.toNat ≤ n.toNat ∧ n.toNat < e.exit.toNat then e :: t else loopPop t n

/-- Each queue that a read of the bundle pops loses its head once (R34). -/
def popQueues (r : Regs) (pops : BitVec 4) : Regs :=
  (List.range 4).foldl (fun k q =>
    if pops.getLsbD q then { k with rq := rset k.rq (BitVec.ofNat 2 q) (rget k.rq (BitVec.ofNat 2 q)).tail } else k) r

/-! The loop-nest sequencer (R339, R340). -/

/-- Word i of a sequencer descriptor. -/
def descWord (d : List W64) (i : Nat) : W64 := (d[i]?).getD 0
/-- Levels in use. -/
def seqLevels (d : List W64) : Nat := wbits (descWord d 0) 16 3 + 1
/-- Template length. -/
def seqLength (d : List W64) : Nat := wbits (descWord d 0) 8 8 + 1
/-- Whether binding b is in use. -/
def seqBound (d : List W64) (b : Nat) : Bool := wbit (descWord d 0) (32 + b)
/-- Stream of binding b. -/
def seqStream (d : List W64) (b : Nat) : BitVec 4 := BitVec.ofNat 4 (wbits (descWord d 1) (4 * b) 4)
/-- Byte increment of binding b at level l. -/
def seqDelta (d : List W64) (l b : Nat) : W64 :=
  let n := 112 + 4 * (8 * l + b)
  sextN 32 (wbits (descWord d (n / 8)) (n % 8 * 8) 32)
/-- Address of the trip count of level l, where that is in memory. -/
def tripAddr (d : List W64) (l : Nat) : Option W64 :=
  if wbit (descWord d (2 + 2 * l)) 32 then some (descWord d (3 + 2 * l)) else none

/-- Trip count of level l, read when the level is entered (R340), or the cause that the read meets. -/
def seqTrip (s : State) (c : CoreId) (x : CtxId) (d : List W64) (l : Nat) : Except (Cause × W64) W32 :=
  match tripAddr d l with
  | none => .ok (BitVec.ofNat 32 (wbits (descWord d (2 + 2 * l)) 0 32))
  | some va => match place s c .load va 4 with
    | .error r => .error (.txlate, txInfo va r)
    | .ok p =>
      if !(p.cached && nearHas (s.core c) va 4) && uncorrectable s p.key 4 then .error (.eccue, va &&& ~~~7)
      else .ok (leWord 32 (readRun s c (s.ctx c x).view va p 4))

/-- Bases and positions of the bound streams for the counters of an iteration (R340). -/
def seqBases (d : List W64) (p : Replay) (st : File 4 (File 3 W64)) : File 4 (File 3 W64) :=
  (List.range 8).foldl (fun f b =>
    if seqBound d b then
      let base := (List.range (seqLevels d)).foldl (fun a l =>
        a + BitVec.ofNat 64 ((p.counters[l]?).getD 0).toNat * seqDelta d l b) ((p.base0[b]?).getD 0)
      rset f (seqStream d b) (stPut (stPut (rget f (seqStream d b)) 0 base.toNat) 6 0)
    else f) st

/-- Levels below l entered afresh: their trip counts read and counters zero; none when one of them is skipped by a count of 0. -/
def seqEnter (s : State) (c : CoreId) (x : CtxId) (d : List W64) : Nat → Replay → Except (Cause × W64) (Option Replay)
  | 0, p => .ok (some p)
  | l + 1, p => match seqTrip s c x d l with
    | .error e => .error e
    | .ok n => if n = 0 then .ok none else seqEnter s c x d l { p with trips := p.trips.set l n, counters := p.counters.set l 0 }

/-- The next iteration after the innermost level's body, below level `top`, or none when every such level is done (R340); `fuel`
bounds the search through levels whose entry is skipped. -/
def seqAdvance (s : State) (c : CoreId) (x : CtxId) (d : List W64) (top : Nat) : Nat → Nat → Replay → Except (Cause × W64) (Option Replay)
  | 0, _, _ => .ok none
  | fuel + 1, l, p =>
    if top ≤ l then .ok none
    else
      let i := ((p.counters[l]?).getD 0).toNat + 1
      if i < ((p.trips[l]?).getD 0).toNat then
        let q := { p with counters := p.counters.set l (BitVec.ofNat 32 i), pos := 0 }
        match seqEnter s c x d l q with
        | .error e => .error e
        | .ok (some q) => .ok (some q)
        | .ok none => seqAdvance s c x d top fuel l q
      else seqAdvance s c x d top fuel (l + 1) p

/-- Iterations that a search may pass over: trip counts are 32 bits. -/
def seqFuel : Nat := 2 ^ 32

/-- The end of a replay: bases restored, positions 0, and execution goes on after the lnsgo bundle. -/
def seqFinish (d : List W64) (p : Replay) (r : Regs) : Regs :=
  { r with replay := none, pc := p.resume,
           st := seqBases d { p with counters := p.counters.map (fun _ => 0) } r.st }

/-- The registers with the outcome of a search for the next iteration, or the cause that a trip count's read met. -/
def seqSettle (d : List W64) (p : Replay) (r : Regs) : Except (Cause × W64) (Option Replay) → Regs × Option (Cause × W64)
  | .ok (some q) => ({ r with replay := some q, st := seqBases d q r.st }, none)
  | .ok none => (seqFinish d p r, none)
  | .error e => (r, some e)

/-- After a template bundle the sequencer moves on (R340); a template operator stops after one iteration of its outermost level
(R341). -/
def seqNext (s : State) (c : CoreId) (x : CtxId) (r : Regs) (p : Replay) : Regs × Option (Cause × W64) :=
  let d := ((s.ctx c x).seqDesc).getD []
  let op := (s.ctx c x).operator
  if p.pos + 1 < seqLength d then ({ r with replay := some { p with pos := p.pos + 1 } }, none)
  else seqSettle d p r (seqAdvance s c x d (if op then seqLevels d - 1 else seqLevels d) seqFuel 0 p)

/-- A replay about to enter its outermost level (R340): the bases as they stand are kept. -/
def seqOrigin (d : List W64) (r : Regs) (resume : CodeAddr) : Replay :=
  { base0 := (List.range 8).map (fun b => BitVec.ofNat 64 (stField (rget r.st (seqStream d b)) 0)),
    trips := List.replicate 6 0, counters := List.replicate 6 0, pos := 0, resume := resume }

/-- The start of a replay (R340, R355): every level entered; execution goes on where the lnsgo bundle leads. -/
def seqStart (s : State) (c : CoreId) (x : CtxId) (r : Regs) : Regs × Option (Cause × W64) :=
  let d := ((s.ctx c x).seqDesc).getD []
  let p := seqOrigin d r r.pc
  seqSettle d p r (seqEnter s c x d (seqLevels d) p)

/-- The registers after a bundle of no template: the transfer, the loop stack and rep (R107 to R110), with the bubble that follows. The
loop exit is checked at the bundle that holds rep, too, so a rep in the last bundle of a body repeats the bundle at the loop's start,
which issues next (DESIGN CHOICE, log 33). -/
def advanceCode (s : State) (r : Regs) : Regs × Nat :=
  let on := loopNext r.loops s.endPc
  match r.rep, s.issue.transfer with
  | some n, _ =>
    if 1 < n then ({ r with rep := some (n - 1) }, 0) else ({ r with rep := none, loops := on.1, pc := on.2 }, 0)
  | none, .jump t pops => ({ r with pc := t, loops := if pops then loopPop r.loops t else r.loops }, 2)
  | none, .loop start exit n =>
    if n = 0 then ({ r with pc := codeAddr exit }, 2)
    else ({ r with pc := s.nextPc, loops := { start := start, exit := exit, left := n } :: r.loops }, 0)
  | none, .rep n => ({ r with rep := some n, loops := on.1, pc := on.2 }, 0)
  | none, _ => ({ r with loops := on.1, pc := on.2 }, 0)

/-- The registers after a bundle whose slots have run (R19): pops, then the sequencer or the transfer, and a replay that starts; with
the bubble that follows and the cause that a trip count's read met. -/
def advance (s : State) : Regs × Nat × Option (Cause × W64) :=
  let r := popQueues s.me.r s.issue.pops
  match r.replay with
  | some p => let (r, bad) := seqNext s s.issue.core s.issue.ctx r p
    (r, 0, bad)
  | none =>
    let (r, bubble) := advanceCode s r
    if s.issue.replay then let (r, bad) := seqStart s s.issue.core s.issue.ctx r
      (r, bubble, bad)
    else (r, bubble, none)

/-- The checkpoint advances past its bundle, but not past that of an allocation that waits (R366). -/
def advanceCkpt (s : State) : State :=
  let i := s.issue
  let k := s.me
  if i.ckpt ∧ ¬ k.ops.any (fun o => match o.kind with
      | .talloc _ _ _ => true
      | _ => false) then commit s i.core i.ctx else s

/-- The issue slot has passed; a beat of a template operator takes none (R147). -/
def State.pass (s : State) : State := if s.issue.oper then s.calm else tick s.calm

/-- The bundle has issued: registers advance, the checkpoint advances, a suspension takes effect, and the cycle passes. A yield or another
suspension resumes at the next sequential bundle (R112, R207). -/
def endBundle (s : State) : State :=
  let i := s.issue
  let (r, bubble, bad) := advance s
  let s := s.setMe { s.me with
    r := r, bubble := bubble, lastIssue := s.cycle, moved := s.me.moved || !s.me.handler, arrayWait := none }
  let s := advanceCkpt s
  let s := match bad with
    | some (cause, info) => s.setMe (s.me.pend { cause := cause, info := info, pc := i.pc, words := i.words })
    | none => s
  let s := match i.transfer with
    | .leave why => leave (s.setCtx i.core i.ctx { s.me with trapWords := i.words }) i.core i.ctx why
        (match why with
          | .stop => i.pc
          | _ => s.nextPc)
    | _ => s
  s.pass

/-- What running the slots of a bundle came to. -/
inductive Ran where
  | held (s : State)
  | over (s : State)
  | answer (a : Answer)

/-- The state as slot n sees it. -/
def State.atSlot (s : State) (n : Nat) : State := { s with issue := { s.issue with slot := n, verdict := .ok } }

/-- The verdict of a slot that runs by itself, before any slot has taken effect. -/
def slotVerdict (ex : Instr → State → Answer) (s : State) (n : Nat) (i : Instr) : Option State :=
  match ex i (s.atSlot n) with
  | .next t => some t
  | _ => none

/-- A slot whose read-modify-write comes before the issue of its bundle (R206). -/
def preIssue : Instr → Bool
  | .join _ | .futwait _ => true
  | _ => false

/-- The slots run in order (R19); the first that raises a cause, at issue or as one found after it, stops the bundle, and that is done from
the state before any slot had an effect (R47, R156, R285, R369). -/
def foldSlots (ex : Instr → State → Answer) (start : State) : Nat → List Instr → State → Ran
  | _, [], s => .over (endBundle s)
  | n, i :: t, s =>
    match ex i (s.atSlot n) with
    | .next u => match u.issue.verdict with
      | .ok => foldSlots ex start (n + 1) t u
      | .held => .held u
      | .left => .over ((slotVerdict ex start n i).filter (fun t => t.issue.verdict == .left) |>.getD u).pass
      | .raised c info eng => .over (raise start c info eng).pass
    | a => .answer a

/-- The first slot's outcome among some that, run by itself, has a verdict. -/
def firstVerdict (v : Verdict) (os : List (Option State)) : Option State := os.findSome? (fun o => o.filter (fun t => t.issue.verdict == v))

/-- A bundle issues as a whole or not at all (R18, R20): a slot that holds it holds all of it, and a join or futwait that suspends does so
before the bundle issues, so that no other slot takes effect or raises its cause (R194, R206). -/
def runBundle (ex : Instr → State → Answer) (s : State) : Ran :=
  let alone := s.issue.slots.mapIdx (fun n i => slotVerdict ex s n i)
  match firstVerdict .held alone with
  | some t => .held t
  | none => match firstVerdict .left ((s.issue.slots.zip alone).map (fun o => if preIssue o.1 then o.2 else none)) with
    | some t => .over t.pass
    | none => foldSlots ex s 0 s.issue.slots s

/-- All that a bundle which does not issue leaves behind: the translations it asked the host for (R223, R300), and since when its context
has waited for the array (R200). -/
def State.asking (s t : State) : State :=
  State.setCtx { s with asks := t.asks, out := t.out } t.issue.core t.issue.ctx
    { s.ctx t.issue.core t.issue.ctx with arrayWait := (t.ctx t.issue.core t.issue.ctx).arrayWait }

/-- The rest of a core's issue slot: when the bundle prepared is held, the contexts after it are tried in turn (R119). -/
def runFrom (ex : Instr → State → Answer) (s : State) (c : CoreId) : List CtxId → Answer
  | [] => .next (tick s.calm)
  | x :: t =>
    match prepare s.calm c x with
    | .blocked => runFrom ex s c t
    | .done u => .next (tick (u.setCore c { u.core c with current := x }).calm)
    | .ready u =>
      match runBundle ex (u.setCore c { u.core c with current := x }) with
      | .held v => runFrom ex (s.asking v) c t
      | .over v => .next v
      | .answer a => a

/-- Contexts after x in the order of the selector. -/
def after (x : CtxId) : List CtxId → List CtxId
  | [] => []
  | y :: t => if y = x then t else after x t

/-- The prepared bundle t of state s runs to its end, if one was prepared. -/
def completeIssue (ex : Instr → State → Answer) (s t : State) : Answer :=
  if t.issue.live then
    match runBundle ex t with
    | .held v =>
      if t.issue.oper then .next (s.asking v).calm
      else runFrom ex (s.asking v) t.issue.core (after t.issue.ctx (order (s.core t.issue.core)))
    | .over v => .next v
    | .answer a => a
  else .next t

end Sys2Proof.Machine
end

