-- ==== Sys2Proof/Machine/Scalar.lean ====
section
/-! DEFINITION. Class S: integer arithmetic, compares, guard logic and select (R91 to R105). -/

namespace Sys2Proof.Machine

/-- A check, then what follows it. -/
def need (c : Except Stop Unit) (k : Except Stop State) : Except Stop State :=
  match c with
  | .error e => .error e
  | .ok () => k

/-! The operations on 64-bit values. -/

/-- Signed minimum (R96). -/
def minS (a b : W64) : W64 := if a.toInt ≤ b.toInt then a else b
/-- Signed maximum. -/
def maxS (a b : W64) : W64 := if b.toInt ≤ a.toInt then a else b
/-- Unsigned minimum. -/
def minU (a b : W64) : W64 := if a.toNat ≤ b.toNat then a else b
/-- Unsigned maximum. -/
def maxU (a b : W64) : W64 := if b.toNat ≤ a.toNat then a else b
/-- Left shift by n below 64 (R97). -/
def shl64 (a : W64) (n : Nat) : W64 := BitVec.ofNat 64 (a.toNat * 2 ^ n)
/-- Right shift, zero fill. -/
def shr64 (a : W64) (n : Nat) : W64 := BitVec.ofNat 64 (a.toNat / 2 ^ n)
/-- Right shift, sign fill. -/
def sar64 (a : W64) (n : Nat) : W64 := BitVec.ofInt 64 (a.toInt / 2 ^ n)
/-- Left rotate. -/
def rol64 (a : W64) (n : Nat) : W64 := BitVec.ofNat 64 (a.toNat * 2 ^ n + a.toNat / 2 ^ (64 - n))
/-- A shift count of the RRR forms: the low six bits. -/
def count6 (b : W64) : Nat := b.toNat % 64
/-- Leading zeros (R98). -/
def clz64 (a : W64) : Nat := ((List.range 64).find? (fun i => wbit a (63 - i))).getD 64
/-- Trailing zeros. -/
def ctz64 (a : W64) : Nat := ((List.range 64).find? (fun i => wbit a i)).getD 64
/-- One bits. -/
def popc64 (a : W64) : Nat := ((List.range 64).filter (fun i => wbit a i)).length
/-- Bit-field extract (R100). -/
def bfx64 (a b : W64) : W64 :=
  let lo := wbits b 0 6
  let n := min (wbits b 8 7) (64 - lo)
  let x := a.toNat / 2 ^ lo % 2 ^ n
  if wbit b 15 ∧ 0 < n then sextN n x else BitVec.ofNat 64 x
/-- Bit-field insert (R100). -/
def bfi64 (d a b : W64) : W64 :=
  let lo := wbits b 0 6
  let n := min (wbits b 8 7) (64 - lo)
  wset d lo n a.toNat
/-- High half of the signed product (R101). -/
def mulhS (a b : W64) : W64 := BitVec.ofInt 64 (a.toInt * b.toInt / 2 ^ 64)
/-- High half of the unsigned product. -/
def mulhU (a b : W64) : W64 := BitVec.ofNat 64 (a.toNat * b.toNat / 2 ^ 64)
/-- Signed quotient, rounded towards zero; -1 by zero (R102). -/
def quotS (a b : W64) : W64 := if b = 0 then allBits else BitVec.ofInt 64 (a.toInt.tdiv b.toInt)
/-- Signed remainder, with the sign of the dividend; the dividend by zero. -/
def remS (a b : W64) : W64 := a - quotS a b * b
/-- Unsigned quotient. -/
def quotU (a b : W64) : W64 := if b = 0 then allBits else BitVec.ofNat 64 (a.toNat / b.toNat)
/-- Unsigned remainder. -/
def remU (a b : W64) : W64 := if b = 0 then a else BitVec.ofNat 64 (a.toNat % b.toNat)

/-! The forms. -/

/-- Both sources of an RRR slot are scalar registers. -/
def srcAB (s : State) (f : RRR) : Except Stop Unit := sources s [(.s f.a, f.ta), (.s f.b, f.tb)]

/-- sD := op sA sB, after lat bundles. -/
def alu (f : RRR) (s : State) (lat : Nat) (op : W64 → W64 → W64) : Answer :=
  slot s f.g [.s f.d] (need (srcAB s f) (.ok (resultS s f.d (op (s.src.getS f.a) (s.src.getS f.b)) lat)))

/-- sD := op sA, after 1 bundle. -/
def alu1 (f : RR) (s : State) (op : W64 → W64) : Answer :=
  slot s f.g [.s f.d] (need (sources s [(.s f.a, f.ta)]) (.ok (resultS s f.d (op (s.src.getS f.a)) 1)))

/-- sD := op sA, with an immediate in op; A blocks on empty (R32). -/
def aluI (f : RRI) (s : State) (op : W64 → W64) : Answer :=
  slot s f.g [.s f.d] (need (sources s [(.s f.a, false)]) (.ok (resultS s f.d (op (s.src.getS f.a)) 1)))

/-- A division: sD is empty until the result arrives (R102). -/
def divide (f : RRR) (s : State) (op : W64 → W64 → W64) : Answer :=
  slot s f.g [.s f.d] (need (srcAB s f) (.ok (startOp s (opS f.d) (.div (op (s.src.getS f.a) (s.src.getS f.b))))))

/-- All ones or all zeros. -/
def truth (b : Bool) : W64 := if b then allBits else 0

/-- A compare writes its guard pair after 1 bundle (R40, R103). -/
def compare (f : RRR) (s : State) (op : W64 → W64 → Bool) : Answer :=
  slot s f.g [] (need (srcAB s f) (.ok (resultP s f.d allBits (truth (op (s.src.getS f.a) (s.src.getS f.b))) 0 1)))

/-- A compare with an immediate. -/
def compareI (f : RRI) (s : State) (op : W64 → W64 → Bool) : Answer :=
  slot s f.g [] (need (sources s [(.s f.a, false)]) (.ok (resultP s f.d allBits (truth (op (s.src.getS f.a) (immS f))) 0 1)))

/-- A guard named by a 5-bit field. -/
def guardOf (s : State) (r : BitVec 5) : W64 := s.src.getG (BitVec.ofNat 3 r.toNat)

/-- gD := op gA gB, after 1 bundle (R104). -/
def guardOp (f : RRR) (s : State) (op : W64 → W64 → W64) : Answer :=
  slot s f.g [] (.ok (resultG s f.d (op (guardOf s f.a) (guardOf s f.b)) 1))

/-! The instructions. -/

/-- sD := sA + sB (R96). -/
def execAdd (f : RRR) (s : State) : Answer := alu f s 1 (fun a b => a + b)
/-- sD := sA - sB (R96). -/
def execSub (f : RRR) (s : State) : Answer := alu f s 1 (fun a b => a - b)
/-- sD := sA + imm (R96). -/
def execAddi (f : RRI) (s : State) : Answer := aluI f s (fun a => a + immS f)
/-- sD := imm (R96). -/
def execLi (f : RI) (s : State) : Answer := slot s f.g [.s f.d] (.ok (resultS s f.d (imm13S f) 1))
/-- sD := pc + imm (R96). -/
def execAddpc (f : RI) (s : State) : Answer :=
  slot s f.g [.s f.d] (.ok (resultS s f.d (BitVec.ofNat 64 s.issue.pc.toNat + imm13S f) 1))
/-- Low half of the product, after 3 bundles (R101). -/
def execMul (f : RRR) (s : State) : Answer := alu f s 3 (fun a b => a * b)
/-- High half of the signed product (R101). -/
def execMulh (f : RRR) (s : State) : Answer := alu f s 3 mulhS
/-- High half of the unsigned product (R101). -/
def execMulhu (f : RRR) (s : State) : Answer := alu f s 3 mulhU
/-- Signed quotient (R102). -/
def execDiv (f : RRR) (s : State) : Answer := divide f s quotS
/-- Unsigned quotient (R102). -/
def execDivu (f : RRR) (s : State) : Answer := divide f s quotU
/-- Signed remainder (R102). -/
def execRem (f : RRR) (s : State) : Answer := divide f s remS
/-- Unsigned remainder (R102). -/
def execRemu (f : RRR) (s : State) : Answer := divide f s remU
/-- sD := sA & sB (R96). -/
def execAnd (f : RRR) (s : State) : Answer := alu f s 1 (fun a b => a &&& b)
/-- sD := sA | sB (R96). -/
def execOr (f : RRR) (s : State) : Answer := alu f s 1 (fun a b => a ||| b)
/-- sD := sA ^ sB (R96). -/
def execXor (f : RRR) (s : State) : Answer := alu f s 1 (fun a b => a ^^^ b)
/-- sD := sA & ~sB (R96). -/
def execAndn (f : RRR) (s : State) : Answer := alu f s 1 (fun a b => a &&& ~~~b)
/-- sD := sA & imm (R96). -/
def execAndi (f : RRI) (s : State) : Answer := aluI f s (fun a => a &&& immZ f)
/-- sD := sA | imm (R96). -/
def execOri (f : RRI) (s : State) : Answer := aluI f s (fun a => a ||| immZ f)
/-- sD := sA ^ imm (R96). -/
def execXori (f : RRI) (s : State) : Answer := aluI f s (fun a => a ^^^ immZ f)
/-- Left shift by sB[5:0] (R97). -/
def execShl (f : RRR) (s : State) : Answer := alu f s 1 (fun a b => shl64 a (count6 b))
/-- Right shift, zero fill by sB[5:0] (R97). -/
def execShr (f : RRR) (s : State) : Answer := alu f s 1 (fun a b => shr64 a (count6 b))
/-- Right shift, sign fill by sB[5:0] (R97). -/
def execSar (f : RRR) (s : State) : Answer := alu f s 1 (fun a b => sar64 a (count6 b))
/-- Left rotate by sB[5:0] (R97). -/
def execRol (f : RRR) (s : State) : Answer := alu f s 1 (fun a b => rol64 a (count6 b))
/-- Left shift by the immediate (R97). -/
def execShli (f : RRI) (s : State) : Answer := aluI f s (fun a => shl64 a (immZ f).toNat)
/-- Right shift, zero fill by the immediate (R97). -/
def execShri (f : RRI) (s : State) : Answer := aluI f s (fun a => shr64 a (immZ f).toNat)
/-- Right shift, sign fill by the immediate (R97). -/
def execSari (f : RRI) (s : State) : Answer := aluI f s (fun a => sar64 a (immZ f).toNat)
/-- Signed minimum (R96). -/
def execMin (f : RRR) (s : State) : Answer := alu f s 1 minS
/-- Signed maximum (R96). -/
def execMax (f : RRR) (s : State) : Answer := alu f s 1 maxS
/-- Unsigned minimum (R96). -/
def execMinu (f : RRR) (s : State) : Answer := alu f s 1 minU
/-- Unsigned maximum (R96). -/
def execMaxu (f : RRR) (s : State) : Answer := alu f s 1 maxU
/-- Leading zeros (R98). -/
def execClz (f : RR) (s : State) : Answer := alu1 f s (fun a => BitVec.ofNat 64 (clz64 a))
/-- Trailing zeros (R98). -/
def execCtz (f : RR) (s : State) : Answer := alu1 f s (fun a => BitVec.ofNat 64 (ctz64 a))
/-- One bits (R98). -/
def execPopc (f : RR) (s : State) : Answer := alu1 f s (fun a => BitVec.ofNat 64 (popc64 a))
/-- Bit-field extract (R100). -/
def execBfx (f : RRR) (s : State) : Answer := alu f s 1 bfx64
/-- Bit-field insert (R100): D is read as well and blocks on empty (R91). -/
def execBfi (f : RRR) (s : State) : Answer :=
  slot s f.g [.s f.d] (need (sources s [(.s f.a, f.ta), (.s f.b, f.tb), (.s f.d, false)])
    (.ok (resultS s f.d (bfi64 (s.src.getS f.d) (s.src.getS f.a) (s.src.getS f.b)) 1)))
/-- Sign extension from bit n - 1 (R99). -/
def execSext (f : RRI) (s : State) : Answer := aluI f s (fun a => sextN (immZ f).toNat a.toNat)
/-- Compare (R103). -/
def execCmpeq (f : RRR) (s : State) : Answer := compare f s (fun a b => a == b)
/-- Compare (R103). -/
def execCmpne (f : RRR) (s : State) : Answer := compare f s (fun a b => a != b)
/-- Compare (R103). -/
def execCmplt (f : RRR) (s : State) : Answer := compare f s (fun a b => decide (a.toInt < b.toInt))
/-- Compare (R103). -/
def execCmpge (f : RRR) (s : State) : Answer := compare f s (fun a b => decide (b.toInt ≤ a.toInt))
/-- Compare (R103). -/
def execCmpltu (f : RRR) (s : State) : Answer := compare f s (fun a b => decide (a.toNat < b.toNat))
/-- Compare (R103). -/
def execCmpgeu (f : RRR) (s : State) : Answer := compare f s (fun a b => decide (b.toNat ≤ a.toNat))
/-- Compare with an immediate (R103). -/
def execCmpeqi (f : RRI) (s : State) : Answer := compareI f s (fun a b => a == b)
/-- Compare with an immediate (R103). -/
def execCmplti (f : RRI) (s : State) : Answer := compareI f s (fun a b => decide (a.toInt < b.toInt))
/-- sD := sA if bit 0 of gN is 1, else sB; always on (R105). -/
def execSel (f : RRR) (s : State) : Answer :=
  finish s (need (dests s [.s f.d]) (need (srcAB s f)
    (.ok (resultS s f.d (if on s f.g then s.src.getS f.a else s.src.getS f.b) 1))))
/-- Guard logic (R104). -/
def execGand (f : RRR) (s : State) : Answer := guardOp f s (fun a b => a &&& b)
/-- Guard logic (R104). -/
def execGor (f : RRR) (s : State) : Answer := guardOp f s (fun a b => a ||| b)
/-- Guard logic (R104). -/
def execGxor (f : RRR) (s : State) : Answer := guardOp f s (fun a b => a ^^^ b)
/-- gD := sA (R104). -/
def execGset (f : RR) (s : State) : Answer :=
  slot s f.g [] (need (sources s [(.s f.a, f.ta)]) (.ok (resultG s f.d (s.src.getS f.a) 1)))
/-- sD := gA (R104). -/
def execGget (f : RR) (s : State) : Answer := slot s f.g [.s f.d] (.ok (resultS s f.d (guardOf s f.a) 1))

end Sys2Proof.Machine
end

