-- ==== Sys2Proof/Machine/Control.lean ====
section
/-! DEFINITION. Class C: transfers, loops, repetition, token waits, suspension and software traps (R106 to R113, R392). -/

namespace Sys2Proof.Machine

/-- Nothing (R43). -/
def execNop (s : State) : Answer := .next s

/-- The address that a br or call names (R106). -/
def brTarget (s : State) (f : BR) : CodeAddr := addWords s.issue.pc (brOffset f)

/-- The link register receives the address after the bundle (R106). -/
def link (s : State) : State := resultS s 31 s.endPc 1

/-- A register target must be a multiple of 4 (R106), whose ALIGN records that target: no rule states its trap_info (DESIGN CHOICE, log 107). -/
def aligned4 (a : W64) : Except Stop Unit := if a.toNat % 4 = 0 then .ok () else .error (.trap .align a)

/-- A taken transfer (R106). -/
def execBr (f : BR) (s : State) : Answer := slot s f.g [] (.ok (s.transfer (.jump (brTarget s f) true)))
/-- A call: the link is written, nothing is popped (R106, R107). -/
def execCall (f : BR) (s : State) : Answer := slot s f.g [.s 31] (.ok ((link s).transfer (.jump (brTarget s f) false)))
/-- Transfer to sA (R106). -/
def execJr (f : RR) (s : State) : Answer :=
  slot s f.g [] (need (sources s [(.s f.a, f.ta)]) (need (aligned4 (s.src.getS f.a))
    (.ok (s.transfer (.jump (BitVec.ofNat 48 (s.src.getS f.a).toNat) true)))))
/-- Call of sA, the old value when it is s31 (R106). -/
def execCallr (f : RR) (s : State) : Answer :=
  slot s f.g [.s 31] (need (sources s [(.s f.a, f.ta)]) (need (aligned4 (s.src.getS f.a))
    (.ok ((link s).transfer (.jump (BitVec.ofNat 48 (s.src.getS f.a).toNat) false)))))
/-- Transfer to s31 (R106). -/
def execRet (f : NF) (s : State) : Answer :=
  slot s f.g [] (need (sources s [(.s 31, false)]) (need (aligned4 (s.src.getS 31))
    (.ok (s.transfer (.jump (BitVec.ofNat 48 (s.src.getS 31).toNat) true)))))

/-- Opens a counted loop; ILL at stack depth 4 (R108). -/
def execLoop (f : RI) (s : State) : Answer :=
  slot s f.g [] (need (sources s [(.s f.d, false)])
    (if s.src.loops.length = 4 then .error (.trap .ill (BitVec.ofNat 64 s.issue.slot))
     else .ok (s.transfer (.loop s.endPc (BitVec.ofNat 64 (s.issue.pc.toNat + 4 * (imm13Z f).toNat)) (s.src.getS f.d)))))

/-- The next sequential bundle issues n times (R110). -/
def execRep (f : RI) (s : State) : Answer :=
  slot s f.g [] (need (sources s [(.s f.d, false)])
    (.ok (s.transfer (.rep (if f.d = 0 then (imm13Z f).toNat % 2 ^ 32 else (s.src.getS f.d).toNat % 2 ^ 32)))))

/-- A token is busy while a copy that names it is incomplete (R307). -/
def tokenBusy (e : Engine) (t : BitVec 3) : Bool := e.copies.any (fun c => c.tok == t)

/-- The copy engine context of the issuing context. -/
def State.eng (s : State) : Engine := s.engine s.issue.core s.issue.ctx

/-- An acquire by the issuing context: a recorded write-back error that it covers is raised instead, once (R252, R263). -/
def acquireHere (s : State) (scope : Nat) (sel : W64 → Bool) : Except Stop State :=
  match reported s s.issue.core sel with
  | some (l, t) => .error (.left (deliver t s.issue.core s.issue.ctx .eccue (l ||| 1) s.issue.pc s.issue.words))
  | none => .ok (acquire s s.issue.core scope sel)

/-- A release at .pod is made once every fabric write of the context has been acknowledged (R252, R425). -/
def podClear (s : State) (scope : Nat) : Except Stop Unit :=
  if scope = 5 ∧ (s.eng.copies.any (fun k => k.xfer.isSome) || unanswered s s.issue.core s.issue.ctx) then .error .hold else .ok ()

/-- Bytes written by the completed copies of the issuing context whose tokens a mask names (R312). -/
def tokenBytes (s : State) (mask : Nat) : W64 → Bool :=
  landedBytes s (fun v => match v with
    | .token c x t _ => c == s.issue.core && x == s.issue.ctx && mask.testBit t.toNat
    | _ => false)

/-- Holds the bundle until every named token is idle; observing a failed copy raises its cause, and the completed ones are acquired
(R111, R312, R319). -/
def execWait (f : RI) (s : State) : Answer :=
  slot s f.g [] (
    let mask := f.imm.toNat
    let named := fun (t : BitVec 3) => mask.testBit t.toNat
    if s.eng.copies.any (fun c => named c.tok) then .error .hold
    else match s.eng.err, s.eng.errAt with
      | some (c, i), some (t, _, _) => if named t then .error (.engine c i) else acquireHere s 4 (tokenBytes s mask)
      | _, _ => acquireHere s 4 (tokenBytes s mask))

/-- A suspension is refused after a trig (R207). -/
def notTriggered (s : State) : Except Stop Unit := if s.src.triggered then .error (.trap .badrec 6) else .ok ()

/-- trap_info of QOVF on the task queue of core c (R128, R201). -/
def taskQovf (c : CoreId) : W64 := BitVec.ofNat 64 (2 ^ 31 + c.val)

/-- A push to the queue of core c that would fail raises its fault in the pushing context (R127, R128). -/
def pushCheck (s : State) (c : CoreId) (r : Except PushFail State) : Except Stop State :=
  match r with
  | .ok t => .ok t
  | .error .full => .error (.trap .qovf (taskQovf c))
  | .error (.txlate i) => .error (.trap .txlate i)
  | .error (.missing p) => .error (.asking (askPlace s (dieOf c) p))
  | .error (.refused va) => .error (pageAtIssue s va)

/-- Suspension with the record at the tail of the core's own queue (R112). -/
def execYield (f : NF) (s : State) : Answer :=
  slot s f.g [] (need (notTriggered s)
    (match pushCheck s s.issue.core (pushAfterHeld s s.issue.core .own (queueEntry s.me.job.name true s.me.job.scope.toNat s.issue.core false)) with
     | .error e => .error e
     | .ok _ => .ok (s.transfer (.leave .yield))))

/-- Ends the continuation (R112, R123). -/
def execStop (f : NF) (s : State) : Answer := slot s f.g [] (.ok (s.transfer (.leave .stop)))

/-- Software trap (R113). -/
def execTrap (f : RI) (s : State) : Answer := slot s f.g [] (.error (.trap .swtrap (BitVec.ofNat 64 ((imm13Z f).toNat % 2 ^ 32))))
/-- Breakpoint (R113). -/
def execBrk (f : NF) (s : State) : Answer := slot s f.g [] (.error (.trap .brk 0))
/-- A checkpoint bundle: the checkpoint is the bundle's (R366, R392); the slot has no other effect. -/
def execCkpt (f : NF) (s : State) : Answer := slot s f.g [] (.ok s)
/-- Return from an exception (R392), once the handler's own stores have their translations (R223). -/
def execEret (f : NF) (s : State) : Answer :=
  slot s f.g [] (if s.me.handler ∧ handlerStores s.me then .error .hold
    else if s.me.handler then .error (.left (eretCtx s s.issue.core s.issue.ctx)) else .error (.trap .priv (BitVec.ofNat 64 s.issue.slot)))

end Sys2Proof.Machine
end

