-- ==== Sys2Proof/Machine/System.lean ====
section
/-! DEFINITION. System registers and their access by mfs and mts (R114, R115, R388, R389, R393, R406), the refresh schedule that
ws_window reports (R235, R236), and interrupt requests. -/

namespace Sys2Proof.Machine

/-- Nanoseconds into the current refresh period of a die (R235, R236). -/
def refreshPhase (s : State) (d : DieId) : Nat := (s.cycle - (rget s.refresh (BitVec.ofNat 3 d.val)).origin) / 2 % 51200

/-- The die's refresh is autonomous, or was when this cycle began, which is what a wld is judged by (R237, R413). -/
def autonomous (s : State) (d : DieId) : Bool :=
  let r := rget s.refresh (BitVec.ofNat 3 d.val)
  r.auto || r.back == some s.cycle

/-- Whether a wld of a bank of the die's weight store is handled as one in its window now (R235). Under autonomous refresh a wld may find its
bank refreshing, and the spec does not say which ones do: every one is handled so (R238; DESIGN CHOICE, log 103). -/
def inWindow (s : State) (d : DieId) (bank : Nat) : Bool :=
  autonomous s d
    || (decide (3200 * bank ≤ refreshPhase s d) && decide (refreshPhase s d < 3200 * bank + 1600))

/-- ws_window (R236). -/
def wsWindow (s : State) (d : DieId) : W64 :=
  if (rget s.refresh (BitVec.ofNat 3 d.val)).auto then BitVec.ofNat 64 (2 ^ 63)
  else
    let p := refreshPhase s d
    let inwin := p % 3200 < 1600
    BitVec.ofNat 64 ((if inwin then p / 3200 else (p / 3200 + 1) % 16) + (decide inwin).toNat * 2 ^ 4 + p * 2 ^ 16)

/-- The context that owns a core's array, a release that has not been committed counted as owning (R140, R367). -/
def arrayOwner (k : Core) : Option CtxId := ([0, 1, 2, 3] : List CtxId).find? (fun x => (k.ctx[x.val]'x.isLt).keepsArray)

/-- array_mode (R389). -/
def arrayMode (k : Core) : W64 :=
  let n := match arrayOwner k with
    | some x => x.val + 4
    | none => 0
  BitVec.ofNat 64 (n + k.narrow.toNat * 8)

/-- stretch (R389). -/
def stretchReg (s : State) (k : Core) : W64 :=
  BitVec.ofNat 64 ((stretchNow s k).1.toNat + k.narrow.toNat * 2 ^ 8 + (decide (k.degraded ≠ [])).toNat * 2 ^ 9
    + (k.pace.any (fun p => decide (p.2 ≠ 0))).toNat * 2 ^ 10)

/-- spill_ptr (R388). -/
def spillPtr (k : Core) : W64 :=
  BitVec.ofNat 64 (k.spillHead.toNat + k.spillTail.toNat * 2 ^ 16 + k.spillCount % 2 ^ 17 * 2 ^ 32 + k.spillRefused.toNat * 2 ^ 63)

/-- Package number (R406). -/
def State.pkgId (s : State) : Nat := wbits s.pkg.fabCtl 8 6

/-- A register of context scope. -/
def readCtxReg (s : State) (c : CoreId) (x : CtxId) (n : Nat) : W64 :=
  let k := s.ctx c x
  match n with
  | 0x000 => k.r.fpctl
  | 0x001 => k.r.rngSeed
  | 0x002 => k.r.rngCtr
  | 0x003 => BitVec.ofNat 64 s.now
  | 0x004 => BitVec.ofNat 64 x.val
  | 0x005 => BitVec.ofNat 64 (c.val % 64)
  | 0x006 => BitVec.ofNat 64 (c.val / 64)
  | 0x007 => BitVec.ofNat 64 s.pkgId
  | 0x008 => BitVec.ofNat 64 (s.partIdOf c).val
  | 0x009 => stretchReg s (s.core c)
  | 0x00A => arrayMode (s.core c)
  | 0x00B => wsWindow s (dieOf c)
  | 0x00C => 0x50580101
  | 0x100 => k.trapCause
  | 0x101 => BitVec.ofNat 64 k.trapPc.toNat
  | 0x102 => k.trapInfo
  | 0x103 => BitVec.ofNat 64 k.ck.pc.toNat
  | 0x104 => k.eretCtl
  | 0x105 => k.eretPc
  | m => if 0x110 ≤ m ∧ m ≤ 0x11F then rget k.k (BitVec.ofNat 4 (m - 0x110)) else 0

/-- A register of core scope. -/
def readCoreReg (s : State) (c : CoreId) (n : Nat) : W64 :=
  let k := s.core c
  match n with
  | 0x120 => k.saveBase
  | 0x121 => k.spillBase
  | 0x122 => BitVec.ofNat 64 k.spillSize.toNat
  | 0x123 => k.corrErr
  | 0x124 => k.dropInt
  | 0x126 => spillPtr k
  | _ => 0

/-- A register of partition scope. -/
def readPartReg (s : State) (p : PartId) (n : Nat) : W64 :=
  let k := s.part p
  match n with
  | 0x200 => k.hbase | 0x201 => k.pasid | 0x202 => k.tokens | 0x203 => k.pushLim | 0x204 => k.stealDly | 0x205 => k.drainLim
  | 0x206 => k.blkWdog | 0x207 => k.allocWdog | 0x208 => k.abandoned | 0x209 => k.staleWake | 0x20A => k.sringBase
  | 0x20B => k.sringCtl | 0x20C => k.sringLost | 0x20D => k.gangBase | 0x20E => k.budMem | 0x20F => k.budSlip
  | 0x210 => k.flBase[0] | 0x211 => k.flBase[1] | 0x212 => k.flBase[2] | 0x213 => k.itOwn
  | 0x214 => k.flCtl[0] | 0x215 => k.flCtl[1] | 0x216 => k.flCtl[2] | 0x217 => k.saveLate | 0x218 => k.budLugil
  | 0x219 => k.podGrp | 0x21A => k.flBase[3] | 0x21B => k.flCtl[3]
  | _ => 0

/-- A register of package scope; the write-only bits of fab_load read as zero. -/
def readPkgReg (s : State) (n : Nat) : W64 :=
  match n with
  | 0x300 => s.pkg.wsLock | 0x301 => s.pkg.cfgAddr | 0x302 => s.pkg.cfgOp | 0x303 => s.pkg.fabCtl | 0x304 => s.pkg.aclBase
  | 0x305 => s.pkg.grpBase | 0x306 => s.pkg.fabLoad | 0x307 => s.pkg.linkUp | 0x308 => s.pkg.aclDeny | 0x309 => s.pkg.mcReq
  | m => if 0x310 ≤ m ∧ m ≤ 0x34F then rget s.pkg.route (BitVec.ofNat 6 (m - 0x310)) else 0

/-- A system register as context x of core c reads it. -/
def readReg (s : State) (c : CoreId) (x : CtxId) (n : Nat) : W64 :=
  if n < 0x120 then readCtxReg s c x n
  else if n < 0x200 then readCoreReg s c n
  else if n < 0x300 then readPartReg s (s.partIdOf c) n
  else readPkgReg s n

/-- A read of an RC register clears it (R8, R392). -/
def clearReg (s : State) (c : CoreId) (p : PartId) (n : Nat) : State :=
  match n with
  | 0x123 => s.setCore c { s.core c with corrErr := 0 }
  | 0x124 => s.setCore c { s.core c with dropInt := 0 }
  | 0x208 => s.setPart p { s.part p with abandoned := 0 }
  | 0x209 => s.setPart p { s.part p with staleWake := 0 }
  | 0x20C => s.setPart p { s.part p with sringLost := 0 }
  | 0x217 => s.setPart p { s.part p with saveLate := 0 }
  | 0x308 => { s with pkg := { s.pkg with aclDeny := 0 } }
  | _ => s

/-- The context holds no continuation. -/
def Ctx.empty (k : Ctx) : Bool := match k.phase with
  | .idle | .reserved _ => true
  | _ => false

/-- An interrupt request reaches a context (R377, R393): dropped and counted where no continuation is held; merged with a pending
one, the later vector kept. -/
def postInt (s : State) (c : CoreId) (x : CtxId) (vector : BitVec 32) : State :=
  if (s.ctx c x).empty then s.setCore c { s.core c with dropInt := (s.core c).dropInt + 1 }
  else s.setCtx c x { s.ctx c x with pendInt := some vector }

/-- Core named by an interrupt request. -/
def intCore (v : W64) : CoreId := ⟨wbits v 0 9, by unfold wbits; omega⟩
/-- Context named by an interrupt request. -/
def intCtx (v : W64) : CtxId := ⟨wbits v 9 2, by unfold wbits; omega⟩
/-- Vector of an interrupt request. -/
def intVector (v : W64) : BitVec 32 := BitVec.ofNat 32 (wbits v 32 32)

/-- mfs (R114, R392). -/
def execMfs (f : SYS) (s : State) : Answer :=
  slot s f.g [.s f.d] (
    let n := f.num.toNat
    let v := match n with
      | 0x000 => s.src.fpctl
      | 0x001 => s.src.rngSeed
      | 0x002 => s.src.rngCtr
      | _ => readReg s s.issue.core s.issue.ctx n
    .ok (resultS (clearReg s s.issue.core (s.partIdOf s.issue.core) n) f.d v 1))

/-- A register written by mts, in the mode that may write it (R115, R388, R389). -/
def writeReg (s : State) (n : Nat) (v : W64) : Except Stop State :=
  let k := s.me
  match n with
  | 0x000 => .ok (s.setRegs { k.r with fpctl := v &&& 0x1F0F#64 })
  | 0x001 => .ok (s.setRegs { k.r with rngSeed := v })
  | 0x002 => .ok (s.setRegs { k.r with rngCtr := v })
  | 0x104 => .ok (s.setMe { k with eretCtl := v &&& 0xFF03#64 })
  | 0x105 => .ok (s.setMe { k with eretPc := v })
  | 0x125 =>
    if s.partOf (intCore v) ≠ s.partOf s.issue.core then .error (.trap .acl v)
    else .ok (postInt s (intCore v) (intCtx v) (intVector v))
  | m => if 0x110 ≤ m ∧ m ≤ 0x11F then .ok (s.setMe { k with k := rset k.k (BitVec.ofNat 4 (m - 0x110)) v }) else .ok s

/-- mts (R114, R115, R392): D is a source. -/
def execMts (f : SYS) (s : State) : Answer :=
  slot s f.g [] (need (sources s [(.s f.d, false)]) (writeReg s f.num.toNat (s.src.getS f.d)))

end Sys2Proof.Machine
end

