-- ==== Sys2Proof/Machine/Streams.lean ====
section
/-! DEFINITION. Check codes on reads (R230, R234, R378), addresses of accesses (R283), and the rows of stream registers (R291 to
R294). -/

namespace Sys2Proof.Machine

/-! Check codes on reads at issue. -/

/-- Address that an ECCUE of a word records: the bank word in the scratchpad of its rank (R230), or for the weight store, of which no rule states
it, the offset of the 8-byte word (DESIGN CHOICE, log 111). -/
def eccInfo (w : Nat) : W64 :=
  if w < 2 ^ 31 then BitVec.ofNat 64 (w / 2 ^ 22 % 4 * 2 ^ 22 + w % 2 ^ 22 / 64 * 64) else BitVec.ofNat 64 (w % 2 ^ 32)

/-- The bytes of a read at issue are checked: a double error stops the bundle with ECCUE, and its row is rebuilt when it can be
(R230). -/
def eccRead (s : State) (k n : Nat) : Except Stop State :=
  if s.ecc.isEmpty then .ok s
  else
    match doubleAt s k n with
    | none => .ok (eccCorrect s s.issue.core k n)
    | some w => .error (stopLate (rebuildRow s w) .eccue (eccInfo w))

/-- The n bytes at an owner point that a read-modify-write or a read at issue takes: of a scratchpad, whose row is rebuilt, or of poisoned or
uncorrectable memory (R230, R240). -/
def ownerRead (s : State) (va : W64) (k n : Nat) : Except Stop State :=
  if inScratch k then eccRead s k n
  else if uncorrectable s k n then .error (stopLate s .eccue (va &&& ~~~7)) else .ok s

/-- As `eccRead`, for several runs of bytes. -/
def eccReads (s : State) : List (Nat × Nat) → Except Stop State
  | [] => .ok s
  | (k, n) :: t => match eccRead s k n with
    | .error e => .error e
    | .ok u => eccReads u t

/-! Accesses. -/

/-- An access aligned to n bytes, or ALIGN (R283). -/
def alignTo (n : Nat) (a : W64) : Except Stop Unit := if a.toNat % n = 0 then .ok () else .error (.trap .align a)

/-- The place of an access, or TXLATE (R221, R283). -/
def placed (s : State) (acc : Access) (va : W64) (n : Nat) : Except Stop Place :=
  match place s s.issue.core acc va n with
  | .ok p => .ok p
  | .error r => .error (.trap .txlate (txInfo va r))

/-- Each unit with its place, where every unit has one. -/
def allPlaced : List ((Nat × W64) × Except Nat Place) → Option (List (Nat × W64 × Place))
  | [] => some []
  | (_, .error _) :: _ => none
  | ((l, a), .ok p) :: t => (allPlaced t).map (fun u => (l, a, p) :: u)

/-- The units that have no place by themselves, with the reasons. -/
def unplaced (ps : List ((Nat × W64) × Except Nat Place)) : List (W64 × Nat) :=
  ps.filterMap (fun u => match u.2 with
    | .ok _ => none
    | .error r => some (u.1.2, r))

/-- Whether addresses lie in several classes, ranks or extents (R221, R283). -/
def apart (s : State) : List W64 → Bool
  | [] => false
  | a :: t => !t.all (fun b => zone s (s.partIdOf s.issue.core) a == zone s (s.partIdOf s.issue.core) b)

/-- Places of the 4-byte units of a vector access (R221, R283, R285): the lowest reason that the access meets, at the lowest lane that
fails; with reason 4 all of them fail (log 24). -/
def placeLanes (s : State) (acc : Access) (ls : List (Nat × W64)) : Except Stop (List (Nat × W64 × Place)) :=
  let ps := ls.map (fun l => (l, place s s.issue.core acc l.2 4))
  let bad := unplaced ps
  let reason : Nat := bad.foldl (fun r e => min r e.2) (if apart s (ls.map (fun l => l.2)) then 4 else 7)
  if reason = 7 then .ok ((allPlaced ps).getD [])
  else
    let first := fun (l : List W64) => l.head?.getD 0
    .error (.trap .txlate (txInfo (if reason = 4 then first (ls.map (fun l => l.2)) else first (bad.map (fun e => e.1))) reason))

/-- Active lanes of a mask. -/
def activeLanes (m : W64) : List Nat := (List.range 64).filter (active m)

/-- Latency of a load from a scratchpad: 6 from the own one, 14 from a peer's (R284). -/
def scratchLatency (s : State) (c : CoreId) : Nat := if c = s.issue.core then 6 else 14

/-- The n bytes from va at a place as the bundle in flight found them, the context's own stores first (R18, R368). -/
def seenBytes (s : State) (va : W64) (p : Place) (n : Nat) : List Byte := readRun s.before s.issue.core s.issue.pre.view va p n

/-- Bytes of the own scratchpad as the issuing context reads them. -/
def ownBytes (s : State) (va : W64) (n : Nat) : List Byte := seenBytes s va (.scratch s.issue.core (wbits va 0 22)) n

/-- Stores of a context wait in its gate, a handler's over it; a 513th line raises GATE (R368). -/
def storeBytes (s : State) (runs : List (W64 × List Byte)) : Except Stop State :=
  let k := s.me
  let put := fun (g : List GateLine) => runs.foldl (fun g r => gateStore g r.1 r.2) g
  let k : Ctx := if k.handler then { k with hgate := put k.hgate } else { k with gate := put k.gate }
  if 512 < k.view.length then .error (.trap .gate 0) else .ok (s.setMe k)

/-! Lower-half accesses (R223, R224). -/

/-- A bundle is held whose access at issue a T1 or T2 controller does not take now (R386, R409). -/
def memHold (s : State) (bs : List Nat) : Except Stop Unit := if memReady s (s.partIdOf s.issue.core) bs then .ok () else .error .hold

/-- A lower-half access that cannot wait after its issue: its bundle is held until the die has the translation; without permission it
raises PAGE (R300). -/
def translated (s : State) (p : Place) (va : W64) (may : TlbEntry → Bool) : Except Stop Unit :=
  match p with
  | .host pid a => match tlbFind s (dieOf s.issue.core) pid a with
    | none => .error (.asking (askFor s p))
    | some t => if may t then .ok () else .error (pageAtIssue s va)
  | _ => .ok ()

/-- The read at issue of n bytes from va, which a block or a record takes (R205): a lower-half one needs its translations (R223, R224), the
memory controllers take it (R386, R409), and bytes that the near cache does not hold are checked (R230, R240). -/
def readBlock (s : State) (va : W64) (n : Nat) : Except Stop State :=
  match placed s .load va n with
  | .error e => .error e
  | .ok p => match engineBar s s.issue.core p 0 n false with
    | some (.ask t) => .error (.asking t)
    | some (.page a) => .error (pageAtIssue s a)
    | none =>
      if p.cached && nearHas (s.core s.issue.core) va n then .ok s
      else need (memHold s (p.blocks n)) (ownerRead (spendMem s (s.partIdOf s.issue.core) (p.blocks n)) va p.key n)

/-- Whether the die has a lower-half translation with write permission. -/
def storable (s : State) (p : Place) : Bool := match p with
  | .host pid a => (tlbFind s (dieOf s.issue.core) pid a).any (fun t => t.write)
  | _ => true

/-- A store's units at their places: those of a checkpoint bundle, whose gate drains with it, need their translations first; others go to
the gate, and a lower-half page that is not translated leaves an operation that waits for it (R223, R224, R366, R368). -/
def storeUnits (s : State) (us : List (W64 × Place × List Byte)) : Except Stop State :=
  match (if s.issue.ckpt then us.findSome? (fun u => match translated s u.2.1 u.1 (fun t => t.write) with
      | .ok () => none
      | .error e => some e) else none) with
  | some e => .error e
  | none =>
    match storeBytes s (us.map (fun u => (u.1, u.2.2))) with
    | .error e => .error e
    | .ok t => .ok (us.foldl (fun t u =>
        if storable t u.2.1 || t.me.ops.any (fun o => match o.kind with
            | .store ea _ => ea.toNat / 4096 == u.1.toNat / 4096
            | _ => false) then t
        else startOp (askFor t u.2.1) .none (.store u.1 u.2.2.length)) t)

/-! Stream rows. -/

/-- trap_info of a BOUNDS that concerns a stream register (R294). -/
def streamInfo (st : File 3 W64) (r : BitVec 5) (reason : Nat) : W64 :=
  BitVec.ofNat 64 (r.toNat % 16 + reason * 16 + stField st 6 * 2 ^ 32)

/-- The address of the row at a stream's position, and the stream after the access (R292, R293). -/
def streamRow (st : File 3 W64) (r : BitVec 5) : Except Stop (W64 × File 3 W64) :=
  let pos := stField st 6
  let at? := fun (n : Nat) => BitVec.ofNat 64 (stField st 0) + BitVec.ofNat 64 (n * stField st 4)
  if stField st 3 = 0 then
    if stField st 5 ≠ 0 ∧ stField st 5 ≤ pos then .error (.trap .bounds (streamInfo st r 1))
    else .ok (at? pos, stPut st 6 (pos + 1))
  else
    let sr := stField st 7
    let uses := stField st 8
    let slots := stField st 9
    if sr = 0 ∨ uses = 0 ∨ slots = 0 then .error (.trap .bounds (streamInfo st r 5))
    else
      let seq := pos / (sr * uses)
      let ahead := (stField st 11 + (2 ^ 16 - seq % 2 ^ 16)) % 2 ^ 16
      if ahead = 0 ∨ 2 ^ 15 ≤ ahead then .error .hold
      else
        let st2 := stPut st 6 (pos + 1)
        .ok (at? (seq % slots * sr + pos % sr), if (pos + 1) % (sr * uses) = 0 then stPut st2 10 ((seq + 1) % 2 ^ 16) else st2)

/-- A ring slot that is not yet filled blocks its reader before anything is checked (R293). -/
def ringOk (sts : List (File 3 W64 × BitVec 5)) : Except Stop Unit :=
  if sts.any (fun p => match streamRow p.1 p.2 with
    | .error .hold => true
    | _ => false) then .error .hold else .ok ()

/-- Number of a stream register in a 5-bit field. -/
def streamReg (r : BitVec 5) : BitVec 4 := BitVec.ofNat 4 r.toNat

/-- A stream register as the bundle's slots read it. -/
def streamOf (s : State) (r : BitVec 5) : File 3 W64 := rget s.src.st (streamReg r)

/-- The issuing context's stream advanced (R287, R292). -/
def setStream (s : State) (r : BitVec 5) (st : File 3 W64) : State :=
  s.setRegs { s.me.r with st := rset s.me.r.st (streamReg r) st }

end Sys2Proof.Machine
end

