-- ==== Sys2Proof/Machine/Loads.lean ====
section
/-! DEFINITION. Class L without the atomics: loads and stores, stream registers, result queues to memory, weight-store and tile
loads, bindings and hints (R282 to R299, R302, R304). -/

namespace Sys2Proof.Machine

/-- Effective address of an RRI form (R283). -/
def eaI (s : State) (f : RRI) : W64 := s.src.getS f.a + immS f

/-! Scalar loads and stores (R288). -/

/-- A loaded value of n bytes, extended. -/
def extend (n : Nat) (signed : Bool) (bs : List Byte) : W64 :=
  if signed then sextN (8 * n) (leNat bs) else BitVec.ofNat 64 (leNat bs)

/-- A scalar load of n bytes from ea into sD: exposed from a scratchpad, else variable (R284). -/
def loadAt (s : State) (d : BitVec 5) (ea : W64) (n : Nat) (signed : Bool) : Except Stop State :=
  need (alignTo n ea) (match placed s .load ea n with
    | .error e => .error e
    | .ok (.scratch c o) => match eccRead s (keyScratch c o) n with
      | .error e => .error e
      | .ok t => .ok (resultS t d
          (extend n signed (seenBytes s ea (.scratch c o) n)) (scratchLatency s c))
    | .ok p => .ok (startOp (askFor s p) (opS d) (.load ea n signed (gateRun s.issue.pre.view ea n))))

/-- A load with an immediate displacement. -/
def loadI (f : RRI) (s : State) (n : Nat) (signed : Bool) : Answer :=
  slot s f.g [.s f.d] (need (sources s [(.s f.a, false)]) (loadAt s f.d (eaI s f) n signed))

/-- A store of the low n bytes of sD (R288). -/
def storeI (f : RRI) (s : State) (n : Nat) : Answer :=
  slot s f.g [] (need (sources s [(.s f.a, false), (.s f.d, false)])
    (let ea := eaI s f
     need (alignTo n ea) (match placed s .store ea n with
      | .error e => .error e
      | .ok p => storeUnits s [(ea, p, leBytes n (s.src.getS f.d).toNat)])))

/-- Byte, sign-extended (R288). -/
def execLdb (f : RRI) (s : State) : Answer := loadI f s 1 true
/-- Byte, zero-extended (R288). -/
def execLdbu (f : RRI) (s : State) : Answer := loadI f s 1 false
/-- Two bytes, sign-extended (R288). -/
def execLdh (f : RRI) (s : State) : Answer := loadI f s 2 true
/-- Two bytes, zero-extended (R288). -/
def execLdhu (f : RRI) (s : State) : Answer := loadI f s 2 false
/-- Four bytes, sign-extended (R288). -/
def execLdw (f : RRI) (s : State) : Answer := loadI f s 4 true
/-- Four bytes, zero-extended (R288). -/
def execLdwu (f : RRI) (s : State) : Answer := loadI f s 4 false
/-- Eight bytes (R288). -/
def execLdd (f : RRI) (s : State) : Answer := loadI f s 8 false
/-- Store of a byte (R288). -/
def execStb (f : RRI) (s : State) : Answer := storeI f s 1
/-- Store of two bytes (R288). -/
def execSth (f : RRI) (s : State) : Answer := storeI f s 2
/-- Store of four bytes (R288). -/
def execStw (f : RRI) (s : State) : Answer := storeI f s 4
/-- Store of eight bytes (R288). -/
def execStd (f : RRI) (s : State) : Answer := storeI f s 8
/-- Eight bytes at sA + sB (R283, R288). -/
def execLdx (f : RRR) (s : State) : Answer :=
  slot s f.g [.s f.d] (need (sources s [(.s f.a, f.ta), (.s f.b, f.tb)])
    (loadAt s f.d (s.src.getS f.a + s.src.getS f.b) 8 false))

/-! Vector loads and stores (R289, R290). -/

/-- The units of the active lanes of a run of 256 bytes. -/
def runLanes (m : W64) (ea : W64) : List (Nat × W64) := (activeLanes m).map (fun l => (l, ea + BitVec.ofNat 64 (4 * l)))

/-- A vector access is aligned to 4 bytes; the lowest active lane is recorded (R283, R285). -/
def alignLanes (ls : List (Nat × W64)) : Except Stop Unit :=
  match ls with
  | [] => .ok ()
  | (_, a) :: _ => alignTo 4 a

/-- Core whose scratchpad a place lies in. -/
def Place.scratchOf : Place → Option CoreId
  | .scratch c _ => some c
  | _ => none

/-- Bytes of a unit as the issuing context reads them. -/
def unitBytes (s : State) (l : Nat × W64 × Place) : W32 :=
  leWord 32 (seenBytes s l.2.1 l.2.2 4)

/-- The lanes of a row from a list of lane values. -/
def rowFrom (xs : List (Nat × W32)) : Row := ofLanes (fun l => aget 0 xs l)

/-- A vector load of placed units into vD (R284, R289). -/
def loadUnits (s : State) (d : BitVec 5) (m : W64) (ls : List (Nat × W64 × Place)) : Except Stop State :=
  match ls with
  | [] => .ok s
  | (_, _, p) :: _ => match p.scratchOf with
    | some c => match eccReads s (ls.map (fun l => (l.2.2.key, 4))) with
      | .error e => .error e
      | .ok t => .ok (resultV t d m (rowFrom (ls.map (fun l => (l.1, unitBytes s l)))) 0 (scratchLatency s c))
    | none => .ok (startOp (askFor s p) (.vector d m)
        (.vload (ls.map (fun l => (l.1, l.2.1))) (ls.flatMap (fun l => gateRun s.issue.pre.view l.2.1 4))))

/-- A vector load of units at given addresses. -/
def loadLanes (s : State) (d : BitVec 5) (m : W64) (ls : List (Nat × W64)) : Except Stop State :=
  need (alignLanes ls) (match placeLanes s .load ls with
    | .error e => .error e
    | .ok ps => loadUnits s d m ps)

/-- A vector store of a row's units at given addresses, lanes in ascending order (R289, R290). -/
def storeLanes (s : State) (x : Row) (ls : List (Nat × W64)) : Except Stop State :=
  need (alignLanes ls) (match placeLanes s .store ls with
    | .error e => .error e
    | .ok ps => storeUnits s (ps.map (fun l => (l.2.1, l.2.2, leBytes 4 (lane x l.1).toNat))))

/-- 256 bytes from ea into the active lanes (R289). -/
def execVld (f : RRI) (s : State) : Answer :=
  slotV s f.g [.v f.d] (fun m => need (sources s [(.s f.a, false)]) (loadLanes s f.d m (runLanes m (eaI s f))))

/-- The active lanes to 256 bytes from ea (R289). -/
def execVst (f : RRI) (s : State) : Answer :=
  slotV s f.g [] (fun m => need (sources s [(.s f.a, false), (.v f.d, false)]) (need (ports s [f.d])
    (storeLanes (pop s false [f.d]) (vsrc s f.d) (runLanes m (eaI s f)))))

/-- 4 bytes, broadcast (R289). -/
def execVldb (f : RRI) (s : State) : Answer :=
  slotV s f.g [.v f.d] (fun m => need (sources s [(.s f.a, false)])
    (let ea := eaI s f
     need (alignTo 4 ea) (match placed s .load ea 4 with
      | .error e => .error e
      | .ok (.scratch c o) => match eccRead s (keyScratch c o) 4 with
        | .error e => .error e
        | .ok t =>
          let x := unitBytes s (0, ea, .scratch c o)
          .ok (resultV t f.d m (ofLanes (fun _ => x)) 0 (scratchLatency s c))
      | .ok p => .ok (startOp (askFor s p) (.vector f.d m) (.bload ea (gateRun s.issue.pre.view ea 4))))))

/-- The storage that holds a base, by which gathers and scatters are bounded (R290). -/
inductive Bound where
  | scratch (rank : Nat)
  | extent (e : Extent)

/-- Whether a unit lies in a bound. -/
def Bound.holds : Bound → W64 → Bool
  | .scratch r, a => classOf a == 0 && wbits a 22 2 == r
  | .extent e, a => classOf a == 2 && wbits a 48 15 == 0 && e.holds (wbits a 0 48)

/-- The bound of a base, or the reason why there is none (R290, R221). -/
def boundOf (s : State) (b : W64) : Except Nat Bound :=
  match classOf b with
  | 0 => .ok (.scratch (wbits b 22 2))
  | 1 => .error 4
  | _ =>
    if wbits b 48 15 ≠ 0 then .error 2
    else match extentAt (s.part (s.partIdOf s.issue.core)).table b with
      | none => .error 1
      | some e => .ok (.extent e)

/-- Element addresses of the active lanes (R290). -/
def gatherLanes (m : W64) (a : Row) (b : W64) : List (Nat × W64) :=
  (activeLanes m).map (fun l => (l, b + BitVec.ofNat 64 (4 * (lane a l).toNat)))

/-- The checks of a gather or scatter: ALIGN, TXLATE of the units within the bound, BOUNDS of the others (R285, R290). -/
def gatherCheck (s : State) (acc : Access) (b : W64) (ls : List (Nat × W64)) : Except Stop (List (Nat × W64 × Place)) :=
  match alignLanes ls with
  | .error e => .error e
  | .ok () => match boundOf s b with
    | .error r => .error (.trap .txlate (txInfo ((ls.map (fun l => l.2)).headD b) r))
    | .ok bd => match placeLanes s acc (ls.filter (fun l => bd.holds l.2)) with
      | .error e => .error e
      | .ok ps => match ls.find? (fun l => !bd.holds l.2) with
        | some l => .error (.trap .bounds l.2)
        | none => .ok ps

/-- Gather of 32-bit elements (R290). -/
def execVldx (f : RRR) (s : State) : Answer :=
  slotV s f.g [.v f.d] (fun m => need (sources s [(.v f.a, f.ta), (.s f.b, f.tb)]) (need (ports s [f.a])
    (match gatherCheck s .load (s.src.getS f.b) (gatherLanes m (vsrc s f.a) (s.src.getS f.b)) with
     | .error e => .error e
     | .ok ps => loadUnits (pop s f.h [f.a]) f.d m ps)))

/-- Scatter of 32-bit elements; the higher lane of two that meet remains (R290). -/
def execVstx (f : RRR) (s : State) : Answer :=
  slotV s f.g [] (fun m => need (sources s [(.v f.a, f.ta), (.s f.b, f.tb), (.v f.d, false)]) (need (ports s [f.d, f.a])
    (match gatherCheck s .store (s.src.getS f.b) (gatherLanes m (vsrc s f.a) (s.src.getS f.b)) with
     | .error e => .error e
     | .ok ps => storeUnits (pop s f.h [f.d, f.a]) (ps.map (fun p => (p.2.1, p.2.2, leBytes 4 (lane (vsrc s f.d) p.1).toNat))))))

/-! Stream registers (R295, R296). -/

/-- The row at a stream's position into vD (R295). -/
def execLds (f : RR) (s : State) : Answer :=
  slotV s f.g [.v f.d] (fun m => match streamRow (streamOf s f.a) f.a with
    | .error e => .error e
    | .ok (ra, st) => match loadLanes s f.d m (runLanes m ra) with
      | .error e => .error e
      | .ok t => .ok (setStream t f.a st))

/-- vD to the row at a stream's position (R295). -/
def execSts (f : RR) (s : State) : Answer :=
  slotV s f.g [] (fun m => need (ringOk [(streamOf s f.a, f.a)]) (need (sources s [(.v f.d, false)]) (need (ports s [f.d])
    (match streamRow (streamOf s f.a) f.a with
    | .error e => .error e
    | .ok (ra, st) => match storeLanes (pop s f.h [f.d]) (vsrc s f.d) (runLanes m ra) with
      | .error e => .error e
      | .ok t => .ok (setStream t f.a st)))))

/-- Why stset refuses a value (R296): ILL for a reserved format code, BOUNDS reason 4 for the rest. -/
def stsetCheck (s : State) (r : BitVec 5) (n : Nat) (v : W64) : Except Stop Unit :=
  let st := streamOf s r
  let p := streamFieldAt n
  let new := stPut st n v.toNat
  let whole := decide (16 ≤ n)
  let fmt := if n = 1 ∨ n = 17 then some (v.toNat % 256) else none
  let fits := if n = 1 then decide (v.toNat < 256) else whole || decide (v.toNat < 2 ^ p.width)
  let reserved := (n == 17 && wbits v 17 15 != 0) || (n == 21 && wbits v 32 32 != 0) || (decide (22 ≤ n) && v != 0)
  let empties := stField new 3 == 1 && (stField new 7 == 0 || stField new 8 == 0 || stField new 9 == 0)
    && (n == 3 || n == 7 || n == 8 || n == 9 || n == 17 || n == 19)
  match fmt with
  | some c =>
    if fits && (formatOf c).isNone then .error (.trap .ill (BitVec.ofNat 64 s.issue.slot))
    else if !fits || reserved || empties then .error (.trap .bounds (streamInfo st r 4)) else .ok ()
  | none => if !fits || reserved || empties then .error (.trap .bounds (streamInfo st r 4)) else .ok ()

/-- A field of a stream register, after 1 bundle (R296). -/
def execStset (f : RRI) (s : State) : Answer :=
  slot s f.g [] (need (sources s [(.s f.a, false)]) (need (stsetCheck s f.d f.imm.toNat (s.src.getS f.a))
    (.ok (result s (.stream (streamReg f.d) f.imm.toNat) allBits (rowOfWord (s.src.getS f.a)) 0 1))))

/-- A field of a stream register read (R296). -/
def execStget (f : RRI) (s : State) : Answer :=
  slot s f.g [.s f.d] (.ok (resultS s f.d (BitVec.ofNat 64 (stField (streamOf s f.a) f.imm.toNat)) 1))

/-- The head row of a queue to memory (R297). -/
def execStq (f : RRI) (s : State) : Answer :=
  slotV s f.g [] (fun m => need (sources s [(.s f.a, false)]) (need (ports s [f.d ||| 28])
    (storeLanes (pop s false [f.d ||| 28]) (vsrc s (f.d ||| 28)) (runLanes m (eaI s f)))))

/-! Weight-store loads (R298, R237). -/

/-- Bank of a weight-store offset (R234). -/
def weightBank (o : Nat) : Nat := o / 0x6000000

/-- Whether the partition holds a bank of a die (R234). -/
def ownsBank (s : State) (c : CoreId) (o : Nat) : Bool :=
  (s.part (s.partIdOf c)).wsBanks.getLsbD ((dieOf c).val * 16 + weightBank o)

/-- Whether an offset can be reached: in the store, in a bank of the partition. -/
def reaches (s : State) (o : Nat) : Bool := decide (o ≤ 0x5FFFFFFF) && ownsBank s s.issue.core o

/-- The units of the active lanes from an offset of the die's weight store. -/
def weightRow (s : State) (o : Nat) (ls : List Nat) : Row :=
  rowFrom (ls.map (fun l => (l, leWord 32 (s.mem.readRun (keyWeight (dieOf s.issue.core) (o + 4 * l)) 4))))

/-- A read of the weight store: after 20 bundles outside the refresh windows of its banks, else variable (R237, R298). BOUNDS records the lowest
active lane out of reach (R285); when only bytes of inactive lanes are, the lowest active lane's address, which no rule states (DESIGN CHOICE,
log 104). -/
def execWld (f : RRI) (s : State) : Answer :=
  slotV s f.g [.v f.d] (fun m => need (sources s [(.s f.a, false)])
    (let ea := eaI s f
     let o := ea.toNat
     let ls := activeLanes m
     let info := fun (l : Nat) => ea + BitVec.ofNat 64 (4 * l)
     let first := ls.headD 0
     need (alignLanes (runLanes m ea))
       (if 0x5FFFFFFF < o + 255 ∨ ¬ ownsBank s s.issue.core o ∨ ¬ ownsBank s s.issue.core (o + 255) then
          .error (.trap .bounds (info ((ls.find? (fun l => !reaches s (o + 4 * l + 3))).getD first)))
        else if ¬ (s.part (s.partIdOf s.issue.core)).wsLocked then .error (.trap .wslock (info first))
        else
          let d := dieOf s.issue.core
          if inWindow s d (weightBank o) || inWindow s d (weightBank (o + 255)) then
            .ok (startOp s (.vector f.d m) (.wload (ls.map (fun l => (l, o + 4 * l)))))
          else match eccReads s (ls.map (fun l => (keyWeight d (o + 4 * l), 4))) with
            | .error e => .error e
            | .ok t => .ok (resultV t f.d m (weightRow s o ls) 0 20))))

/-! Tile loads (R271, R272, R277, R299). -/

/-- Why a handle cannot be used by a context of the issuing core (R267, R277): the reason of TSTALE. -/
def handleCheck (s : State) (h : W64) : Except Stop Unit :=
  if quadOf (handleCore h) ≠ quadOf s.issue.core ∨ (s.core (handleCore h)).out ∨ ¬ (poolOf s h).valid then
    .error (.trap .tstale (tstaleInfo h 3))
  else if ¬ handleMatches s h then .error (.trap .tstale (tstaleInfo h 1)) else .ok ()

/-- The acquire of a tile read: the regions bound to the tile (R250, R271). -/
def acquireTile (s : State) (h : W64) : Except Stop State := acquireHere s 2 (bound s.me.r.bind 3 h)

/-- A tile load of 256 bytes; `consume` spends a read (R299). -/
def tileLoad (f : RRI) (s : State) (consume : Bool) : Answer :=
  slotV s f.g [.v f.d] (fun m => need (sources s [(.s f.a, false)])
    (let h := s.src.getS f.a
     let n := 256 * f.imm.toNat
     need (handleCheck s h)
       (if (poolOf s h).tsize ≤ n + 255 then .error (.trap .bounds (tileAddr s h + BitVec.ofNat 64 (n + 4 * (activeLanes m).headD 0)))
        else if (tileOf s h).state = .open then
          .ok (startOp s (.vector f.d m) (.tile h f.imm.toNat consume
            ((runLanes m (tileAddr s h + BitVec.ofNat 64 n)).flatMap (fun l => gateRun s.issue.pre.view l.2 4)) s.me.r.bind))
        else
          let a := tileAddr s h + BitVec.ofNat 64 n
          let c := handleCore h
          let ls := (runLanes m a).map (fun l => (l.1, l.2, Place.scratch c (wbits l.2 0 22)))
          match acquireTile s h with
          | .error e => .error e
          | .ok t => match eccReads t (ls.map (fun l => (l.2.2.key, 4))) with
            | .error e => .error e
            | .ok t =>
              let t := if consume then spendTile t h else t
              .ok (resultV t f.d m (rowFrom (ls.map (fun l => (l.1, unitBytes s l)))) 0 (scratchLatency s c)))))

/-- A tile load that spends nothing (R299). -/
def execVldt (f : RRI) (s : State) : Answer := tileLoad f s false
/-- A tile load that spends a read (R299). -/
def execVldtc (f : RRI) (s : State) : Answer := tileLoad f s true

/-! Bindings and hints. -/

/-- A binding slot written (R302). -/
def execBind (f : RRR) (s : State) : Answer :=
  slot s f.g [] (need (sources s [(.s f.a, f.ta), (.s f.b, f.tb), (.s f.d, false)])
    (let d := s.src.getS f.d
     let base := s.src.getS f.a
     let len := wbits d 32 32
     let kind := wbits d 4 3
     let put := fun (w : File 2 W64) => s.setRegs { s.me.r with bind := rset s.me.r.bind (BitVec.ofNat 4 (wbits d 0 4)) w }
     if kind = 0 then .ok (put (Vector.replicate _ 0))
     else if base.toNat % 64 ≠ 0 ∨ len % 64 ≠ 0 then .error (.trap .align d)
     else if len = 0 ∨ kind = 7 ∨ 2 ^ 64 < base.toNat + len ∨ classOf base ≠ classOf (base + BitVec.ofNat 64 (len - 1)) then
       .error (.trap .bounds d)
     else .ok (put #v[base, BitVec.ofNat 64 len, s.src.getS f.b, BitVec.ofNat 64 kind])))

/-- A fetch of the line of va would raise nothing (R304): a lower-half line is translated and readable, and no word of it is
uncorrectable. -/
def fetchable (s : State) (p : Place) (va : W64) : Bool :=
  (match p with
   | .host pid a => (tlbFind s (dieOf s.issue.core) pid a).any (fun t => t.read)
   | _ => true) && match ownerKey s s.issue.core (lineOf va) with
    | some k => !uncorrectable s k 64
    | none => false

/-- The near-cache line fetched if it is absent; nothing where the access would fault (R304), or where a budget keeps it back (R386). -/
def execPrf (f : RRI) (s : State) : Answer :=
  slot s f.g [] (need (sources s [(.s f.a, false)])
    (let ea := eaI s f
     match placeByte s s.issue.core .load ea with
     | .ok p =>
       let bs := keyBlocks (p.key / 64 * 64) 64
       .ok (if p.cached && (nearFind (s.core s.issue.core) ea).isNone && fetchable s p ea && memReady s (s.partIdOf s.issue.core) bs then
         nearFetch (spendMem s (s.partIdOf s.issue.core) bs) s.issue.core ea else s)
     | .error _ => .ok s))

/-- The near-cache line written back and invalidated (R304). -/
def execNinv (f : RRI) (s : State) : Answer :=
  slot s f.g [] (need (sources s [(.s f.a, false)])
    (let ea := eaI s f
     match placed s .peek ea 1 with
     | .error e => .error e
     | .ok p => .ok (if p.cached then nearDrop s s.issue.core ea else s)))

end Sys2Proof.Machine
end

