-- ==== Sys2Proof/Machine/Atomics.lean ====
section
/-! DEFINITION. Atomics, fences and the acquire and release of lock words (R248, R249, R253 to R256, R300, R301, R303). -/

namespace Sys2Proof.Machine

/-- Signed minimum, as amomin keeps it: the old value on equality (R300). -/
def AtomOp.apply (op : AtomOp) (old v c : W64) : W64 :=
  match op with
  | .add => old + v
  | .min => if old.toInt ≤ v.toInt then old else v
  | .max => if v.toInt ≤ old.toInt then old else v
  | .and => old &&& v
  | .or => old ||| v
  | .xor => old ^^^ v
  | .swp => v
  | .cas => if old = c then v else old

/-- The atomics that PCIe carries to the host (R248). -/
def AtomOp.toHost : AtomOp → Bool
  | .add | .swp | .cas => true
  | _ => false

/-- The word of an atomic at its owner point, or the ECCUE that the read meets (R230, R240, R300). -/
def atomRead (s : State) (ea : W64) (key : Nat) : Except Stop (W64 × State) :=
  match ownerRead s ea key 8 with
  | .error e => .error e
  | .ok t => .ok (leWord 64 (t.mem.readRun key 8), t)

/-- The acquire that follows an atomic (R249): the covered bytes are invalidated, and a recorded write-back error that it covers is raised
at the next boundary (R263). -/
def atomAcquire (s : State) (scope : Nat) (sel : W64 → Bool) : State :=
  let t := match reported s s.issue.core sel with
    | some (l, t) => t.setMe (t.me.pend { cause := .eccue, info := l ||| 1, pc := s.issue.pc, words := s.issue.words })
    | none => s
  acquire t s.issue.core scope sel

/-- An atomic whose place is known performs (R248, R249, R300): the context's earlier accesses first, then its release, the
read-modify-write at the owner point, its acquire; its old value is a variable-latency result. -/
def performAtomic (f : AT) (s : State) (op : AtomOp) (ea : W64) : Except Stop State :=
  let sel := bound s.me.r.bind 1 ea
  let s := drainMe s
  let s := if f.ord.getLsbD 1 then release s s.issue.core f.scope.toNat sel else s
  match atOwner s s.issue.core .atomic ea 8 with
  | .error i => .error (.trap .txlate i)
  | .ok (s, key) => match atomRead s ea key with
    | .error e => .error e
    | .ok (old, s) =>
      let s := spendMem s (s.partIdOf s.issue.core) (keyBlocks key 8)
      let s := s.writeAt key (leBytes 8 (op.apply old (s.src.getS f.d) (s.src.getS (f.d + 1))).toNat)
      let s := startOp s (opS f.d) (.atomic ea old)
      .ok (if f.ord.getLsbD 0 then atomAcquire s f.scope.toNat sel else s)

/-- An atomic issues (R300): its operands are read, and it performs in its place among the context's accesses (R228, R245, R248; log 8). -/
def atomic (f : AT) (s : State) (op : AtomOp) : Answer :=
  slot s f.g [.s f.d] (need (sources s ([(.s f.a, false), (.s f.d, false)]
      ++ if op = .cas then [(.s (f.d + 1), false)] else []))
    (let ea := s.src.getS f.a
     need (alignTo 8 ea) (match placed s .atomic ea 8 with
      | .error e => .error e
      | .ok p =>
        if classOf ea = 1 ∧ ¬ op.toHost then .error (.trap .txlate (txInfo ea 3))
        else need (translated s p ea (fun t => t.read && t.write)) <| need (memHold s (p.blocks 8))
          (need (if f.ord.getLsbD 1 then podClear s f.scope.toNat else .ok ()) (performAtomic f s op ea)))))

/-- old + v (R300). -/
def execAmoadd (f : AT) (s : State) : Answer := atomic f s .add
/-- Signed minimum (R300). -/
def execAmomin (f : AT) (s : State) : Answer := atomic f s .min
/-- Signed maximum (R300). -/
def execAmomax (f : AT) (s : State) : Answer := atomic f s .max
/-- old & v (R300). -/
def execAmoand (f : AT) (s : State) : Answer := atomic f s .and
/-- old | v (R300). -/
def execAmoor (f : AT) (s : State) : Answer := atomic f s .or
/-- old ^ v (R300). -/
def execAmoxor (f : AT) (s : State) : Answer := atomic f s .xor
/-- v (R300). -/
def execAmoswp (f : AT) (s : State) : Answer := atomic f s .swp
/-- v where the old value is s(D + 1) (R300). -/
def execAmocas (f : AT) (s : State) : Answer := atomic f s .cas

/-! Fences (R256, R301). -/

/-- A fence issues and writes its token; a 17th holds its bundle. A handler's own stores before it are handed over now, those of the program with
its checkpoint, which the fence waits for. -/
def execFence (f : RI) (s : State) : Answer :=
  slot s f.g [.s f.d] (
    let k := s.me
    if 16 ≤ k.fences.length then .error .hold
    else
      let n := k.fenceCount + 1
      let s := if k.handler then drainMe s else s
      let k := s.me
      let s := s.setMe { k with fenceCount := n, fences := k.fences ++
        [{ token := n, scope := BitVec.ofNat 3 f.imm.toNat, before := s.nextId, pc := s.issue.pc, words := s.issue.words,
           epoch := k.epoch, byHandler := k.handler }] }
      .ok (resultS s f.d (BitVec.ofNat 64 n) 1))

/-- Holds the bundle while a fence issued before it whose token is at most sA is incomplete (R18, R256). -/
def execFwait (f : RR) (s : State) : Answer :=
  slot s f.g [] (need (sources s [(.s f.a, f.ta)])
    (if s.issue.pre.fences.any (fun q => decide (q.token ≤ (s.src.getS f.a).toNat)) then .error .hold else .ok s))

/-! Lock words (R303). -/

/-- A release on the lock word at sA. -/
def execRel (f : RR) (s : State) : Answer :=
  slot s f.g [] (need (sources s [(.s f.a, f.ta)])
    (let o := s.src.getS f.a
     need (alignTo 8 o) (need (podClear s f.d.toNat)
       (.ok (release (drainMe s) s.issue.core f.d.toNat (bound s.me.r.bind 1 o))))))

/-- An acquire on the lock word at sA, to which the context's latest atomic has performed. -/
def execAcq (f : RR) (s : State) : Answer :=
  slot s f.g [] (need (sources s [(.s f.a, f.ta)])
    (let o := s.src.getS f.a
     need (alignTo 8 o) (acquireHere s f.d.toNat (bound s.me.r.bind 1 o))))

end Sys2Proof.Machine
end

