-- ==== Sys2Proof/Machine/Tasks.lean ====
section
/-! DEFINITION. Class Q: pushing records, join counters, triggers, futures and barriers (R124, R125, R133 to R136, R202 to R209,
R257). Each is the last slot of its bundle, so the stores of the other slots are in the gate when it runs (R203). -/

namespace Sys2Proof.Machine

/-- trap_info of BADREC with a reason (R204). -/
def badrec (reason : Nat) : Except Stop α := .error (.trap .badrec (BitVec.ofNat 64 reason))

/-- A read-modify-write of the 16 bytes of a join counter or future at their owner point: one without a place, or in the lower half, raises
TXLATE (R248), and an uncorrectable one ECCUE (R230, R240). -/
def pairHere (s : State) (va : W64) (k : State → Nat → Except Stop State) : Except Stop State :=
  match atOwner s s.issue.core .atomic va 16 with
  | .error i => .error (.trap .txlate i)
  | .ok (t, key) => need (memHold s (keyBlocks key 16)) (match ownerRead t va key 16 with
    | .error e => .error e
    | .ok u => k (spendMem u (u.partIdOf u.issue.core) (keyBlocks key 16)) key)

/-- As `pairHere`, for an address that an instruction names (R203). -/
def owned16 (s : State) (va : W64) (k : State → Nat → Except Stop State) : Except Stop State := need (alignTo 16 va) (pairHere s va k)

/-- The two words of a counter or future as the read-modify-write of a join or futwait finds them, before its bundle issues (R206). -/
def foundPair (s : State) (va : W64) : W64 × W64 :=
  match atOwner s.before s.issue.core .atomic va 16 with
  | .ok (t, key) => pairAt t key
  | .error _ => (0, 0)

/-! Pushing records (R205). -/

/-- The record at va, checked under R121 and R129: the state after its read, and its words. -/
def checkRecord (s : State) (va : W64) : Except Stop (State × File 3 W64) :=
  if va.toNat % 64 ≠ 0 ∨ wbits va 48 15 ≠ 0 then badrec 1
  else match readBlock s va 64 with
    | .error e => .error e
    | .ok t =>
      let w := recordWords t s.issue.core (nameOf s.issue.core va)
      if badRecord w va then badrec 1 else if gangBit w then badrec 2 else .ok (t, w)

/-- The join counter at w1 counts one more child before the child is visible (R124). -/
def countUp (s : State) (w1 : W64) : Except Stop State :=
  if w1 = 0 then .ok s
  else pairHere s w1 (fun t key => .ok (pairPut t key ((pairAt t key).1 + 1) (pairAt t key).2))

/-- A scope, or the widening of a stolen continuation where that is wider (R262). -/
def widened (s : State) (scope : Nat) : Nat := max scope s.me.job.widening.toNat

/-- A record pushed to the queue of core c, its release made first (R205, R257): a queue that cannot take it raises its fault before the
join counter counts. -/
def pushRecord (s : State) (va : W64) (c : CoreId) (w : Pusher) (scope : Nat) : Except Stop State :=
  let s := drainMe s
  let push := fun (t : State) => pushCheck s c (pushAfterHeld (release t s.issue.core scope everyByte) c w
    (queueEntry (nameOf s.issue.core va) false scope s.issue.core false))
  need (podClear s scope) (match checkRecord s va with
    | .error e => .error e
    | .ok (s, w) => match push s with
      | .error e => .error e
      | .ok _ => match countUp s (recWord w 1) with
        | .error e => .error e
        | .ok t => push t)

/-- The record at sA to the own core's queue (R205). -/
def execSpawn (f : RR) (s : State) : Answer :=
  slot s f.g [] (need (sources s [(.s f.a, f.ta)]) (pushRecord s (s.src.getS f.a) s.issue.core .own (widened s 1)))

/-- Target core of a qpush. -/
def qpushCore (b : W64) : CoreId := ⟨wbits b 0 9, by unfold wbits; omega⟩

/-- A core that qpush may name: present, not left out, of the caller's partition (R204). -/
def qpushOk (s : State) (b : W64) : Bool :=
  decide (wbits b 9 55 = 0) && !(s.core (qpushCore b)).out && (s.partOf (qpushCore b)).isSome
    && s.partOf (qpushCore b) == s.partOf s.issue.core

/-- The record at sA to the queue of the core in sB (R205). -/
def execQpush (f : RRR) (s : State) : Answer :=
  slot s f.g [] (need (sources s [(.s f.a, f.ta), (.s f.b, f.tb)])
    (let b := s.src.getS f.b
     if !qpushOk s b then
       (match checkRecord (drainMe s) (s.src.getS f.a) with
        | .error e => .error e
        | .ok _ => badrec 3)
     else pushRecord s (s.src.getS f.a) (qpushCore b) (.qpush s.issue.core) (widened s (scopeOf s.issue.core (qpushCore b)))))

/-! Counters and futures (R206, R208). -/

/-- A join or futwait that registered its record leaves the continuation at this bundle's own address (R16, R206). -/
def suspendHere (s : State) (why : Why) : Stop :=
  .left (leave (keepRecord s s.me.job) s.issue.core s.issue.ctx why s.issue.pc)

/-- Continues on a count of zero, else registers the record and suspends (R124, R206). -/
def execJoin (f : RR) (s : State) : Answer :=
  slot s f.g [] (need (sources s [(.s f.a, f.ta)])
    (owned16 s (s.src.getS f.a) (fun t key =>
      let (n, w) := foundPair s (s.src.getS f.a)
      if n = 0 then acquireHere t 4 everyByte
      else if w ≠ 0 then badrec 4
      else if s.src.triggered then badrec 6
      else .error (suspendHere (pairPut t key n (linkTo s.me.job.name s.issue.core)) .join))))

/-- Bytes that a futwait acquires: those bound to the future, and the destination bytes of a copy that resolved it (R312, R363). -/
def futBytes (s : State) (key : Nat) (va : W64) : W64 → Bool :=
  fun a => bound s.me.r.bind 2 va a || landedBytes s (fun v => v == .word key) a

/-- Continues with word 1 of a final future, else the record joins its chain and suspends (R133, R206). -/
def execFutwait (f : RR) (s : State) : Answer :=
  slot s f.g [.s f.d] (need (sources s [(.s f.a, f.ta)])
    (let va := s.src.getS f.a
     owned16 s va (fun t key =>
      let (w0, w1) := foundPair s va
      if 2 ≤ futState w0 then
        match acquireHere t 4 (futBytes t key va) with
        | .error e => .error e
        | .ok u => .ok (resultS u f.d w1 1)
      else
        let n := futWaiters w0
        let name := s.me.job.name
        let head := if n = 0 then 0 else futHead w0
        if n = 16383 then badrec 5
        else if s.src.triggered then badrec 6
        else
          let t := pairPut t key (futWord 1 (n + 1) name) w1
          .error (suspendHere (recordPut t s.issue.core name 3 (linkTo head s.issue.core)) .futwait))))

/-- A future receives its value or poison code; bound bytes are released first (R133, R134, R203, R208). -/
def resolveHere (s : State) (va : W64) (state : Nat) (value : W64) : Except Stop State :=
  owned16 (release (drainMe s) s.issue.core 4 (bound s.me.r.bind 2 va)) va (fun t _ =>
    match resolveFuture t s.issue.core va state value with
    | .ok u => .ok u
    | .error (c, i) => .error (.trap c i))

/-- sB as the value of the future at sA (R208). -/
def execFutset (f : RRR) (s : State) : Answer :=
  slot s f.g [] (need (sources s [(.s f.a, f.ta), (.s f.b, f.tb)]) (resolveHere s (s.src.getS f.a) 2 (s.src.getS f.b)))

/-- sD as the poison code of the future at sA (R208). -/
def execFutpoison (f : RR) (s : State) : Answer :=
  slot s f.g [] (need (sources s [(.s f.a, f.ta), (.s f.d, false)]) (resolveHere s (s.src.getS f.a) 3 (s.src.getS f.d)))

/-! Trigger and bare suspension (R125, R207). -/

/-- The join counter of the issuing continuation can be read (R230, R240); one without a place is none (log 12). -/
def ownCounter (s : State) : Except Stop State :=
  let w1 := recWord s.me.job.words 1
  match (if w1 = 0 then .error 0 else atOwner s s.issue.core .atomic w1 16) with
  | .error _ => .ok s
  | .ok (_, key) => ownerRead s w1 key 16

/-- The completion effects at once, the first time. -/
def execTrig (f : NF) (s : State) : Answer :=
  slot s f.g [] (
    if s.src.triggered then .ok s
    else need (podClear s s.me.job.scope.toNat) (match ownCounter (drainMe s) with
      | .error e => .error e
      | .ok u =>
        let t := completionEffects u s.issue.core s.issue.ctx
        .ok (t.setRegs { t.me.r with triggered := true })))

/-- A suspension that pushes the record nowhere. A triggered continuation whose record has gang = 1 meets two reasons of R204, which does not say
which is written: 0x07 (DESIGN CHOICE, log 110). -/
def execSusp (f : NF) (s : State) : Answer :=
  slot s f.g [] (
    if gangBit s.me.job.words then badrec 7
    else if s.src.triggered then badrec 6 else .ok (s.transfer (.leave .susp)))

/-! Barriers (R136, R209). -/

/-- Arrivals of a member at a scope. -/
def Team.arrivalsOf (t : Team) (m scope : Nat) : Nat :=
  ((t.arrivals.find? (fun a => a.1 == m && a.2.1 == scope)).map (fun a => a.2.2)).getD 0

/-- A member arrives at a scope once more. -/
def Team.arrive (t : Team) (m scope : Nat) : Team :=
  { t with arrivals := (m, scope, t.arrivalsOf m scope + 1) :: t.arrivals.filter (fun a => !(a.1 == m && a.2.1 == scope)) }

/-- Arrivals of the issuing continuation at a scope. -/
def myArrivals (s : State) (scope : Nat) : Nat :=
  match s.team s.me.job.team with
  | some t => t.arrivalsOf s.me.job.member scope
  | none => 0

/-- The episode of its last arrival at a scope is complete. -/
def arrivalDone (s : State) (scope : Nat) : Bool := episodeDone s s.issue.core s.me.job scope (myArrivals s scope)

/-- The issuing continuation arrives at a scope, its release made first: the bound bytes (R251, R257). -/
def arriveHere (s : State) (scope : BitVec 3) : State :=
  let s := release (drainMe s) s.issue.core scope.toNat (bound s.me.r.bind 4 (BitVec.ofNat 64 scope.toNat))
  match s.team s.me.job.team with
  | some t => s.setTeam (t.arrive s.me.job.member scope.toNat)
  | none => s

/-- Scope of a barrier instruction (R202). -/
def barScope (f : RI) : BitVec 3 := BitVec.ofNat 3 f.imm.toNat

/-- Bit of a scope in the open arrivals. -/
def scopeBit (sc : BitVec 3) : BitVec 6 := BitVec.ofNat 6 (2 ^ sc.toNat)

/-- Arrives without waiting; an open arrival holds it until that episode is complete. -/
def execBarr (f : RI) (s : State) : Answer :=
  slot s f.g [] (
    if !arrivalDone s (barScope f).toNat then .error .hold
    else need (podClear s (barScope f).toNat) <|
      let t := arriveHere s (barScope f)
      .ok (t.setRegs { t.me.r with arrived := t.me.r.arrived ||| scopeBit (barScope f) }))

/-- Waits for the episode of the open arrival, if there is one, and acquires. -/
def execBarw (f : RI) (s : State) : Answer :=
  slot s f.g [] (
    let b := scopeBit (barScope f)
    if s.src.arrived &&& b = 0 then .ok s
    else if !arrivalDone s (barScope f).toNat then .error .hold
    else match acquireHere s (barScope f).toNat (bound s.me.r.bind 4 (BitVec.ofNat 64 (barScope f).toNat)) with
      | .error e => .error e
      | .ok t => .ok (t.setRegs { t.me.r with arrived := t.me.r.arrived &&& ~~~b }))

/-- Arrives, and the context's next bundle waits for the episode (and acquires, see `barAcquire`). -/
def execBar (f : RI) (s : State) : Answer :=
  slot s f.g [] (
    if !arrivalDone s (barScope f).toNat then .error .hold
    else need (podClear s (barScope f).toNat) <|
      let t := arriveHere s (barScope f)
      .ok (t.setMe { t.me with barWait := some (barScope f, myArrivals t (barScope f).toNat) }))

end Sys2Proof.Machine
end

