-- ==== Sys2Proof/Machine/TileOps.lean ====
section
/-! DEFINITION. talloc, tfin and tdrop (R273 to R278), and the loads that wait for a publication (R272). -/

namespace Sys2Proof.Machine

/-- Pool of a talloc. -/
def tallocPool (f : RRI) : Fin 16 := ⟨f.imm.toNat % 16, by omega⟩

/-- Asks a pool of the own core for a tile (R274). -/
def execTalloc (f : RRI) (s : State) : Answer :=
  slot s f.g [.s f.d] (need (sources s [(.s f.a, false)])
    (let n := wbits (s.src.getS f.a) 0 12
     let q := tallocPool f
     let share : BitVec 2 := BitVec.ofNat 2 (f.imm.toNat / 16)
     if n = 0 ∨ !(s.pool s.issue.core q).valid then .error (.trap .bounds (BitVec.ofNat 64 (f.imm.toNat + n * 2 ^ 8)))
     else
       let t := startOp s (opS f.d) (.talloc (BitVec.ofNat 4 q.val) share (BitVec.ofNat 12 n))
       .ok (askTile t t.issue.core q { who := .ctx t.issue.ctx, share := share, reads := BitVec.ofNat 12 n,
                                        team := t.me.job.team, since := t.cycle })))

/-- A waiting tile load of context x of core c is served at the publication: its spend, its acquire over the regions bound to the tile at
its issue, its data with the context's own stores first (R245, R271, R272, R302). A byte whose word cannot be read is left for the load
to meet (R230). Every load that waits for the publication reads the published tile; only a spend can find the tile gone. -/
def serveRead (s : State) (c : CoreId) (x : CtxId) (o : Op) : State :=
  match o.kind, o.dest with
  | .tile h unit consume own bind, .vector _ m =>
    if consume && !handleMatches s h then s.setCtx c x ((s.ctx c x).dropRead o)
    else
      let a := tileAddr s h + BitVec.ofNat 64 (256 * unit)
      let ls := (activeLanes m).map (fun l => (l, a + BitVec.ofNat 64 (4 * l)))
      let key := fun (l : Nat × W64) => keyScratch (handleCore h) (wbits l.2 0 22)
      let s := ls.foldl (fun s l => eccCorrect s c (key l) 4) s
      let read := ls.flatMap (fun l =>
        if uncorrectable s (key l) 4 then List.replicate 4 none else (s.mem.readRun (key l) 4).map some)
      let data := List.zipWith (fun (g b : Option Byte) => g.or b) own read
      let sel := bound bind 3 h
      let s := match reported s c sel with
        | some (l, t) => acquire (t.setCtx c x ((t.ctx c x).pend (o.late .eccue (l ||| 1)))) c 2 sel
        | none => acquire s c 2 sel
      let k := s.ctx c x
      let s := s.setCtx c x { k with ops := k.ops.map (fun p => if p.id = o.id then { p with kind := .vload ls data } else p) }
      if consume then spendTile s h else s
  | _, _ => s

/-- The loads that wait for the tile of h, core by core and context by context. -/
def serveReads (s : State) (h : W64) : State :=
  let c := handleCore h
  ([0, 1, 2, 3] : List (Fin 4)).foldl (fun s r => ([0, 1, 2, 3] : List CtxId).foldl (fun s x =>
    (((s.ctx (peerOf c r) x).ops.filter (·.awaits h)).foldl (fun s o => serveRead s (peerOf c r) x o) s)) s) s

/-- Publishes a tile: the release at .quad, the state, the waiting loads (R271, R275). -/
def execTfin (f : RR) (s : State) : Answer :=
  slot s f.g [] (need (sources s [(.s f.a, f.ta)])
    (let h := s.src.getS f.a
     need (handleCheck s h)
       (if (tileOf s h).state = .published then .error (.trap .tstale (tstaleInfo h 2))
        else .ok (serveReads (publishTile (release (drainMe s) s.issue.core 2 (bound s.me.r.bind 3 h)) h) h))))

/-- Gives a tile up, or spends a read of it unread (R276). -/
def execTdrop (f : RR) (s : State) : Answer :=
  slot s f.g [] (need (sources s [(.s f.a, f.ta)])
    (let h := s.src.getS f.a
     need (handleCheck s h) (.ok (if (tileOf s h).state = .open then freeTile s h else spendTile s h))))

end Sys2Proof.Machine
end

