-- ==== Sys2Proof/Machine/Copies.lean ====
section
/-! DEFINITION. The copy engines: walks, sources and destinations, sync words, completion and errors (R305 to R323, R345, R346). -/

namespace Sys2Proof.Machine

/-- The source is a result queue's row (R315). -/
def qsrc (sh : File 4 W64) : Bool := shField sh 28 == 1
/-- Bytes of an element of destination accumulation. -/
def accElem (sh : File 4 W64) : Nat := if shField sh 3 = 1 then 2 else 4

/-! Sync words (R322, R349). -/

/-- A sync word. -/
structure SyncWord where
  target : Nat
  arrived : Nat
  gen : Nat
  armed : Bool
  err : Bool
  deriving DecidableEq, Repr

/-- The sync word at a key. -/
def readSync (s : State) (key : Nat) : SyncWord :=
  let n := leNat (s.mem.readRun key 16)
  { target := n % 2 ^ 40, arrived := n / 2 ^ 40 % 2 ^ 40, gen := n / 2 ^ 80 % 2 ^ 32, armed := decide (n / 2 ^ 112 % 2 = 1),
    err := decide (n / 2 ^ 113 % 2 = 1) }

/-- The sync word after the advance loop of R322, at a key. -/
def writeSync (s : State) (key : Nat) (w : SyncWord) : State :=
  let full := decide (2 ^ 40 - 1 < w.arrived)
  let arrived := if full then 2 ^ 40 - 1 else w.arrived
  let k := if w.armed ∧ w.target ≠ 0 then arrived / w.target else 0
  let n := w.target + (arrived - k * w.target) * 2 ^ 40 + (w.gen + k) % 2 ^ 32 * 2 ^ 80 + w.armed.toNat * 2 ^ 112
    + (w.err || full).toNat * 2 ^ 113
  s.writeAt key (leBytes 16 n)

/-- Bytes counted into the sync word at a key. -/
def countSync (s : State) (key n : Nat) : State :=
  let w := readSync s key
  writeSync s key { w with arrived := w.arrived + n }

/-- Whether an address names a sync word or mailbox of the quad's scratchpad. -/
def inQuad (va : W64) : Bool := classOf va == 0

/-- Key of a scratchpad address in the quad of core c. -/
def quadKey (c : CoreId) (va : W64) : Nat := keyScratch (scratchCore c va) (wbits va 0 22)

/-- An error counted into a sync word (R319). -/
def errSync (s : State) (key : Nat) : State :=
  let s := mendRead s key 16
  writeSync s key { readSync s key with err := true }

/-! Groups (R423). -/

/-- A group table entry that is loaded. -/
def State.group (s : State) (g : Nat) : Option (File 1 W64) := (s.groups.find? (fun e => e.1 == g)).map (fun e => e.2)
/-- Members of a group, lowest first. -/
def groupMembers (e : File 1 W64) : List Nat := (List.range 64).filter (fun n => wbit e[0] n)
/-- Owner of a group. -/
def groupOwner (e : File 1 W64) : Nat := wbits e[1] 0 4
/-- Validity of a group. -/
def groupValid (e : File 1 W64) : Bool := wbit e[1] 4
/-- Mode of a group. -/
def groupMode (e : File 1 W64) : Nat := wbits e[1] 5 2
/-- Partition addressed on every member. -/
def groupPart (e : File 1 W64) : PartId := ⟨wbits e[1] 8 4, by unfold wbits; omega⟩
/-- Number of the team that holds a group's received tiles (R424); teams of continuations have smaller ones. -/
def receiverTeam (g : Nat) : Nat := 2 ^ 64 + g
/-- Window of a group. -/
def groupWin (e : File 1 W64) : Nat := wbits e[1] 16 6

/-! Host queues filled by the device (R424). -/

/-- What becomes of a record for a host queue: it has its slot; the ring waits for a translation that is asked for; the queue cannot take it. -/
inductive Filled where
  | ok (s : State)
  | wait (s : State)
  | full

/-- A record placed at the tail of a fabric-fed queue of a partition (R424). A ring that the host does not let the device write takes none
(log 97). -/
def fillSlot (s : State) (p : PartId) (q : QueueId) (bs : List Byte) : Filled :=
  let h := s.queue q
  if !h.fabric || h.part ≠ p || 2 ^ h.size ≤ h.busy + h.pending then .full
  else
    let va := h.q0.toNat + 64 * (h.tail % 2 ^ h.size)
    match hostReach s p va true with
    | .missing => .wait (askHostPort s p va)
    | .refused => .full
    | .ready =>
      let s := s.writeAt (keyHost (s.part p).pid va) bs
      let next := (h.tail + 1) % 2 ^ h.size
      .ok (s.setQueue q { h with q2 := wset h.q2 0 16 next, full := next == h.head % 2 ^ h.size })

/-- Queue that an address names in [11:0]. -/
def queueAt (va : W64) : QueueId := ⟨wbits va 0 12, by unfold wbits; omega⟩

/-! Sources (R311, R314, R315, R317). -/

/-- What the next bytes of a copy come to: bytes; a page that a gather skips; a wait, perhaps for translations that are asked for; a
lower-half page that the host does not permit; n bytes from a key that cannot be read; or a fault of the walk. -/
inductive Got where
  | bytes (bs : List Byte) (s : State)
  | skip (c : Cause) (info : W64)
  | wait (s : State)
  | page (va : W64)
  | bad (key n : Nat) (info : W64)
  | fail (c : Cause) (info : W64)

/-- n bytes from a key as an engine reads them for core c: single errors are corrected (R230, R378). -/
def engineRead (s : State) (c : CoreId) (key n : Nat) (info : W64) : Got :=
  if uncorrectable s key n then .bad key n info else .bytes (s.mem.readRun key n) (eccCorrect s c key n)

/-- Where the first byte that cannot be read stands among n bytes from a key. -/
def badOffset (s : State) (key n : Nat) : Nat := ((List.range n).find? (fun i => uncorrectable s (key + i) 1)).getD 0

/-- n bytes at offset i of the run of an engine's address source that starts at va. -/
def readAddress (s : State) (c : CoreId) (va : W64) (len i n : Nat) : Got :=
  match place s c .read va len with
  | .error r => .fail .txlate (txInfo va r)
  | .ok p => match engineBar s c p i n false with
    | some (.ask t) => .wait t
    | some (.page a) => .page a
    | none => engineRead s c (p.key + i) n ((va + BitVec.ofNat 64 (i + badOffset s (p.key + i) n)) &&& ~~~7)

/-- A T1 frame is being filled by a promotion of the partition (R317). -/
def filling (s : State) (p : PartId) (frame : Nat) : Bool :=
  s.shelf.any (fun h => h.2.part == p && h.2.state == .waking && h.2.sources.any (fun q => q.2.2 == frame))

/-- n bytes of a gather at source offset off (R317). -/
def readGather (s : State) (c : CoreId) (entries : List W64) (off len i n : Nat) : Got :=
  let j := off / pageBytes
  let p := s.partIdOf c
  let e := (entries[j]?).getD 0
  let info : W64 := BitVec.ofNat 64 j
  if (off + len - 1) / pageBytes ≠ j then .skip .bounds info
  else
    let page := fun (tier : Nat) => match readableExtent s p tier (entryFrame e) with
      | some x => engineRead s c (keyTier tier x.dev (entryFrame e * pageBytes) + off % pageBytes + i) n info
      | none => .skip .bounds info
    match entryState e with
    | 1 => page 1
    | 2 => page 2
    | 3 => page 3
    | 5 => if filling s p (entryFrame e) then .wait s
      else if (s.part p).failed.contains (entryFrame e) then .skip .kvpoison info else page 1
    | 6 => .skip .kvpoison info
    | _ => .skip .bounds info

/-- n bytes at offset i of run r of a copy. -/
def copyRead (s : State) (c : CoreId) (k : Copy) (r i n : Nat) : Got :=
  let off := walkOff k.shape (srcStride k.shape) r
  match k.data with
  | some bs => .bytes ((bs.drop (off.toNat + i)).take n) s
  | none => match k.form with
    | .gather => readGather s c k.entries off.toNat (runLen k.shape) i n
    | _ => readAddress s c (k.src + off) (runLen k.shape) i n

/-! Destinations. -/

/-- An element added into a fixed-point word (R321). -/
def accumulate (s : State) (c : CoreId) (x : CtxId) (key : Nat) (v : Num) : State :=
  let (w, o) := fixedAdd (leWord 128 (s.mem.readRun key 16)) v
  let s := s.writeAt key (leBytes 16 w.toNat)
  if o then s.setEngine c x { s.engine c x with accof := true } else s

/-- The value of an element of destination accumulation. -/
def accValue (sh : File 4 W64) (bs : List Byte) : Num :=
  if shField sh 3 = 1 then bf16.decode (leNat bs) else f32 (leWord 32 bs)

/-- The elements of bytes added from element i of a run on. -/
def accumulateAll (s : State) (c : CoreId) (x : CtxId) (sh : File 4 W64) (va : W64) : Nat → List Byte → State
  | 0, _ => s
  | n + 1, bs =>
    let e := accElem sh
    if bs.isEmpty then s
    else accumulateAll (accumulate s c x (quadKey c va) (accValue sh (bs.take e))) c x sh (va + 16) n (bs.drop e)

/-- What a write of a copy comes to. -/
inductive Put where
  | ok (s : State)
  | wait (s : State)
  | page (va : W64)
  | fail (c : Cause) (info : W64)

/-- Bytes written at offset i of the run that starts at va, for a partition. -/
def writeAddress (s : State) (p : PartId) (c : CoreId) (va : W64) (len i : Nat) (bs : List Byte) : Put :=
  match placeIn s p c .write va len with
  | .error r => .fail .txlate (txInfo va r)
  | .ok q => match engineBar s c q i bs.length true with
    | some (.ask t) => .wait t
    | some (.page a) => .page a
    | none => .ok (s.writeAt (q.key + i) bs)

/-- The own package's part in a transfer of a group (R424): bytes, records or wakes at a destination address. -/
def memberWrite (s : State) (c : CoreId) (e : File 1 W64) (va : W64) (len i : Nat) (bs : List Byte) : Put :=
  match groupMode e with
  | 1 => match fillSlot s (groupPart e) (queueAt va) bs with
    | .ok t => .ok t
    | .wait t => .wait t
    | .full => .fail .qovf 0
  | 2 =>
    let token := leWord 64 (bs.take 8)
    if wbits token 32 4 ≠ (groupPart e).val then .fail .acl token
    else .ok (wakeToken s (groupPart e) token (leWord 64 (bs.drop 8)))
  | _ => writeAddress s (groupPart e) c va len i bs

/-- Bytes written at offset i of run r of a copy. -/
def copyWrite (s : State) (c : CoreId) (x : CtxId) (k : Copy) (r i : Nat) (bs : List Byte) : Put :=
  let off := walkOff k.shape (dstStride k.shape) r
  match k.form with
  | .add => .ok (accumulateAll s c x k.shape (k.dst + off + BitVec.ofNat 64 (16 * (i / accElem k.shape))) bs.length bs)
  | .wstore => .ok (s.writeAt (keyWeight (dieOf c) ((k.dst + off).toNat + i)) bs)
  | .tile =>
    let h := k.tile.getD 0
    .ok (s.writeAt (keyScratch (handleCore h) (tileOffset s h + off.toNat + i)) bs)
  | .mcast => match s.group (shField k.shape 7) with
    | some e => if (groupMembers e).contains s.pkgId then memberWrite s c e (k.dst + off) (runLen k.shape) i bs else .ok s
    | none => .ok s
  | _ => writeAddress s (s.partIdOf c) c (k.dst + off) (runLen k.shape) i bs

/-! Moving. -/

/-- How far a copy has come. -/
inductive Moved where
  | go (s : State) (k : Copy)
  | wait (s : State) (k : Copy)
  | fail (s : State) (k : Copy) (c : Cause) (info : W64)

/-- The bytes that may move together: a multicast record or wake moves whole. -/
def moveUnit (s : State) (k : Copy) : Nat :=
  match k.form with
  | .mcast => match s.group (shField k.shape 7) with
    | some e => if groupMode e = 0 then 1 else runLen k.shape
    | none => 1
  | .add => accElem k.shape
  | _ => 1

/-- The bytes of a copy perform in this package too: a multicast's only in a member (R424). -/
def countsHere (s : State) (k : Copy) : Bool :=
  match k.form with
  | .mcast => match s.group (shField k.shape 7) with
    | some e => (groupMembers e).contains s.pkgId
    | none => false
  | _ => true

/-- The destination bytes of a copy that its completion releases, noted for those that observe it (R312); a cpyt, a cpyadd and a cpyw write
none that a near cache could hold. -/
def noteCopy (s : State) (k : Copy) (via : LandBy) : State :=
  if (k.form = .plain ∨ k.form = .mcast ∨ k.form = .gather) ∧ countsHere s k then
    noteLanded s { via := via, dst := k.dst, shape := k.shape, run := runLen k.shape }
  else s

/-- A copy whose access the host does not permit asks for the page, and waits (R224, R225). -/
def askCopyPage (s : State) (c : CoreId) (x : CtxId) (k : Copy) (va : W64) : Moved :=
  match askPage s c x true (va &&& ~~~7) with
  | some t => .wait t { k with page := some (va &&& ~~~7) }
  | none => .wait s k

/-- An uncorrectable read of a copy: its engine reads once more, the row rebuilt when it can be, and then gives up (R319, R378). -/
def copyBad (s : State) (k : Copy) (key n : Nat) (info : W64) : Moved :=
  if k.retried then .fail s k .eccue info else .wait (mendRead s key n) { k with retried := true }

/-- Blocks that m bytes of a gather at source offset off take at the T1 and T2 controllers. -/
def gatherBlocks (s : State) (c : CoreId) (entries : List W64) (off m : Nat) : List Nat :=
  let e := (entries[off / pageBytes]?).getD 0
  let tier := if entryState e = 2 then 2 else 1
  if 3 ≤ entryState e ∧ entryState e ≠ 5 then []
  else match readableExtent s (s.partIdOf c) tier (entryFrame e) with
    | some x => keyBlocks (keyTier tier x.dev (entryFrame e * pageBytes) + off % pageBytes) m
    | none => []

/-- Blocks that m bytes at offset i of run r of a copy take at the T1 and T2 controllers (R386). -/
def copyBlocks (s : State) (c : CoreId) (k : Copy) (r i m : Nat) : List Nat :=
  let at? := fun (va : W64) => match placeByte s c .peek va with
    | .ok p => p.blocks m
    | .error _ => []
  let off := walkOff k.shape (srcStride k.shape) r + BitVec.ofNat 64 i
  let source := if k.data.isSome then [] else if k.form = .gather then gatherBlocks s c k.entries off.toNat m else at? (k.src + off)
  if k.form = .plain ∨ k.form = .mcast ∨ k.form = .gather then
    source ++ at? (k.dst + walkOff k.shape (dstStride k.shape) r + BitVec.ofNat 64 i)
  else source

/-- The scratchpad words that m bytes at offset i of run r of a copy read and write again (R321, R322): those it accumulates into, and its sync
word. -/
def copyWords (s : State) (k : Copy) (r i m : Nat) : List W64 :=
  let e := accElem k.shape
  (if k.form = .add then (List.range ((m + e - 1) / e)).map (fun j =>
      k.dst + walkOff k.shape (dstStride k.shape) r + BitVec.ofNat 64 (16 * (i / e + j))) else [])
    ++ (if k.kind = 2 ∧ countsHere s k then [k.caddr] else [])

/-- At most n bytes of the current run move, and are counted into the sync word of a kind 2 (R322); an exhausted budget delays them
(R386). -/
def moveSome (s : State) (c : CoreId) (x : CtxId) (k : Copy) (n : Nat) : Moved :=
  let len := runLen k.shape
  let r := k.moved / len
  let i := k.moved % len
  let u := moveUnit s k
  let m := min (max u (n / u * u)) (len - i)
  let blocks := copyBlocks s c k r i m
  let words := copyWords s k r i m
  if !memReady s (s.partIdOf c) blocks then .wait s k
  else match words.find? (fun a => uncorrectable s (quadKey c a) 16) with
  | some a => copyBad s k (quadKey c a) 16 (a &&& ~~~7)
  | none => match copyRead (words.foldl (fun s a => eccCorrect s c (quadKey c a) 16) s) c k r i m with
  | .skip cause info => .go s { k with moved := (r + 1) * len, fault := some (k.fault.getD (cause, info)) }
  | .wait t => .wait t k
  | .page va => askCopyPage s c x k va
  | .bad key n info => copyBad s k key n info
  | .fail cause info => .fail s k cause info
  | .bytes bs s => match copyWrite s c x k r i bs with
    | .wait t => .wait t k
    | .page va => askCopyPage s c x k va
    | .fail cause info => .fail s k cause info
    | .ok t =>
      let key := quadKey c k.caddr
      let t := spendMem t (t.partIdOf c) blocks
      .go (if k.kind = 2 ∧ countsHere s k then countSync (noteCopy t k (.word key)) key m else t) { k with moved := k.moved + m, page := none }

/-- The copy goes on for at most `fuel` runs and n bytes. -/
def moveOn (c : CoreId) (x : CtxId) : Nat → Nat → State → Copy → Moved
  | 0, _, s, k => .go s k
  | f + 1, n, s, k =>
    if n = 0 ∨ walkBytes k.shape ≤ k.moved then .go s k
    else match moveSome s c x k n with
      | .go t k' => moveOn c x f (n - (k'.moved - k.moved)) t k'
      | m => m

/-! Completion (R312, R319). -/

/-- The copy of an engine context with an identity. -/
def Engine.copy (e : Engine) (id : Nat) : Option Copy := e.copies.find? (fun k => k.id == id)

/-- The largest number such that every operation up to it has completed (R306). -/
def Engine.settle (e : Engine) : Engine :=
  { e with counter := match (e.copies.filterMap (fun k => k.num)).min? with
      | some n => n - 1
      | none => e.issued }

/-- The engine without a copy. -/
def Engine.drop (e : Engine) (id : Nat) : Engine := { e with copies := e.copies.filter (fun k => k.id != id) }.settle

/-- The ring tail of a stream register advanced by a completion, which no rollback undoes (R312, R367). -/
def Regs.advanceTail (r : Regs) (n : BitVec 4) : Regs :=
  { r with st := rset r.st n (stPut (rget r.st n) 11 ((stField (rget r.st n) 11 + 1) % 2 ^ 16)) }

/-- As `Regs.advanceTail`, in every image of the registers that the context holds. -/
def Ctx.advanceTail (k : Ctx) (n : BitVec 4) : Ctx :=
  { k with r := k.r.advanceTail n, ck := k.ck.advanceTail n, frame := k.frame.map (fun r => r.advanceTail n) }

/-- An engine context keeps the cause of its first error. -/
def Engine.keep (e : Engine) (k : Copy) (cause : Cause) (info : W64) : Engine :=
  match e.err with
  | some _ => e
  | none => { e with err := some (cause, info), errAt := some (k.tok, k.num, if k.kind = 2 then k.caddr else 1) }

/-- A transfer no longer names its copy; it goes once every member has answered (R425). -/
def dropTransfer (s : State) (id : Option Nat) : State :=
  match id with
  | none => s
  | some n =>
    let ts := s.transfers.map (fun t => if t.id = n then { t with copy := none, slip := none } else t)
    { s with transfers := ts.filter (fun t => !(t.id == n && (t.waiting.isEmpty || !t.started))) }

/-- What a copy has written is noted for those that observe its end (R312): by its token and number, and by the future it resolves. -/
def noteEnd (s : State) (c : CoreId) (x : CtxId) (k : Copy) : State :=
  let s := noteCopy s k (.token c x k.tok k.num)
  match place s c .atomic k.caddr 16 with
  | .ok p => if k.kind = 3 then noteCopy s k (.word p.key) else s
  | .error _ => s

/-- A copy completes with an error (R319): a cpyt gives up its tile or its request, a sync word's error bit is set, a future is
poisoned, and the engine context keeps the cause. -/
def failCopy (s : State) (c : CoreId) (x : CtxId) (k : Copy) (cause : Cause) (info : W64) : State :=
  let s := noteEnd (s.setEngine c x ((s.engine c x).drop k.id)) c x k
  let s := dropTransfer s k.xfer
  let s := match k.form, k.tile with
    | .tile, some h => freeTile s h
    | .tile, none => withdraw s (scratchCore c k.dst) (.copy c x k.id)
    | _, _ => s
  let s := if k.kind = 2 then errSync s (quadKey c k.caddr) else s
  let s := if k.kind = 3 ∧ cause ≠ .dresolve then
      (match resolveFuture s c k.caddr 3 (BitVec.ofNat 64 cause.code.toNat) with
       | .ok t => t
       | .error _ => s)
    else s
  s.setEngine c x ((s.engine c x).keep k cause info)

/-- The tile of a cpyt is published, and its handle written to the mailbox (R316). -/
def handOver (s : State) (c : CoreId) (k : Copy) : State :=
  match k.form, k.tile with
  | .tile, some h => (serveReads (publishTile s h) h).writeAt (quadKey c k.dst) (leBytes 8 (h.toNat % 2 ^ 63 + 2 ^ 63))
  | _, _ => s

/-- The future of a kind-3 copy is resolved with the number of bytes moved (R312). -/
def resolveCopy (s : State) (c : CoreId) (k : Copy) : Except (Cause × W64) State :=
  if k.kind = 3 then resolveFuture s c k.caddr 2 (BitVec.ofNat 64 k.moved) else .ok s

/-- A copy whose every byte has performed completes (R312, R316). One whose future cannot be resolved is stopped before a cpyt hands its
tile over (R319). -/
def finishCopy (s : State) (c : CoreId) (x : CtxId) (k : Copy) : State :=
  match k.fault, resolveCopy s c k with
  | some (cause, info), _ | none, .error (cause, info) => failCopy s c x k cause info
  | none, .ok _ => match resolveCopy (noteEnd (handOver s c k) c x k) c k with
    | .error (cause, info) => failCopy s c x k cause info
    | .ok s =>
      let s := s.setEngine c x ((s.engine c x).drop k.id)
      let s := dropTransfer s k.xfer
      if shField k.shape 9 = 1 then
        s.setCtx c x ((s.ctx c x).advanceTail (BitVec.ofNat 4 (shField k.shape 8)))
      else s

/-- A copy's place in its engine context brought up to date. -/
def putCopy (s : State) (c : CoreId) (x : CtxId) (k : Copy) : State :=
  let e := s.engine c x
  s.setEngine c x { e with copies := e.copies.map (fun q => if q.id = k.id then k else q) }

/-- What moving came to, as a state; a copy that has moved every byte stays for its completion. -/
def afterMove (c : CoreId) (x : CtxId) : Moved → State
  | .go s k => putCopy s c x k
  | .wait s k => putCopy s c x k
  | .fail s k cause info => failCopy s c x k cause info

/-- At most n more bytes of a started copy move. -/
def moveBytes (s : State) (c : CoreId) (x : CtxId) (k : Copy) (n : Nat) : State := afterMove c x (moveOn c x (n + 1) n s k)

/-! Issue (R315, R343, R345, R346). -/

/-- trap_info of BOUNDS for an instruction of chapter 16 (R343). -/
def asyncBounds (reason : Nat) (v : W64) : Except Stop α :=
  .error (.trap .bounds (BitVec.ofNat 64 (reason * 2 ^ 56 + v.toNat % 2 ^ 56)))

/-- A test that raises BOUNDS. -/
def within (ok : Bool) (reason : Nat) (v : W64) : Except Stop Unit := if ok then .ok () else asyncBounds reason v

/-- A queue source is owned and its head row is there (R315). -/
def queueSource (s : State) (sh : File 4 W64) : Except Stop Unit :=
  if qsrc sh then
    let q : BitVec 2 := BitVec.ofNat 2 (shField sh 29)
    if !s.src.owns then .error (.trap .array (arrayInfo 1 q.toNat))
    else if (headRow s.src q).isNone then .error (.trap .qunf (BitVec.ofNat 64 q.toNat)) else .ok ()
  else .ok ()

/-- Every word of a cpyadd is aligned and in the quad's scratchpad (R321). -/
def accAligned (sh : File 4 W64) (dst : W64) : Bool :=
  decide (walkRuns sh = 0) || (decide (dst.toNat % 16 = 0)
    && dims.all (fun k => decide (dimCount sh k ≤ 1) || decide ((dstStride sh k).toNat % 16 = 0))
    && decide (0 ≤ (dst.toNat : Int) + spanLow sh (dstStride sh))
    && decide ((dst.toNat : Int) + spanHigh sh (dstStride sh) + 16 * (runLen sh / accElem sh : Nat) ≤ 2 ^ 24))

/-- An address that a copy's transfer to a group of mode 0 may write (R423): of a scratchpad or the upper half, not in T4. -/
def mcastByte (s : State) (p : PartId) (a : Int) : Bool :=
  let va := BitVec.ofInt 64 a
  decide (0 ≤ a) && decide (a < 2 ^ 64) && (classOf va == 0 || (classOf va == 2 && match extentAt (s.part p).table va with
    | some x => x.tier != 4
    | none => true))

/-- A cpymc's group is valid for the partition, with the run rules of its mode, for the lowest and the highest byte of the walk (R346, R423). -/
def groupOk (s : State) (p : PartId) (sh : File 4 W64) (dst : W64) : Bool :=
  match s.group (shField sh 7) with
  | none => false
  | some e =>
    decide (shField sh 7 ≠ 0) && groupValid e && groupOwner e == p.val && match groupMode e with
      | 0 => mcastByte s p dst.toNat && (decide (walkRuns sh = 0)
          || (mcastByte s p (dst.toNat + spanLow sh (dstStride sh)) && mcastByte s p (dst.toNat + spanHigh sh (dstStride sh) + runLen sh - 1)))
      | 1 => runLen sh == 64
      | 2 => runLen sh == 16
      | _ => false

/-- The pool of the core that a mailbox names (R316). -/
def mailPool (s : State) (c : CoreId) (sh : File 4 W64) (mail : W64) : Pool :=
  s.pool (scratchCore c mail) ⟨shField sh 4 % 16, by omega⟩

/-- ALIGN at the issue of a copy. -/
def copyAlign (form : CopyForm) (sh : File 4 W64) (dst caddr : W64) (kind : BitVec 2) : Except Stop Unit :=
  if 2 ≤ kind.toNat ∧ caddr.toNat % 16 ≠ 0 then .error (.trap .align caddr)
  else if form = .tile ∧ dst.toNat % 8 ≠ 0 then .error (.trap .align dst)
  else if form = .add ∧ !accAligned sh dst then .error (.trap .align dst)
  else .ok ()

/-- The bytes of a weight-store write lie in banks of the partition (R234, R346). -/
def banksOk (s : State) (c : CoreId) (sh : File 4 W64) (dst : W64) : Bool :=
  decide (walkRuns sh = 0) ||
    let lo := (dst.toNat : Int) + spanLow sh (dstStride sh)
    let hi := (dst.toNat : Int) + spanHigh sh (dstStride sh) + (runLen sh : Int) - 1
    decide (0 ≤ lo) && decide (hi ≤ 0x5FFFFFFF)
      && (List.range 16).all (fun b => decide (b < weightBank lo.toNat) || decide (weightBank hi.toNat < b) || ownsBank s c (b * 0x6000000))

/-- A tile source's walk stays in its tile (R314, R346). -/
def tileWalk (s : State) (sh : File 4 W64) (src : W64) : Bool := !(poolOf s src).valid || srcWithin sh (poolOf s src).tsize

/-- BOUNDS at the issue of a copy; v is the destination base, or the source base for a walk that leaves a source tile, or for reason 3 the
address of the sync word or mailbox (R343; log 39). -/
def copyBounds (s : State) (form : CopyForm) (sh : File 4 W64) (src dst caddr : W64) (kind : BitVec 2) : Except Stop Unit :=
  let c := s.issue.core
  let reads := shField sh 6
  if qsrc sh ∧ (form = .gather ∨ form = .wstore ∨ (form = .plain ∧ reads = 1)) then asyncBounds 2 dst
  else if kind = 2 ∧ !inQuad caddr then asyncBounds 3 caddr
  else if form = .tile ∧ !inQuad dst then asyncBounds 3 dst
  else if qsrc sh ∧ !srcWithin sh 256 then asyncBounds 2 dst
  else if form = .plain ∧ reads = 1 ∧ !tileWalk s sh src then asyncBounds 2 src
  else within (match form with
    | .plain => decide (reads ≤ 1)
    | .add => decide (shField sh 3 ≤ 1) && decide (runLen sh % accElem sh = 0)
    | .mcast => groupOk s (s.partIdOf c) sh dst
    | .tile => decide (1 ≤ reads) && (mailPool s c sh dst).valid && dstWithin sh (mailPool s c sh dst).tsize
    | .gather => srcWithin sh (32 * pageBytes)
    | .wstore => banksOk s c sh dst) 2 dst

/-- The checks of a source tile at issue (R272, R277, R314). -/
def copyTile (s : State) (h : W64) : Except Stop Unit :=
  if (s.core (handleCore h)).out ∨ ¬ (poolOf s h).valid then .error (.trap .tstale (tstaleInfo h 3))
  else if ¬ handleMatches s h then .error (.trap .tstale (tstaleInfo h 1)) else .ok ()

/-- The address of a copy's completion is in s(B + 1) for the kinds 2 and 3 (R36). -/
def copyAddr (s : State) (f : CP) : W64 := s.src.getS (f.b + 1)

/-- Bytes that lie from lo to hi, seen from a base. -/
def span (base : W64) (lo hi : Int) : W64 → Bool :=
  fun a => decide ((a - (base + BitVec.ofInt 64 lo)).toNat < (hi - lo).toNat)

/-- Keys of the pages that a gather may read. -/
def gatherPages (s : State) (c : CoreId) (entries : List W64) : List Nat :=
  entries.filterMap (fun e =>
    let tier := if entryState e = 5 then 1 else entryState e
    (readableExtent s (s.partIdOf c) tier (entryFrame e)).map (fun x => keyTier tier x.dev (entryFrame e * pageBytes)))

/-- A byte lies in the source of a copy, by address or by the pages of a gather. -/
def inSource (s : State) (c : CoreId) (k : Copy) (pages : List Nat) (a : W64) : Bool :=
  match k.form with
  | .gather => (ownerKey s c a).any (fun q => pages.any (fun p => decide (p ≤ q) && decide (q < p + pageBytes)))
  | _ => span k.src (spanLow k.shape (srcStride k.shape)) (spanHigh k.shape (srcStride k.shape) + runLen k.shape) a

/-- The issuing core's dirty bytes in the ranges of a copy, written back (R311). -/
def copyRelease (s : State) (c : CoreId) (k : Copy) : State :=
  let sh := k.shape
  let pages := gatherPages s c k.entries
  nearWriteBack s c (fun a => inSource s c k pages a
      || span k.dst (spanLow sh (dstStride sh)) (spanHigh sh (dstStride sh) + runLen sh) a)

/-- A copy enters its engine context; an empty one, but for a cpyt, completes at once (R310, R345). -/
def startCopy (s : State) (f : CP) (form : CopyForm) (src dst : W64) (entries : List W64) : State :=
  let c := s.issue.core
  let x := s.issue.ctx
  let sh := rget s.src.sh f.sh
  let e := s.engine c x
  let num := if f.kind = 1 then some (e.issued + 1) else none
  let k : Copy := {
    id := s.nextId, form := form, shape := sh, src := src, dst := dst, kind := f.kind, caddr := copyAddr s f, tok := f.tok,
    num := num, started := false, waiting := false, moved := 0,
    data := if qsrc sh then some (rowBytes ((headRow s.src (BitVec.ofNat 2 (shField sh 29))).getD 0)) else none,
    entries := entries, tile := none, xfer := none, since := s.cycle, fault := none, page := none,
    retried := false, aborted := false, bind := s.me.r.bind }
  let s := { s with nextId := s.nextId + 1 }
  let s := if qsrc sh then pop s false [28#5 + BitVec.ofNat 5 (shField sh 29)] else s
  let s := copyRelease s c k
  let s := s.setEngine c x { s.engine c x with copies := e.copies ++ [k], issued := num.getD e.issued }
  if walkRuns sh = 0 ∧ form ≠ .tile then finishCopy s c x k else s

/-- A copy instruction (R343, R345, R346). -/
def copy (f : CP) (s : State) (form : CopyForm) (src : W64) (entries : List W64) (a : Ref) : Answer :=
  slot s f.g [] (need (sources s ([(a, false), (.s f.b, false)] ++ if 2 ≤ f.kind.toNat then [(.s (f.b + 1), false)] else []))
    (if 64 ≤ s.eng.copies.length then .error .hold
     else
       let sh := rget s.src.sh f.sh
       let dst := s.src.getS f.b
       let caddr := copyAddr s f
       need (queueSource s sh) (need (copyAlign form sh dst caddr f.kind) (need (copyBounds s form sh src dst caddr f.kind)
         (if form = .wstore ∧ (s.part (s.partIdOf s.issue.core)).wsLocked then .error (.trap .wslock 0)
          else need (if form = .plain ∧ shField sh 6 = 1 then copyTile s src else .ok ())
            (.ok (startCopy s f form src dst entries)))))))

/-- Address to address, or tile to address (R346). -/
def execCpy (f : CP) (s : State) : Answer := copy f s .plain (s.src.getS f.a) [] (.s f.a)
/-- Destination accumulate (R321). -/
def execCpyadd (f : CP) (s : State) : Answer := copy f s .add (s.src.getS f.a) [] (.s f.a)
/-- Multicast (R424). -/
def execCpymc (f : CP) (s : State) : Answer := copy f s .mcast (s.src.getS f.a) [] (.s f.a)
/-- Into a tile (R316). -/
def execCpyt (f : CP) (s : State) : Answer := copy f s .tile (s.src.getS f.a) [] (.s f.a)
/-- Block gather from the entries in vA (R317). -/
def execCpyg (f : CP) (s : State) : Answer :=
  copy f s .gather 0 ((List.range 32).map (fun j => rowWord (s.src.getV f.a) j)) (.v f.a)
/-- Weight-store write (R234, R346). -/
def execCpyw (f : CP) (s : State) : Answer := copy f s .wstore (s.src.getS f.a) [] (.s f.a)

end Sys2Proof.Machine
end

