-- ==== Sys2Proof/Machine/Gather.lean ====
section
/-! DEFINITION. Request gatherers (R334 to R336), and the state of itineraries as software reads it (R324, R328). -/

namespace Sys2Proof.Machine

/-! Gatherers. -/

/-- Gatherer g. -/
def State.gatherer (s : State) (g : GathererId) : Gatherer := s.gatherers[g.val]'g.isLt
/-- The state with gatherer g replaced. -/
def State.setGatherer (s : State) (g : GathererId) (x : Gatherer) : State := { s with gatherers := s.gatherers.set g.val x g.isLt }

/-- Count that closes a batch. -/
def gTarget (g : File 3 W64) : Nat := wbits g[0] 0 9
/-- Pool of the batches. -/
def gPool (g : File 3 W64) : Fin 16 := ⟨wbits g[0] 16 4, by unfold wbits; omega⟩
/-- Share of the batches. -/
def gShare (g : File 3 W64) : BitVec 2 := BitVec.ofNat 2 (wbits g[0] 20 2)
/-- Deadline in nanoseconds. -/
def gDeadline (g : File 3 W64) : Nat := wbits g[1] 0 32
/-- Destination core. -/
def gCore (g : File 3 W64) : CoreId := ⟨wbits g[3] 0 9, by unfold wbits; omega⟩

/-- A configuration that gcfg accepts for a partition: fields in range, no gang in the record's template, which no core queue may start
(R129; log 40), the core the partition's, the pool valid (R334, R356). -/
def gValid (s : State) (p : PartId) (g : File 3 W64) : Bool :=
  decide (1 ≤ gTarget g ∧ gTarget g ≤ 256) && !wbit g[2] 61
    && s.partOf (gCore g) == some p && (s.pool (gCore g) (gPool g)).valid

/-- The deadline of a batch has passed at a cycle (R335). -/
def Batch.expired (b : Batch) (cycle : Nat) : Bool :=
  b.reason.isNone && decide (gDeadline b.config ≠ 0) && decide (b.first + gDeadline b.config ≤ cycle / 2)

/-- A batch that is open. -/
def Batch.open? (b : Batch) : Bool := b.reason.isNone

/-- The open batch closed with a reason. -/
def Gatherer.close (g : Gatherer) (reason : BitVec 2) : Gatherer :=
  { g with batches := g.batches.map (fun b => if b.open? then { b with reason := some reason } else b) }

/-- A batch whose deadline passed in an earlier cycle is closed before anything joins it (R335). -/
def Gatherer.settle (g : Gatherer) (cycle : Nat) : Gatherer :=
  if g.batches.any (fun b => b.expired (cycle - 1)) then g.close 1 else g

/-- The BATCH record of a batch and its tile (R336). -/
def batchRecord (b : Batch) (h : W64) : List Byte :=
  let reason := match b.reason with
    | some r => r.toNat
    | none => 0
  [wset b.config[2] 48 4 2, 0, b.config[4], 0, h, BitVec.ofNat 64 b.words.length, BitVec.ofNat 64 reason,
    BitVec.ofNat 64 b.num].flatMap (fun (w : W64) => leBytes 8 w.toNat)

/-- A closed batch written to its tile, published, released and pushed; the counter advances (R306, R336). -/
def writeBatch (s : State) (g : GathererId) (b : Batch) (h : W64) : State :=
  let c := gCore b.config
  let a := tileAddr s h
  let bytes := batchRecord b h ++ b.words.flatMap (fun w => leBytes 8 w.toNat)
  let s := s.writeAt (keyScratch (handleCore h) (tileOffset s h)) bytes
  let s := serveReads (publishTile s h) h
  let s := devicePush s c (queueEntry (nameOf c a) false 4 c false)
  let x := s.gatherer g
  let rest := x.batches.filter (fun q => q.num != b.num)
  s.setGatherer g { x with batches := rest, counter := match (rest.map (fun q => q.num)).min? with
      | some n => n - 1
      | none => x.opened }

/-- Every closed batch that has its tile is written. -/
def flushBatches (s : State) (g : GathererId) : State :=
  (s.gatherer g).batches.foldl (fun s b => match b.reason, b.tile with
    | some _, some h => writeBatch s g b h
    | _, _ => s) s

/-- A request word opens a batch, and asks for its tile (R335). -/
def openBatch (s : State) (g : GathererId) (cfg : File 3 W64) (w : W64) : State :=
  let x := s.gatherer g
  let n := x.opened + 1
  let b : Batch := { num := n, first := s.now, words := [w], tile := none,
                     reason := if gTarget cfg ≤ 1 then some 0 else none, config := cfg }
  askTile (s.setGatherer g { x with batches := x.batches ++ [b], opened := n }) (gCore cfg) (gPool cfg)
    { who := .gather g n, share := gShare cfg, reads := 1, team := x.team, since := s.cycle }

/-- A request word appended to the open batch; the count that reaches the target closes it with reason 0. -/
def Batch.append (b : Batch) (w : W64) : Batch :=
  { b with words := b.words ++ [w], reason := if gTarget b.config ≤ b.words.length + 1 then some 0 else none }

/-- The gatherer that sA names on the die of a core. -/
def gathererOf (c : CoreId) (a : W64) : GathererId := ⟨(dieOf c).val * 64 + wbits a 0 6, by unfold wbits dieOf; omega⟩

/-! Itineraries. -/

/-- Itinerary i. -/
def State.itin (s : State) (i : ItinId) : Itin := s.itins[i.val]'i.isLt
/-- The state with itinerary i replaced. -/
def State.setItin (s : State) (i : ItinId) (x : Itin) : State := { s with itins := s.itins.set i.val x i.isLt }
/-- Itinerary n of the die of a core. -/
def itinOf (c : CoreId) (n : Nat) : ItinId := ⟨(dieOf c).val * 16 + n % 16, by unfold dieOf; omega⟩
/-- Whether an itinerary is assigned to the partition of a core (R351). -/
def itOwned (s : State) (c : CoreId) (n : Nat) : Bool := wbit (s.part (s.partIdOf c)).itOwn n

/-- Code of an itinerary state. -/
def ItinState.code : ItinState → Nat
  | .idle => 0 | .running => 1 | .draining => 2 | .done => 3 | .error => 4

/-- The itstat word (R328). -/
def itWord (i : Itin) : W64 :=
  BitVec.ofNat 64 (i.state.code + i.cause.toNat * 2 ^ 8 + (BitVec.ofInt 32 i.lateness).toNat * 2 ^ 32)

/-- Address of slip 0. -/
def itRing (i : Itin) : W64 := i.desc[0]
/-- Slips in the ring. -/
def itSlips (i : Itin) : Nat := wbits i.desc[1] 0 32
/-- Walks over the ring. -/
def itPasses (i : Itin) : Nat := wbits i.desc[1] 32 16
/-- Period in nanoseconds. -/
def itPeriod (i : Itin) : Nat := wbits i.desc[2] 0 48
/-- Window of a hop kind. -/
def itWindow (i : Itin) (kind : Nat) : Nat := wbits i.desc[3] (4 * (kind - 1)) 4
/-- Pacing threshold of a level. -/
def itThr (d : File 3 W64) (level : Nat) : Nat := wbits d[5] (10 * (level - 1)) 10

/-- A descriptor that itstart accepts (R324). -/
def itValid (d : File 3 W64) : Bool :=
  classOf d[0] == 2 && decide (d[0].toNat % 32 = 0) && decide (1 ≤ wbits d[1] 0 32)
    && decide (1 ≤ wbits d[1] 32 16) && wbits d[1] 48 16 == 0 && wbits d[2] 48 16 == 0
    && [0, 1, 2, 3].all (fun k => decide (1 ≤ wbits d[3] (4 * k) 4)) && wbits d[3] 16 48 == 0
    && (([1, 2, 3, 4, 5, 6].map (itThr d)).filter (· != 0)).Pairwise (· ≤ ·)
    && wbits d[5] 60 4 == 0 && decide (d[6].toNat % 16 = 0) && d[7] == 0

end Sys2Proof.Machine
end

