-- ==== Sys2Proof/Machine/Async.lean ====
section
/-! DEFINITION. Class X but for the copies, and park, wake and kvapp (R342 to R361). -/

namespace Sys2Proof.Machine

/-- The full release at .pkg that several of these instructions make. -/
def releasePkg (s : State) : State := release s s.issue.core 4 everyByte

/-- The n bytes from va that the device reads for the issuing context, once they can be read (R221, R223, R224, R230). -/
def blockAt (s : State) (va : W64) (n : Nat) (k : State → List Byte → Except Stop State) : Except Stop State :=
  match readBlock s va n with
  | .error e => .error e
  | .ok t => k t (deviceRead t s.issue.core va n)

/-- Eight words of a block. -/
def words8 (bs : List Byte) : File 3 W64 := Vector.ofFn (fun i : Fin (2 ^ 3) => wordAt bs i.val)

/-! Shape registers (R309, R344). -/

/-- A value that a field of a shape register takes: it fits, and a whole word sets no reserved bit. -/
def shwFits (n : Nat) (v : W64) : Bool :=
  let p := shapeFieldAt n
  decide (v.toNat < 2 ^ p.width) && !(n == 32 && (wbits v 35 5 != 0 || wbits v 56 8 != 0))
    && !(n == 33 && wbits v 34 30 != 0) && !(n == 35 && wbits v 32 32 != 0)

/-- No reserved format code is written into the format field (R67). -/
def shwFormat (n : Nat) (v : W64) : Bool :=
  if n = 3 then decide (256 ≤ v.toNat) || (formatOf v.toNat).isSome
  else n != 32 || (formatOf (wbits v 48 8)).isSome

/-- A field of a shape register, three bundles later. -/
def execShw (f : RRI) (s : State) : Answer :=
  slot s f.g [] (need (sources s [(.s f.a, false)])
    (let v := s.src.getS f.a
     need (if shwFormat f.imm.toNat v then within (shwFits f.imm.toNat v) 1 v else .error (.trap .ill (BitVec.ofNat 64 s.issue.slot)))
       (.ok (result s (.shape (BitVec.ofNat 3 f.d.toNat) f.imm.toNat) allBits (rowOfWord v) 0 3))))

/-! Timeline counters (R320, R347, R348). -/

/-- Status word of a copy engine context. -/
def engineStatus (e : Engine) : W64 :=
  let busy := (e.copies.map (fun k => k.tok)).foldl (fun (a : BitVec 8) t => a ||| BitVec.twoPow 8 t.toNat) 0
  let cause := match e.err with
    | some (c, _) => 2 ^ 8 + c.code.toNat * 2 ^ 16
    | none => 0
  BitVec.ofNat 64 (busy.toNat + cause + e.accof.toNat * 2 ^ 24)

/-- An engine context that a selector names: a copy engine context of the core, or an itinerary that the partition has. -/
inductive Named where
  | copy (x : CtxId)
  | itin (i : ItinId)

/-- What sA[5:0] names. -/
def named (s : State) (a : W64) : Option Named :=
  let n := wbits a 0 6
  if h : n < 4 then some (.copy ⟨n, h⟩)
  else if 16 ≤ n ∧ n < 32 ∧ itOwned s s.issue.core (n - 16) then some (.itin (itinOf s.issue.core (n - 16))) else none

/-- A value of an engine context into sD. -/
def execTlrd (f : RR) (s : State) : Answer :=
  slot s f.g [.s f.d] (need (sources s [(.s f.a, f.ta)])
    (let a := s.src.getS f.a
     let c := s.issue.core
     match named s a, wbits a 6 2 with
     | some (.copy x), 0 => .ok (resultS s f.d (BitVec.ofNat 64 (s.engine c x).counter) 2)
     | some (.copy x), 1 => .ok (resultS s f.d (BitVec.ofNat 64 (s.engine c x).issued) 2)
     | some (.copy x), 2 => .ok (resultS s f.d (engineStatus (s.engine c x)) 2)
     | some (.copy x), _ =>
       .ok ((resultS s f.d (engineStatus (s.engine c x)) 2).setEngine c x { s.engine c x with accof := false })
     | some (.itin i), 0 => .ok (resultS s f.d (BitVec.ofNat 64 (s.itin i).counter) 2)
     | some (.itin i), 1 => .ok (resultS s f.d (BitVec.ofNat 64 (s.itin i).issued) 2)
     | _, _ => asyncBounds 4 a))

/-- The error that the own copy engine holds, if the failed copy's number is at most n. -/
def errorUpTo (e : Engine) (n : Nat) : Option (Cause × W64) :=
  match e.err, e.errAt with
  | some f, some (_, some k, _) => if k ≤ n then some f else none
  | _, _ => none

/-- The cause that an itinerary in ERROR holds. -/
def itCause (i : Itin) : Cause := Cause.ofCode i.cause

/-- Bytes that a wait on a counter acquires (R312, R313): the regions bound to the counter, and what the operations 1 to n wrote. -/
def counterBytes (s : State) (c : CoreId) (w : Named) (n : Nat) : W64 → Bool :=
  let obj : Nat := match w with
    | .copy x => x.val
    | .itin i => 16 + i.val % 16
  let seen := fun (l : LandBy) => match l, w with
    | .token d y _ (some m), .copy x => d == c && y == x && decide (m ≤ n)
    | .slip j m, .itin i => j == i && decide (m ≤ n)
    | _, _ => false
  fun a => bound s.me.r.bind 5 (BitVec.ofNat 64 obj) a || landedBytes s seen a

/-- Holds until a counter reaches a value; delivers the error of what it observed, and acquires. -/
def execTlwait (f : RR) (s : State) : Answer :=
  slot s f.g [] (need (sources s [(.s f.a, f.ta), (.s f.d, false)])
    (let n := (s.src.getS f.a).toNat
     let c := s.issue.core
     match named s (s.src.getS f.d) with
     | none => asyncBounds 4 (s.src.getS f.d)
     | some (.copy x) =>
       if (s.engine c x).counter < n then .error .hold
       else match (if x = s.issue.ctx then errorUpTo (s.engine c x) n else none) with
         | some (cause, info) => .error (.engine cause info)
         | none => acquireHere s 4 (counterBytes s c (.copy x) n)
     | some (.itin i) =>
       if (s.itin i).counter < n then .error .hold
       else if (s.itin i).state = .error then .error (.trap (itCause (s.itin i)) (itWord (s.itin i)))
       else acquireHere s 4 (counterBytes s c (.itin i) n)))

/-! Sync words (R322, R323, R349, R350). -/

/-- A sync word's address is aligned and in the quad's scratchpad. -/
def syncAt (a : W64) : Except Stop Unit := need' (alignTo 16 a) (within (inQuad a) 3 a)
where
  /-- Both tests, in order. -/
  need' : Except Stop Unit → Except Stop Unit → Except Stop Unit
    | .error e, _ => .error e
    | .ok (), r => r

/-- One atomic update of a sync word. -/
def execSwset (f : RRR) (s : State) : Answer :=
  slot s f.g [] (need (sources s [(.s f.a, f.ta), (.s f.b, f.tb), (.s f.d, false)])
    (let a := s.src.getS f.a
     let d := s.src.getS f.d
     need (syncAt a)
       (let key := quadKey s.issue.core a
        match eccRead s key 16 with
        | .error e => .error e
        | .ok s =>
          let w := readSync s key
          let w := { w with target := wbits (s.src.getS f.b) 0 40, armed := wbit d 0, err := false }
          .ok (writeSync s key (if wbit d 1 then { w with arrived := 0, gen := wbits d 32 32 } else w)))))

/-- The held error of the own copy engine, if its copy was counted into a word. -/
def errorInto (e : Engine) (a : W64) : Option (Cause × W64) :=
  match e.err, e.errAt with
  | some f, some (_, _, w) => if w = a then some f else none
  | _, _ => none

/-- Bytes that a wait on a sync word acquires (R312, R313): the regions bound to it, and what the copies counted into it wrote. -/
def syncBytes (s : State) (key : Nat) (va : W64) : W64 → Bool :=
  fun a => bound s.me.r.bind 6 va a || landedBytes s (fun l => l == .word key) a

/-- Holds until a generation has passed, or the word holds an error. -/
def execSwwait (f : RR) (s : State) : Answer :=
  slot s f.g [] (need (sources s [(.s f.a, f.ta), (.s f.d, false)])
    (let a := s.src.getS f.a
     need (syncAt a)
       (let key := quadKey s.issue.core a
        match eccRead s key 16 with
        | .error e => .error e
        | .ok s =>
          let w := readSync s key
          let ahead := (w.gen + 2 ^ 32 - wbits (s.src.getS f.d) 0 32) % 2 ^ 32
          if !w.err && !(decide (1 ≤ ahead) && decide (ahead < 2 ^ 31)) then .error .hold
          else match errorInto s.eng a with
            | some (cause, info) => .error (.engine cause info)
            | none => if w.err then .error (.trap .bounds (a ||| 1)) else acquireHere s 4 (syncBytes s key a))))

/-! Itineraries (R324, R351, R352). -/

/-- Starts an itinerary. -/
def execItstart (f : RR) (s : State) : Answer :=
  slot s f.g [] (need (sources s [(.s f.a, f.ta), (.s f.d, false)])
    (let a := s.src.getS f.a
     let d := s.src.getS f.d
     let c := s.issue.core
     let i := itinOf c (wbits d 0 4)
     need (alignTo 64 a) (need (within (itOwned s c (wbits d 0 4)) 4 d)
       (let s := releasePkg (drainMe s)
        blockAt s a 64 (fun s bs =>
          let w := words8 bs
          let x := s.itin i
          if !itValid w || x.state = .running || x.state = .draining then asyncBounds 5 a
          else
            let y : Itin := { x with
              state := .running, cause := 0, lateness := 0, maxLate := none, desc := w, part := s.partIdOf c, core := c,
              t0 := s.now, base := x.issued, started := 0, pace := 0,
              team := if x.team = 0 ∨ x.part ≠ s.partIdOf c then s.nextId else x.team }
            .ok ({ s with nextId := s.nextId + 1 }.setItin i { y with issued := x.issued + itPasses y * itSlips y }))))))

/-- The state word of an itinerary. -/
def execItstat (f : RR) (s : State) : Answer :=
  slot s f.g [.s f.d] (need (sources s [(.s f.a, f.ta)])
    (let a := s.src.getS f.a
     need (within (itOwned s s.issue.core (wbits a 0 4)) 4 a)
       (.ok (resultS s f.d (itWord (s.itin (itinOf s.issue.core (wbits a 0 4)))) 2))))

/-! The decode planner (R353). -/

/-- Starts a plan. -/
def execPlan (f : RRR) (s : State) : Answer :=
  slot s f.g [.s f.d] (need (sources s [(.s f.a, f.ta)])
    (need (alignTo 8 (s.src.getS f.a)) (.ok (startOp (releasePkg (drainMe s)) (opS f.d) (.plan (s.src.getS f.a))))))

/-! The loop-nest sequencer (R339 to R341, R354, R355). -/

/-- The words of the bundles from an address, one list for each of n positions, each bundle read by `rd`; a bundle has at most 8 words. -/
def readTemplates {ε α : Type} (s : State) (c : CoreId) (rd : W64 → Nat → Except ε α) : Nat → W64 → Except ε (List (List W32))
  | 0, _ => .ok []
  | n + 1, va =>
    let get := fun (i : Nat) => leWord 32 (deviceRead s c (va + BitVec.ofNat 64 (4 * i)) 4)
    let ws := (List.range 8).map get
    let slots := match ws.findIdx? stopBit with
      | some i => i + 1
      | none => 8
    let len := min 8 (slots + ((ws.take slots).filter litBit).length)
    match rd va (4 * len) with
    | .error e => .error e
    | .ok _ => match readTemplates s c rd n (va + BitVec.ofNat 64 (4 * len)) with
      | .error e => .error e
      | .ok t => .ok ((List.range len).map get :: t)

/-- A context is within a replay, now or in what a handler has interrupted. -/
def Ctx.replays (k : Ctx) : Bool := k.r.replay.isSome || k.frame.any (fun r => r.replay.isSome)

/-- Positions that a context replays (R341). -/
def replaying (k : Ctx) (first count : Nat) : Bool :=
  k.replays && (let d := k.seqDesc.getD []
    let a := wbits (descWord d 0) 0 8
    decide (a < first + count) && decide (first < a + seqLength d))

/-- Loads template positions (imm8 = 0); positions that another context replays hold the bundle. -/
def execLnscfgTemplate (f : RRI) (s : State) : Answer :=
  slot s f.g [] (need (sources s [(.s f.a, false)])
    (let a := s.src.getS f.a
     let c := s.issue.core
     need (alignTo 16 a) (blockAt s a 16 (fun s bs =>
       let w0 := wordAt bs 0
       let first := wbits w0 0 8
       let n := wbits w0 8 8 + 1
       if 256 < first + n then asyncBounds 6 a
       else if (s.core c).ctx.toList.zipIdx.any (fun k => k.2 != s.issue.ctx.val && replaying k.1 first n)
           || (s.core c).saved.any (fun v => replaying v.ctx first n) then .error .hold
       else match readTemplates s c (readBlock s) n (wordAt bs 1) with
         | .error e => .error e
         | .ok ts =>
           .ok (s.setCore c { s.core c with
             templates := ts.zipIdx.foldl (fun l t => aset l (first + t.2) t.1) (s.core c).templates })))))

/-- A sequencer descriptor that breaks R339. -/
def badDescriptor (d : List W64) : Bool :=
  let w0 := descWord d 0
  decide (255 < wbits w0 0 8 + wbits w0 8 8) || decide (5 < wbits w0 16 3) || wbits w0 19 13 != 0 || wbits w0 40 24 != 0
    || wbits (descWord d 1) 32 32 != 0
    || (List.range 6).any (fun l => wbits (descWord d (2 + 2 * l)) 33 31 != 0 || decide ((descWord d (3 + 2 * l)).toNat % 4 ≠ 0))

/-- Loads the sequencer descriptor (imm8 = 1). -/
def execLnscfgDescriptor (f : RRI) (s : State) : Answer :=
  slot s f.g [] (need (sources s [(.s f.a, false)])
    (let a := s.src.getS f.a
     need (alignTo 16 a) (blockAt s a 304 (fun s bs =>
       let d := (List.range 38).map (wordAt bs)
       if badDescriptor d then asyncBounds 6 a else .ok (s.setMe { s.me with seqDesc := some d })))))

/-- The trip count of level l can be read, if it stands in memory (R221, R224, R230). -/
def tripRead (s : State) (d : List W64) (l : Nat) : Except Stop State :=
  match tripAddr d l with
  | none => .ok s
  | some va => match placed s .load va 4 with
    | .error e => .error e
    | .ok p => match translated s p va (fun t => t.read) with
      | .error e => .error e
      | .ok () =>
        if !(p.cached && nearHas (s.core s.issue.core) va 4) && uncorrectable s p.key 4 then
          .error (stopLate (mendRead s p.key 4) .eccue (va &&& ~~~7))
        else .ok s

/-- The trip counts that the start of a replay reads, from level l - 1 inwards, down to a level whose count is 0 (R340). -/
def tripsRead (s : State) (d : List W64) : Nat → Except Stop State
  | 0 => .ok s
  | l + 1 => match tripRead s d l with
    | .error e => .error e
    | .ok s => match seqTrip s s.issue.core s.issue.ctx d l with
      | .error (cause, info) => .error (.trap cause info)
      | .ok n => if n = 0 then .ok s else tripsRead s d l

/-- Replays the template after its bundle, once the trip counts that the start reads are there (R340, R355). -/
def execLnsgo (f : RR) (s : State) : Answer :=
  slot s f.g [] (match s.me.seqDesc with
    | none => asyncBounds 6 0
    | some d => match tripsRead s d (seqLevels d) with
      | .error e => .error e
      | .ok s => .ok { s with issue := { s.issue with replay := true } })

/-! Request gatherers (R356, R357). -/

/-- Configures a gatherer. -/
def execGcfg (f : RRR) (s : State) : Answer :=
  slot s f.g [] (need (sources s [(.s f.a, f.ta), (.s f.b, f.tb)])
    (let a := s.src.getS f.a
     let b := s.src.getS f.b
     let g := gathererOf s.issue.core a
     let p := s.partIdOf s.issue.core
     need (alignTo 64 b)
       (let x := (s.gatherer g).settle s.cycle
        if x.part ≠ p ∧ (x.config.isSome ∨ !x.batches.isEmpty) then asyncBounds 4 a
        else
          let s := releasePkg (drainMe s)
          blockAt s b 64 (fun s bs =>
            let w := words8 bs
            if gTarget w = 0 then .ok (flushBatches (s.setGatherer g { x.close 2 with config := none, part := p }) g)
            else if !gValid s p w then asyncBounds 4 a
            else
              let team := if x.team = 0 then s.nextId else x.team
              .ok (flushBatches ({ s with nextId := s.nextId + 1 }.setGatherer g
                { x.close 2 with config := some w, part := p, team := team }) g)))))

/-- The receipt of a request (R357). -/
def receipt (pos num : Nat) : W64 := BitVec.ofNat 64 (pos % 512 + num % 2 ^ 32 * 2 ^ 32)

/-- Submits a request word. -/
def execGsub (f : RRR) (s : State) : Answer :=
  slot s f.g [.s f.d] (need (sources s [(.s f.a, f.ta), (.s f.b, f.tb)])
    (let a := s.src.getS f.a
     let w := s.src.getS f.b
     let g := gathererOf s.issue.core a
     let x := (s.gatherer g).settle s.cycle
     match x.config with
     | none => asyncBounds 4 a
     | some cfg =>
       if x.part ≠ s.partIdOf s.issue.core then asyncBounds 4 a
       else match x.batches.find? Batch.open? with
         | some b =>
           let y := { x with batches := x.batches.map (fun q => if q.num = b.num then q.append w else q) }
           .ok (resultS (flushBatches ((releasePkg (drainMe s)).setGatherer g y) g) f.d (receipt b.words.length b.num) 2)
         | none =>
           if 2 ≤ x.batches.length then .error .hold
           else if !(s.pool (gCore cfg) (gPool cfg)).valid then asyncBounds 4 a
           else
             let t := openBatch ((releasePkg (drainMe s)).setGatherer g x) g cfg w
             .ok (resultS t f.d (receipt 0 (x.opened + 1)) 2)))

/-! Parking and waking (R358, R359). -/

/-- A park descriptor that park accepts (R329). -/
def parkValid (w : File 3 W64) : Bool :=
  decide (w[0].toNat % 8 = 0) && decide (1 ≤ wbits w[1] 0 32) && decide (wbits w[1] 0 32 ≤ 65536)

/-- Files the running continuation. -/
def execPark (f : RR) (s : State) : Answer :=
  slot s f.g [] (need (sources s [(.s f.a, f.ta)])
    (let a := s.src.getS f.a
     need (alignTo 32 a) (blockAt (drainMe s) a 32 (fun s bs =>
       if !parkValid (words8 bs) || (shelfSlot s).isNone then asyncBounds 7 a
       else if s.src.triggered then badrec 6 else .ok (s.transfer (.leave (.park a)))))))

/-- Delivers a wake write. -/
def execWake (f : RR) (s : State) : Answer :=
  slot s f.g [] (need (sources s [(.s f.a, f.ta), (.s f.d, false)])
    (let a := s.src.getS f.a
     let p := s.partIdOf s.issue.core
     if wbits a 36 28 ≠ 0 then asyncBounds 7 a
     else if wbits a 32 4 ≠ p.val then .error (.trap .acl a)
     else .ok (wakeToken (releasePkg (drainMe s)) p a (s.src.getS f.d))))

/-! Appending pages (R360, R361). -/

/-- A kvapp entry that is malformed. -/
def badKv (e0 e1 : W64) : Bool :=
  decide (e0.toNat % 8 ≠ 0) || decide (wbits e1 24 24 < wbits e1 0 24 + wbits e1 48 12) || wbits e1 60 3 == 0
    || decide (3 < wbits e1 60 3) || wbit e1 63

/-- The first malformed entry among n. -/
def firstBadKv (bs : List Byte) (n : Nat) : Option Nat :=
  (List.range n).find? (fun i => badKv (wordAt bs (2 * i)) (wordAt bs (2 * i + 1)))

/-- What bars the accesses of an append with a descriptor of n entries at a (R223, R224): to the descriptor, and to the entries of the tables that
it writes. A range without a place is not written (log 12). -/
def kvBar (s : State) (c : CoreId) (a : W64) (bs : List Byte) (n : Nat) : Option Bar :=
  let range := fun (va : W64) (len : Nat) => match place s c .peek va 1 with
    | .ok p => engineBar s c p 0 len true
    | .error _ => none
  (range a (16 * n)).or ((List.range n).findSome? (fun i =>
    let e1 := wordAt bs (2 * i + 1)
    if wbits e1 48 12 = 0 then none else range (wordAt bs (2 * i) + BitVec.ofNat 64 (8 * wbits e1 0 24)) (8 * wbits e1 48 12)))

/-- Starts an append. -/
def execKvapp (f : RRR) (s : State) : Answer :=
  slot s f.g [.s f.d] (need (sources s [(.s f.a, f.ta), (.s f.b, f.tb)])
    (let a := s.src.getS f.a
     let n := s.src.getS f.b
     need (alignTo 16 a)
       (if 4096 < n.toNat then asyncBounds 8 a
        else if n = 0 then .ok (startOp s (opS f.d) (.kvapp a 0))
        else
          let s := releasePkg (drainMe s)
          blockAt s a (16 * n.toNat) (fun s bs => match firstBadKv bs n.toNat with
            | some i => asyncBounds 8 (a + BitVec.ofNat 64 (16 * i))
            | none => match kvBar s s.issue.core a bs n.toNat with
              | some (.ask t) => .error (.asking t)
              | some (.page va) => .error (pageAtIssue s va)
              | none => .ok (startOp s (opS f.d) (.kvapp a n))))))

end Sys2Proof.Machine
end

