-- ==== Sys2Proof/Machine/Packets.lean ====
section
/-! DEFINITION. Lugil packets and their sending (R420, R422, R426). -/

namespace Sys2Proof.Machine

/-- Kind of a packet. -/
def pktKind (p : Packet) : Nat := wbits p.h0 0 8
/-- Destination package. -/
def pktDpkg (p : Packet) : Nat := wbits p.h0 8 6
/-- Source package. -/
def pktSpkg (p : Packet) : BitVec 6 := BitVec.ofNat 6 (wbits p.h0 16 6)
/-- Destination partition. -/
def pktDpart (p : Packet) : PartId := ⟨wbits p.h0 24 4, by unfold wbits; omega⟩
/-- Source partition. -/
def pktSpart (p : Packet) : Nat := wbits p.h0 28 4
/-- Multicast group. -/
def pktGroup (p : Packet) : Nat := wbits p.h0 32 8
/-- Payload bytes. -/
def pktLen (p : Packet) : Nat := wbits p.h0 40 13
/-- Last packet of a transfer. -/
def pktLast (p : Packet) : Bool := wbit p.h0 53
/-- Transfer number. -/
def pktXfer (p : Packet) : W32 := BitVec.ofNat 32 p.h2.toNat
/-- Cause that a NACK carries. -/
def pktCause (p : Packet) : Byte := BitVec.ofNat 8 (wbits p.h2 32 8)

/-- What a sender puts into a packet's header. -/
structure Header where
  kind : Nat
  dpkg : Nat
  dpart : Nat
  spart : Nat
  group : Nat
  last : Bool
  addr : W64
  xfer : Nat
  cause : Nat
  aux : W64

/-- A packet of this package (R420). -/
def mkPacket (s : State) (h : Header) (payload : List Byte) : Packet :=
  { h0 := BitVec.ofNat 64 (h.kind % 256 + h.dpkg % 64 * 2 ^ 8 + s.pkgId * 2 ^ 16 + h.dpart % 16 * 2 ^ 24 + h.spart % 16 * 2 ^ 28
      + h.group % 256 * 2 ^ 32 + payload.length % 8192 * 2 ^ 40 + h.last.toNat * 2 ^ 53),
    h1 := h.addr, h2 := BitVec.ofNat 64 (h.xfer % 2 ^ 32 + h.cause % 256 * 2 ^ 32), h3 := h.aux, payload := payload }

/-- Whether a packet to package n can be sent: the fabric enabled, a valid route, its port up (R420). -/
def reachable (s : State) (n : Nat) : Bool :=
  let r := rget s.pkg.route (BitVec.ofNat 6 n)
  wbit s.pkg.fabCtl 0 && wbit r 5 && decide (wbits r 0 5 < 18) && wbit s.pkg.linkUp (wbits r 0 5)

/-- Port that carries packets to package n (R420). -/
def routePort (s : State) (n : Nat) : Nat := wbits (rget s.pkg.route (BitVec.ofNat 6 n)) 0 5

/-- The partition that a packet is sent for. -/
def pktSender (p : Packet) : PartId := Fin.ofNat 16 (pktSpart p)

/-- A packet leaves, its header and payload counted on its port in the sender's budget, or is not sent at all; none while that budget is
exhausted (R386, R420). -/
def sendNow (s : State) (p : Packet) : Option State :=
  let port := routePort s (pktDpkg p)
  if !reachable s (pktDpkg p) then some s
  else if lugilReady s (pktSender p) port then some ((spendLugil s (pktSender p) port (32 + p.payload.length)).emit (.packet p))
  else none

/-- Packets leave in their order; one that its partition's budget on its port holds back waits, and those after it for the same port with
it. -/
def sendInOrder : List Packet → State → State
  | [], s => s
  | p :: t, s =>
    let behind := s.outbox.any (fun q => pktSender q == pktSender p && routePort s (pktDpkg q) == routePort s (pktDpkg p))
    match (if behind then none else sendNow s p) with
    | some u => sendInOrder t u
    | none => sendInOrder t { s with outbox := s.outbox ++ [p] }

/-- The packets that wait are tried again. -/
def flushOutbox (s : State) : State := sendInOrder s.outbox { s with outbox := [] }

/-- A packet is sent, behind those that wait. -/
def sendPacket (s : State) (p : Packet) : State := sendInOrder (s.outbox ++ [p]) { s with outbox := [] }

/-- aux of a slip's packets (log 17): bit 63, then the die of the target core, reads, pool, share, core and mailbox. -/
structure SlipAux where
  mailbox : Nat
  core : CoreId
  share : BitVec 2
  pool : Fin 16
  reads : BitVec 12

/-- The aux word of a slip. -/
def slipAuxWord (a : SlipAux) : W64 :=
  BitVec.ofNat 64 (2 ^ 63 + a.mailbox % 2 ^ 22 + a.core.val % 64 * 2 ^ 32 + a.share.toNat * 2 ^ 40 + a.pool.val * 2 ^ 42
    + a.reads.toNat * 2 ^ 46 + a.core.val / 64 * 2 ^ 58)

/-- A slip's aux word read back. -/
def slipAuxOf (w : W64) : SlipAux :=
  { mailbox := wbits w 0 22, core := ⟨wbits w 58 3 * 64 + wbits w 32 6, by unfold wbits; omega⟩, share := BitVec.ofNat 2 (wbits w 40 2),
    pool := ⟨wbits w 42 4, by unfold wbits; omega⟩, reads := BitVec.ofNat 12 (wbits w 46 12) }

/-- aux of a copy's packets (log 17): the sender's core in [40:32], and bit 62 with the address of the sync word for kind 2. -/
def copyAuxWord (c : CoreId) (sync : Option W64) : W64 :=
  BitVec.ofNat 64 (c.val * 2 ^ 32 + match sync with
    | some a => 2 ^ 62 + a.toNat % 2 ^ 24
    | none => 0)

/-- An answer to a packet: ACK (2) or NACK (3). -/
def answerPacket (s : State) (p : Packet) (kind : Nat) (cause : Byte) (info : W64) : State :=
  let h : Header := {
    kind := kind, dpkg := (pktSpkg p).toNat, dpart := pktSpart p, spart := (pktDpart p).val, group := pktGroup p, last := true, addr := 0,
    xfer := (pktXfer p).toNat, cause := cause.toNat, aux := info }
  sendPacket s (mkPacket s h [])

/-- A received slip's bytes go into its granted tile, which is published; the mailbox is written and the transfer acknowledged
(R424, R425). -/
def receiveTile (s : State) (r : Receive) (h : W64) : State :=
  let s := { s with receives := s.receives.filter (fun q => q.id != r.id) }
  match r.packets with
  | [] => s
  | p :: _ =>
    let a := slipAuxOf p.h3
    let s := r.packets.foldl (fun (s : State) (q : Packet) =>
      s.writeAt (keyScratch (handleCore h) (tileOffset s h + q.h1.toNat)) q.payload) s
    let s := serveReads (publishTile s h) h
    let s := s.writeAt (keyScratch a.core a.mailbox) (leBytes 8 (h.toNat % 2 ^ 63 + 2 ^ 63))
    answerPacket s p 2 0 0

/-- The other packages of a partition's pod domain (R426). -/
def podOthers (s : State) (p : PartId) : List Nat :=
  let g := wbits (s.part p).podGrp 0 8
  if g = 0 then []
  else match s.group g with
    | some e => (groupMembers e).filter (· != s.pkgId)
    | none => []

/-- Partition of the other packages of the pod domain. -/
def podPart (s : State) (p : PartId) : PartId :=
  match s.group (wbits (s.part p).podGrp 0 8) with
  | some e => groupPart e
  | none => p

end Sys2Proof.Machine
end

