-- ==== Sys2Proof/Machine/Issue.lean ====
section
/-! DEFINITION. The events of a context (R16, R18 to R20, R119, R128, R130, R136): the issue slot, start and suspension, results of
variable-latency operations, tile grants, faults found after issue, interrupts and the watchdog. An event whose conditions do not
hold leaves the state as it is. -/

namespace Sys2Proof.Machine

/-- BUNDLE_ISSUE: the issue slot of core c in this cycle (R18, R20, R119). The bundle it prepares runs in the same step. -/
def execBundleIssue (c : CoreId) (s : State) : Answer := .next (issueSlot s c)

/-! Results of variable-latency operations. -/

/-- An outstanding operation of a context. -/
def opOf (s : State) (c : CoreId) (x : CtxId) (id : Nat) : Option Op := (s.ctx c x).ops.find? (fun o => o.id == id)

/-- A result arrives (R21): in the registers, in those of the checkpoint when the operation stands before it (R367), and in those that
a handler will return to (R374). -/
def Ctx.give (k : Ctx) (o : Op) (f : Regs → Regs) : Ctx :=
  { k with r := f k.r, ck := if o.epoch < k.epoch then f k.ck else k.ck,
           frame := if o.epoch ≤ k.epoch then k.frame.map f else k.frame,
           ops := k.ops.filter (fun p => p.id != o.id) }

/-- The register image in the frame area keeps up with a result of the interrupted run (R374, R390). -/
def giveImage (s : State) (c : CoreId) (x : CtxId) (o : Op) : State :=
  let k := s.ctx c x
  match (if k.handler ∧ o.epoch ≤ k.epoch then k.frame else none) with
  | none => s
  | some r =>
    let full := fun (s : State) (n : Nat) =>
      let va := frameBase s c x + 0xC240
      deviceWrite s c va (leBytes 8 ((deviceWord s c va) ||| BitVec.twoPow 64 n).toNat)
    match o.dest with
    | .scalar d => full (deviceWrite s c (frameBase s c x + BitVec.ofNat 64 (0xC100 + 8 * d.toNat)) (leBytes 8 (r.getS d).toNat)) d.toNat
    | .vector d _ =>
      full (deviceWrite s c (frameBase s c x + BitVec.ofNat 64 (0xE000 + 256 * d.toNat)) (rowBytes (r.getV d))) (32 + d.toNat)
    | .none => s

/-- An operation ends, its destination changed by f. -/
def endOp (s : State) (c : CoreId) (x : CtxId) (o : Op) (f : Regs → Regs) : State :=
  giveImage (s.setCtx c x ((s.ctx c x).give o f)) c x o

/-- A scalar result. -/
def giveScalar (s : State) (c : CoreId) (x : CtxId) (o : Op) (v : W64) : State :=
  endOp s c x o (fun r => match o.dest with
    | .scalar d => r.giveS d v
    | _ => r)

/-- A vector result in the lanes of its mask. -/
def giveVector (s : State) (c : CoreId) (x : CtxId) (o : Op) (v : Row) : State :=
  endOp s c x o (fun r => match o.dest with
    | .vector d m => r.giveV d m v
    | _ => r)

/-- A fault found in an operation after its issue waits for the next boundary (R369), in a rollback handler until eret (R376); one of a
handler's own bundle ends the continuation (R372). -/
def opFault (s : State) (c : CoreId) (x : CtxId) (o : Op) (cause : Cause) (info : W64) : State :=
  let k := s.ctx c x
  if k.ofHandler o then deliver s c x cause info o.pc o.words
  else s.setCtx c x (k.pend (o.late cause info))

/-- DIVISION_RESULT (R102). -/
def execDivisionResult (c : CoreId) (x : CtxId) (id : Nat) (s : State) : Answer :=
  match opOf s c x id with
  | some o => match o.kind with
    | .div v => .next (giveScalar s c x o v)
    | _ => .next s
  | none => .next s

/-- The units that a load reads, or a store waits to write: address, bytes, and what of them it already has. -/
def OpKind.units : OpKind → List (W64 × Nat × List (Option Byte))
  | .load ea n _ own => [(ea, n, own)]
  | .vload ls own => ls.zipIdx.map (fun l => (l.1.2, 4, (own.drop (4 * l.2)).take 4))
  | .bload ea own => [(ea, 4, own)]
  | .store ea n => [(ea, n, [])]
  | _ => []

/-- The bytes that a load already has: the gate's at its issue, or all of them. -/
def OpKind.own : OpKind → List (Option Byte)
  | .load _ _ _ own => own
  | .vload _ own => own
  | .bload _ own => own
  | _ => []

/-- What stands before a unit's bytes. -/
inductive Hindrance where
  | clear
  | wait (s : State)
  | refused (info : W64)
  | bad (s : State) (cause : Cause) (info : W64)

/-- A unit can perform when it still has a place, when the host has translated it, with permission, and when what memory has to give is
correctable: a byte that was sampled before, or that the near cache holds, is there (R221, R223, R224, R240). A scratchpad row that has failed
is rebuilt for the retry, and its bank word recorded (R230). -/
def unitHindrance (s : State) (c : CoreId) (write : Bool) (u : W64 × Nat × List (Option Byte)) : Hindrance :=
  let (va, n, own) := u
  match place s c .peek va n with
  | .error r => .bad s .txlate (txInfo va r)
  | .ok p =>
    let lost := fun (b : Option Byte × Nat) => b.1.isNone
      && !(p.cached && (nearByte (s.core c) (va + BitVec.ofNat 64 b.2)).isSome) && uncorrectable s (p.key + b.2) 1
    let info := match doubleAt s p.key n with
      | some w => if inScratch w then eccInfo w else va &&& ~~~7
      | none => va &&& ~~~7
    let mem := if own.zipIdx.any lost then Hindrance.bad (mendRead s p.key n) .eccue info else .clear
    match p with
    | .host pid a => match tlbFind s (dieOf c) pid a with
      | none => .wait (askHost s (dieOf c) pid a)
      | some t => if (if write then t.write else t.read) then mem else .refused (va &&& ~~~7)
    | _ => mem

/-- The first hindrance among the units of an operation. -/
def firstHindrance (s : State) (c : CoreId) (write : Bool) : List (W64 × Nat × List (Option Byte)) → Hindrance
  | [] => .clear
  | u :: t => match unitHindrance s c write u with
    | .clear => firstHindrance s c write t
    | h => h

/-- Blocks that the bytes still to come of an operation take at the T1 and T2 controllers (R386). -/
def Op.blocks (o : Op) (s : State) (c : CoreId) : List Nat :=
  o.kind.units.flatMap (fun u => match place s c .peek u.1 u.2.1 with
    | .ok p => if u.2.2.all Option.isSome || (p.cached && nearHas (s.core c) u.1 u.2.1) then [] else p.blocks u.2.1
    | .error _ => [])

/-- What stands before an operation: its units are read, a store's written. -/
def Op.hindrance (o : Op) (s : State) (c : CoreId) : Hindrance := firstHindrance s c o.kind.waitsStore o.kind.units

/-- The line of a unit is fetched into the near cache when its place is cached and a byte is still to come (R232), and single errors are
corrected. -/
def fetchUnit (c : CoreId) (s : State) (u : W64 × Nat × List (Option Byte)) : State :=
  match place s c .peek u.1 u.2.1 with
  | .ok p =>
    if u.2.2.all Option.isSome then s
    else eccCorrect (if p.cached then nearNeed s c u.1 u.2.1 else s) c p.key u.2.1
  | .error _ => s

/-- The bytes of a load's units, each unit at one moment (R246). -/
def loadBytes (s : State) (c : CoreId) (k : OpKind) : List Byte :=
  k.units.flatMap (fun u => (sampleRun s c u.1 u.2.2).map (fun b => b.getD 0))

/-- The data of a load fill its destination. -/
def giveLoad (s : State) (c : CoreId) (x : CtxId) (o : Op) : State :=
  let bs := loadBytes s c o.kind
  match o.kind with
  | .load _ n sg _ => giveScalar s c x o (extend n sg bs)
  | .vload ls _ =>
    giveVector s c x o (rowFrom (ls.zipIdx.map (fun l => (l.1.1, leWord 32 ((bs.drop (4 * l.2)).take 4)))))
  | .bload _ _ => giveVector s c x o (ofLanes (fun _ => leWord 32 bs))
  | _ => s

/-- The banks that a wld reads, of all its 256 bytes, masked or not (R237). -/
def wldBanks (ls : List (Nat × Nat)) : List Nat := ls.flatMap (fun l => [weightBank (l.2 - 4 * l.1), weightBank (l.2 - 4 * l.1 + 255)])

/-- A read of the weight store that waited for the end of its banks' refresh windows (R237, R238). -/
def weightResult (s : State) (c : CoreId) (x : CtxId) (o : Op) (ls : List (Nat × Nat)) : State :=
  let d := dieOf c
  if ¬ autonomous s d ∧ (wldBanks ls).any (inWindow s d) then s
  else match (ls.flatMap (fun l => eccAmong s (keyWeight d l.2) 4)).find? (fun e => e.2) with
    | some (w, _) => opFault s c x o .eccue (eccInfo w)
    | none =>
      let s := ls.foldl (fun s l => eccCorrect s c (keyWeight d l.2) 4) s
      giveVector s c x o (rowFrom (ls.map (fun l => (l.1, leWord 32 (s.mem.readRun (keyWeight d l.2) 4)))))

/-- VARIABLE_LOAD_RESULT (R223, R284, R285): a load's data arrive, delayed by an exhausted budget (R386); a store's translation has. -/
def execVariableLoadResult (c : CoreId) (x : CtxId) (id : Nat) (s : State) : Answer :=
  match opOf s c x id with
  | none => .next s
  | some o => match o.kind with
    | .load _ _ _ _ | .vload _ _ | .bload _ _ | .store _ _ => (match o.hindrance s c with
      | .clear =>
        if o.kind.waitsStore then .next (endOp s c x o (fun r => r))
        else if !memReady s (s.partIdOf c) (o.blocks s c) then .next s
        else .next (giveLoad (o.kind.units.foldl (fetchUnit c) (spendMem s (s.partIdOf c) (o.blocks s c))) c x o)
      | .wait t => .next t
      | .refused _ => .next s
      | .bad t cause info => if (s.ctx c x).pendFault.isSome && !(s.ctx c x).ofHandler o then .next s else .next (opFault t c x o cause info))
    | .wload ls => .next (weightResult s c x o ls)
    | _ => .next s

/-- PAGE (R224): the host gave no permission; the device asks it, and the access raises PAGE. It waits while the context has an answer to
come, but for an access of its handler's, or the die no room for a request (R225, R372). -/
def execPage (c : CoreId) (x : CtxId) (id : Nat) (s : State) : Answer :=
  match opOf s c x id with
  | none => .next s
  | some o => match o.hindrance s c with
    | .refused info =>
      let own := (s.ctx c x).ofHandler o
      if !own && ((s.ctx c x).pendFault.isSome || (s.ctx c x).asked.isSome) then .next s
      else (match askPage s c x false info with
        | none => .next s
        | some t => .next (opFault (if own then t else t.setCtx c x { t.ctx c x with asked := some (info, none) }) c x o .page info))
    | _ => .next s

/-- ATOMIC_RESULT (R300): the old value of an atomic, which has performed, arrives. -/
def execAtomicResult (c : CoreId) (x : CtxId) (id : Nat) (s : State) : Answer :=
  match opOf s c x id with
  | none => .next s
  | some o => match o.kind with
    | .atomic _ old => .next (giveScalar s c x o old)
    | _ => .next s

/-- Whether an operation is an access that a fence covers and that has not performed. -/
def OpKind.access : OpKind → Bool
  | .load _ _ _ _ | .vload _ _ | .bload _ _ | .wload _ | .tile _ _ _ _ _ | .store _ _ => true
  | _ => false

/-- A recorded write-back error that a fence's acquire covers (R263): a handler's own fence ends the continuation (R372), another one's
fault waits for the next boundary. -/
def fenceFault (s : State) (c : CoreId) (x : CtxId) (f : Fence) (line : W64) : State :=
  let k := s.ctx c x
  if f.byHandler ∧ k.handler then deliver s c x .eccue (line ||| 1) f.pc f.words
  else s.setCtx c x (k.pend { cause := .eccue, info := line ||| 1, pc := f.pc, words := f.words })

/-- FENCE_COMPLETE (R256): the oldest fence of a context, once every access issued before it has performed, the stores of its own bundle with
the checkpoint that follows it: a full release, then a full acquire. -/
def execFenceComplete (c : CoreId) (x : CtxId) (s : State) : Answer :=
  let k := s.ctx c x
  match k.fences with
  | [] => .next s
  | f :: rest =>
    let n := f.scope.toNat
    if k.ops.any (fun o => o.kind.access && decide (o.id < f.before)) ∨ (!f.byHandler ∧ k.epoch ≤ f.epoch) ∨
        (n = 5 ∧ ((s.engine c x).copies.any (fun q => q.xfer.isSome) || unanswered s c x)) then .next s
    else
      let s := release (s.setCtx c x { k with fences := rest }) c n everyByte
      match reported s c everyByte with
      | some (l, t) => .next (fenceFault (acquire t c n everyByte) c x f l)
      | none => .next (acquire s c n everyByte)

/-! Tile grants (R266, R269, R270, R274). -/

/-- A granted tile reaches whoever asked for it; a context then commits a checkpoint, in handler mode not before the interrupted run goes
on (R274, R374). -/
def handTile (s : State) (c : CoreId) (h : W64) : Asker → State
  | .ctx x =>
    match (s.ctx c x).ops.find? (fun o => match o.kind with
      | .talloc _ _ _ => true
      | _ => false) with
    | some o =>
      let s := giveScalar s c x o h
      if (s.ctx c x).handler then
        (if o.epoch ≤ (s.ctx c x).epoch then s.setCtx c x { s.ctx c x with commitDue := true } else s)
      else checkpoint s c x
    | none => s
  | .copy d x id => match (s.engine d x).copy id with
    | some k => putCopy s d x { k with tile := some h, waiting := false }
    | none => s
  | .slip i n =>
    let y := s.itin i
    s.setItin i { y with flight := y.flight.map (fun p => if p.num = n then { p with tile := some h, waiting := false } else p) }
  | .gather g n =>
    let y := s.gatherer g
    flushBatches (s.setGatherer g { y with batches := y.batches.map (fun b => if b.num = n then { b with tile := some h } else b) }) g
  | .xfer n => match s.receives.find? (fun r => r.id == n) with
    | some r => receiveTile s r h
    | none => s

/-- TILE_GRANT: the first request of a pool that the grant rule allows takes the lowest FREE tile. -/
def execTileGrant (c : CoreId) (q : Fin 16) (s : State) : Answer :=
  let p := s.pool c q
  match firstGrant p with
  | none => .next s
  | some (r, i) =>
    let p := p.grant r i
    .next (handTile (s.setPool c q p) c (handleOf c q i (p.tile i).gen) r.who)

/-! The planner (R337, R338, R353). -/

/-- The next n blocks of the pieces (sequence, first block, count) that remain: a core's segments, and what is left. -/
def dealCore : Nat → List (Nat × Nat × Nat) → List (Nat × Nat × Nat) × List (Nat × Nat × Nat)
  | _, [] => ([], [])
  | n, (q, f, k) :: t =>
    if n = 0 then ([], (q, f, k) :: t)
    else if k = 0 then dealCore n t
    else if k ≤ n then let (a, b) := dealCore (n - k) t
      ((q, f, k) :: a, b)
    else ([(q, f, n)], (q, f + n, k - n) :: t)

/-- The segments of the cores, whose spans are given. -/
def dealAll : List Nat → List (Nat × Nat × Nat) → List (List (Nat × Nat × Nat))
  | [], _ => []
  | n :: t, ps => let (a, b) := dealCore n ps
    a :: dealAll t b

/-- Segments of each core for block counts dealt to n cores. -/
def planOf (counts : List Nat) (n : Nat) : List (List (Nat × Nat × Nat)) :=
  let b := counts.sum
  dealAll ((List.range n).map (fun j => b / n + (if j < b % n then 1 else 0))) (counts.zipIdx.map (fun k => (k.2, 0, k.1)))

/-- The core table and the merge table. -/
def planTables (segs : List (List (Nat × Nat × Nat))) (nseq : Nat) : List Byte :=
  let slots := segs.map List.length
  let core := segs.zipIdx.flatMap (fun e =>
    let base := (slots.take e.2).sum
    (List.range 4).flatMap (fun m => match e.1[m]? with
      | some (q, f, k) => leBytes 2 q ++ leBytes 2 (base + m) ++ leBytes 4 f ++ leBytes 4 k ++ leBytes 4 0
      | none => List.replicate 16 0))
  let flat := segs.flatten.map (fun g => g.1)
  let merge := (List.range nseq).flatMap (fun q =>
    let k := (flat.filter (· == q)).length
    leBytes 2 (if k = 0 then 0 else flat.findIdx (· == q)) ++ leBytes 2 k ++ leBytes 4 0)
  core ++ merge

/-- Why a plan writes nothing: its status, or translations that it waits for. -/
inductive PlanStop where
  | status (n : Nat)
  | wait (s : State)

/-- Words of n bytes that the device may read or write one by one (R223, R353): one that has no place, or that the host refuses, gives
status 3. -/
def wordPlaces (s : State) (c : CoreId) (acc : Access) (va : W64) (step count : Nat) : Except PlanStop (List Place) :=
  (List.range count).mapM (fun i =>
    match place s c acc (va + BitVec.ofNat 64 (step * i)) step with
    | .error _ => .error (.status 3)
    | .ok p => match engineBar s c p 0 step (acc == .store) with
      | some (.ask t) => .error (.wait t)
      | some (.page _) => .error (.status 3)
      | none => .ok p)

/-- What a plan writes at its output. -/
def planRun (s : State) (c : CoreId) (desc : W64) : Except PlanStop (W64 × List Byte) :=
  match wordPlaces s c .load desc 8 4 with
  | .error e => .error e
  | .ok ps =>
    let d := ps.map (fun p => leWord 64 (s.mem.readRun p.key 8))
    let w := fun (i : Nat) => (d[i]?).getD 0
    let nseq := wbits (w 1) 0 16
    let cores := wbits (w 1) 16 7
    if nseq < 1 ∨ 4096 < nseq ∨ cores < 1 ∨ 64 < cores ∨ wbits (w 1) 23 41 ≠ 0 ∨ (w 2).toNat % 64 ≠ 0 ∨ w 3 ≠ 0 then .error (.status 3)
    else match wordPlaces s c .load (w 0) 4 nseq with
      | .error e => .error e
      | .ok qs =>
        let counts := qs.map (fun p => leNat (s.mem.readRun p.key 4))
        if 2 ^ 32 ≤ counts.sum then .error (.status 2)
        else
          let segs := planOf counts cores
          if segs.any (fun g => decide (4 < g.length)) then .error (.status 1)
          else match wordPlaces s c .store (w 2) 8 (8 * cores + nseq) with
            | .error e => .error e
            | .ok _ => .ok (w 2, planTables segs nseq)

/-- Bytes written 8 at a time at owner points, and the caller's clean near-cache bytes there invalidated. -/
def writeOwner (s : State) (c : CoreId) (va : W64) (bs : List Byte) : State :=
  let s := (List.range (bs.length / 8)).foldl (fun s i =>
    match ownerWrite s c .store (va + BitVec.ofNat 64 (8 * i)) ((bs.drop (8 * i)).take 8) with
    | .ok t => t
    | .error _ => s) s
  nearInvalidate s c (fun a => decide ((a - va).toNat < bs.length))

/-- PLAN_RESULT (R337, R338, R353). -/
def execPlanResult (c : CoreId) (x : CtxId) (id : Nat) (s : State) : Answer :=
  match opOf s c x id with
  | none => .next s
  | some o => match o.kind with
    | .plan desc => (match planRun s c desc with
      | .error (.status n) => .next (giveScalar s c x o (BitVec.ofNat 64 n))
      | .error (.wait t) => .next t
      | .ok (va, bs) => .next (giveScalar (writeOwner s c va bs) c x o 0))
    | _ => .next s

/-! kvapp (R360, R361). -/

/-- Sequence i of an append onwards, n of them left: how many were served. -/
def kvServe (c : CoreId) (desc : W64) : Nat → Nat → State → Nat × State
  | 0, i, s => (i, s)
  | n + 1, i, s =>
    let e0 := deviceWord s c (desc + BitVec.ofNat 64 (16 * i))
    let at1 := desc + BitVec.ofNat 64 (16 * i + 8)
    let e1 := deviceWord s c at1
    let tier := wbits e1 60 3
    let used := wbits e1 0 24
    match takeFrames s (s.partIdOf c) tier (wbits e1 48 12) with
    | none => (i, s)
    | some (fs, s) =>
      let bytes := fs.flatMap (fun f => leBytes 8 (f * 2 ^ 16 + tier))
      let s := writeOwner s c (e0 + BitVec.ofNat 64 (8 * used)) bytes
      let s := writeOwner s c at1 (leBytes 8 (wset e1 0 24 (used + fs.length)).toNat)
      kvServe c desc n (i + 1) s

/-- KVAPP_RESULT (R361): an append whose translations have gone since its issue waits for them again (R223). -/
def execKvappResult (c : CoreId) (x : CtxId) (id : Nat) (s : State) : Answer :=
  match opOf s c x id with
  | none => .next s
  | some o => match o.kind with
    | .kvapp desc n => (match kvBar s c desc (deviceRead s c desc (16 * n.toNat)) n.toNat with
      | some (.ask t) => .next t
      | some (.page _) => .next s
      | none =>
        let (k, s) := kvServe c desc n.toNat 0 s
        .next (giveScalar s c x o (BitVec.ofNat 64 k)))
    | _ => .next s

end Sys2Proof.Machine
end

