-- ==== Sys2Proof/Machine/Matrix.lean ====
section
/-! DEFINITION. Class M: beats of the weight-stationary array, its queues and its ownership (R86, R87, R137 to R143, R191 to R201,
R439). -/

namespace Sys2Proof.Machine

/-! Rows of the array (R192). -/

/-- Elements per beat of a format that the array accepts (R192). -/
def beatDepth (code : Nat) : Option Nat :=
  if [0x20, 0x21, 0x30, 0x40, 0xA0, 0xA1, 0xB0, 0xD0, 0xD1, 0xD2].contains code then some 128
  else if [0x10, 0x11, 0x12, 0x90, 0x91, 0x92, 0xD3].contains code then some 64
  else if [0x01, 0x02].contains code then some 16 else none

/-- Bytes of a beat's row in a format (R292). -/
def beatBytes (code : Nat) : Nat :=
  match formatOf code, beatDepth code with
  | some f, some k => if f.count = 0 then k * f.bits / 8 else k / f.count * f.record
  | _, _ => 0

/-- Sixteen elements of an operand and their scale (R86, R87). -/
abbrev Group := List Num × Num

/-- The groups of a row given as a little-endian number with its super-scales; elements from `limit` on are zero codes (R70, R71,
R86, R87, R145). -/
def rowGroups (code : Nat) (run : Nat) (sups : List W32) (limit : Nat) : List Group :=
  match formatOf code, beatDepth code with
  | some f, some k => (List.range (k / 16)).map (fun g =>
    if f.count = 0 then
      ((List.range 16).map (fun i =>
        if 16 * g + i < limit then f.elem.decode (packedAt f.bits run (16 * g + i)) else .zero), .fin false 1 1)
    else
      let r := 16 * g / f.count
      let first := 16 * g % f.count
      let b := f.block ((sups[r]?).getD 0) (run / 2 ^ (8 * f.record * r) % 2 ^ (8 * f.record))
      let live := fun (i : Nat) => decide (16 * g + i < limit) && decide (first + i < b.valid) && !b.zero
      ((List.range 16).map (fun i => if live i then (b.elems[first + i]?).getD .zero else .zero),
        if (List.range 16).any live then b.scale else .fin false 1 1))
  | _, _ => []

/-- A product's magnitude in units of 2^(e - 49): 48 bits from e down, and one unit for what was dropped (R86). -/
def windowed (e : Int) (n d : Nat) : Nat :=
  let (x, y) := scale2 n d (47 - e)
  4 * (x / y) + (if x % y = 0 then 0 else 1)

/-- The value of a group before rounding to FP32 (R86, R87). Under an infinite Q4N scale it is R86's product of the sum and the scale, NaN
only where the sum is zero, not the sum of the infinite elements that R71 would give: R87 lists no such case (DESIGN CHOICE, log 38). -/
def groupSum (a w : Group) : Num :=
  let ps := List.zipWith Num.mul a.1 w.1
  if a.2.isNan || w.2.isNan || a.1.any Num.isNan || w.1.any Num.isNan || ps.any Num.isNan
    || (ps.contains (.inf false) && ps.contains (.inf true)) then .nan false
  else if ps.contains (.inf false) then ((Num.inf false).mul a.2).mul w.2
  else if ps.contains (.inf true) then ((Num.inf true).mul a.2).mul w.2
  else
    let es := ps.filterMap (fun p => match p with
      | .fin _ n d => if n = 0 then none else some (floorLog2 n d)
      | _ => none)
    match es with
    | [] => (Num.zero.mul a.2).mul w.2
    | e0 :: t =>
      let e := t.foldl max e0
      let sum : Int := ps.foldl (fun acc p => match p with
        | .fin neg n d => acc + (if neg then -1 else 1) * (windowed e n d : Nat)
        | _ => acc) 0
      (((Num.fin (decide (sum < 0)) sum.natAbs 1).scale (e - 49)).mul a.2).mul w.2

/-- The value of a group (R86). -/
def groupValue (a w : Group) : W32 := (roundF32 (groupSum a w)).1

/-- A column's new value: the groups added in ascending order, the first one written unchanged under zero-init (R86, R197). -/
def columnValue (start : Option W32) (gs : List W32) : W32 :=
  match start, gs with
  | some v, gs => gs.foldl (fun v g => (fadd (f32 v) (f32 g)).1) v
  | none, g :: t => t.foldl (fun v g => (fadd (f32 v) (f32 g)).1) g
  | none, [] => 0

/-- The buffer that is active, and its format. -/
def ArrayState.active (a : ArrayState) : List (Nat × WeightRow) × Option Byte :=
  if a.swapped then (a.rows0, a.bfmt0) else (a.rows1, a.bfmt1)

/-- Groups of weight row j; a row not pushed holds +0 codes (R191, R195). -/
def weightGroups (rows : List (Nat × WeightRow)) (k j : Nat) : List Group :=
  match rows.find? (fun r => r.1 == j) with
  | some (_, w) => rowGroups w.fmt.toNat w.bytes.toNat [w.sup0, w.sup1] k
  | none => List.replicate (k / 16) (List.replicate 16 .zero, .fin false 1 1)

/-- The 64 results of a macc of activation groups on a buffer (R197). -/
def maccRow (acts : List Group) (rows : List (Nat × WeightRow)) (k : Nat) (start : Option Row) : Row :=
  ofLanes (fun j => columnValue (start.map (fun r => lane r j)) (List.zipWith groupValue acts (weightGroups rows k j)))

/-! Reads of a beat. -/

/-- What a beat reads through a stream: the bytes and super-scales of its row, and the stream after it. -/
structure BeatRead where
  fmt : Nat
  run : Nat
  sups : List W32
  st : File 3 W64
  keys : List (Nat × Nat)

/-- Whether n bytes from an address lie in the issuing core's own scratchpad (R294). -/
def inOwn (s : State) (va : W64) (n : Nat) : Bool :=
  classOf va == 0 && wbits va 22 2 == rankOf s.issue.core && decide (wbits va 0 22 + n ≤ 2 ^ 22)

/-- The super-scales of the Q4N records of a row (R294). -/
def superScales (s : State) (st : File 3 W64) (r : BitVec 5) (ra : W64) : Nat → Nat → Except Stop (List (W32 × Nat))
  | 0, _ => .ok []
  | n + 1, i =>
    let off := (ra + BitVec.ofNat 64 (33 * i) - BitVec.ofNat 64 (stField st 0)).toNat
    if off % 33 ≠ 0 then .error (.trap .bounds (streamInfo st r 3))
    else
      let sa := BitVec.ofNat 64 (stField st 12) + BitVec.ofNat 64 (off / 33 / 256 * stField st 13)
      if ¬ inOwn s sa 4 then .error (.trap .bounds (streamInfo st r 2))
      else match superScales s st r ra n (i + 1) with
        | .error e => .error e
        | .ok t => .ok ((leWord 32 (ownBytes s sa 4), keyScratch s.issue.core (wbits sa 0 22)) :: t)

/-- A beat's read of its row (R292, R294). -/
def beatRead (s : State) (r : BitVec 5) : Except Stop BeatRead :=
  let st := streamOf s r
  let fmt := stField st 1
  match streamRow st r with
  | .error e => .error e
  | .ok (ra, st2) =>
    let n := beatBytes fmt
    if ¬ inOwn s ra n then .error (.trap .bounds (streamInfo st r 2))
    else match (if fmt = 0x40 then superScales s st r ra 2 0 else .ok []) with
      | .error e => .error e
      | .ok sups =>
        .ok { fmt := fmt, run := leNat (ownBytes s ra n), sups := sups.map (fun p => p.1), st := st2,
              keys := (keyScratch s.issue.core (wbits ra 0 22), n) :: sups.map (fun p => (p.2, 4)) }

/-! Issue checks (R194), one after the other. -/

/-- The formats of the streams that a beat reads are accepted (R192, R194). -/
def fmtsOk (s : State) (rs : List (BitVec 5)) : Except Stop Unit :=
  if rs.all (fun r => (beatDepth (stField (streamOf s r) 1)).isSome) then .ok ()
  else .error (.trap .ill (BitVec.ofNat 64 s.issue.slot))

/-- The context owns the array (R140). -/
def owned (s : State) : Except Stop Unit := if s.src.owns then .ok () else .error (.trap .array (arrayInfo 1 0))

/-- The ring slots of the streams that a beat reads are filled. -/
def ringsOk (s : State) (rs : List (BitVec 5)) : Except Stop Unit := ringOk (rs.map (fun r => (streamOf s r, r)))

/-- The accumulator row that a beat reads holds no uncorrectable error (R378). -/
def rowRead (s : State) (r : Nat) : Except Stop Unit := if s.me.badRows.contains r then .error (stopLate s .eccue 0) else .ok ()

/-- Row index of a row register (R194). -/
def rowIndex (s : State) (r : BitVec 5) : Nat := (s.src.getS r).toNat % 256

/-- The row lies in the context's grant (R139). -/
def rowOk (s : State) (r : BitVec 5) : Except Stop Unit :=
  if rowIndex s r < 64 * s.me.acc then .ok () else .error (.trap .array (arrayInfo 2 (rowIndex s r)))

/-- An accumulator row. -/
def accRowOf (s : State) (r : Nat) : Row := (s.src.rows[r]?).getD 0

/-- Shadow row that a push writes (R195). -/
def pushRow (s : State) (zero : Bool) : BitVec 6 := if zero then 0 else s.src.arr.fill

/-- A push at row j ≥ 1 carries a format of pfmt's row of R192 (R195). -/
def pushOk (s : State) (r : BitVec 5) (zero : Bool) : Except Stop Unit :=
  let fmt := stField (streamOf s r) 1
  if pushRow s zero = 0 then .ok ()
  else match s.src.arr.pfmt with
    | none => .error (.trap .array (arrayInfo 5 r.toNat))
    | some p => if p.toNat = fmt ∨ beatDepth p.toNat = beatDepth fmt then .ok () else .error (.trap .array (arrayInfo 5 r.toNat))

/-- The active buffer has a format, in the row of the activation stream's (R197). -/
def activeOk (s : State) (r : BitVec 5) : Except Stop Unit :=
  match s.src.arr.active.2 with
  | none => .error (.trap .array (arrayInfo 4 r.toNat))
  | some b => if beatDepth b.toNat = beatDepth (stField (streamOf s r) 1) then .ok ()
    else .error (.trap .array (arrayInfo 4 r.toNat))

/-- A copy of the bundle in flight takes its source from a queue (R315). -/
def copyPops (s : State) (q : BitVec 2) : Bool :=
  let takes := fun (f : CP) => on s f.g && shField (rget s.src.sh f.sh) 28 == 1 && shField (rget s.src.sh f.sh) 29 == q.toNat
  s.issue.slots.any (fun i => match i with
    | .cpy f | .cpyadd f | .cpymc f | .cpyt f => takes f
    | _ => false)

/-- Room for one more entry in a result queue, the pops of the bundle made, of its later slots too (R142, R201). -/
def drainOk (s : State) (q : BitVec 2) : Except Stop Unit :=
  let popped := if s.issue.pops.getLsbD q.toNat ∨ copyPops s q then 1 else 0
  if (rget s.src.rq q).length - popped < 16 then .ok () else .error (.trap .qovf (BitVec.ofNat 64 q.toNat))

/-! Effects. -/

/-- The push of a row read by a beat: fill and pfmt at issue, the shadow row after 2 bundles (R195). -/
def pushEffect (s : State) (zero : Bool) (b : BeatRead) : State :=
  let j := pushRow s zero
  let fmt : Byte := BitVec.ofNat 8 b.fmt
  let r := s.me.r
  let s := s.setRegs { r with arr := { r.arr with fill := j + 1, pfmt := if j = 0 then some fmt else r.arr.pfmt } }
  let w : WeightRow := { fmt := fmt, bytes := BitVec.ofNat 1024 b.run, sup0 := (b.sups[0]?).getD 0, sup1 := (b.sups[1]?).getD 0 }
  result s (.shadow j (if j = 0 then some fmt else none)) allBits w.pack 0 2

/-- The macc of a row read by a beat: the accumulator row after 72 bundles (R197). -/
def maccEffect (s : State) (row : Nat) (zero : Bool) (b : BeatRead) : State :=
  let k := (beatDepth b.fmt).getD 0
  let x := maccRow (rowGroups b.fmt b.run b.sups k) s.src.arr.active.1 k (if zero then none else some (accRowOf s row))
  result s (.accRow row) allBits x 0 72

/-- A drain: an entry reserved at the queue's tail, its row after 8 bundles (R142, R198). -/
def drainEffect (s : State) (q : BitVec 2) (row : Nat) : State :=
  let r := s.me.r
  result (s.setRegs { r with rq := rset r.rq q (rget r.rq q ++ [none]) }) (.queue q) allBits (accRowOf s row) 0 8

/-- Number of a queue in a 5-bit field. -/
def queueOf (r : BitVec 5) : BitVec 2 := BitVec.ofNat 2 r.toNat

/-! Instructions. -/

/-- A weight row to the shadow buffer (R195). -/
def execMpush (f : MF) (s : State) : Answer :=
  slot s f.g [] (need (ringsOk s [f.a]) (need (fmtsOk s [f.a]) (need (owned s) (need (pushOk s f.a f.z)
    (match beatRead s f.a with
     | .error e => .error e
     | .ok b => match eccReads s b.keys with
       | .error e => .error e
       | .ok t => .ok (pushEffect (setStream t f.a b.st) f.z b))))))

/-- The buffers exchange their roles after 2 bundles; fill is zero at once (R196). -/
def execMswap (f : MF) (s : State) : Answer :=
  slot s f.g [] (need (owned s)
    (let r := s.me.r
     .ok (result (s.setRegs { r with arr := { r.arr with fill := 0 } }) .exchange allBits 0 0 2)))

/-- An activation row on the active buffer (R197). -/
def execMacc (f : MF) (s : State) : Answer :=
  slot s f.g [] (need (ringsOk s [f.a]) (need (sources s [(.s f.b, f.tb)]) (need (fmtsOk s [f.a]) (need (owned s)
    (need (rowOk s f.b) (need (activeOk s f.a) (match beatRead s f.a with
      | .error e => .error e
      | .ok b => match eccReads s b.keys with
        | .error e => .error e
        | .ok t => need (if f.z then .ok () else rowRead s (rowIndex s f.b))
          (.ok (maccEffect (setStream t f.a b.st) (rowIndex s f.b) f.z b)))))))))

/-- A macc and a push in one beat (R197): Z belongs to the macc. -/
def execMaccp (f : MF) (s : State) : Answer :=
  slot s f.g [] (need (ringsOk s [f.a, f.d]) (need (sources s [(.s f.b, f.tb)]) (need (fmtsOk s [f.d, f.a]) (need (owned s)
    (need (rowOk s f.b) (need (activeOk s f.a) (need (pushOk s f.d false) (match beatRead s f.a, beatRead s f.d with
      | .error e, _ => .error e
      | _, .error e => .error e
      | .ok b, .ok p => match eccReads s (b.keys ++ p.keys) with
        | .error e => .error e
        | .ok t =>
          let t := setStream (setStream t f.a b.st) f.d p.st
          need (if f.z then .ok () else rowRead s (rowIndex s f.b))
            (.ok (pushEffect (maccEffect t (rowIndex s f.b) f.z b) false p))))))))))

/-- An accumulator row to a queue (R198). -/
def execMdrain (f : MF) (s : State) : Answer :=
  slot s f.g [] (need (sources s [(.s f.a, f.ta)]) (need (owned s) (need (rowOk s f.a) (need (drainOk s (queueOf f.d))
    (need (rowRead s (rowIndex s f.a)) (.ok (drainEffect s (queueOf f.d) (rowIndex s f.a))))))))

/-- A drain and a push in one beat (R198): Z belongs to the push. -/
def execMdrainp (f : MF) (s : State) : Answer :=
  slot s f.g [] (need (ringsOk s [f.b]) (need (sources s [(.s f.a, f.ta)]) (need (fmtsOk s [f.b]) (need (owned s)
    (need (rowOk s f.a) (need (pushOk s f.b f.z) (match beatRead s f.b with
      | .error e => .error e
      | .ok p => need (drainOk s (queueOf f.d)) (match eccReads s p.keys with
        | .error e => .error e
        | .ok t => need (rowRead s (rowIndex s f.a))
          (.ok (pushEffect (drainEffect (setStream t f.b p.st) (queueOf f.d) (rowIndex s f.a)) f.z p))))))))))

/-- Accumulator rows cleared after 2 bundles (R199). -/
def execMclr (f : MF) (s : State) : Answer :=
  slot s f.g [] (need (sources s [(.s f.a, f.ta), (.s f.b, f.tb)])
    (let first := rowIndex s f.a
     let n := (s.src.getS f.b).toNat % 512
     if n = 0 then .ok s
     else if 64 * s.me.acc < first + n then .error (.trap .array (arrayInfo 3 first))
     else .ok (result s (.rowClear first n) allBits 0 0 2)))

/-- A cause that stops an operator between steps waits. -/
def operHeld (k : Ctx) : Bool := k.pendPreempt.isSome || (k.action == some 1) || (k.action == some 2)

/-- Whether a context waits for the array of its core: one held on mown 0, or an operator before a step (R147, R200). -/
def wantsArray (s : State) (c : CoreId) (x : CtxId) : Bool :=
  let k := s.ctx c x
  k.arrayWait.isSome || (match k.phase with
    | .waitArray _ => !operHeld k
    | _ => false)

/-- Whether a context was waiting for the array in the cycle in which it became free (R200); `me` issues an acquire now. -/
def arrayCandidate (s : State) (c : CoreId) (me x : CtxId) : Bool :=
  let k := s.ctx c x
  let freed := (s.core c).arrayFreed
  (x == me && s.cycle == freed) || (k.arrayWait.any (fun t => decide (t ≤ freed))) || (match k.phase with
    | .waitArray _ => !operHeld k && decide (k.stepSince ≤ freed)
    | _ => false)

/-- The context that receives a free array: the first that waited as it became free, in ascending order from the one that released it;
with none, the one that asks (R200). -/
def arrayHeir (s : State) (c : CoreId) (me : CtxId) : CtxId :=
  let l := (s.core c).arrayLast
  ([l + 1, l + 2, l + 3, l].find? (arrayCandidate s c me)).getD me

/-- The bundle is held on the array, from this cycle on if it was not before (R200). -/
def arrayHold (s : State) : Stop := .asking (s.setMe { s.me with arrayWait := s.me.arrayWait.or (some s.cycle) })

/-- Acquires the array, or holds the bundle; an acquire by the owner has no effect (R200). -/
def execMownAcquire (f : MF) (s : State) : Answer :=
  slot s f.g [] (match arrayOwner (s.core s.issue.core) with
    | some x =>
      if x ≠ s.issue.ctx then .error (arrayHold s)
      else .ok (if s.me.r.owns then s else s.setRegs s.me.r.takeArray)
    | none => if arrayHeir s s.issue.core s.issue.ctx = s.issue.ctx then .ok (s.setRegs s.me.r.takeArray) else .error (arrayHold s))

/-- Releases the array (R141, R200); it passes on with the next checkpoint (R367). -/
def execMownRelease (f : MF) (s : State) : Answer :=
  slot s f.g [] (.ok (if s.me.r.owns then s.setMe { s.me with r := s.me.r.releaseArray, arrayKept := true } else s))

end Sys2Proof.Machine
end

