-- ==== Sys2Proof/Machine/Contexts.lean ====
section
/-! DEFINITION. The life of a continuation on its context: start and resume (R117, R122, R130), operators and their tile steps (R144
to R148, R341), suspension points (R16), barriers (R136, R427), faults found after issue, interrupts and watchdogs (R369 to R377,
R382), and allocation watchdogs (R280, R387). -/

namespace Sys2Proof.Machine

/-! OPERATOR records (R144 to R148). -/

/-- Why an operator cannot go on: it waits for translations, or its read or check met a cause, in a state that has been mended. -/
inductive OperStop where
  | ask (s : State)
  | fault (s : State) (cause : Cause) (info : W64)

/-- Where n bytes of an operator lie, once the host has translated and permitted them (R221, R223, R224). -/
def operPlace (s : State) (c : CoreId) (acc : Access) (va : W64) (n : Nat) : Except OperStop Place :=
  match place s c acc va n with
  | .error r => .error (.fault s .txlate (txInfo va r))
  | .ok p => match engineBar s c p 0 n (acc == .store) with
    | some (.ask t) => .error (.ask t)
    | some (.page a) => .error (.fault s .page (a &&& ~~~7))
    | none => .ok p

/-- Bytes that an operator reads; an uncorrectable row is rebuilt when it can be, and the read is tried again (R230, R369). -/
def operRead (s : State) (c : CoreId) (va : W64) (n : Nat) : Except OperStop (List Byte) :=
  if n = 0 then .ok []
  else match operPlace s c .load va n with
    | .error e => .error e
    | .ok p =>
      if !(p.cached && nearHas (s.core c) va n) && uncorrectable s p.key n then .error (.fault (mendRead s p.key n) .eccue (va &&& ~~~7))
      else .ok (readRun s c [] va p n)

/-- The parameter block of an operator, or why it cannot be had. -/
def paramBlock (s : State) (c : CoreId) (pc : CodeAddr) : Except OperStop (File 3 W64) :=
  if pc.toNat % 64 ≠ 0 then .error (.fault s .badrec 0)
  else match operRead s c (BitVec.ofNat 64 pc.toNat) 64 with
    | .error e => .error e
    | .ok bs => .ok (words8 bs)

/-- Operation of a parameter block. -/
def gemmOp (p : File 3 W64) : Nat := wbits p[0] 0 8
/-- Activation format. -/
def gemmA (p : File 3 W64) : Nat := wbits p[0] 8 8
/-- Weight format. -/
def gemmW (p : File 3 W64) : Nat := wbits p[0] 16 8
/-- The output is BF16. -/
def gemmBf (p : File 3 W64) : Bool := wbits p[0] 24 8 == 1
/-- Tile rows. -/
def gemmTm (p : File 3 W64) : Nat := wbits p[0] 32 8
/-- Rows of the output. -/
def gemmM (p : File 3 W64) : Nat := wbits p[1] 0 32
/-- Columns of the output. -/
def gemmN (p : File 3 W64) : Nat := wbits p[1] 32 32
/-- Depth. -/
def gemmK (p : File 3 W64) : Nat := wbits p[2] 0 32
/-- Bytes of an output element. -/
def gemmOut (p : File 3 W64) : Nat := if gemmBf p then 2 else 4

/-- A template operator. -/
def isTemplate (p : File 3 W64) : Bool := decide (0x80 ≤ gemmOp p)

/-- A blocked format's depth and stride are whole records (R144). -/
def wholeRecords (code k stride : Nat) : Bool :=
  match formatOf code with
  | some f => f.count == 0 || (k % f.count == 0 && stride % f.record == 0)
  | none => false

/-- A GEMM's parameter block that keeps R144. -/
def gemmValid (p : File 3 W64) (acc : Nat) : Bool :=
  (gemmOp p == 1 || gemmOp p == 2) && wbits p[0] 40 24 == 0 && decide (wbits p[0] 24 8 ≤ 1) && [16, 32, 64].contains (gemmTm p)
    && decide (gemmTm p ≤ 64 * acc) && gemmA p != 0x40 && gemmW p != 0x40 && (beatDepth (gemmA p)).isSome
    && beatDepth (gemmA p) == beatDepth (gemmW p) && wholeRecords (gemmA p) (gemmK p) (wbits p[7] 0 32)
    && wholeRecords (gemmW p) (gemmK p) (wbits p[7] 32 32) && wbits p[2] 32 32 % gemmOut p == 0

/-- Column tiles. -/
def gemmNt (p : File 3 W64) : Nat := (gemmN p + 63) / 64
/-- Tile steps of a GEMM; none when a size is zero (R148). -/
def gemmSteps (p : File 3 W64) : Nat :=
  if gemmM p = 0 ∨ gemmN p = 0 then 0 else (gemmM p + gemmTm p - 1) / gemmTm p * gemmNt p

/-- Offset and bytes of beat b of an operand's row of k elements, and how many elements it has. -/
def beatSpan (f : Format) (kb k b : Nat) : Nat × Nat × Nat :=
  let left := min kb (k - b * kb)
  if f.count = 0 then (b * kb * f.bits / 8, (left * f.bits + 7) / 8, left)
  else (b * (kb / f.count) * f.record, left / f.count * f.record, left)

/-- The groups of beat b of an operand's row at va (R145): positions past K are zero codes. -/
def operBeat (s : State) (c : CoreId) (code k : Nat) (va : W64) (b : Nat) : Except OperStop (List Group) :=
  match formatOf code, beatDepth code with
  | some f, some kb =>
    let (off, n, left) := beatSpan f kb k b
    match operRead s c (va + BitVec.ofNat 64 off) n with
    | .error e => .error e
    | .ok bs => .ok (rowGroups code (leNat bs) [] left)
  | _, _ => .ok []

/-- The beats of an operand's row. -/
def operRow (s : State) (c : CoreId) (code k : Nat) (va : W64) : Except OperStop (List (List Group)) :=
  match beatDepth code with
  | some kb => (List.range ((k + kb - 1) / kb)).mapM (operBeat s c code k va)
  | none => .ok []

/-- One output of a tile step (R145). With K zero a bias is rounded by itself, which keeps the sign of a zero (R148). -/
def gemmValue (p : File 3 W64) (a w : List (List Group)) (bias : W32) : W32 :=
  let acc := (a.zip w).foldl (fun v b => columnValue (some v) (List.zipWith groupValue b.1 b.2)) 0
  if gemmOp p ≠ 2 then acc
  else if gemmK p = 0 then BitVec.ofNat 32 (fp32.round (f32 bias) .rne false 0).1
  else (fadd (f32 acc) (f32 bias)).1

/-- Little-endian bytes of an output. -/
def gemmBytes (p : File 3 W64) (v : W32) : List Byte :=
  if gemmBf p then leBytes 2 (bf16.round (f32 v) .rne false 0).1 else leBytes 4 v.toNat

/-- Rows of the output that tile step n covers. -/
def gemmRows (p : File 3 W64) (n : Nat) : List Nat :=
  let i0 := n / gemmNt p * gemmTm p
  (List.range (min (gemmTm p) (gemmM p - i0))).map (· + i0)
/-- Columns of the output that tile step n covers. -/
def gemmCols (p : File 3 W64) (n : Nat) : List Nat :=
  let j0 := n % gemmNt p * 64
  (List.range (min 64 (gemmN p - j0))).map (· + j0)
/-- Address of row i of the activations. -/
def gemmAAt (p : File 3 W64) (i : Nat) : W64 := p[3] + BitVec.ofNat 64 (i * wbits p[7] 0 32)
/-- Address of row j of the weights. -/
def gemmWAt (p : File 3 W64) (j : Nat) : W64 := p[4] + BitVec.ofNat 64 (j * wbits p[7] 32 32)
/-- Address of the bias of column j. -/
def gemmBiasAt (p : File 3 W64) (j : Nat) : W64 := p[6] + BitVec.ofNat 64 (4 * j)

/-- The outputs of tile step n: address and bytes of each. -/
def gemmStep (s : State) (c : CoreId) (p : File 3 W64) (n : Nat) : Except OperStop (List (W64 × List Byte)) :=
  let is := gemmRows p n
  let js := gemmCols p n
  let biasOf := fun (j : Nat) => if gemmOp p = 2 then operRead s c (gemmBiasAt p j) 4 else .ok []
  match js.mapM (fun j => operRow s c (gemmW p) (gemmK p) (gemmWAt p j)), js.mapM biasOf,
      is.mapM (fun i => operRow s c (gemmA p) (gemmK p) (gemmAAt p i)) with
  | .ok ws, .ok bs, .ok as =>
    .ok ((is.zip as).flatMap (fun a => (js.zip (ws.zip bs)).map (fun w =>
      (p[5] + BitVec.ofNat 64 (a.1 * wbits p[2] 32 32 + w.1 * gemmOut p),
        gemmBytes p (gemmValue p a.2 w.2.1 (leWord 32 w.2.2))))))
  | .error e, _, _ => .error e
  | _, .error e, _ => .error e
  | _, _, .error e => .error e

/-- Single errors in an operand's row that a step has read are corrected (R230). -/
def rowCorrect (c : CoreId) (code k : Nat) (s : State) (va : W64) : State :=
  match formatOf code, place s c .load va 1 with
  | some f, .ok p => eccCorrect s c p.key (beatSpan f k k 0).2.1
  | _, _ => s

/-- The single errors that a tile step has met are corrected. -/
def stepCorrect (s : State) (c : CoreId) (p : File 3 W64) (n : Nat) : State :=
  let s := (gemmCols p n).foldl (fun s j => rowCorrect c (gemmW p) (gemmK p) s (gemmWAt p j)) s
  (gemmRows p n).foldl (fun s i => rowCorrect c (gemmA p) (gemmK p) s (gemmAAt p i)) s

/-- Blocks that n bytes of an operator take at the T1 and T2 controllers (R386). -/
def operBlocks (s : State) (c : CoreId) (va : W64) (n : Nat) : List Nat :=
  match place s c .peek va 1 with
  | .ok p => if n = 0 then [] else p.blocks n
  | .error _ => []

/-- Bytes of a row of k elements of a format. -/
def rowLength (code k : Nat) : Nat := match formatOf code with
  | some f => (beatSpan f k k 0).2.1
  | none => 0

/-- Blocks that the beats of tile step n ask for. -/
def stepBlocks (s : State) (c : CoreId) (p : File 3 W64) (n : Nat) : List Nat :=
  (gemmCols p n).flatMap (fun j => operBlocks s c (gemmWAt p j) (rowLength (gemmW p) (gemmK p))
      ++ (if gemmOp p = 2 then operBlocks s c (gemmBiasAt p j) 4 else []))
    ++ (gemmRows p n).flatMap (fun i => operBlocks s c (gemmAAt p i) (rowLength (gemmA p) (gemmK p)))

/-- A store of the core that performs at once. -/
def performStore (s : State) (c : CoreId) (va : W64) (bs : List Byte) : State :=
  (gateStore [] va bs).foldl (fun s l => performLine s c l) s

/-- Outputs written, all of them or none. -/
def writeOutputs (s : State) (c : CoreId) (os : List (W64 × List Byte)) : Except OperStop State :=
  match os.findSome? (fun o => match operPlace s c .store o.1 o.2.length with
      | .error e => some e
      | .ok _ => none) with
  | some e => .error e
  | none => .ok (os.foldl (fun s o => performStore s c o.1 o.2) s)

/-- What stops an operator takes effect (R144, R224, R369, R373): a bad block ends its record as one without a handler, with trap
registers and frame written; other causes are delivered as those found after issue are; a page is asked for first, or its request waits
for room. -/
def operStop (c : CoreId) (x : CtxId) : OperStop → State
  | .ask t => t
  | .fault t cause info =>
    let k := t.ctx c x
    let f : Late := { cause := cause, info := info, pc := k.r.pc, words := 0 }
    match cause with
    | .badrec =>
      let e : Trap := { cause := cause.code, pc := k.r.pc, info := info, words := 0, replay := false, inhandler := false }
      endWith (writeTrap t c x k.r e) c x cause.code info false false
    | .page => match askPage t c x false info with
      | none => t
      | some u => faultAfter (u.setCtx c x { u.ctx c x with asked := some (info, none) }) c x f
    | _ => faultAfter t c x f

/-- The sequencer descriptor of a template operator, and its load block (R341). -/
def templateBlocks (s : State) (c : CoreId) (p : File 3 W64) : Except OperStop (List W64 × List W64) :=
  if p[1].toNat % 16 ≠ 0 ∨ p[2].toNat % 16 ≠ 0 then .error (.fault s .badrec 0)
  else match operRead s c p[1] 304, operRead s c p[2] 16 with
    | .error e, _ => .error e
    | _, .error e => .error e
    | .ok ds, .ok bs =>
      let d := (List.range 38).map (wordAt ds)
      let b := (List.range 2).map (wordAt bs)
      if badDescriptor d ∨ 256 < wbits (descWord b 0) 0 8 + wbits (descWord b 0) 8 8 + 1 then .error (.fault s .badrec 0) else .ok (d, b)

/-- Trip count of level l of a template operator. -/
def operTrip (s : State) (c : CoreId) (d : List W64) (l : Nat) : Except OperStop Nat :=
  match tripAddr d l with
  | none => .ok (wbits (descWord d (2 + 2 * l)) 0 32)
  | some va => match operRead s c va 4 with
    | .error e => .error e
    | .ok bs => .ok (leNat bs)

/-- The trip counts that entering the levels below l reads can be read. -/
def operTrips (s : State) (c : CoreId) (d : List W64) : Nat → Except OperStop Unit
  | 0 => .ok ()
  | l + 1 => match operTrip s c d l with
    | .error e => .error e
    | .ok n => if n = 0 then .ok () else operTrips s c d l

/-- Tile steps of an operator whose block is good (R146, R148, R341). Those of a template are its outermost trip count, which is read once:
the loaded descriptor keeps it. -/
def operSteps (s : State) (c : CoreId) (x : CtxId) (p : File 3 W64) : Except OperStop Nat :=
  if isTemplate p then (match (s.ctx c x).seqDesc with
    | some d => operTrip s c d (seqLevels d - 1)
    | none => match templateBlocks s c p with
      | .error e => .error e
      | .ok (d, _) => operTrip s c d (seqLevels d - 1))
  else if gemmValid p (s.ctx c x).acc then .ok (gemmSteps p) else .error (.fault s .badrec 0)

/-- The block and the steps of an operator (R144). -/
def operBlock (s : State) (c : CoreId) (x : CtxId) : Except OperStop (File 3 W64 × Nat) :=
  match paramBlock s c (s.ctx c x).r.pc with
  | .error e => .error e
  | .ok p => match operSteps s c x p with
    | .error e => .error e
    | .ok total => .ok (p, total)

/-- The check of an OPERATOR at its start (R144): a bad block ends it, and one with no step left completes (R146); a write-back error that the
start's acquire reports is raised first (R263). -/
def checkOperator (s : State) (c : CoreId) (x : CtxId) : State :=
  match (s.ctx c x).phase with
  | .waitArray n => if (s.ctx c x).pendFault.isSome then s else (match operBlock s c x with
    | .error e => operStop c x e
    | .ok (_, total) => if total ≤ n then leave s c x .stop (s.ctx c x).r.pc else s)
  | _ => s

/-- A descriptor whose outermost trip count stands in it (R340, R341). -/
def fixTrip (d : List W64) (n : Nat) : List W64 := d.set (2 + 2 * (seqLevels d - 1)) (BitVec.ofNat 64 (n % 2 ^ 32))

/-- A template operator's registers, templates and descriptor loaded (R341); none while another context replays its positions. -/
def loadTemplate (s : State) (c : CoreId) (x : CtxId) (p : File 3 W64) : Except OperStop (Option State) :=
  match templateBlocks s c p with
  | .error e => .error e
  | .ok (d, b) =>
    let first := wbits (descWord b 0) 0 8
    let n := wbits (descWord b 0) 8 8 + 1
    let nst := wbits p[0] 8 4
    if (s.core c).ctx.toList.zipIdx.any (fun k => k.2 != x.val && replaying k.1 first n)
        || (s.core c).saved.any (fun v => replaying v.ctx first n) then .ok none
    else match readTemplates s c (operRead s c) n (descWord b 1), (List.range nst).mapM (fun i => operRead s c (p[3] + BitVec.ofNat 64 (64 * i)) 64),
        operTrip s c d (seqLevels d - 1) with
      | .error e, _, _ => .error e
      | _, .error e, _ => .error e
      | _, _, .error e => .error e
      | .ok ts, .ok images, .ok trip =>
        let s := s.setCore c { s.core c with templates := ts.zipIdx.foldl (fun l t => aset l (first + t.2) t.1) (s.core c).templates }
        let k := s.ctx c x
        let st := images.zipIdx.foldl (fun st i => rset st (BitVec.ofNat 4 i.2) (words8 i.1)) k.r.st
        let r := ((({ k.r with st := st }.setS 1 p[4]).setS 2 p[5]).setS 3 p[6]).setS 4 p[7]
        .ok (some (s.setCtx c x { k with r := r, seqDesc := some (fixTrip d trip) }))

/-- Tile step n begins: the context owns the array, and a checkpoint is taken (R145, R147). -/
def enterStep (s : State) (c : CoreId) (x : CtxId) (n : Nat) : State :=
  let k := s.ctx c x
  checkpoint (s.setCtx c x { k with r := if k.r.owns then k.r else k.r.takeArray, phase := .tileStep n, stepSince := s.cycle, arrayWait := none }) c x

/-- Iteration n of the outermost level is entered (R341): its bundles are the beats of the step. -/
def startIteration (s : State) (c : CoreId) (x : CtxId) (n : Nat) : State :=
  let d := (s.ctx c x).seqDesc.getD []
  let top := seqLevels d - 1
  match operTrips s c d top, operTrip s c d top with
  | .error e, _ | _, .error e => operStop c x e
  | .ok (), .ok trip =>
    let s := enterStep s c x n
    let k := s.ctx c x
    let p := seqOrigin d k.r k.r.pc
    let p := { p with trips := p.trips.set top (BitVec.ofNat 32 trip), counters := p.counters.set top (BitVec.ofNat 32 n) }
    if k.phase ≠ .tileStep n then s
    else match seqEnter s c x d top p with
    | .error (cause, info) => operStop c x (.fault s cause info)
    | .ok none => s
    | .ok (some q) => s.setCtx c x { k with r := { k.r with replay := some q, st := seqBases d q k.r.st } }

/-- A context's turn to have the array before a tile step (R147, R200). -/
def arrayTurn (s : State) (c : CoreId) (x : CtxId) : Bool :=
  match arrayOwner (s.core c) with
  | some y => y == x
  | none => arrayHeir s c x == x

/-- TILE_STEP (R145 to R147): the array is acquired when it is free and this context's turn, and the step begins; within a step of a template
operator, its next bundle, which the step then runs, takes no issue slot. -/
def execTileStep (c : CoreId) (x : CtxId) (s : State) : Answer :=
  let k := s.ctx c x
  match k.phase with
  | .waitArray n =>
    if operHeld k || k.pendFault.isSome || s.frozen || (s.core c).out then .next s
    else match operBlock s c x with
      | .error e => .next (operStop c x e)
      | .ok (p, total) =>
        if total ≤ n then .next (leave s c x .stop k.r.pc)
        else if !arrayTurn s c x then .next s
        else if !isTemplate p then .next (enterStep s c x n)
        else match (if k.seqDesc.isSome then .ok (some s) else loadTemplate s c x p) with
          | .error e => .next (operStop c x e)
          | .ok none => .next s
          | .ok (some t) => .next (startIteration t c x n)
  | .tileStep _ =>
    if !operReady k || s.frozen || (s.core c).out then .next s
    else match prepareNext s.calm c x true with
      | .blocked => .next s
      | .done u => .next u
      | .ready u => .next u
  | _ => .next s

/-- A step has performed: the progress word advances; the record completes, is drained, gives the array to a context that waits for
it, or goes on (R146, R147, R381). -/
def stepDone (s : State) (c : CoreId) (x : CtxId) (n total : Nat) : State :=
  let k := s.ctx c x
  let s := recordPut s c k.job.name 3 (BitVec.ofNat 64 (n + 1))
  let job := { k.job with words := k.job.words.set 3 (BitVec.ofNat 64 (n + 1)) (by decide) }
  let s := s.setCtx c x { s.ctx c x with job := job, phase := .waitArray (n + 1), stepSince := s.cycle, moved := true }
  if total ≤ n + 1 then leave s c x .stop k.r.pc
  else if k.action = some 0 then leave s c x .yield k.r.pc
  else if ([0, 1, 2, 3] : List CtxId).any (fun y => y != x && wantsArray s c y) then
    let k := s.ctx c x
    checkpoint (s.setCtx c x { k with r := k.r.releaseArray }) c x
  else s

/-- TILE_STEP_DONE (R145, R146): a GEMM's step performs whole, delayed by an exhausted budget (R386); a template's iteration is over and nothing
of it is outstanding. -/
def execTileStepDone (c : CoreId) (x : CtxId) (s : State) : Answer :=
  let k := s.ctx c x
  match k.phase with
  | .tileStep n =>
    if k.r.replay.isSome || ckptBlocked k || k.pendFault.isSome then .next s
    else (match operBlock s c x with
      | .error e => .next (operStop c x e)
      | .ok (p, total) =>
        if isTemplate p then .next (if k.badStore then endBad s c x k.r.pc 0 else stepDone (commit s c x) c x n total)
        else match gemmStep s c p n with
          | .error e => .next (operStop c x e)
          | .ok os =>
            let blocks := stepBlocks s c p n
            if !memReady s (s.partIdOf c) (blocks ++ os.flatMap (fun o => operBlocks s c o.1 o.2.length)) then .next s
            else match writeOutputs (spendMem (stepCorrect s c p n) (s.partIdOf c) blocks) c os with
            | .error e => .next (operStop c x e)
            | .ok t => .next (stepDone t c x n total))
  | _ => .next s

/-! Start and suspension. -/

/-- A record begins on a context of core c. -/
def beginRecord (s : State) (c : CoreId) (x : CtxId) (name : W64) (started : Bool) (widening : Nat)
    (host : Option (QueueId × BitVec 16)) : State :=
  let s := takeRecord s c x name started widening host
  checkOperator (s.setCtx c x { s.ctx c x with newcomer := none }) c x

/-- The core may start records: it is in a partition whose dispatch is not stopped (R394, R404, R431). -/
def startable (s : State) (c : CoreId) : Bool :=
  !s.frozen && !(s.core c).out && match s.partOf c with
    | some p => !(s.part p).loading
    | none => false

/-- The lowest context of a core that holds nothing (R130). -/
def freeCtxOf (k : Core) : Option CtxId :=
  ([0, 1, 2, 3] : List CtxId).find? (fun x => (k.ctx[x.val]'x.isLt).phase == .idle && (k.ctx[x.val]'x.isLt).newcomer.isNone)

/-- The saved continuation that resumes next (R382): the first, when its accumulator units and, if it held it, the array are free. -/
def resumable (s : State) (c : CoreId) : Option Saved :=
  match (s.core c).saved with
  | v :: _ => if v.ctx.acc ≤ accFree (s.core c) ∧ (v.ctx.r.owns = false ∨ (arrayOwner (s.core c)).isNone) then some v else none
  | [] => none

/-! Reservations of a gang (R385). -/

/-- The cores of a partition that are not left out (R404). -/
def coresOf (s : State) (p : PartId) : List CoreId := (List.finRange 512).filter (fun c => s.partOf c == some p && !(s.core c).out)

/-- Gang table entry of a gang: members, members per group, acc and scratch (R391). -/
def gangEntry (s : State) (p : PartId) (gangid : Nat) : Nat × Nat × Nat × Nat :=
  let e := deviceWord s (coreOfPart s p) ((s.part p).gangBase + BitVec.ofNat 64 (8 * gangid))
  (wbits e 0 11 + 1, wbits e 11 2 + 1, wbits e 13 3, wbits e 16 16)

/-- Contexts of a core that a gang could have: those it holds, then, while their grants suffice, the free ones and those that a
younger gang holds. -/
def gangRoom (s : State) (c : CoreId) (ticket : Nat) (young : Option Nat) (acc scratch : Nat) : List CtxId :=
  let heldBy := fun (t : Nat) => ([0, 1, 2, 3] : List CtxId).filter (fun x => (s.ctx c x).phase == .reserved t)
  let mine := heldBy ticket
  let lost := match young with
    | some t => heldBy t
    | none => []
  let a0 := accFree (s.core c) + (lost.map (fun x => (s.ctx c x).acc)).sum
  let u0 := scratchFree s c + (lost.map (fun x => (s.ctx c x).scratch)).sum
  let room := if !startable s c then [] else ([0, 1, 2, 3] : List CtxId).filter (fun x =>
    lost.contains x || ((s.ctx c x).phase == .idle && (s.ctx c x).newcomer.isNone))
  let fit := min (if acc = 0 then 4 else a0 / acc) (if scratch = 0 then 4 else u0 / scratch)
  mine ++ room.take fit

/-- The contexts are held empty for a gang, with its grants. -/
def reserve (s : State) (ticket acc scratch : Nat) (room : List (CoreId × List CtxId)) : State :=
  room.foldl (fun s r => r.2.foldl (fun s x =>
    s.setCtx r.1 x { s.ctx r.1 x with phase := .reserved ticket, acc := acc, scratch := scratch }) s) s

/-- The contexts of a partition that have become free join the reservation of its reserving gang: this is done before anything else may take
one of them (R385). -/
def joinGang (s : State) (p : PartId) : State :=
  match (s.part p).reserving.bind (fun t => s.gangs.find? (fun g => g.part == p && g.ticket == t)) with
  | none => s
  | some g =>
    let (_, _, acc, scratch) := gangEntry s p g.gangid.toNat
    reserve s g.ticket acc scratch ((coresOf s p).map (fun c => (c, gangRoom s c g.ticket none acc scratch)))

/-- A suspension of this record has not finished (R206). -/
def leaving (k : Core) (name : W64) : Bool :=
  k.ctx.toList.any (fun y => y.job.name == name && match y.phase with
    | .suspending _ _ => true
    | _ => false)

/-- A context that was freed for a newcomer takes it (R381). -/
def startNewcomer (s : State) (c : CoreId) (x : CtxId) (n : Taken) : State :=
  if canGrant s c (startWords s c n.name) then beginRecord s c x n.name false 0 n.host else s

/-- CONTINUATION_START (R130): the newcomer that a context was freed for, or the head of the core's queue on the lowest free
context; a gang's record that has not started is never taken from a queue (R129). -/
def execContinuationStart (c : CoreId) (x : CtxId) (s : State) : Answer :=
  let s := joinGang s (s.partIdOf c)
  let k := s.core c
  let y := s.ctx c x
  if !startable s c || y.phase != .idle then .next s
  else match y.newcomer with
    | some n => .next (startNewcomer s c x n)
    | none =>
      if freeCtxOf k ≠ some x ∨ (resumable s c).isSome then .next s
      else match k.queue with
        | [] => .next s
        | e :: _ =>
          let name := entryName e
          let w := startWords s c name
          if leaving k name || !canGrant s c w || (!wbit e 2 && gangBit w) then .next s
          else .next (beginRecord (popQueue s c) c x name (wbit e 2) (if wbit e 2 then wbits e 3 3 else 0) none)

/-- SUSPENSION_POINT (R16): nothing of the context is outstanding, so the reason takes effect. -/
def execSuspensionPoint (c : CoreId) (x : CtxId) (s : State) : Answer :=
  let k := s.ctx c x
  match k.phase with
  | .suspending why pc => if quiet s c x && k.pendFault.isNone then .next (finishLeave s c x why pc) else .next s
  | _ => .next s

/-- HELD_PUSH_RETRY (R128). -/
def execHeldPushRetry (c : CoreId) (s : State) : Answer := .next (retryHeld (s.core c).heldPushes.length (refill 32 s c) c)

/-! Barriers (R136, R427). -/

/-- Present members of a team in a domain. -/
def Team.inDomain (t : Team) (scope dom : Nat) : List Nat :=
  t.present.filter (fun i => match t.members[i]? with
    | some (c, _) => domainOf c scope == dom
    | none => false)

/-- Every present member in the domain has arrived at episode n. -/
def Team.allArrived (t : Team) (scope dom n : Nat) : Bool := (t.inDomain scope dom).all (fun i => decide (n ≤ t.arrivalsOf i scope))

/-- A member has arrived at episode n. -/
def Team.someArrived (t : Team) (scope n : Nat) : Bool := t.arrivals.any (fun a => a.2.1 == scope && decide (n ≤ a.2.2))

/-- Episode n at a scope is complete in a domain. -/
def Team.completeEpisode (t : Team) (scope dom n : Nat) : Team :=
  { t with complete := (scope, dom, n) :: t.complete.filter (fun e => !(e.1 == scope && e.2.1 == dom)) }

/-- The arrival of this package at episode n of a pod team is sent, once (R427). -/
def announce (s : State) (t : Team) (g : BitVec 12) (n : Nat) : State :=
  if n ≤ t.sent then s
  else
    let h : Nat → Header := fun d => {
      kind := 6, dpkg := d, dpart := (podPart s t.part).val, spart := t.part.val, group := 0, last := true, addr := 0, xfer := 0,
      cause := 0, aux := BitVec.ofNat 64 (g.toNat + n % 2 ^ 16 * 2 ^ 16) }
    (podOthers s t.part).foldl (fun s d => sendPacket s (mkPacket s (h d) [])) (s.setTeam { t with sent := n })

/-- Another package has arrived at episode n of a gang's team whose members here have all departed, and so have arrived (R136, R427). -/
def Team.awaited (t : Team) (s : State) (scope n : Nat) : Bool :=
  scope == 5 && t.present.isEmpty && s.barriers.any (fun b => b.1 == t.part && t.gang == some b.2.1 && b.2.2.1 == BitVec.ofNat 16 n)

/-- BARRIER_EPISODE_COMPLETE (R136): the next episode of a team at a scope, in one domain. -/
def execBarrierEpisodeComplete (team scope dom : Nat) (s : State) : Answer :=
  match s.team team with
  | none => .next s
  | some t =>
    let n := t.completed scope dom + 1
    if !(t.someArrived scope n || t.awaited s scope n) || !t.allArrived scope dom n then .next s
    else match (if scope = 5 then t.gang else none) with
      | none => .next (s.setTeam (t.completeEpisode scope dom n))
      | some g =>
        let s := announce s t g n
        let key := fun (d : Nat) => (t.part, g, BitVec.ofNat 16 n, BitVec.ofNat 6 d)
        let others := podOthers s t.part
        if others.all (fun d => s.barriers.contains (key d)) then
          let left := s.barriers.filter (fun b => !(others.any (fun d => b == key d)))
          let u : Team := { t with sent := max t.sent n }
          .next (State.setTeam { s with barriers := left } (u.completeEpisode scope dom n))
        else .next s

/-! Faults found after issue, interrupts, pre-emption and the watchdog. -/

/-- The context is at a bundle boundary where a cause can be delivered. -/
def atBoundary (k : Ctx) : Bool := match k.phase with
  | .running | .suspending _ _ | .waitArray _ | .tileStep _ | .saving _ => true
  | _ => false

/-- ROLLBACK (R369): the fault that waits at a context's boundary; while a handler runs it waits for eret (R376), but for one of the handler's
own, which ends the continuation (R372). -/
def execRollback (c : CoreId) (x : CtxId) (s : State) : Answer :=
  let k := s.ctx c x
  match k.ownFault, k.pendFault with
  | some f, _ => if atBoundary k && k.handler then .next (deliver s c x f.cause f.info f.pc f.words) else .next s
  | none, some f =>
    if !atBoundary k || k.handler then .next s
    else .next (faultAfter (s.setCtx c x { k with pendFault := none }) c x f)
  | none, none => .next s

/-- HELD_FAULT (R375). -/
def execHeldFault (c : CoreId) (x : CtxId) (s : State) : Answer :=
  let k := s.ctx c x
  match k.pendFault with
  | some f => if k.handler && k.replayEntry then .next (holdFault (s.setCtx c x { k with pendFault := none }) c x f) else .next s
  | none => .next s

/-- A context that a replay delivery can stop (R374): in program mode, running, blocked or about to leave, with no fault before it (R376);
not one that ends with a status. -/
def replayable (k : Ctx) : Bool := !k.handler && k.pendFault.isNone && match k.phase with
  | .running | .waitPage _ | .waitArray _ | .tileStep _ => true
  | .suspending (.ended _ _ _ _) _ => false
  | .suspending _ _ => true
  | _ => false

/-- INT (R374, R376, R377): with no handler the request is ignored. -/
def execInt (c : CoreId) (x : CtxId) (s : State) : Answer :=
  let k := s.ctx c x
  match k.pendInt with
  | some v =>
    if !replayable k || k.pendPreempt.isSome then .next s
    else
      let s := s.setCtx c x { k with pendInt := none }
      .next ((deliverReplay s c x .int (BitVec.ofNat 64 v.toNat)).getD s)
  | none => .next s

/-- Microseconds for which a context has issued nothing. -/
def blockedFor (s : State) (k : Ctx) : Nat := (s.cycle - k.lastIssue) / 2000

/-- WATCHDOG (R377): with no handler it is ignored, and the count starts again. One that cannot be delivered yet stays pending (R376). -/
def execWatchdog (c : CoreId) (x : CtxId) (s : State) : Answer :=
  let k := s.ctx c x
  let limit := (s.part (s.partIdOf c)).blkWdog.toNat
  let due := match k.pendWatchdog with
    | some n => some n
    | none => if limit ≠ 0 ∧ 2000 * limit < s.cycle - k.lastIssue then some (blockedFor s k) else none
  match due with
  | none => .next s
  | some n =>
    if k.handler || !running k then .next s
    else if !replayable k || k.pendPreempt.isSome || k.pendInt.isSome then .next (s.setCtx c x { k with pendWatchdog := some n })
    else
      let s := s.setCtx c x { k with pendWatchdog := none, lastIssue := s.cycle }
      .next ((deliverReplay s c x .watchdog (BitVec.ofNat 64 n)).getD s)

/-- PREEMPT (R382): the victim's handler is entered; without one the action proceeds. A victim that is leaving is let go. -/
def execPreempt (c : CoreId) (x : CtxId) (s : State) : Answer :=
  let k := s.ctx c x
  match k.pendPreempt with
  | none => .next s
  | some (a, us) =>
    let go := s.setCtx c x { k with pendPreempt := none, action := some a, drainFrom := some s.cycle }
    let leaves := match k.phase with
      | .suspending _ _ => true
      | _ => false
    if !replayable k || leaves then .next s
    else .next ((deliverReplay go c x .preempt (BitVec.ofNat 64 (a.toNat + us.toNat * 2 ^ 32))).getD go)

/-- PREEMPT_HANDLER_TIMEOUT (R382): the handler's state is lost, and the action proceeds. -/
def execPreemptHandlerTimeout (c : CoreId) (x : CtxId) (s : State) : Answer :=
  let k := s.ctx c x
  match k.action, k.drainFrom with
  | some _, some t =>
    if k.handler ∧ k.replayEntry ∧ wbits k.trapCause 0 8 = 0x21 ∧ 2000 * wbits k.trapInfo 32 32 < s.cycle - t then
      .next (resumePaused (leaveHandler (s.setCtx c x { k with hgate := [] }) c x ((k.frame).getD k.r)) c x)
    else .next s
  | _, _ => .next s

/-! Allocation watchdogs (R280, R387). -/

/-- A request that has waited longer than its partition's allocation watchdog: the microseconds waited. -/
def overdue (s : State) (c : CoreId) (r : PoolReq) : Option Nat :=
  let limit := (s.part (s.partIdOf c)).allocWdog.toNat
  if limit ≠ 0 ∧ 2000 * limit < s.cycle - r.since then some ((s.cycle - r.since) / 2000) else none

/-- TSTALL (R280): the context's request leaves its pool, and the talloc's bundle raises TSTALL; one of the run that a handler entered by replay
interrupts is held (R375). -/
def execTstall (c : CoreId) (x : CtxId) (s : State) : Answer :=
  let k := s.ctx c x
  match k.ops.findSome? (fun o => match o.kind with
      | .talloc q sh _ => some (o, q, sh)
      | _ => none) with
  | none => .next s
  | some (o, q, sh) =>
    match ((s.pool c ⟨q.toNat, q.isLt⟩).waiting.find? (fun r => decide (r.who = .ctx x))).bind (overdue s c) with
    | none => .next s
    | some us =>
      let info : W64 := BitVec.ofNat 64 (q.toNat + sh.toNat * 2 ^ 4 + us % 2 ^ 32 * 2 ^ 16)
      if k.handler && !k.ofHandler o then
        (if k.replayEntry then .next (holdFault (withdraw s c (.ctx x)) c x (o.late .tstall info)) else .next s)
      else if k.pendFault.isSome && !k.ofHandler o then .next s
      else
        .next (deliver s c x .tstall info o.pc o.words)

end Sys2Proof.Machine
end

