-- ==== Sys2Proof/Machine/Schedule.lean ====
section
/-! DEFINITION. The dispatcher: host queues and tokens (R379, R386, R417), steals (R380, R262), pre-emption with DRAIN, SAVE and KILL
(R381 to R384, R412), the end of a killed team, and gangs (R129, R385). -/

namespace Sys2Proof.Machine

/-! Tokens and budgets (R379, R386). -/

/-- The partition holds a token. -/
def hasToken (s : State) (p : PartId) : Bool := ((refreshBudgets s p).part p).tokensLeft != some 0

/-- One token spent. -/
def spendToken (s : State) (p : PartId) : State :=
  let s := refreshBudgets s p
  s.setPart p { s.part p with tokensLeft := (s.part p).tokensLeft.map (· - 1) }

/-- PRIORITY_TOKEN_PERIOD: a new period's allowance (R379). -/
def execPriorityTokenPeriod (p : PartId) (s : State) : Answer := .next (refreshBudgets s p)


/-! The records of the host queues (R379, R417). -/

/-- Lower-half address of a slot of a host queue (R417). -/
def slotAddr (h : HostQueue) (slot : Nat) : W64 := BitVec.ofNat 64 (h.q0.toNat + 64 * slot)

/-- A record that the dispatcher can take next: it, its address, its words, and the queue it heads (none for one that a KILL placed
again). -/
structure HostHead where
  taken : Taken
  addr : W64
  words : File 3 W64
  queue : Option QueueId
  deriving DecidableEq, Repr

/-- Priority of a record (R120). -/
def recPrio (w : File 3 W64) : Nat := wbits (recWord w 0) 52 4

/-- The record at the head of a queue. -/
def queueHead (s : State) (q : QueueId) : HostHead :=
  let h := s.queue q
  let slot := h.head % 2 ^ h.size
  let c := coreOfPart s h.part
  let name := nameOf c (slotAddr h slot)
  { taken := { name := name, host := some (q, BitVec.ofNat 16 slot) }, addr := slotAddr h slot, words := startWords s c name, queue := some q }

/-- Queues of a partition that the dispatcher serves and that hold a record. -/
def servedQueues (s : State) (p : PartId) : List QueueId :=
  (List.finRange 4096).filter (fun q => let h := s.queue q; h.en && h.part == p && decide (0 < h.pending))

/-- What stands before the device's read of the slot at a queue's head (R223, R416). -/
def ringReach (s : State) (q : QueueId) : Reach :=
  let h := s.queue q
  hostReach s h.part (h.q0.toNat + 64 * (h.head % 2 ^ h.size)) false

/-- What the dispatcher considers first: the highest priority, a record placed again before the queues, and the queues round robin
after the one served last at that priority (R379, R383). -/
def nextHost (s : State) (p : PartId) : Option HostHead :=
  let again := (s.replaced.filter (fun r => r.1 == p)).map (fun r =>
    ({ taken := r.2, addr := nameAddr r.2.name, words := startWords s (coreOfPart s p) r.2.name, queue := none } : HostHead))
  let heads := again ++ ((servedQueues s p).filter (fun q => ringReach s q == .ready)).map (queueHead s)
  let top := (heads.map (fun h => recPrio h.words)).foldl max 0
  let best := heads.filter (fun h => recPrio h.words == top)
  let last := rget (s.part p).served (BitVec.ofNat 4 top)
  let later := fun (h : HostHead) => match h.queue, last with
    | none, _ => true
    | some q, some l => decide (l < q)
    | some _, none => true
  (best.find? later).or best.head?

/-- The record leaves its queue: the slot is in use until its completion entry (R417). -/
def takeHost (s : State) (p : PartId) (h : HostHead) : State :=
  match h.queue with
  | none => { s with replaced := s.replaced.filter (fun r => r != (p, h.taken)) }
  | some q =>
    let k := s.queue q
    let s := s.setQueue q { k with q2 := wset (wset k.q2 16 16 ((k.head + 1) % 2 ^ k.size)) 32 16 (k.busy + 1), full := false }
    s.setPart p { s.part p with served := rset (s.part p).served (BitVec.ofNat 4 (recPrio h.words)) (some q) }

/-- Continuations that run on a core. -/
def runningCount (k : Core) : Nat := (k.ctx.toList.filter running).length

/-- A record of these words can be placed on core c (R379): it has a free context, an empty task queue and the grants. -/
def placeable (s : State) (w : File 3 W64) (c : CoreId) : Bool :=
  startable s c && (freeCtxOf (s.core c)).isSome && queueLength (s.core c) == 0 && (resumable s c).isNone && canGrant s c w

/-- Core that R379 takes first for a record of these words: the fewest running continuations, the lowest number on a tie. -/
def placeCore (s : State) (p : PartId) (w : File 3 W64) : Option CoreId :=
  let ok := (coresOf s p).filter (placeable s w)
  (List.range 5).findSome? (fun n => ok.find? (fun c => runningCount (s.core c) == n))

/-- The shortest task queue of the partition, lowest core on a tie, when it holds fewer than the push limit. -/
def pushCore (s : State) (p : PartId) : Option CoreId :=
  let lim := (s.part p).pushLim.toNat
  let cs := coresOf s p
  (cs.find? (fun c => cs.all (fun d => decide (queueLength (s.core c) ≤ queueLength (s.core d))))).filter
    (fun c => decide (queueLength (s.core c) < lim))

/-! Victims (R381). -/

/-- A continuation that can be pre-empted: it runs, and no pre-emption of it is under way. -/
def preemptable (k : Ctx) : Bool := k.action.isNone && k.pendPreempt.isNone && k.newcomer.isNone && match k.phase with
  | .running | .waitArray _ | .tileStep _ | .waitPage _ => true
  | _ => false

/-- Whether b is a better victim than a: lower priority, then later start, then higher core and context. -/
def betterVictim (a b : CoreId × CtxId × Ctx) : Bool :=
  let pa := recPrio a.2.2.job.words
  let pb := recPrio b.2.2.job.words
  decide (pb < pa) || (pb == pa && (decide (a.2.2.since < b.2.2.since)
    || (a.2.2.since == b.2.2.since && decide (a.1.val * 4 + a.2.1.val < b.1.val * 4 + b.2.1.val))))

/-- The victim of a newcomer of priority n. -/
def victim (s : State) (p : PartId) (n : Nat) : Option (CoreId × CtxId) :=
  let all := (coresOf s p).flatMap (fun c => (([0, 1, 2, 3] : List CtxId).map (fun x => (c, x, s.ctx c x))).filter
    (fun v => preemptable v.2.2 && decide (recPrio v.2.2.job.words < n)))
  (all.foldl (fun b v => match b with
    | none => some v
    | some a => if betterVictim a v then some v else b) none).map (fun v => (v.1, v.2.1))

/-- Save cost in microseconds (R381). -/
def saveCost (k : Ctx) : Nat := 2 + 4 * k.acc + 4 * k.r.owns.toNat

/-- Save slots that a core's saves use or will use. -/
def slotsUsed (k : Core) : List Nat := k.saved.map (fun v => v.slot) ++ k.saves.map (fun v => v.slot)

/-- A core admits one more SAVE (R382). -/
def saveSlotFree (k : Core) : Bool :=
  decide ((slotsUsed k).length + (k.ctx.toList.zipIdx.filter (fun y =>
    (y.1.action == some 1 || (y.1.pendPreempt.map (fun a => a.1)) == some 1) && !k.saves.any (fun v => v.ctx.val == y.2))).length < 8)

/-- The action of R381 from its second row on: 1 SAVE, 2 KILL, none for a DRAIN without limit. -/
def strongAction (s : State) (c : CoreId) (x : CtxId) : Option (BitVec 2) :=
  let k := s.ctx c x
  let w0 := recWord k.job.words 0
  let e := s.cycle - (if wbits w0 48 4 = 1 then k.stepSince else k.since)
  if wbit w0 59 ∧ e ≤ 2000 * saveCost k then some 2
  else if wbit w0 60 ∧ saveSlotFree (s.core c) then some 1
  else if wbit w0 59 then some 2
  else none

/-- A SAVE or KILL begins: through the PREEMPT handler when the partition has one (R382). -/
def beginAction (s : State) (c : CoreId) (x : CtxId) (a : BitVec 2) : State :=
  let k := s.ctx c x
  if handlerAt s c 0x21 = 0 then s.setCtx c x { k with action := some a, drainFrom := none }
  else s.setCtx c x { k with pendPreempt := some (a, Config.preemptTime), action := none, drainFrom := none }

/-- The action on a chosen victim. -/
def chooseAction (s : State) (c : CoreId) (x : CtxId) : State :=
  let k := s.ctx c x
  let est := wbits (recWord k.job.words 2) 0 32
  if est ≠ 0xFFFFFFFF ∧ est ≤ (s.part (s.partIdOf c)).drainLim.toNat then
    s.setCtx c x { k with action := some 0, drainFrom := some s.cycle }
  else match strongAction s c x with
    | some a => beginAction s c x a
    | none => s.setCtx c x { k with action := some 0, drainFrom := none }

/-! Gangs (R385). -/

/-- A member reaches the dispatcher: the first one founds the gang and gives it its ticket. -/
def arriveGang (s : State) (p : PartId) (h : HostHead) : State :=
  let id : BitVec 12 := BitVec.ofNat 12 (wbits (recWord h.words 2) 52 12)
  if s.gangs.any (fun g => g.part == p && g.gangid == id) then
    { s with gangs := s.gangs.map (fun g => if g.part = p ∧ g.gangid = id then { g with records := g.records ++ [h.taken] } else g) }
  else { s with gangs := s.gangs ++ [{ part := p, gangid := id, ticket := s.nextId, records := [h.taken] }], nextId := s.nextId + 1 }

/-- Groups, each of members on the contexts of one core, given out core by core; the last group may be smaller. -/
def assignGroups : List (CoreId × List CtxId) → Nat → Nat → List (CoreId × CtxId)
  | [], _, _ => []
  | (c, xs) :: t, n, g =>
    let whole := min (xs.length / g) (n / g)
    let rest := n - whole * g
    let last := if 0 < rest ∧ rest < g ∧ rest ≤ xs.length - whole * g then rest else 0
    (xs.take (whole * g + last)).map (fun x => (c, x)) ++ assignGroups t (n - whole * g - last) g

/-- A gang's reservation of a partition is given up: the contexts are empty again. -/
def unreserve (s : State) (p : PartId) (ticket : Nat) : State :=
  (coresOf s p).foldl (fun s c => ([0, 1, 2, 3] : List CtxId).foldl (fun s x =>
    let k := s.ctx c x
    if k.phase = .reserved ticket then s.setCtx c x { k with phase := .idle, acc := 0, scratch := 0 } else s) s) s

/-- A team of a gang whose members have all departed: the next gang of its number takes its place (R131, R136). -/
def Team.spent (t : Team) (p : PartId) (gang : BitVec 12) : Bool := t.part == p && t.gang == some gang && t.present.isEmpty && !t.killed

/-- Every member of a gang starts, on the contexts given (R129, R131, R385). -/
def startGang (s : State) (p : PartId) (g : Gang) (n : Nat) (at_ : List (CoreId × CtxId)) : State :=
  let s := unreserve s p g.ticket
  let s := spendToken s p
  let id := s.nextId
  let t : Team := { id := id, gang := some g.gangid, part := p, members := at_, departed := [], arrivals := [], complete := [],
                    sent := 0, killed := false, abort := false, quarantine := [], exits := [] }
  let later := g.records.drop n
  let s := { s with
    teams := t :: s.teams.filter (fun u => !u.spent p g.gangid), nextId := id + 2,
    gangs := (s.gangs.filter (fun h => h.ticket != g.ticket))
      ++ (if later.isEmpty then [] else [{ g with ticket := id + 1, records := later }]) }
  let members := (g.records.take n).zip at_
  let s := members.zipIdx.foldl (fun s m =>
    keepRecord s { Record.none with name := m.1.1.name, host := m.1.1.host, team := id, member := m.2 }) s
  members.foldl (fun s m => beginRecord s m.2.1 m.2.2 m.1.name false 0 m.1.host) s

/-- The partition's dispatch is not stopped (R394). -/
def serving (s : State) (p : PartId) : Bool := !s.frozen && !(s.part p).loading

/-- GANG_PLACEMENT (R385, R394): a complete gang starts whole, becomes the reserving gang, or adds contexts to its reservation; an older gang's
reservation has taken what it can use before. -/
def execGangPlacement (p : PartId) (gang : Nat) (s : State) : Answer :=
  let s := joinGang s p
  match (if serving s p then s.gangs.find? (fun g => g.part == p && g.gangid.toNat == gang) else none) with
  | none => .next s
  | some g =>
    let (n, gs, acc, scratch) := gangEntry s p gang
    let cur := (s.part p).reserving
    let young := match cur with
      | some t => if g.ticket < t then some t else none
      | none => none
    let room := (coresOf s p).map (fun c => (c, gangRoom s c g.ticket young acc scratch))
    let at_ := assignGroups room n gs
    if g.records.length < n ∨ at_.isEmpty then .next s
    else if at_.length = n then
      (if !hasToken s p then .next s
       else
         let s := match young with
           | some t => unreserve s p t
           | none => s
         let s := if young.isSome ∨ cur = some g.ticket then s.setPart p { s.part p with reserving := none } else s
         .next (startGang s p g n at_))
    else if cur.isSome ∧ young.isNone ∧ cur ≠ some g.ticket then .next s
    else
      let s := match young with
        | some t => unreserve s p t
        | none => s
      .next (reserve (s.setPart p { s.part p with reserving := some g.ticket }) g.ticket acc scratch room)

/-! The dispatcher's choices (R379, R380). -/

/-- A record of a host queue that is refused (R121): it never runs. -/
def refuseHost (s : State) (p : PartId) (h : HostHead) : State :=
  let s := takeHost s p h
  match h.taken.host with
  | some (q, slot) => completeSlot s q slot Cause.badrec.code false 1
  | none => s

/-- A served queue whose ring the host does not let the device read (R416). -/
def deadQueue (s : State) (p : PartId) : Option QueueId := (servedQueues s p).find? (fun q => ringReach s q == .refused)

/-- The translations that the heads of the served queues lack are asked for (R223); their records wait. -/
def askRings (s : State) (p : PartId) : State :=
  ((servedQueues s p).filter (fun q => ringReach s q == .missing)).foldl (fun s q =>
    let h := s.queue q
    askHostPort s h.part (h.q0.toNat + 64 * (h.head % 2 ^ h.size))) s

/-- DISPATCH (R379): the next host record is refused, joins its gang, starts on a core, or is pushed to a task queue; one that can
pre-empt waits for its PREEMPTION. -/
def execDispatch (p : PartId) (s : State) : Answer :=
  let s := joinGang s p
  if !serving s p then .next s
  else let s := askRings s p
  match deadQueue s p with
    | some q => .next (s.setQueue q ((s.queue q).stop 1))
    | none => match nextHost s p with
      | none => .next s
      | some h =>
        if !hasToken s p then .next s
        else if badRecord h.words h.addr then .next (refuseHost s p h)
        else if gangBit h.words then .next (arriveGang (takeHost s p h) p h)
        else match placeCore s p h.words with
          | some c => (match freeCtxOf (s.core c) with
            | some x => .next (beginRecord (spendToken (takeHost s p h) p) c x h.taken.name false 0 h.taken.host)
            | none => .next s)
          | none =>
            if (victim s p (recPrio h.words)).isSome then .next s
            else match pushCore s p with
              | none => .next s
              | some c => match pushAfterHeld s c .device (queueEntry h.taken.name false 0 0 true) with
                | .error _ => .next s
                | .ok t => .next (keepRecord (takeHost t p h) { Record.none with name := h.taken.name, host := h.taken.host })

/-- PREEMPTION (R381): a newcomer that no core can start takes the place of the victim. -/
def execPreemption (p : PartId) (s : State) : Answer :=
  if !serving s p || !hasToken s p then .next s
  else match nextHost s p with
    | none => .next s
    | some h =>
      if badRecord h.words h.addr || gangBit h.words || (placeCore s p h.words).isSome then .next s
      else match victim s p (recPrio h.words) with
        | none => .next s
        | some (c, x) =>
          let s := spendToken (takeHost s p h) p
          .next (chooseAction (s.setCtx c x { s.ctx c x with newcomer := some h.taken }) c x)

/-- The distance that orders the candidates of a steal: the scope that holds both, then the core number (R380). -/
def stealRank (c o : CoreId) : Nat := scopeOf c o * 512 + o.val

/-- A core that a steal may take from: its queue has been waiting longer than the steal delay, and its head has not started. -/
def stealable (s : State) (p : PartId) (c o : CoreId) : Bool :=
  let k := s.core o
  let dly := (s.part p).stealDly.toNat
  o != c && s.partOf o == some p && dly != 0 && (match k.fullSince with
      | some t => decide (2000 * dly < s.cycle - t)
      | none => false)
    && k.ctx.toList.all (fun y => y.phase != .idle) && (match k.queue with
      | e :: _ => !wbit e 2
      | [] => false)

/-- The core whose release made a queue entry's push, if it has one (R259). -/
def entryOrigin (e : W64) : Option CoreId := if wbit e 57 then none else some (linkCore e)

/-- The widening of a record stolen by core c (R262): its origin core makes the full release that reaches c, and the scope of that. -/
def widen (s : State) (c : CoreId) (e : W64) : State × Nat :=
  match entryOrigin e with
  | some o => (release s o (scopeOf o c) everyByte, scopeOf o c)
  | none => (s, 0)

/-- STEAL (R380, R262): the head of the queue of core o starts on core c, widened. -/
def execSteal (p : PartId) (o c : CoreId) (s : State) : Answer :=
  let s := joinGang s p
  let host := match nextHost s p with
    | some h => !gangBit h.words && placeable s h.words c
    | none => false
  if !serving s p || !startable s c || host || s.partOf c != some p || queueLength (s.core c) != 0 || !hasToken s p
      || !stealable s p c o || (coresOf s p).any (fun d => stealable s p c d && decide (stealRank c d < stealRank c o)) then .next s
  else match freeCtxOf (s.core c), (s.core o).queue with
    | some x, e :: _ =>
      let name := entryName e
      if !canGrant s c (startWords (widen s c e).1 c name) then .next s
      else
        let (s, n) := widen (spendToken s p) c e
        let s := popQueue s o
        let s := s.setCore o { s.core o with fullSince := none }
        .next (beginRecord s c x name false n none)
    | _, _ => .next s

/-! DRAIN, SAVE and KILL (R381, R382). -/

/-- DRAIN_LIMIT (R381): a limited DRAIN that has not ended within d; the choice is made again from the second row. -/
def execDrainLimit (c : CoreId) (x : CtxId) (s : State) : Answer :=
  let k := s.ctx c x
  match k.action, k.drainFrom with
  | some 0, some t =>
    if s.cycle - t ≤ 2000 * (s.part (s.partIdOf c)).drainLim.toNat then .next s
    else match strongAction s c x with
      | some a => .next (beginAction s c x a)
      | none => .next (s.setCtx c x { k with drainFrom := none })
  | _, _ => .next s

/-- Address of a save slot (R382). -/
def saveSlotAddr (s : State) (c : CoreId) (slot : Nat) : W64 := (s.core c).saveBase + BitVec.ofNat 64 (0x40000 * (slot + 1))

/-- The bytes of rows of the weight buffers. -/
def weightBytes (rows : List (Nat × WeightRow)) : List Byte :=
  (List.range 64).flatMap (fun i => leBytes 128 (match rows.find? (fun r => r.1 == i) with
    | some r => r.2.bytes.toNat
    | none => 0))

/-- Array state as the slot holds it: five words, swapped, fill, and the formats, 256 for none (log 14). -/
def arrayBytes (a : ArrayState) : List Byte :=
  let code := fun (f : Option Byte) => match f with
    | some b => b.toNat
    | none => 256
  [a.swapped.toNat, a.fill.toNat, code a.pfmt, code a.bfmt0, code a.bfmt1].flatMap (leBytes 8)

/-- A context's state written into a save slot (R382). -/
def writeSlot (s : State) (c : CoreId) (k : Ctx) (slot : Nat) : State :=
  let va := saveSlotAddr s c slot
  let r := k.r
  let t : Trap := { cause := Cause.preempt.code, pc := r.pc, info := 1, words := 0, replay := true, inhandler := false }
  let put := fun (off : Nat) (bs : List Byte) (s : State) => deviceWrite s c (va + BitVec.ofNat 64 off) bs
  let words := fun (n : Nat) (f : Fin n → W64) => (List.finRange n).flatMap (fun i => leBytes 8 (f i).toNat)
  let s := put 0 (frameBytes r k.ck.pc s.now t) s
  let s := put 0xC000 ([(nameAddr k.job.name).toNat, k.job.scope.toNat, r.triggered.toNat + r.arrived.toNat * 2 ^ 8, k.acc,
    r.owns.toNat].flatMap (leBytes 8)) s
  let s := put 0xC100 (imageBytes r) s
  let s := put 0xC400 (r.bind.toList.flatMap (fun b => words 4 (fun i => (b[i.val]?).getD 0))) s
  let s := put 0xD000 (r.st.toList.flatMap (fun b => words 8 (fun i => (b[i.val]?).getD 0))) s
  let s := put 0xD400 (r.sh.toList.flatMap (fun b => words 16 (fun i => (b[i.val]?).getD 0))) s
  let s := put 0xE000 (vectorBytes r) s
  let s := put 0x10000 (r.rows.flatMap rowBytes) s
  let s := put 0x20000 (weightBytes r.arr.rows0 ++ weightBytes r.arr.rows1) s
  let s := put 0x24000 (arrayBytes r.arr) s
  put 0x28000 (r.rq.toList.flatMap (fun q => (List.range 16).flatMap (fun i => rowBytes (((q[i]?).join).getD 0)))) s

/-- The lowest free save slot of a core. -/
def freeSlot (k : Core) : Option Nat := (List.range 8).find? (fun n => !(slotsUsed k).contains n)

/-- The phase of a continuation that a SAVE stops, as it is to be when it resumes: a GEMM's tile step begins again (R147). -/
def savedPhase (k : Ctx) : Option Phase := match k.phase with
  | .running => some .running
  | .waitPage _ => some .running
  | .waitArray n => some (.waitArray n)
  | .tileStep n => if k.seqDesc.isNone then some (.waitArray n) else none
  | _ => none

/-- The state of a victim whose checkpoint has committed is written, and its context is free (R382 steps 4 to 6, R412). -/
def writeSave (s : State) (c : CoreId) (x : CtxId) (v : SaveRun) : State :=
  let k := s.ctx c x
  let s := writeSlot s c k v.slot
  let kept : Ctx := { k with phase := k.going, action := none, pendPreempt := none, drainFrom := none, newcomer := none, pendInt := none,
                             asked := none }
  let s := s.setCore c { s.core c with saved := (s.core c).saved ++ [{ slot := v.slot, ctx := kept }] }
  let p := s.partIdOf c
  let s := if v.late ∨ v.deadline < s.cycle then s.setPart p { s.part p with saveLate := (s.part p).saveLate + 1 &&& 0xFFFFFFFF#64 } else s
  freeCtx s c x

/-- The HBM4 stack or LPDDR-6 module that holds a save slot: that of its first byte (R412; log 20). -/
def saveTarget (s : State) (c : CoreId) (slot : Nat) : Option Nat :=
  match placeByte s c .peek (saveSlotAddr s c slot) with
  | .ok p => targetOf (p.key / 64)
  | .error _ => none

/-- The SAVE's checkpoint and its writes (R382 steps 3 to 6). A gate that cannot be read ends the continuation, and an accumulator row raises
ECCUE by rollback (R378). -/
def finishSave (s : State) (c : CoreId) (x : CtxId) (v : SaveRun) : State :=
  if (s.ctx c x).badStore then endBad s c x (s.ctx c x).r.pc 0
  else
    let s := commit s c x
    if (s.ctx c x).badRows.isEmpty then writeSave s c x v
    else faultAfter s c x { cause := .eccue, info := 0, pc := (s.ctx c x).r.pc, words := 0 }

/-- SAVE (R382): the victim stops at a bundle boundary, waits for its operations and copies, and is saved, not while the memory of its slot
retrains (R409). One that begins during a thermal retrain there is late (R412). -/
def execSave (c : CoreId) (x : CtxId) (s : State) : Answer :=
  let k := s.ctx c x
  if k.action ≠ some 1 ∨ k.handler then .next s
  else match k.phase, (s.core c).saves.find? (fun v => v.ctx == x) with
    | .saving _, some v =>
      if quiet s c x && k.fences.isEmpty && k.pendFault.isNone && !(saveTarget s c v.slot).any (stopped s) then .next (finishSave s c x v) else .next s
    | _, old => match savedPhase k, (match old with
        | some v => some v.slot
        | none => freeSlot (s.core c)) with
      | some _, some n =>
        let met := s.retrains.any (fun r => r.running && r.thermal && saveTarget s c n == some r.target)
        let run : SaveRun := { ctx := x, slot := n, deadline := s.cycle + 2000 * saveCost k, late := met }
        let s := if old.isSome then s else s.setCore c { s.core c with saves := (s.core c).saves ++ [run] }
        .next (s.setCtx c x { s.ctx c x with phase := .saving n })
      | _, _ => .next s

/-- The rows of a weight buffer with the bytes that a slot holds. -/
def slotWeights (bs : List Byte) (rows : List (Nat × WeightRow)) : List (Nat × WeightRow) :=
  rows.map (fun r => (r.1, { r.2 with bytes := leWord 1024 ((bs.drop (128 * r.1)).take 128) }))

/-- A queue with the rows that a slot holds; an entry whose drain is in flight keeps its place. -/
def slotQueue (bs : List Byte) (q : List (Option Row)) : List (Option Row) :=
  q.mapIdx (fun i e => e.map (fun _ => rowOfBytes ((bs.drop (256 * i)).take 256)))

/-- The registers that a save slot holds, over those that the device kept (R382): software may change its frame's latch values (R370). -/
def slotRegs (s : State) (c : CoreId) (slot : Nat) (r : Regs) : Regs :=
  let va := saveSlotAddr s c slot
  match place s c .peek va 0x2C000 with
  | .error _ => r
  | .ok _ =>
    let get := fun (off n : Nat) => deviceRead s c (va + BitVec.ofNat 64 off) n
    let bind := get 0xC400 512
    let st := get 0xD000 1024
    let sh := get 0xD400 1024
    let r := r.withImage (get 0xC100 352) (get 0xE000 7168)
    { r with
      pc := BitVec.ofNat 48 (wordAt (get 8 8) 0).toNat,
      bind := Vector.ofFn (fun i => Vector.ofFn (fun j => wordAt bind (4 * i.val + j.val))),
      st := Vector.ofFn (fun i => Vector.ofFn (fun j => wordAt st (8 * i.val + j.val))),
      sh := Vector.ofFn (fun i => Vector.ofFn (fun j => wordAt sh (16 * i.val + j.val))),
      rows := r.rows.mapIdx (fun i _ => rowOfBytes (get (0x10000 + 256 * i) 256)),
      arr := { r.arr with rows0 := slotWeights (get 0x20000 0x2000) r.arr.rows0, rows1 := slotWeights (get 0x22000 0x2000) r.arr.rows1 },
      rq := Vector.ofFn (fun i => slotQueue (get (0x28000 + 0x1000 * i.val) 0x1000) (r.rq[i.val])),
      latches := r.withLatches (fun off => some (get off 256)) }

/-- SAVE_RESUME (R257, R370, R382): the first saved continuation resumes on the lowest free context, from its slot, after a full acquire;
the resume is a checkpoint. -/
def execSaveResume (c : CoreId) (x : CtxId) (s : State) : Answer :=
  let s := joinGang s (s.partIdOf c)
  match resumable s c with
  | none => .next s
  | some v =>
    if !startable s c || freeCtxOf (s.core c) != some x then .next s
    else
      let (bad, s) := fullAcquire s c
      let r := slotRegs s c v.slot v.ctx.r
      let s := s.setCore c { s.core c with saved := (s.core c).saved.filter (fun w => w.slot != v.slot) }
      let s := match s.team v.ctx.job.team with
        | some t => s.setTeam { t with members := t.members.set v.ctx.job.member (c, x) }
        | none => s
      .next (s.setCtx c x { v.ctx with
        r := r, ck := r, pendFault := bad.map (fun l => { cause := .eccue, info := l, pc := r.pc, words := 0 }),
        epoch := (s.ctx c x).epoch + 1, since := s.cycle, stepSince := s.cycle, lastIssue := s.cycle })

/-! Killed teams (R383, R384). -/

/-- The irrevocable operations that a context has issued perform: a plan's and an append's effects stand, and their results are discarded
(R383). -/
def performIssued (s : State) (c : CoreId) (x : CtxId) : State :=
  (s.ctx c x).ops.foldl (fun s o => match o.kind with
    | .plan desc => (match planRun s c desc with
      | .ok (va, bs) => writeOwner s c va bs
      | .error _ => s)
    | .kvapp desc n => (kvServe c desc n.toNat 0 s).2
    | _ => s) s

/-- A member of a killed team on its context: its copies are aborted, its requests withdrawn, its scratch units in quarantine, and the
context is free. -/
def killMember (s : State) (c : CoreId) (x : CtxId) : State :=
  let k := s.ctx c x
  let e := s.engine c x
  let s := e.copies.foldl (fun s q => withdraw s (scratchCore c q.dst) (.copy c x q.id)) s
  let s := s.setEngine c x { e with copies := e.copies.map (fun q => { q with aborted := true, waiting := false }), err := none, errAt := none }
  let s := performIssued (withdraw s c (.ctx x)) c x
  let s := match s.team k.job.team with
    | some t =>
      let e : Exit := { record := k.job, place := some (c, x), triggered := k.r.triggered, pc := k.trapPc, info := k.trapInfo }
      s.setTeam { t with quarantine := (c, k.scratch) :: t.quarantine, exits := t.exits ++ [e] }
    | none => s
  freeCtx (s.setCtx c x { k with pendInt := none }) c x

/-- The entries of a core's task queue, hardware queue and ring, that are not of a kind; the order of the others stays (R127). -/
def dropEntries (gone : W64 → Bool) (s : State) (c : CoreId) : State :=
  let k := s.core c
  let es := (List.range (queueLength k)).map (entryAt s c)
  let left := es.filter (fun e => !gone e)
  if left.length = es.length then s
  else
    let k := { k with queue := left.take 32, spillCount := left.length - 32, fresh := [],
                      spillTail := BitVec.ofNat 16 ((k.spillHead.toNat + (left.length - 32)) % max 1 (spillEntries k)) }
    (left.drop 32).zipIdx.foldl (fun s e => deviceWrite s c (ringAddr k (32 + e.2)) (leBytes 8 e.1.toNat)) (s.setCore c k)

/-- A member of a killed team of a partition that does not stand on a context: its entries leave the queues, and its save slot is free
(log 16). -/
def killWaiting (p : PartId) (s : State) (r : Record) (triggered : Bool) : State :=
  let here := fun (e : W64) => entryName e == r.name && wbit e 2
  let slots := s.cores.toList.zipIdx.flatMap (fun k =>
    (k.1.saved.filter (fun v => v.ctx.job.name == r.name && v.ctx.job.team == r.team)).map (fun v => (k.2, v)))
  let scratch := slots.filterMap (fun v => if h : v.1 < 512 then some ((⟨v.1, h⟩ : CoreId), v.2.ctx.scratch) else none)
  let clean := fun (s : State) (c : CoreId) => dropEntries here (s.setCore c { s.core c with
    heldPushes := (s.core c).heldPushes.filter (fun e => !here e),
    saved := (s.core c).saved.filter (fun v => !(v.ctx.job.name == r.name && v.ctx.job.team == r.team)) }) c
  let s := (coresOf s p).foldl clean (s.forget p r.name)
  match s.team r.team with
  | some t =>
    let e : Exit := { record := r, place := none, triggered := triggered, pc := 0, info := 0 }
    s.setTeam { t with quarantine := scratch ++ t.quarantine, exits := t.exits ++ [e] }
  | none => s

/-- A team is killed, by KILL or by an abort (R383 steps 1 to 4). -/
def killTeam (s : State) (t : Team) (abort : Bool) : State :=
  if t.killed then s
  else
    let s := s.setTeam { t with killed := true, abort := abort, exits := [] }
    let s := t.members.foldl (fun s m =>
      let k := s.ctx m.1 m.2
      if running k ∧ k.job.team = t.id then killMember s m.1 m.2 else s) s
    let saved := s.cores.toList.flatMap (fun k => (k.saved.filter (fun v => v.ctx.job.team == t.id)).map
      (fun v => (v.ctx.job, v.ctx.r.triggered)))
    let gone := saved ++ (s.suspended.filter (fun r => r.team == t.id)).map (fun r => (r, false))
    gone.foldl (fun s r => killWaiting t.part s r.1 r.2) s

/-- KILL (R382, R383). -/
def execKill (c : CoreId) (x : CtxId) (s : State) : Answer :=
  let k := s.ctx c x
  if k.action ≠ some 2 ∨ k.handler ∨ ¬ running k then .next s
  else match s.team k.job.team with
    | some t => .next (killTeam s t false)
    | none => .next s

/-- TEAM_ABORT (R383): the runtime's kill of a team. -/
def execTeamAbort (team : Nat) (s : State) : Answer :=
  match s.team team with
  | some t => .next (killTeam s t true)
  | none => .next s

/-- The aborted copies of an engine context count as complete (R383 step 5). -/
def drainEngine (s : State) (m : CoreId × CtxId) : State :=
  let e := s.engine m.1 m.2
  let s := (e.copies.filter (fun q => q.aborted)).foldl (fun s q => dropTransfer s q.xfer) s
  s.setEngine m.1 m.2 { e with copies := e.copies.filter (fun q => !q.aborted) }.settle

/-- An aborted member ends (R383 step 7, R418). -/
def abortMember (s : State) (p : PartId) (e : Exit) : State :=
  let (c, x) := e.place.getD (coreOfPart s p, 0)
  let w1 := recWord e.record.words 1
  let s := if w1 ≠ 0 ∧ ¬ e.triggered then joinDown s c w1 else s
  let s := statusEntry s p c x e.record.name 0 false true e.pc e.info
  releaseShelf (completeHost s e.record 0 true 0) e.record.name

/-- A killed member is placed again, at the head of its priority (R383 step 6). -/
def placeAgain (s : State) (p : PartId) (e : Exit) : State :=
  { s with replaced := (p, { name := e.record.name, host := e.record.host }) :: s.replaced }

/-- KILL_DRAIN_DONE (R279, R383 steps 5 to 7): the tiles are reclaimed and counted, and the members end or are placed again. -/
def execKillDrainDone (team : Nat) (s : State) : Answer :=
  match s.team team with
  | none => .next s
  | some t =>
    if !t.killed then .next s
    else
      let s := (t.exits.filterMap (fun e => e.place)).foldl drainEngine s
      let n := (heldTiles s team).length
      let s := reclaimSilently s team
      let s := s.setPart t.part { s.part t.part with abandoned := (s.part t.part).abandoned + BitVec.ofNat 64 n }
      let s := { s with teams := s.teams.filter (fun u => u.id != team) }
      .next (if t.abort then t.exits.foldl (fun s e => abortMember s t.part e) s
        else t.exits.reverse.foldl (fun s e => placeAgain s t.part e) s)

end Sys2Proof.Machine
end

