-- ==== Sys2Proof/Machine/Engines.lean ====
section
/-! DEFINITION. The steps of the engines: copies (R310 to R322), itineraries with their slips, lateness and pacing (R324 to R328,
R150), gatherers (R335), transfers of a group as their sender makes them (R424, R425), and the engines' allocation watchdog (R387). -/

namespace Sys2Proof.Machine

/-! Sending to a group (R420, R424, R425). -/

/-- A transfer that has started. -/
def windowUsed (s : State) (g : BitVec 8) : Nat := (s.transfers.filter (fun t => t.started && t.group == g)).length

/-- The members of a group that a transfer is sent to: all but the own package. -/
def otherMembers (s : State) (e : File 1 W64) : List Nat := (groupMembers e).filter (· != s.pkgId)

/-- A new transfer of a group. -/
def addTransfer (s : State) (t : Transfer) : State := { s with transfers := s.transfers ++ [t], nextId := s.nextId + 1 }

/-- Whether every remote member of a transfer has answered. -/
def answered (s : State) (id : Option Nat) : Bool :=
  match id with
  | none => true
  | some n => s.transfers.all (fun t => t.id != n || (t.started && t.waiting.isEmpty))

/-! Copies. -/

/-- A copy that may start to move: it has not been stopped with its team. -/
def liveCopy (s : State) (c : CoreId) (x : CtxId) (id : Nat) : Option Copy := ((s.engine c x).copy id).filter (fun k => !k.aborted)

/-- The remaining bytes of a started copy move, and it completes once all have performed and every member has answered. -/
def completeCopy (s : State) (c : CoreId) (x : CtxId) (k : Copy) : State :=
  match moveOn c x (walkRuns k.shape + 1) (walkBytes k.shape) s k with
  | .go t q => if walkBytes q.shape ≤ q.moved ∧ answered t q.xfer then finishCopy t c x q else putCopy t c x q
  | m => afterMove c x m

/-- The runs of a walk in its source tile: their offsets. -/
def tileRuns (sh : File 4 W64) : List Nat := (List.range (walkRuns sh)).map (fun r => (walkOff sh (srcStride sh) r).toNat)

/-- The acquire of a consuming copy over the regions bound to its tile (R252, R271), which may report a write-back error to its context
(R263). -/
def acquireCopy (s : State) (c : CoreId) (x : CtxId) (k : Copy) : State :=
  let sel := bound k.bind 3 k.src
  match reported s c sel with
  | some (l, t) =>
    let y := t.ctx c x
    acquire (t.setCtx c x (y.pend { cause := .eccue, info := l ||| 1, pc := y.r.pc, words := 0 })) c 2 sel
  | none => acquire s c 2 sel

/-- A consuming copy starts to read its tile (R272, R314): it waits while the tile is OPEN, and then acquires and spends one read. A word that
its walk reads and that holds an uncorrectable error is read once more (R319, R378). A handle whose pool has become invalid since its issue
matches no tile: it fails with TSTALE reason 1, by R267's words, where the check at issue gives 3 (DEDUCED, log 102). -/
def startConsuming (s : State) (c : CoreId) (x : CtxId) (k : Copy) : State :=
  let key := keyScratch (handleCore k.src) (tileOffset s k.src)
  let len := runLen k.shape
  if !handleMatches s k.src then failCopy s c x k .tstale (tstaleInfo k.src 1)
  else if (tileOf s k.src).state = .open then putCopy s c x { k with waiting := true }
  else match (tileRuns k.shape).find? (fun o => uncorrectable s (key + o) len) with
    | some o =>
      afterMove c x (copyBad s k (key + o) len ((tileAddr s k.src + BitVec.ofNat 64 (o + badOffset s (key + o) len)) &&& ~~~7))
    | none =>
      let s := (tileRuns k.shape).foldl (fun s o => eccCorrect s c (key + o) len) s
      let k := { k with started := true, waiting := false, data := some (s.mem.readRun key (poolOf s k.src).tsize) }
      spendTile (acquireCopy (putCopy s c x k) c x k) k.src

/-- A copy into a tile asks for it (R316). -/
def startTile (s : State) (c : CoreId) (x : CtxId) (k : Copy) : State :=
  let q : Fin 16 := ⟨shField k.shape 4 % 16, by omega⟩
  askTile (putCopy s c x { k with started := true, waiting := true }) (scratchCore c k.dst) q
    { who := .copy c x k.id, share := BitVec.ofNat 2 (shField k.shape 5), reads := BitVec.ofNat 12 (shField k.shape 6),
      team := (s.ctx c x).job.team, since := s.cycle }

/-- A multicast waits for a slot of its group's window. -/
def startMulticast (s : State) (c : CoreId) (x : CtxId) (k : Copy) : State :=
  match s.group (shField k.shape 7) with
  | none => failCopy s c x k .bounds (BitVec.ofNat 64 (2 * 2 ^ 56 + k.dst.toNat % 2 ^ 56))
  | some e =>
    let t : Transfer := { id := s.nextId, group := BitVec.ofNat 8 (shField k.shape 7), part := s.partIdOf c, waiting := otherMembers s e,
                          error := none, copy := some (c, x, k.id), slip := none, started := false, ctx := some (c, x) }
    putCopy (addTransfer s t) c x { k with started := true, waiting := true, xfer := some s.nextId }

/-- The copy whose walk starts next: the first in issue order that has not started (R345). The request of a cpyt, and the wait of a
multicast for its window, count as their start (log 42). -/
def nextWalk (s : State) (c : CoreId) (x : CtxId) : Option Copy := (s.engine c x).copies.find? (fun k => !k.started && !k.aborted)

/-- COPY_WALK_START (R310, R314, R316, R345, R424). -/
def execCopyWalkStart (c : CoreId) (x : CtxId) (id : Nat) (s : State) : Answer :=
  match nextWalk s c x with
  | none => .next s
  | some k =>
    if k.id ≠ id then .next s
    else match k.form with
      | .plain =>
        if shField k.shape 6 = 1 ∧ ¬ qsrc k.shape then .next (startConsuming s c x k)
        else .next (putCopy s c x { k with started := true })
      | .tile => .next (startTile s c x k)
      | .mcast => .next (startMulticast s c x k)
      | _ => .next (putCopy s c x { k with started := true })

/-- A copy that moves: started, and waiting for nothing. -/
def movingCopy (s : State) (c : CoreId) (x : CtxId) (id : Nat) : Option Copy :=
  (liveCopy s c x id).filter (fun k => k.started && !k.waiting)

/-- COPY_COMPLETE (R312): the rest of the bytes perform, and the copy completes. -/
def execCopyComplete (c : CoreId) (x : CtxId) (id : Nat) (s : State) : Answer :=
  match movingCopy s c x id with
  | some k => .next (completeCopy s c x k)
  | none => .next s

/-- Bytes from the place of a copy to the end of its run. -/
def runLeft (k : Copy) : Nat := runLen k.shape - k.moved % runLen k.shape

/-- SYNC_WORD_ARRIVAL (R322): so many bytes of a kind-2 copy perform and are counted. -/
def execSyncWordArrival (c : CoreId) (x : CtxId) (id bytes : Nat) (s : State) : Answer :=
  match movingCopy s c x id with
  | some k => if k.kind = 2 ∧ k.form ≠ .add then .next (moveBytes s c x k (min bytes (walkBytes k.shape))) else .next s
  | none => .next s

/-- DESTINATION_ACCUMULATE (R321): the next element of a cpyadd is added. -/
def execDestinationAccumulate (c : CoreId) (x : CtxId) (id : Nat) (s : State) : Answer :=
  match movingCopy s c x id with
  | some k => if k.form = .add then .next (moveBytes s c x k (accElem k.shape)) else .next s
  | none => .next s

/-- GATHER_PAGE_LANDED (R317): the next run of a gather is read, when its page is not in transit. -/
def execGatherPageLanded (c : CoreId) (x : CtxId) (id : Nat) (s : State) : Answer :=
  match movingCopy s c x id with
  | some k => if k.form = .gather then .next (moveBytes s c x k (runLeft k)) else .next s
  | none => .next s

/-- Cause and trap_info of what stops a walk from outside (R224, R319, R425). -/
def engineCause : EngineFault → Cause × W64
  | .pageRefused va => (.page, (va &&& ~~~7) ||| 1)
  | .uncorrectable va => (.eccue, va &&& ~~~7)
  | .fabric code info => (Cause.ofCode code, info)

/-- COPY_ERROR (R319): what the host, a memory or the fabric answered stops the walk. -/
def execCopyError (c : CoreId) (x : CtxId) (id : Nat) (f : EngineFault) (s : State) : Answer :=
  match liveCopy s c x id with
  | some k => if k.started then .next (failCopy s c x k (engineCause f).1 (engineCause f).2) else .next s
  | none => .next s

/-! Slips (R325, R326). -/

/-- Word i of a slip. -/
def Slip.word (p : Slip) (i : Nat) : W64 := (p.words[i]?).getD 0
/-- Bytes of a slip. -/
def Slip.bytes (p : Slip) : Nat := wbits (p.word 2) 0 32
/-- Hop kind. -/
def Slip.hop (p : Slip) : Nat := wbits (p.word 2) 32 8
/-- Multicast group. -/
def Slip.group (p : Slip) : Nat := wbits (p.word 2) 40 8
/-- Pool. -/
def Slip.pool (p : Slip) : Fin 16 := ⟨wbits (p.word 2) 48 4, by unfold wbits; omega⟩
/-- Reads per tile. -/
def Slip.reads (p : Slip) : Nat := wbits (p.word 2) 52 12
/-- Share. -/
def Slip.share (p : Slip) : Nat := wbits (p.word 1) 40 2
/-- Core of the die that the destination names. -/
def Slip.core (it : ItinId) (p : Slip) : CoreId := ⟨it.val / 16 * 64 + wbits (p.word 1) 32 6, by unfold wbits; omega⟩
/-- Mailbox offset. -/
def Slip.mailbox (p : Slip) : Nat := wbits (p.word 1) 0 22

/-- Place of the bytes from va in an extent of a tier. -/
def tierPlace (s : State) (y : Itin) (acc : Access) (va : W64) (n tier : Nat) : Option Nat :=
  match placeIn s y.part y.core acc va n with
  | .ok (.tier e pa) => if e.tier = tier then some (Place.tier e pa).key else none
  | _ => none

/-- Key of a slip's source. -/
def slipSrc (s : State) (y : Itin) (p : Slip) : Option Nat :=
  tierPlace s y .read (p.word 0) p.bytes (match p.hop with
    | 1 => 3
    | 2 => 2
    | _ => 1)

/-- Key and length of a slip's destination range: the mailbox of a tile. -/
def slipDst (s : State) (it : ItinId) (y : Itin) (p : Slip) : Option (Nat × Nat) :=
  if p.hop ≤ 2 then (tierPlace s y .write (p.word 1) p.bytes (3 - p.hop)).map (fun k => (k, p.bytes))
  else some (keyScratch (p.core it) p.mailbox, 8)

/-- Destination word of a slip that names a tile. -/
def slipTileOk (s : State) (it : ItinId) (y : Itin) (p : Slip) : Bool :=
  let q := s.pool (p.core it) p.pool
  wbits (p.word 1) 22 10 == 0 && wbits (p.word 1) 38 2 == 0 && wbits (p.word 1) 42 22 == 0 && decide (p.mailbox % 8 = 0)
    && s.partOf (p.core it) == some y.part && !(s.core (p.core it)).out && q.valid && decide (1 ≤ p.bytes ∧ p.bytes ≤ q.tsize)
    && decide (1 ≤ p.reads)

/-- The group of a slip of kind 4 (R423). -/
def slipGroupOk (s : State) (y : Itin) (p : Slip) : Bool :=
  match s.group p.group with
  | some e => decide (p.group ≠ 0) && groupValid e && groupOwner e == y.part.val && groupMode e == 0
  | none => false

/-- Why a slip is invalid (R325, R328). -/
def slipFault (s : State) (it : ItinId) (y : Itin) (p : Slip) : Option Cause :=
  if p.hop = 0 ∨ 4 < p.hop ∨ (p.group ≠ 0 ∧ p.hop ≠ 4) then some .bounds
  else if p.hop ≤ 2 ∧ p.bytes % 64 ≠ 0 then some .bounds
  else if 3 ≤ p.hop ∧ !slipTileOk s it y p then some .bounds
  else if p.hop = 4 ∧ !slipGroupOk s y p then some .bounds
  else if (slipSrc s y p).isNone ∨ (slipDst s it y p).isNone then some .txlate
  else none

/-- Two ranges overlap. -/
def overlaps (a b : Nat × Nat) : Bool := decide (a.1 < b.1 + b.2) && decide (b.1 < a.1 + a.2)

/-- A slip's number belongs to the present run. -/
def Slip.current (y : Itin) (p : Slip) : Bool := decide (y.base < p.num)

/-! The timeline counter, the future and the pacing of an itinerary (R306, R327, R328). -/

/-- The counter: every slip up to it has completed; those that an ERROR keeps from starting count as complete (R348). -/
def Itin.settle (y : Itin) : Itin :=
  let top := if y.state = .error then y.issued else y.base + y.started
  { y with counter := match (y.flight.map (fun p => p.num)).min? with
      | some n => n - 1
      | none => top }

/-- The code of the largest stretch that anything requests of a core: narrowing and a degraded bank request 2, code 4 (R149, R150). -/
def wantedStretch (k : Core) : BitVec 3 :=
  let fixed : BitVec 3 := if k.narrow ∨ k.degraded ≠ [] then 4 else 0
  k.pace.foldl (fun a p => if a.toNat < p.2.toNat then p.2 else a) fixed

/-- A change of the requests takes effect at the next cycle; until then the stretch in force stays (R150). -/
def applyStretch (s : State) (c : CoreId) : State :=
  let k := s.core c
  let was := stretchNow s k
  if wantedStretch k = k.stretch then s
  else s.setCore c { k with stretch := wantedStretch k, stretchFrom := s.cycle + 1, stretchWas := was.1, stretchWasFrom := was.2 }

/-- Core k of the die of an itinerary. -/
def itCore (it : ItinId) (k : Fin 64) : CoreId := ⟨it.val / 16 * 64 + k.val, by omega⟩

/-- The stretch that an itinerary requests, on every core that it names. -/
def pace (s : State) (it : ItinId) (code : BitVec 3) : State :=
  let y := s.itin it
  if y.pace = code then s
  else
    let s := s.setItin it { y with pace := code }
    (List.finRange 64).foldl (fun s k =>
      if wbit y.desc[4] k.val then
        let c := itCore it k
        let rest := (s.core c).pace.filter (fun p => p.1 != it)
        applyStretch (s.setCore c { s.core c with pace := if code = 0 then rest else (it, code) :: rest }) c
      else s) s

/-- The future of an itinerary is resolved or poisoned. -/
def itFuture (s : State) (it : ItinId) (state : Nat) (value : W64) : State :=
  let y := s.itin it
  if y.desc[6] = 0 then s
  else match resolveFuture s y.core y.desc[6] state value with
    | .ok t => t
    | .error _ => s

/-- A slip that ERROR stops: it waits for a tile or for its window, or its tile is OPEN and no byte has moved into it (log 43). -/
def Slip.idle (p : Slip) : Bool := p.waiting || (p.tile.isSome && !p.moved)

/-- A slip stops: its request leaves its pool's queue, its OPEN tile becomes FREE, and its transfer no longer names it (R316, R328). -/
def stopSlip (s : State) (it : ItinId) (p : Slip) : State :=
  let s := withdraw s (p.core it) (.slip it p.num)
  let s := match p.tile with
    | some h => if p.moved then s else freeTile s h
    | none => s
  dropTransfer s p.xfer

/-- An itinerary enters ERROR (R328). -/
def failItin (s : State) (it : ItinId) (cause : Cause) : State :=
  let y := s.itin it
  if y.state ≠ .running ∧ y.state ≠ .draining then s
  else
    let idle := y.flight.filter (fun p => p.current y && p.idle)
    let s := idle.foldl (fun s p => stopSlip s it p) s
    let y := { s.itin it with state := .error, cause := cause.code, flight := y.flight.filter (fun p => !idle.contains p) }
    itFuture (pace (s.setItin it y.settle) it 0) it 3 (BitVec.ofNat 64 cause.code.toNat)

/-- A slip fails: it gives up its tile, and its itinerary enters ERROR. -/
def failSlip (s : State) (it : ItinId) (p : Slip) (cause : Cause) : State :=
  let s := stopSlip s it p
  let y := s.itin it
  let y := { y with flight := y.flight.filter (fun q => q.num != p.num) }
  let s := s.setItin it y.settle
  if p.current y then failItin s it cause else s

/-- Lateness after a slip with deadline d that completes now (R327). -/
def latenessNow (s : State) (y : Itin) (d : Nat) : Int :=
  max (-(2 ^ 31)) (min ((s.now : Int) - y.t0 - d) (2 ^ 31 - 1))

/-- The stretch code of a lateness (R327). -/
def paceCode (y : Itin) (late : Int) : BitVec 3 :=
  ([1, 2, 3, 4, 5, 6].foldl (fun a c => if itThr y.desc c ≠ 0 ∧ (256 * itThr y.desc c : Int) ≤ late then BitVec.ofNat 3 c else a) 0)

/-- The deadline of a slip of the present run: its own plus the periods of the passes before (R326). -/
def slipDeadline (y : Itin) (p : Slip) : Nat := wbits (p.word 3) 0 48 + (p.num - y.base - 1) / itSlips y * itPeriod y

/-- The bytes that a slip has written in an extent are noted for those that observe its completion (R312, R326). -/
def noteSlip (s : State) (it : ItinId) (p : Slip) : State :=
  if p.hop ≤ 2 then
    noteLanded s { via := .slip it p.num, dst := p.word 1, shape := shPut (Vector.replicate _ 0) 0 1, run := p.bytes }
  else s

/-- A slip completes (R306, R327, R328). -/
def finishSlip (s : State) (it : ItinId) (p : Slip) : State :=
  let s := noteSlip (dropTransfer s p.xfer) it p
  let y := s.itin it
  let y := { y with flight := y.flight.filter (fun q => q.num != p.num) }
  if !p.current y then s.setItin it y.settle
  else
    let d := slipDeadline y p
    let y := if d = 0 then y else
      let l := latenessNow s y d
      { y with lateness := l, maxLate := some (match y.maxLate with
          | some m => max m l
          | none => l) }
    let s := s.setItin it y.settle
    let live := y.state = .running ∨ y.state = .draining
    let s := if d ≠ 0 ∧ live then pace s it (paceCode y y.lateness) else s
    if y.state = .draining ∧ ¬ y.flight.any (fun q => q.current y) then
      let s := pace (s.setItin it { s.itin it with state := .done }) it 0
      itFuture s it 2 (BitVec.ofInt 64 (y.maxLate.getD 0))
    else s

/-- A slip's tile is asked for on a core (R326, R424): of kind 4, for the receiver team of its group, as every member does (R278). -/
def askSlipTile (s : State) (it : ItinId) (p : Slip) : State :=
  askTile s (p.core it) p.pool { who := .slip it p.num, share := BitVec.ofNat 2 p.share, reads := BitVec.ofNat 12 p.reads,
                                 team := if p.hop = 4 then receiverTeam p.group else (s.itin it).team, since := s.cycle }

/-- A slip in flight brought up to date. -/
def putSlip (s : State) (it : ItinId) (p : Slip) : State :=
  let y := s.itin it
  s.setItin it { y with flight := y.flight.map (fun q => if q.num = p.num then p else q) }

/-- Blocks of 64 bytes that the bytes of a slip take at the T1 and T2 controllers, in its source and its destination (R386); a multicast's source
is read as it starts. -/
def slipBlocks (s : State) (it : ItinId) (p : Slip) : List Nat :=
  let y := s.itin it
  (match (if p.hop = 4 then none else slipSrc s y p) with
    | some k => keyBlocks k p.bytes
    | none => []) ++ (match slipDst s it y p with
    | some (k, n) => keyBlocks k n
    | none => [])

/-- What the bytes of a slip in its source come to: the bytes, a second read of the engine, or a failure (R328, R378). -/
inductive SlipRead where
  | bytes (bs : List Byte) (s : State)
  | again (s : State)
  | fail (cause : Cause)

/-- The bytes of a slip in its source. -/
def slipData (s : State) (it : ItinId) (p : Slip) : SlipRead :=
  let y := s.itin it
  match slipSrc s y p with
  | none => .fail .txlate
  | some k =>
    if !uncorrectable s k p.bytes then .bytes (s.mem.readRun k p.bytes) (eccCorrect s y.core k p.bytes)
    else if p.retried then .fail .eccue else .again (putSlip (mendRead s k p.bytes) it { p with retried := true })

/-- A slip's bytes into its granted tile: moved, published, and the mailbox written (R316, R326). -/
def fillTile (s : State) (it : ItinId) (p : Slip) (h : W64) (bs : List Byte) : State :=
  let s := s.writeAt (keyScratch (handleCore h) (tileOffset s h)) bs
  (serveReads (publishTile s h) h).writeAt (keyScratch (p.core it) p.mailbox) (leBytes 8 (h.toNat % 2 ^ 63 + 2 ^ 63))

/-- A slip whose bytes have performed here is complete once every member has answered. -/
def slipMoved (s : State) (it : ItinId) (p : Slip) : State :=
  if answered s p.xfer then finishSlip s it p else putSlip s it { p with moved := true }

/-- SLIP_COMPLETE (R326): the bytes of a slip perform, and it completes; an exhausted budget delays it (R386). -/
def execSlipComplete (it : ItinId) (num : Nat) (s : State) : Answer :=
  let y := s.itin it
  match y.flight.find? (fun p => p.num == num) with
  | none => .next s
  | some p =>
    if p.waiting then .next s
    else if p.moved ∨ (p.hop = 4 ∧ p.tile.isNone) then .next (slipMoved s it p)
    else if !memReady s y.part (slipBlocks s it p) then .next s
    else match slipData s it p with
      | .fail cause => .next (failSlip s it p cause)
      | .again t => .next t
      | .bytes bs t =>
        let t := spendMem t y.part (slipBlocks s it p)
        match p.tile, slipDst s it y p with
        | some h, _ => .next (slipMoved (fillTile t it p h bs) it p)
        | none, some (k, _) => .next (slipMoved (t.writeAt k bs) it p)
        | none, none => .next (failSlip s it p .txlate)

/-- SLIP_FAILURE (R328): data uncorrectable after the retry, or an answer of the fabric, stops a slip. -/
def execSlipFailure (it : ItinId) (num : Nat) (f : EngineFault) (s : State) : Answer :=
  match (s.itin it).flight.find? (fun p => p.num == num) with
  | some p => .next (failSlip s it p (engineCause f).1)
  | none => .next s

/-! A transfer's start (R424, R425). -/

/-- Bytes of a run in packets of at most 4,096 payload bytes; the first byte of the list stands at `addr`. -/
def chunks : Nat → W64 → List Byte → List (W64 × List Byte)
  | 0, _, _ => []
  | n + 1, addr, bs =>
    if bs.length ≤ 4096 then [(addr, bs)] else (addr, bs.take 4096) :: chunks n (addr + 4096) (bs.drop 4096)

/-- The runs of a walk, destination address and bytes of each; or what keeps a run from being read. -/
def copyRuns (s : State) (c : CoreId) (k : Copy) : Except Got (State × List (W64 × List Byte)) :=
  (List.range (walkRuns k.shape)).foldl (fun acc r =>
    match acc with
    | .error g => .error g
    | .ok (t, l) => match copyRead t c k r 0 (runLen k.shape) with
      | .bytes bs t => .ok (t, l ++ [(k.dst + walkOff k.shape (dstStride k.shape) r, bs)])
      | g => .error g) (.ok (s, []))

/-- A copy that cannot read its source waits, asks, reads once more, or ends (R224, R319). -/
def barCopy (s : State) (c : CoreId) (x : CtxId) (k : Copy) : Got → State
  | .bytes _ t | .wait t => t
  | .page va => afterMove c x (askCopyPage s c x k va)
  | .bad key n info => afterMove c x (copyBad s k key n info)
  | .skip cause info | .fail cause info => failCopy s c x k cause info

/-- What a package keeps of a transfer's packets. -/
structure Sending where
  kind : Nat
  pieces : List (W64 × List Byte)
  aux : W64

/-- The packets of a transfer go to every other member, one after the other (R420, R426). -/
def sendTransfer (s : State) (t : Transfer) (e : File 1 W64) (w : Sending) : State :=
  let n := w.pieces.length
  let h : Nat → Nat → W64 → Header := fun d i a => {
    kind := w.kind, dpkg := d, dpart := (groupPart e).val, spart := t.part.val, group := t.group.toNat, last := i + 1 == n,
    addr := a, xfer := t.id, cause := 0, aux := w.aux }
  t.waiting.foldl (fun s d => w.pieces.zipIdx.foldl (fun s q => sendPacket s (mkPacket s (h d q.2 q.1.1) q.1.2)) s) s

/-- Kind of the packets of a group's mode. -/
def modeKind (mode : Nat) : Nat := match mode with
  | 1 => 4
  | 2 => 5
  | _ => 1

/-- The transfer has its window slot. -/
def setStarted (s : State) (id : Nat) : State :=
  { s with transfers := s.transfers.map (fun t => if t.id = id then { t with started := true } else t) }

/-- trap_info of a transfer that cannot be sent (R420). -/
def unsentInfo (dst : W64) : W64 := (dst &&& ~~~7) ||| 6

/-- A multicast copy takes its window slot and leaves. -/
def startCopyTransfer (s : State) (t : Transfer) (e : File 1 W64) (c : CoreId) (x : CtxId) (k : Copy) : State :=
  if !t.waiting.all (reachable s) then failCopy s c x k .txlate (unsentInfo k.dst)
  else match copyRuns s c k with
    | .error g => barCopy s c x k g
    | .ok (s, runs) =>
      let pieces := runs.flatMap (fun r => chunks (r.2.length / 4096 + 1) r.1 r.2)
      let aux := copyAuxWord c (if k.kind = 2 then some k.caddr else none)
      let s := sendTransfer s t e { kind := modeKind (groupMode e), pieces := pieces, aux := aux }
      putCopy (setStarted s t.id) c x { k with waiting := false, page := none }

/-- A table load that changes the group waits for its window to empty (R421). -/
def groupChanging (s : State) (g : BitVec 8) (e : File 1 W64) : Bool :=
  match s.groupLoad with
  | some l => l.find? (fun q => q.1 == g.toNat) != some (g.toNat, e)
  | none => false

/-- A transfer of a group may start: its window has a free slot, and no table load waits to change it (R421, R425). -/
def windowOpen (s : State) (g : BitVec 8) (e : File 1 W64) : Bool := decide (windowUsed s g < groupWin e) && !groupChanging s g e

/-- MULTICAST_TRANSFER_START (R421, R425): a copy's transfer starts, to the members that its group has now; one whose group has gone while it
waited ends as one of an invalid group. -/
def execMulticastTransferStart (id : Nat) (s : State) : Answer :=
  match s.transfers.find? (fun t => t.id == id && !t.started) with
  | none => .next s
  | some t => match t.copy with
    | none => .next s
    | some (c, x, n) => match liveCopy s c x n, s.group t.group.toNat with
      | none, _ => .next s
      | some k, none => .next (failCopy s c x k .bounds (BitVec.ofNat 64 (2 * 2 ^ 56 + k.dst.toNat % 2 ^ 56)))
      | some k, some e =>
        if !windowOpen s t.group e then .next s
        else
          let t := { t with waiting := otherMembers s e }
          let s := { s with transfers := s.transfers.map (fun u => if u.id = t.id then t else u) }
          .next (startCopyTransfer s t e c x k)

/-! The starts of slips (R326, R386, R425). -/

/-- A slip enters its itinerary's flight, and the last one makes the itinerary DRAINING. -/
def enterFlight (s : State) (it : ItinId) (p : Slip) : State :=
  let y := s.itin it
  let y := { y with started := y.started + 1, state := if y.started + 1 = itPasses y * itSlips y then .draining else y.state }
  s.setItin it { y with flight := y.flight ++ [p] }.settle

/-- A slip of kind 4 takes its window slot and leaves; a package that is a member asks for its own tile. Its engine reads the source once more
when it is uncorrectable (R378). -/
def startSlipTransfer (s : State) (it : ItinId) (p : Slip) (e : File 1 W64) : State :=
  let t : Transfer := { id := s.nextId, group := BitVec.ofNat 8 p.group, part := (s.itin it).part, waiting := otherMembers s e,
                        error := none, copy := none, slip := some (it, p.num), started := true, ctx := none }
  let mine := (groupMembers e).contains s.pkgId
  let p := { p with waiting := mine, xfer := some s.nextId }
  let s := enterFlight (addTransfer s t) it p
  if !t.waiting.all (reachable s) then failSlip s it p .txlate
  else
    let y := s.itin it
    let key := (slipSrc s y p).getD 0
    let s := if uncorrectable s key p.bytes then mendRead s key p.bytes else s
    if uncorrectable s key p.bytes then failSlip s it p .eccue
    else
      let bs := s.mem.readRun key p.bytes
      let s := spendMem (eccCorrect s y.core key p.bytes) y.part (keyBlocks key p.bytes)
      let a : SlipAux := { mailbox := p.mailbox, core := p.core it, share := BitVec.ofNat 2 p.share, pool := p.pool,
                           reads := BitVec.ofNat 12 p.reads }
      let s := sendTransfer s t e { kind := 1, pieces := chunks (bs.length / 4096 + 1) 0 bs, aux := slipAuxWord a }
      if mine then askSlipTile s it p else s

/-- What a slip of its kind needs to start beyond its window: a multicast's group has a slot for it. -/
def slipGroup (s : State) (p : Slip) : Option (File 1 W64) :=
  (s.group p.group).filter (windowOpen s (BitVec.ofNat 8 p.group))

/-- A valid slip that may start does so; one of kind 4 waits while its group's window is full, and every later slip with it (R326, R425). -/
def startSlip (s : State) (it : ItinId) (p : Slip) : State :=
  match p.hop with
  | 3 => askSlipTile (enterFlight s it { p with waiting := true }) it p
  | 4 => match slipGroup s p with
    | some e => startSlipTransfer s it p e
    | none => s
  | _ => enterFlight s it p

/-- Destination ranges of the slips in flight that meet a range. -/
def meetsFlight (s : State) (it : ItinId) (y : Itin) (mine : List (Nat × Nat)) : Bool :=
  y.flight.any (fun f => match slipDst s it y f with
    | some r => mine.any (overlaps r)
    | none => false)

/-- SLIP_START (R326): the next slip is read and checked, and starts when its window and the ranges before it allow. -/
def execSlipStart (it : ItinId) (s : State) : Answer :=
  let y := s.itin it
  if y.state ≠ .running ∨ itPasses y * itSlips y ≤ y.started then .next s
  else
    let va := itRing y + BitVec.ofNat 64 (32 * (y.started % itSlips y))
    match placeIn s y.part y.core .read va 32 with
    | .error _ => .next (failItin s it .txlate)
    | .ok q =>
      if !memReady s y.part (q.blocks 32) then .next s
      else
      let s := if uncorrectable s q.key 32 then mendRead s q.key 32 else eccCorrect s y.core q.key 32
      let bs := s.mem.readRun q.key 32
      let p : Slip := { num := y.base + y.started + 1, words := Vector.ofFn (fun i : Fin (2 ^ 2) => leWord 64 ((bs.drop (8 * i.val)).take 8)),
                        waiting := false, tile := none, moved := false, xfer := none, since := s.cycle, retried := false }
      if uncorrectable s q.key 32 then .next (failItin s it .eccue)
      else match slipFault s it y p with
      | some cause => .next (failItin s it cause)
      | none =>
        let mine := [((slipSrc s y p).getD 0, p.bytes), (slipDst s it y p).getD (0, 0)]
        let s := refreshBudgets s y.part
        if itWindow y p.hop ≤ (y.flight.filter (fun f => f.hop == p.hop)).length ∨ meetsFlight s it y mine
            ∨ (s.part y.part).slipsLeft = some 0
            ∨ (p.hop = 4 ∧ ((slipGroup s p).isNone ∨ !memReady s y.part (keyBlocks ((slipSrc s y p).getD 0) p.bytes))) then .next s
        else
          let s := spendMem s y.part (q.blocks 32)
          let s := s.setPart y.part { s.part y.part with slipsLeft := (s.part y.part).slipsLeft.map (· - 1) }
          .next (startSlip s it p)

/-! Gatherers and the allocation watchdog. -/

/-- GATHERER_DEADLINE (R335): an open batch whose deadline passed in an earlier cycle closes. -/
def execGathererDeadline (g : GathererId) (s : State) : Answer :=
  .next (flushBatches (s.setGatherer g ((s.gatherer g).settle s.cycle)) g)

/-- The NACK of a received transfer (R422, R424, R425). -/
def nackReceive (s : State) (r : Receive) (cause : Cause) (info : W64) : State :=
  let s := { s with receives := s.receives.filter (fun q => q.id != r.id) }
  match r.packets with
  | p :: _ => answerPacket s p 3 cause.code info
  | [] => s

/-- ENGINE_ALLOC_WATCHDOG (R387, R425): an engine's request that waits too long fails with TSTALL; a gatherer's is exempt. -/
def execEngineAllocWatchdog (c : CoreId) (pool : Fin 16) (id : Nat) (s : State) : Answer :=
  let named := fun (r : PoolReq) => match r.who with
    | .copy _ _ n | .slip _ n | .xfer n => n == id
    | _ => false
  match (s.pool c pool).waiting.find? named with
  | none => .next s
  | some r => match overdue s c r with
    | none => .next s
    | some us =>
      let info : W64 := BitVec.ofNat 64 (pool.val + r.share.toNat * 2 ^ 4 + us % 2 ^ 32 * 2 ^ 16)
      match r.who with
      | .copy d x n => match (s.engine d x).copy n with
        | some k => .next (failCopy s d x k .tstall info)
        | none => .next s
      | .slip it n => match (s.itin it).flight.find? (fun p => p.num == n) with
        | some p => .next (failSlip s it p .tstall)
        | none => .next s
      | .xfer n => match s.receives.find? (fun q => q.id == n) with
        | some q => .next (nackReceive (withdraw s c r.who) q .tstall info)
        | none => .next s
      | _ => .next s

end Sys2Proof.Machine
end

