-- ==== Sys2Proof/Machine/Circulation.lean ====
section
/-! DEFINITION. Ageing and promotion of parked pages (R330 to R333). -/

namespace Sys2Proof.Machine

/-- Cycles of a millisecond. -/
def msCycles : Nat := 2000000

/-- Tier below a tier. -/
def lowerTier (tier : Nat) : Nat := tier + 1

/-- A timer of a class runs: it and every one before it is not 0 (R330). -/
def timerOn (cls : File 1 W64) (tier : Nat) : Bool := (List.range tier).all (fun i => classTimer cls i != 0)

/-- The next page at or after i that a demotion of a tier moves: in that tier, unpinned (R330, R333). -/
def nextDemoted (s : State) (h : Shelf) (tier i : Nat) : Option Nat :=
  (List.range h.pages).find? (fun j => decide (i ≤ j) && entryState (tableEntry s h j) == tier && !entryPinned (tableEntry s h j))

/-- The demotion under way goes to its next page: a frame of the lower tier is taken and the move begins; with no frame it gives way to those of
other tiers, and is tried again 1 ms later; with no page left it ends. A page that lies in no extent of its tier becomes POISON (R333). -/
def demoteNext (e : Nat) : Nat → State → State
  | 0, s => s
  | n + 1, s =>
    let h := s.shelfAt e
    match h.demote with
    | none => s
    | some (tier, i) => match nextDemoted s h tier i with
      | none => s.setShelf e { h with demote := none }
      | some j =>
        if (pageKey s h.part tier (entryFrame (tableEntry s h j))).isNone then
          let s := s.setShelf e { h with demote := some (tier, j + 1) }
          demoteNext e n (poisonPage s e j)
        else match takeFrames s h.part (lowerTier tier) 1 with
          | some (f :: _, t) =>
            let h := t.shelfAt e
            t.setShelf e { h with demote := some (tier, j), move := some { page := j, frame := f, tier := lowerTier tier } }
          | _ => s.setShelf e { h with demote := none, stalled := h.stalled ++ [(tier, j, s.cycle + msCycles)] }

/-- DEMOTION_TIMER (R330): the timer of a tier has expired in an earlier cycle, so that a wake of the cycle of the expiry is taken first
(R333). -/
def execDemotionTimer (e : Nat) (tier : Nat) (s : State) : Answer :=
  let h := s.shelfAt e
  if h.state ≠ .parked ∨ tier = 0 ∨ 3 < tier ∨ !timerOn h.cls tier ∨ h.demote.isSome
      ∨ wbits (BitVec.ofNat 64 h.timers.toNat) (tier - 1) 1 = 1
      ∨ s.cycle ≤ h.parkedAt + classTimer h.cls (tier - 1) * msCycles then .next s
  else
    let h := { h with timers := h.timers ||| BitVec.ofNat 3 (2 ^ (tier - 1)), demote := some (tier, 0) }
    .next (demoteNext e (h.pages + 1) (s.setShelf e h))

/-- DEMOTION_RETRY (R330): a move that found no frame is tried again, once no other page moves. -/
def execDemotionRetry (e : Nat) (s : State) : Answer :=
  let h := s.shelfAt e
  match h.stalled.find? (fun d => decide (d.2.2 ≤ s.cycle)) with
  | some d =>
    if h.state ≠ .parked ∨ h.demote.isSome then .next s
    else .next (demoteNext e (h.pages + 1) (s.setShelf e { h with demote := some (d.1, d.2.1), stalled := h.stalled.erase d }))
  | none => .next s

/-- The bytes of a page move between keys, and the CRC values kept for the old place go. -/
def movePage (s : State) (src dst : Nat) : State :=
  (dropCrcs s (some src)).writeAt dst (s.mem.readRun src pageBytes)

/-- The CRC-32C values that a page carries downwards (R330): taken as it leaves T1 or T2, and kept from T3 to T4. -/
def demotedCrcs (s : State) (h : Shelf) (page tier key : Nat) : List W32 :=
  if tier ≤ 2 then pageCrcs s key else aget (heldCrcs s key) h.crcs page

/-- A page of a shelf entry moves to a lower tier with its CRC values, which stay with the page at its new place (R330). -/
def demotePage (s : State) (e page tier src dst : Nat) : State :=
  let h := s.shelfAt e
  let v := demotedCrcs s h page tier src
  let t := movePage s src dst
  { t with crcs := aset t.crcs dst v }.setShelf e { h with crcs := aset h.crcs page v }

/-- Blocks of the T1 and T2 controllers that the move of a page asks for (R386). -/
def moveBlocks (src dst : Option Nat) : List Nat :=
  (match src with
    | some k => keyBlocks k pageBytes
    | none => []) ++ (match dst with
    | some k => keyBlocks k pageBytes
    | none => [])

/-- DEMOTION_MOVE_DONE (R330, R331, R391): the page stands in the lower tier, its CRC values kept, and the old frame returns; one that lies in no
extent becomes POISON, and the frame taken for it returns. A wake that came meanwhile goes on now. -/
def execDemotionMoveDone (e : Nat) (s : State) : Answer :=
  let h := s.shelfAt e
  match h.move with
  | none => .next s
  | some m =>
    let w := tableEntry s h m.page
    let source := pageKey s h.part (entryState w) (entryFrame w)
    let target := pageKey s h.part m.tier m.frame
    let blocks := moveBlocks source target
    let unused := fun (t : State) => (giveFrame t h.part m.tier m.frame).map (fun t => poisonPage t e m.page)
    let moved := if !memReady s h.part blocks then none else match source with
      | none => unused s
      | some src => match target with
        | none => (giveFrame (dropCrcs s (some src)) h.part (entryState w) (entryFrame w)).bind unused
        | some dst => (giveFrame (spendMem s h.part blocks) h.part (entryState w) (entryFrame w)).map (fun t =>
            let t := demotePage t e m.page (entryState w) src dst
            putEntry t (t.shelfAt e) m.page m.tier m.frame)
    match moved with
    | none => .next s
    | some s =>
      let h := s.shelfAt e
      let s := s.setShelf e { h with move := none }
      if h.state = .waking then .next (promote s e)
      else .next (demoteNext e (h.pages + 1) (s.setShelf e { s.shelfAt e with demote := h.demote.map (fun d => (d.1, d.2 + 1)) }))

/-- PROMOTION_RESUME (R331): frames have come back to the T1 list. -/
def execPromotionResume (e : Nat) (s : State) : Answer := .next (promote s e)

/-- A page passes its check: every sector has the CRC-32C kept for it; a page without values passes (R330). -/
def crcOk (s : State) (h : Shelf) (page key : Nat) : Bool :=
  match h.crcs.find? (fun q => q.1 == page) with
  | some q => q.2 == pageCrcs s key
  | none => true

/-- A promotion into a T1 frame has failed: the frame is marked until it is taken again (R317), and every gather that was held on it finds
its page POISON, whatever becomes of the frame (R332). -/
def failFrame (s : State) (p : PartId) (f : Nat) : State :=
  let mark := fun (e : W64) => if entryState e = 5 ∧ entryFrame e = f then entryPut e 6 0 else e
  let s := { s with cores := Vector.ofFn (fun c : CoreId =>
    let k := s.core c
    if s.partIdOf c = p then
      { k with engine := k.engine.map (fun (g : Engine) =>
          ({ g with copies := g.copies.map (fun (q : Copy) => ({ q with entries := q.entries.map mark } : Copy)) } : Engine)) }
    else k) }
  s.setPart p { s.part p with failed := f :: (s.part p).failed }

/-- PROMOTION_MOVE_DONE (R331, R332): the first page in transit has arrived in its T1 frame and is checked; its old frame returns. -/
def execPromotionMoveDone (e : Nat) (s : State) : Answer :=
  let h := s.shelfAt e
  match h.sources with
  | [] => .next s
  | (i, w, f) :: rest =>
    let blocks := moveBlocks (pageKey s h.part (entryState w) (entryFrame w)) (pageKey s h.part 1 f)
    if h.state ≠ .waking ∨ h.move.isSome ∨ !memReady s h.part blocks then .next s
    else match giveFrame (spendMem s h.part blocks) h.part (entryState w) (entryFrame w) with
      | none => .next s
      | some t =>
        let done := fun (t : State) => settleWake (t.setShelf e { t.shelfAt e with sources := rest }) e
        let fail := fun (t : State) =>
          let t := poisonPage (dropCrcs t (pageKey t h.part (entryState w) (entryFrame w))) e i
          match giveFrame t h.part 1 f with
          | some u => some (done (failFrame u h.part f))
          | none => none
        match pageKey t h.part (entryState w) (entryFrame w), pageKey t h.part 1 f with
        | some src, some dst =>
          if crcOk t h i src then
            let t := movePage t src dst
            .next (done (putEntry t (t.shelfAt e) i 1 f))
          else .next ((fail t).getD s)
        | _, _ => .next ((fail t).getD s)

/-- WAKE_WRITE (R331, R333): the host's wake of a token, delivered in the partition that it names. -/
def execWakeWrite (token value : W64) (s : State) : Answer :=
  .next (hostAct s (fun s => wakeToken s ⟨wbits token 32 4, by unfold wbits; omega⟩ token value))

end Sys2Proof.Machine
end

