-- ==== Sys2Proof/Machine/Config.lean ====
section
/-! DEFINITION. What the host does to the registers (R388, R391, R393 to R395, R406, R414 to R416): register writes and reads through
BAR0, host queue pages, configuration operations, weight-store locks, and interrupts. -/

namespace Sys2Proof.Machine

/-! Host queue pages (R416, R417). -/

/-- The host rings a queue's tail. -/
def ringTail (q : QueueId) (tail : Nat) (s : State) : State :=
  let h := s.queue q
  if h.fabric then s else s.setQueue q { h with q2 := wset h.q2 0 16 tail }

/-- HOST_QUEUE_DOORBELL. -/
def execHostQueueDoorbell (q : QueueId) (tail : BitVec 16) (s : State) : Answer := .next (hostAct s (ringTail q tail.toNat))

/-- A write of q1, which is ignored while the queue is enabled (log 18); a queue that is enabled, or whose size changes, starts from slot 0.
DESIGN CHOICE: a size below 4, outside the range that R416 states, leaves the old size (log 44). -/
def writeQueueCtl (h : HostQueue) (v : W64) : HostQueue :=
  if h.en then h
  else
    let size := if wbits v 0 4 < 4 then h.size else wbits v 0 4
    let w := BitVec.ofNat 64 (size + wbits v 8 4 * 2 ^ 8 + wbits v 12 1 * 2 ^ 12 + wbits v 13 1 * 2 ^ 13 + wbits v 16 11 * 2 ^ 16)
    if wbit v 12 ∨ size ≠ h.size then { h with q1 := w, q2 := 0, q4 := 0, full := false } else { h with q1 := w }

/-- A host write of a word of a queue page. -/
def writeQueuePage (q : QueueId) (word : Fin 5) (v : W64) (s : State) : State :=
  let h := s.queue q
  match word with
  | 0 => s.setQueue q { h with q0 := v }
  | 1 => s.setQueue q (writeQueueCtl h v)
  | 2 => ringTail q (wbits v 0 16) s
  | 3 => if h.en then s else s.setQueue q { h with q3 := v }
  | _ => s

/-- HOST_QUEUE_PAGE_WRITE. -/
def execHostQueuePageWrite (q : QueueId) (word : Fin 5) (v : W64) (s : State) : Answer := .next (hostAct s (writeQueuePage q word v))

/-! Interrupts (R393, R415). -/

/-- INTERRUPT_PAGE_WRITE: the host posts INT, with no partition check. -/
def execInterruptPageWrite (v : W64) (s : State) : Answer :=
  .next (hostAct s (fun s => postInt s (intCore v) (intCtx v) (intVector v)))
/-- INT_SEND: a request that was sent reaches its context. -/
def execIntSend (v : W64) (s : State) : Answer := .next (postInt s (intCore v) (intCtx v) (intVector v))

/-! Spill rings (R127). -/

/-- A write of spill_base (0x121) or spill_size (0x122) by the host: only of an allowed value, while the queue and the ring are
empty and no push waits. -/
def writeSpill (s : State) (c : CoreId) (number : Nat) (v : W64) : State :=
  let k := s.core c
  let n := wbits v 0 5
  let allowed := number = 0x121 ∨ n = 0 ∨ (6 ≤ n ∧ n ≤ 16)
  if allowed ∧ k.queue.isEmpty ∧ k.spillCount = 0 ∧ k.heldPushes.isEmpty then
    s.setCore c { k with
      spillBase := if number = 0x121 then v else k.spillBase,
      spillSize := if number = 0x121 then k.spillSize else BitVec.ofNat 5 n,
      spillHead := 0, spillTail := 0, spillCount := 0, spillRefused := false }
  else s.setCore c { k with spillRefused := true }

/-- SPILL_CONFIG_WRITE. -/
def execSpillConfigWrite (c : CoreId) (number : Nat) (v : W64) (s : State) : Answer :=
  .next (hostAct s (fun s => if number = 0x121 ∨ number = 0x122 then writeSpill s c number v else s))

/-! it_own (R388). -/

/-- Dies on which a partition has cores. -/
def diesOf (s : State) (p : PartId) : List DieId :=
  (List.finRange 8).filter (fun d => (List.finRange 16).any (fun q =>
    s.partOfQuad ⟨d.val * 16 + q.val, by omega⟩ == some p))

/-- Itinerary i of a die is RUNNING or DRAINING. -/
def itBusy (s : State) (d : DieId) (i : Nat) : Bool :=
  let y := s.itin ⟨d.val * 16 + i % 16, by omega⟩
  y.state == .running || y.state == .draining

/-- A write of it_own: a bit that another partition of those dies holds is not set, and one whose itinerary runs does not change. -/
def writeItOwn (s : State) (p : PartId) (v : W64) : State :=
  let ds := diesOf s p
  let old := (s.part p).itOwn
  let taken := fun (i : Nat) => (List.finRange 16).any (fun o => o != p && wbit (s.part o).itOwn i && (diesOf s o).any (ds.contains ·))
  let bit := fun (i : Nat) =>
    if wbit v i == wbit old i then wbit old i
    else if ds.any (fun d => itBusy s d i) || (wbit v i && taken i) then wbit old i
    else wbit v i
  let w := (List.range 16).foldl (fun a i => a + (bit i).toNat * 2 ^ i) 0
  s.setPart p { s.part p with itOwn := BitVec.ofNat 64 w }

/-- IT_OWN_WRITE. -/
def execItOwnWrite (p : PartId) (v : W64) (s : State) : Answer := .next (hostAct s (fun s => writeItOwn s p v))

/-! Ring pointers (R391). -/

/-- A write of a free list's control word: tail and size, not head. DESIGN CHOICE: a size outside 6 to 28 leaves the old size
(log 44). -/
def writeFlCtl (k : Part) (i : Fin 4) (v : W64) : Part :=
  let old := k.flCtl[i.val]'i.isLt
  let size := if 6 ≤ wbits v 56 5 ∧ wbits v 56 5 ≤ 28 then wbits v 56 5 else wbits old 56 5
  { k with flCtl := k.flCtl.set i.val (wset (wset old 28 28 (wbits v 28 28)) 56 5 size) i.isLt }

/-- FREE_LIST_TAIL_WRITE: frames that the host adds to a list. -/
def execFreeListTailWrite (p : PartId) (tier : Fin 4) (v : W64) (s : State) : Answer :=
  .next (hostAct s (fun s => s.setPart p (writeFlCtl (s.part p) tier v)))

/-- A write of sring_ctl: head and size, not tail. DESIGN CHOICE: a size outside 6 to 16 leaves the old size (log 44). -/
def writeSringCtl (k : Part) (v : W64) : Part :=
  let size := if 6 ≤ wbits v 32 5 ∧ wbits v 32 5 ≤ 16 then wbits v 32 5 else wbits k.sringCtl 32 5
  { k with sringCtl := wset (wset k.sringCtl 0 16 (wbits v 0 16)) 32 5 size }

/-! Configuration operations (R394). -/

/-- Operation of cfg_op. -/
def cfgKind (v : W64) : Nat := wbits v 0 8
/-- Partition of cfg_op. -/
def cfgPart (v : W64) : PartId := ⟨wbits v 8 4, by unfold wbits; omega⟩
/-- Core of cfg_op. -/
def cfgCore (v : W64) : CoreId := ⟨wbits v 12 9, by unfold wbits; omega⟩
/-- Pool of cfg_op. -/
def cfgPool (v : W64) : Fin 16 := ⟨wbits v 26 4, by unfold wbits; omega⟩
/-- Park class of cfg_op. -/
def cfgClass (v : W64) : BitVec 2 := BitVec.ofNat 2 (wbits v 24 2)
/-- An operation is running. -/
def cfgBusy (s : State) : Bool := wbit s.pkg.cfgOp 31

/-- The written fields, with busy and a result. -/
def cfgWord (v : W64) (busy : Bool) (result : Nat) : W64 :=
  BitVec.ofNat 64 (wbits v 0 21 + wbits v 24 6 * 2 ^ 24 + busy.toNat * 2 ^ 31 + result * 2 ^ 32)

/-- cfg_op names an unknown operation; reserved bits are ignored (R9). -/
def cfgBad (v : W64) : Bool := cfgKind v == 0 || decide (3 < cfgKind v)

/-- The operation has ended with a result. -/
def cfgEnd (s : State) (v : W64) (result : Nat) : State := { s with pkg := { s.pkg with cfgOp := cfgWord v false result } }

/-- What the device's read of n bytes at cfg_addr comes to: they, or none where they cannot be read; or it waits for translations that it asks
for (R223). -/
inductive CfgRead where
  | bytes (bs : List Byte)
  | none
  | wait (s : State)

/-- The n bytes at cfg_addr, in the address space of the partition (log 19). -/
def cfgBytes (s : State) (p : PartId) (n : Nat) : CfgRead :=
  match placeIn s p (coreOfPart s p) .peek s.pkg.cfgAddr n with
  | .error _ => .none
  | .ok q => match q with
    | .host pid va =>
      let pages := hostPages va n
      if pages.any (fun a => hostReach s p a false == .refused) then .none
      else
        let missing := pages.filter (fun a => hostReach s p a false == .missing)
        if missing.isEmpty then .bytes (s.mem.readRun (keyHost pid va) n) else .wait (missing.foldl (fun s a => askHostPort s p a) s)
    | q => .bytes (s.mem.readRun q.key n)

/-- Bytes of a tier's physical range, on a device for T3 and T4 (R222, R239). -/
def tierRange (s : State) (tier dev : Nat) : Option (Nat × Nat) :=
  match tier with
  | 1 => some (0, 2 ^ 37)
  | 2 => some (0, 2 ^ 41)
  | 3 => (s.devices.find? (fun d => d.dev == dev && !d.flash)).map (fun d => (d.base, d.base + d.size))
  | 4 => (s.devices.find? (fun d => d.dev == dev && d.flash)).map (fun d => (d.base, d.base + d.size))
  | _ => none

/-- A valid extent that R222 allows by itself. -/
def extentOk (s : State) (e : Extent) : Bool :=
  decide (16 ≤ e.size ∧ e.size ≤ 38) && wbits e.w0 14 2 == 0 && wbits e.w0 48 16 == 0 && wbits e.w1 8 8 == 0 && wbits e.w1 56 8 == 0
    && decide (e.vbase % e.bytes = 0) && decide (e.pbase % e.bytes = 0) && (!wbit e.w0 13 || decide (e.tier ≤ 2))
    && (decide (2 < e.tier) || e.dev == 0) && match tierRange s e.tier e.dev with
      | some (lo, hi) => decide (lo ≤ e.pbase ∧ e.pbase + e.bytes ≤ hi)
      | none => false

/-- No two extents of a list overlap. -/
def disjoint : List Extent → Bool
  | [] => true
  | e :: t => t.all (fun f => decide (e.vbase + e.bytes ≤ f.vbase) || decide (f.vbase + f.bytes ≤ e.vbase)) && disjoint t

/-- The 512 entries of a table image. -/
def tableOf (bs : List Byte) : List Extent :=
  (List.range 512).map (fun i => { w0 := wordAt bs (2 * i), w1 := wordAt bs (2 * i + 1) })

/-- A copy of a core is incomplete. -/
def coreActive (k : Core) : Bool := k.ctx.toList.any running || k.engine.toList.any (fun e => !e.copies.isEmpty)

/-- The partition holds no continuation, and none of its copies, itineraries and gatherer batches is incomplete. -/
def partIdle (s : State) (p : PartId) : Bool :=
  (coresOf s p).all (fun c => !coreActive (s.core c))
    && s.itins.toList.all (fun y => y.part != p || (y.state != .running && y.state != .draining))
    && s.gatherers.toList.all (fun g => g.part != p || g.batches.isEmpty)

/-- A configuration operation is running. -/
def cfgRuns (s : State) (v : W64) : State := { s with pkg := { s.pkg with cfgOp := cfgWord v true 0 } }

/-- A configuration operation that the host starts, unless one is running (R394). -/
def startCfg (s : State) (f : State → State) : State := if cfgBusy s then s else f s

/-- Op 1 begins: the dispatcher starts no record of the partition from here on. -/
def tableOp (v : W64) (s : State) : State :=
  if cfgBad v ∨ cfgKind v ≠ 1 then cfgEnd s v 2
  else
    let s := cfgRuns s v
    s.setPart (cfgPart v) { s.part (cfgPart v) with loading := true }

/-- CFG_TRANSLATION_TABLE. -/
def execCfgTranslationTable (v : W64) (s : State) : Answer := .next (hostAct s (fun s => startCfg s (tableOp v)))

/-- TABLE_INSTALL: the partition is idle, so its table is checked and installed, or refused (R222). -/
def execTableInstall (p : PartId) (s : State) : Answer :=
  let v := s.pkg.cfgOp
  if !cfgBusy s || cfgKind v != 1 || cfgPart v != p || !partIdle s p then .next s
  else
    let t := s.setPart p { s.part p with loading := false }
    match cfgBytes s p 8192 with
    | .none => .next (cfgEnd t v 3)
    | .wait u => .next u
    | .bytes bs =>
      let es := (tableOf bs).filter (fun e => e.valid)
      if es.all (extentOk s) && disjoint es then .next (cfgEnd (t.setPart p { t.part p with table := es }) v 0)
      else .next (cfgEnd t v 1)

/-- A pool descriptor as a pool. -/
def poolOfWords (d : File 2 W64) : Pool := { desc := d, tiles := [], waiting := [] }

/-- The fields of a descriptor that R264 and R265 allow, whether it is valid or removes its pool. -/
def poolFields (n : Pool) : Bool :=
  decide (wbits (n.word 0) 22 3 ≤ 4) && decide (n.base % n.tsize = 0) && decide (1 ≤ n.count ∧ n.count ≤ 4096)
    && [0, 1, 2, 3].all (fun i => decide (n.res i ≤ n.quota i) && decide (n.quota i ≤ n.count))
    && decide (n.res 0 + n.res 1 + n.res 2 + n.res 3 ≤ n.count) && decide (n.base + n.count * n.tsize ≤ 2 ^ 22)

/-- Reserved bits of a descriptor. -/
def poolReserved (n : Pool) : Bool :=
  wbits (n.word 0) 26 6 == 0 && wbits (n.word 0) 45 19 == 0 && n.word 3 == 0
    && [0, 1, 2, 3].all (fun i => wbits (n.word 1) (16 * i + 13) 3 == 0 && wbits (n.word 2) (16 * i + 13) 3 == 0)

/-- A descriptor that core c can install as pool q (R265). -/
def poolOk (s : State) (c : CoreId) (q : Fin 16) (n : Pool) : Bool :=
  let old := s.pool c q
  let others := (List.finRange 16).filter (fun i => i != q && (s.pool c i).valid)
  let clash := others.any (fun i =>
    let o := s.pool c i
    decide (n.base < o.base + o.count * o.tsize) && decide (o.base < n.base + n.count * n.tsize))
  poolReserved n && poolFields n && !clash && decide (n.count * n.tsize / 4096 ≤ scratchFree s c + old.units)
    && (!old.valid || old.tiles.all (fun t => t.2.state == .free)) && (n.valid || old.waiting.isEmpty)

/-- Op 2: a descriptor is installed or refused; generations and waiting requests stay (R265). -/
def poolOp (v : W64) (s : State) : State :=
  if cfgBad v ∨ cfgKind v ≠ 2 ∨ s.partOf (cfgCore v) ≠ some (cfgPart v) then cfgEnd s v 2
  else match cfgBytes s (cfgPart v) 32 with
    | .none => cfgEnd s v 3
    | .wait t => cfgRuns t v
    | .bytes bs =>
      let n := poolOfWords (Vector.ofFn (fun i : Fin (2 ^ 2) => wordAt bs i.val))
      if poolOk s (cfgCore v) (cfgPool v) n then
        cfgEnd (s.setPool (cfgCore v) (cfgPool v) { s.pool (cfgCore v) (cfgPool v) with desc := n.desc }) v 0
      else cfgEnd s v 1

/-- CFG_POOL_DESCRIPTOR. -/
def execCfgPoolDescriptor (v : W64) (s : State) : Answer := .next (hostAct s (fun s => startCfg s (poolOp v)))

/-- Park class words that R330 allows: no timer but 0 is below that of the step before it. -/
def classOk (cls : File 1 W64) : Bool :=
  let t := classTimer cls
  (t 1 == 0 || decide (t 0 ≤ t 1)) && (t 2 == 0 || decide (t 1 ≤ t 2))

/-- Op 3: a class is installed or refused (R330). -/
def classOp (v : W64) (s : State) : State :=
  if cfgBad v ∨ cfgKind v ≠ 3 then cfgEnd s v 2
  else match cfgBytes s (cfgPart v) 16 with
    | .none => cfgEnd s v 3
    | .wait t => cfgRuns t v
    | .bytes bs =>
      let cls : File 1 W64 := #v[wordAt bs 0, wordAt bs 1]
      let k := s.part (cfgPart v)
      if classOk cls then cfgEnd (s.setPart (cfgPart v) { k with park := rset k.park (cfgClass v) cls }) v 0
      else cfgEnd s v 1

/-- CFG_PARK_CLASS. -/
def execCfgParkClass (v : W64) (s : State) : Answer := .next (hostAct s (fun s => startCfg s (classOp v)))

/-- The operation that a cfg_op word names. -/
def cfgOpOf (v : W64) : State → State :=
  match cfgKind v with
  | 2 => poolOp v
  | 3 => classOp v
  | _ => tableOp v

/-- A write of cfg_op starts the operation it names. -/
def writeCfgOp (s : State) (v : W64) : State := startCfg s (cfgOpOf v)

/-- An operation that has waited for a translation of its bytes tries again; a table load does so at its installation. -/
def retryCfg (s : State) : State := if cfgBusy s ∧ cfgKind s.pkg.cfgOp ≠ 1 then cfgOpOf s.pkg.cfgOp s else s

/-! Weight-store locks (R395). -/

/-- WS_LOCK_SET: a partition's lock is requested. -/
def execWsLockSet (p : PartId) (s : State) : Answer :=
  .next (hostAct s (fun s => s.setPart p { s.part p with wsWant := true }))
/-- WS_LOCK_CLEAR: its release is requested. -/
def execWsLockClear (p : PartId) (s : State) : Answer :=
  .next (hostAct s (fun s => s.setPart p { s.part p with wsWant := false }))

/-- A weight-store write of the partition is incomplete. -/
def writingStore (s : State) (p : PartId) : Bool :=
  (coresOf s p).any (fun c => (s.core c).engine.toList.any (fun e => e.copies.any (fun k => k.form == .wstore)))

/-- WS_LOCK_EFFECT: a lock takes effect once every cpyw has completed, its release once no context holds a continuation. -/
def execWsLockEffect (p : PartId) (s : State) : Answer :=
  let k := s.part p
  let ready := if k.wsWant then !writingStore s p else !(coresOf s p).any (fun c => (s.core c).ctx.toList.any running)
  if k.wsWant = k.wsLocked ∨ ¬ ready then .next s
  else
    let s := s.setPart p { k with wsLocked := k.wsWant }
    .next { s with pkg := { s.pkg with wsLock := wset s.pkg.wsLock p.val 1 k.wsWant.toNat } }

/-- A write of ws_lock: a bit that changes its partition's lock state is a request, and the others are unaffected (R395). -/
def writeWsLock (s : State) (v : W64) : State :=
  (List.finRange 16).foldl (fun s p =>
    if wbit v p.val = (s.part p).wsLocked then s else s.setPart p { s.part p with wsWant := wbit v p.val }) s

/-! Loads and rate changes that package registers start (R406, R411, R421): the fabric's file performs them. -/

/-- A host write of the weight of fab_ctl: the package number only while the fabric is not enabled. -/
def writeFabCtl (s : State) (v : W64) : State :=
  let pkg := if wbit s.pkg.fabCtl 0 then wbits s.pkg.fabCtl 8 6 else wbits v 8 6
  { s with pkg := { s.pkg with fabCtl := BitVec.ofNat 64 (wbits v 0 1 + pkg * 2 ^ 8) } }

/-- MC_REQ (R411): a rate change is requested, unless one is busy; a target outside the table is none. -/
def writeMcReq (s : State) (v : W64) : State :=
  if wbit s.pkg.mcReq 31 then s
  else
    let target := wbits v 0 5
    let busy := wbit v 31 && decide (target < 20)
    let w := BitVec.ofNat 64 (target + wbits v 8 2 * 2 ^ 8 + busy.toNat * 2 ^ 31)
    let r : Retrain := { target := target, rate := BitVec.ofNat 2 (wbits v 8 2), thermal := false, running := false, since := 0 }
    { s with pkg := { s.pkg with mcReq := w }, retrains := if busy then s.retrains ++ [r] else s.retrains }

/-! The fabric's tables (R421 to R423). -/

/-- Bytes that the device reads through partition 0's table for the fabric (log 19). -/
def fabricBytes (s : State) (va : W64) (n : Nat) : Option (List Byte) :=
  match placeIn s 0 (coreOfPart s 0) .peek va n with
  | .ok (.tier e pa) => some (s.mem.readRun (Place.tier e pa).key n)
  | _ => none

/-- fab_load.refused (R406). -/
def setRefused (s : State) (r : Bool) : State := { s with pkg := { s.pkg with fabLoad := wset s.pkg.fabLoad 9 1 r.toNat } }
/-- fab_load.busy. -/
def setBusy (s : State) (b : Bool) : State := { s with pkg := { s.pkg with fabLoad := wset s.pkg.fabLoad 8 1 b.toNat } }

/-- No reserved bit of an access-control entry is set. -/
def aclOk (e : File 1 W64) : Bool :=
  wbits e[0] 7 1 == 0 && wbits e[0] 13 3 == 0 && wbits e[0] 24 8 == 0 && wbits e[0] 33 31 == 0 && wbits e[1] 12 4 == 0
    && wbits e[1] 28 36 == 0

/-- The access-control table loaded in one step, and whether it was; a refused one leaves the table in force (R421). -/
def loadAcl (s : State) : State × Bool :=
  match fabricBytes s s.pkg.aclBase 16384 with
  | none => (s, false)
  | some bs =>
    let es : List (File 1 W64) := (List.range 1024).map (fun i => #v[wordAt bs (2 * i), wordAt bs (2 * i + 1)])
    if es.all aclOk then ({ s with acl := es }, true) else (s, false)

/-- A group entry that R423 allows; its two last words are reserved. -/
def groupEntryOk (e : File 1 W64) (w2 w3 : W64) : Bool :=
  wbits e[1] 7 1 == 0 && wbits e[1] 12 4 == 0 && wbits e[1] 22 42 == 0 && w2 == 0 && w3 == 0
    && (!groupValid e || (groupMode e != 3 && decide (1 ≤ groupWin e ∧ groupWin e ≤ 32)))

/-- A group whose entry a load changes, with a transfer in flight. -/
def groupHeld (s : State) (new : List (Nat × File 1 W64)) : Bool :=
  s.transfers.any (fun t => t.started && new.find? (fun e => e.1 == t.group.toNat) != s.groups.find? (fun e => e.1 == t.group.toNat))

/-- The group table loaded, and whether it was; one that changes a group with transfers in flight waits for their windows, and replaces one
that waited before (R421). -/
def loadGroups (s : State) : State × Bool :=
  match fabricBytes s s.pkg.grpBase 8192 with
  | none => (s, false)
  | some bs =>
    let rows := (List.range 255).map (fun i => i + 1)
    let w := fun (i j : Nat) => wordAt bs (4 * i + j)
    let entry := fun (i : Nat) => (#v[w i 0, w i 1] : File 1 W64)
    if !rows.all (fun i => groupEntryOk (entry i) (w i 2) (w i 3)) then (s, false)
    else
      let new := (rows.filter (fun i => groupValid (entry i))).map (fun i => (i, entry i))
      if groupHeld s new then (setBusy { s with groupLoad := some new } true, true)
      else (setBusy { s with groups := new, groupLoad := none } false, true)

/-- A load of the tables that fab_load names, in one step: it is refused when one of them is (R406, R421). -/
def loadTables (s : State) (acl grp : Bool) : State :=
  let a := if acl then loadAcl s else (s, true)
  let g := if grp then loadGroups a.1 else (a.1, true)
  if acl || grp then setRefused g.1 (!(a.2 && g.2)) else s

/-! Register writes and reads through BAR0 (R388, R414). -/

/-- A partition register written by the host. -/
def writePart (s : State) (p : PartId) (n : Nat) (v : W64) : State :=
  let s := refreshBudgets s p
  let k := s.part p
  let low := fun (w : Nat) => BitVec.ofNat 64 (wbits v 0 w)
  match n with
  | 0x200 => s.setPart p { k with hbase := v }
  | 0x201 => s.setPart p { k with pasid := low 20 }
  | 0x202 => s.setPart p { k with tokens := low 16 }
  | 0x203 => s.setPart p { k with pushLim := low 6 }
  | 0x204 => s.setPart p { k with stealDly := low 32 }
  | 0x205 => s.setPart p { k with drainLim := low 32 }
  | 0x206 => s.setPart p { k with blkWdog := low 32 }
  | 0x207 => s.setPart p { k with allocWdog := low 32 }
  | 0x20A => s.setPart p { k with sringBase := v }
  | 0x20B => s.setPart p (writeSringCtl k v)
  | 0x20D => s.setPart p { k with gangBase := v }
  | 0x20E => s.setPart p { k with budMem := low 32 }
  | 0x20F => s.setPart p { k with budSlip := low 32 }
  | 0x210 => s.setPart p { k with flBase := k.flBase.set 0 v }
  | 0x211 => s.setPart p { k with flBase := k.flBase.set 1 v }
  | 0x212 => s.setPart p { k with flBase := k.flBase.set 2 v }
  | 0x213 => writeItOwn s p v
  | 0x214 => s.setPart p (writeFlCtl k 0 v)
  | 0x215 => s.setPart p (writeFlCtl k 1 v)
  | 0x216 => s.setPart p (writeFlCtl k 2 v)
  | 0x218 => s.setPart p { k with budLugil := low 32 }
  | 0x219 => s.setPart p { k with podGrp := low 8 }
  | 0x21A => s.setPart p { k with flBase := k.flBase.set 3 v }
  | 0x21B => s.setPart p (writeFlCtl k 3 v)
  | _ => s

/-- A core register written by the host. -/
def writeCore (s : State) (c : CoreId) (n : Nat) (v : W64) : State :=
  match n with
  | 0x120 => s.setCore c { s.core c with saveBase := v }
  | 0x121 => writeSpill s c n v
  | 0x122 => writeSpill s c n v
  | _ => s

/-- A package register written by the host. -/
def writePkg (s : State) (n : Nat) (v : W64) : State :=
  match n with
  | 0x300 => writeWsLock s v
  | 0x301 => { s with pkg := { s.pkg with cfgAddr := v } }
  | 0x302 => writeCfgOp s v
  | 0x303 => writeFabCtl s v
  | 0x304 => { s with pkg := { s.pkg with aclBase := v } }
  | 0x305 => { s with pkg := { s.pkg with grpBase := v } }
  | 0x306 => loadTables s (wbit v 0) (wbit v 1)
  | 0x309 => writeMcReq s v
  | m => if 0x310 ≤ m ∧ m ≤ 0x34F then
      { s with pkg := { s.pkg with route := rset s.pkg.route (BitVec.ofNat 6 (m - 0x310)) (BitVec.ofNat 64 (wbits v 0 6)) } }
    else s

/-- A host write through a block of BAR0; one through a block of another scope is ignored. -/
def hostWrite (block number : Nat) (v : W64) (s : State) : State :=
  if block = 0 then (if 0x300 ≤ number then writePkg s number v else s)
  else if h : block - 1 < 16 then
    (if 0x200 ≤ number ∧ number < 0x300 then writePart s ⟨block - 1, h⟩ number v else s)
  else if h : block - 32 < 512 then
    (if 32 ≤ block ∧ 0x120 ≤ number ∧ number < 0x200 then writeCore s ⟨block - 32, h⟩ number v else s)
  else s

/-- REGISTER_WRITE. -/
def execRegisterWrite (block number : Nat) (v : W64) (s : State) : Answer := .next (hostAct s (hostWrite block number v))

/-- What a host read through a block of BAR0 answers, and the state after it (RC registers are cleared). -/
def hostRead (s : State) (block number : Nat) : W64 × State :=
  if block = 0 then
    (if 0x300 ≤ number then (readPkgReg s number, clearReg s 0 0 number) else (0, s))
  else if h : block - 1 < 16 then
    (if 0x200 ≤ number ∧ number < 0x300 then (readPartReg s ⟨block - 1, h⟩ number, clearReg s 0 ⟨block - 1, h⟩ number) else (0, s))
  else if h : block - 32 < 512 then
    (if 32 ≤ block ∧ 0x120 ≤ number ∧ number < 0x200 then
      (readCoreReg s ⟨block - 32, h⟩ number, clearReg s ⟨block - 32, h⟩ 0 number) else (0, s))
  else if h : (block - 544) / 4 < 512 then
    (if number < 0x120 then (readCtxReg s ⟨(block - 544) / 4, h⟩ ⟨(block - 544) % 4, by omega⟩ number, s) else (0, s))
  else (0, s)

/-- RC_REGISTER_READ: a host read of a register. -/
def execRcRegisterRead (block number : Nat) (s : State) : Answer :=
  .next (hostAct s (fun s => (hostRead s block number).2.emit (.regRead block number (hostRead s block number).1)))

end Sys2Proof.Machine
end

