-- ==== Sys2Proof/Machine/Fabric.lean ====
section
/-! DEFINITION. The fabric: its tables (R421, R423), the packets it brings (R420, R422, R424, R425, R427), its ports (R419), and the
retrains of the memories (R409 to R412). -/

namespace Sys2Proof.Machine

/-! Tables (R421 to R423). -/

/-- LDACL (R421): the access-control table is loaded in one step, or refused. -/
def execLdacl (s : State) : Answer := .next (hostAct s (fun s => loadTables s true false))

/-- LDGRP (R421): the group table is loaded, refused, or waits for the windows of the groups that it changes. -/
def execLdgrp (s : State) : Answer := .next (hostAct s (fun s => loadTables s false true))

/-- GROUP_TABLE_INSTALL (R421): the windows are empty, so the waiting table is installed. -/
def execGroupTableInstall (s : State) : Answer :=
  match s.groupLoad with
  | none => .next s
  | some new => if groupHeld s new then .next s else .next (setBusy { s with groups := new, groupLoad := none } false)

/-! Packets (R420, R422). -/

/-- A packet that this package takes in: the fabric is enabled and it is addressed to this package. -/
def received (s : State) (p : Packet) : Bool := wbit s.pkg.fabCtl 0 && pktDpkg p == s.pkgId

/-- A refused packet is counted. -/
def denyPacket (s : State) : State := { s with pkg := { s.pkg with aclDeny := BitVec.ofNat 64 ((s.pkg.aclDeny.toNat + 1) % 2 ^ 32) } }

/-- An access-control entry decides on a packet whose kind has number n in kinds. -/
def aclMatches (p : Packet) (n : Nat) (e : File 1 W64) : Bool :=
  wbit e[0] 32 && (wbit e[0] 6 || wbits e[0] 0 6 == (pktSpkg p).toNat) && (wbit e[0] 12 || wbits e[0] 8 4 == pktSpart p)
    && wbits e[0] 16 4 == (pktDpart p).val && wbit e[0] (20 + n)

/-- The check of R422; a LAUNCH's queue lies in the deciding entry's range. -/
def counterFits (s : State) (p : Packet) (n : Nat) : Bool :=
  match s.acl.find? (aclMatches p n) with
  | none => false
  | some e => n != 1 || (decide (wbits e[1] 0 12 ≤ wbits p.h1 0 12) && decide (wbits p.h1 0 12 ≤ wbits e[1] 16 12))

/-- What a packet does here: it performs, or waits, perhaps for translations that it asks for. -/
inductive Arrival where
  | done (s : State)
  | wait (s : State)

/-- A packet that has been checked performs, behind those of its source that wait (log 41). -/
def takeIn (f : State → Packet → Arrival) (s : State) (p : Packet) : State :=
  let later := fun (s : State) => { s with inbox := s.inbox ++ [p] }
  if s.inbox.any (fun q => pktSpkg q == pktSpkg p) then later s
  else match f s p with
    | .done t => t
    | .wait t => later t

/-- What becomes of a packet of a kind (its code k, its number n in kinds) that reaches this package; one of no kind is dropped and
counted, and a refused one too, with a NACK for all but BARRIER. -/
def accept (s : State) (p : Packet) (k n : Nat) (f : State → State) : Answer :=
  if !received s p then .next s
  else if pktKind p = 0 ∨ 6 < pktKind p then .next (denyPacket s)
  else if pktKind p ≠ k then .next s
  else if counterFits s p n then .next (f s)
  else .next (if k = 6 then denyPacket s else answerPacket (denyPacket s) p 3 Cause.acl.code 0)

/-- ACK once the last packet of a transfer has performed. -/
def ackLast (s : State) (p : Packet) : State := if pktLast p then answerPacket s p 2 0 0 else s

/-- The core that a copy's packet names in aux. -/
def auxCore (p : Packet) : CoreId := ⟨wbits p.h3 32 9, by unfold wbits; omega⟩

/-- A copy's packet touches no scratchpad but those of its partition (R405, R424). -/
def auxOwned (s : State) (p : Packet) : Bool :=
  !(classOf p.h1 == 0 || wbit p.h3 62) || s.partOf (auxCore p) == some (pktDpart p)

/-- The sync word that a copy's packet is counted into. -/
def auxSync (p : Packet) : Option Nat :=
  if wbit p.h3 62 then some (quadKey (auxCore p) (BitVec.ofNat 64 (wbits p.h3 0 24))) else none

/-- A copy's bytes at a member (R424): written, and counted into the sync word of the core named by aux, within the budget of the partition
(R386). A packet that would reach the scratchpad of another partition is refused as one whose peer is absent (log 46). -/
def dataCopy (s : State) (p : Packet) : Arrival :=
  if !auxOwned s p then .done (answerPacket s p 3 Cause.txlate.code (txInfo p.h1 6))
  else match placeIn s (pktDpart p) (auxCore p) .write p.h1 p.payload.length with
    | .error r => .done (answerPacket s p 3 Cause.txlate.code (txInfo p.h1 r))
    | .ok q =>
      let blocks := q.blocks p.payload.length
      if !memReady s (pktDpart p) blocks then .wait s
      else
      let s := (spendMem s (pktDpart p) blocks).writeAt q.key p.payload
      let s := match auxSync p with
        | some key =>
          countSync (noteLanded s { via := .word key, dst := p.h1, shape := shPut (Vector.replicate _ 0) 0 1, run := p.payload.length })
            key p.payload.length
        | none => s
      .done (ackLast s p)

/-- A slip's bytes at a member (R424): kept until the last packet, which asks for the tile. -/
def dataSlip (s : State) (p : Packet) : State :=
  let a := slipAuxOf p.h3
  let old := s.receives.find? (fun r => r.spkg == pktSpkg p && r.xfer == pktXfer p)
  let r : Receive := match old with
    | some r => { r with packets := r.packets ++ [p] }
    | none => { id := s.nextId, spkg := pktSpkg p, xfer := pktXfer p, packets := [p] }
  let s := { s with receives := s.receives.filter (fun q => q.id != r.id) ++ [r], nextId := s.nextId + 1 }
  if !pktLast p then s
  else
    let n := (r.packets.map (fun q => q.payload.length)).sum
    let q := s.pool a.core a.pool
    if s.partOf a.core ≠ some (pktDpart p) ∨ !q.valid ∨ q.tsize < n ∨ a.reads = 0 then nackReceive s r .bounds 0
    else askTile s a.core a.pool { who := .xfer r.id, share := a.share, reads := a.reads, team := receiverTeam (pktGroup p), since := s.cycle }

/-- A record into a fabric-fed queue of the partition, or NACK QOVF (R424). -/
def launchRecord (s : State) (p : Packet) : Arrival :=
  match (if p.payload.length = 64 then fillSlot s (pktDpart p) (queueAt p.h1) p.payload else .full) with
  | .ok t => .done (ackLast t p)
  | .wait t => .wait t
  | .full => .done (answerPacket s p 3 Cause.qovf.code 0)

/-- What a DATA or LAUNCH packet does. -/
def performPacket (s : State) (p : Packet) : Arrival :=
  if pktKind p = 4 then launchRecord s p else if wbit p.h3 63 then .done (dataSlip s p) else dataCopy s p

/-- The packets that wait are tried again, in their order. -/
def retryInbox (s : State) : State := s.inbox.foldl (takeIn performPacket) { s with inbox := [] }

/-- DATA (R422, R424). -/
def execData (p : Packet) (s : State) : Answer := accept s p 1 0 (fun s => takeIn performPacket s p)

/-- LAUNCH (R424). -/
def execLaunch (p : Packet) (s : State) : Answer := accept s p 4 1 (fun s => takeIn performPacket s p)

/-- BUDGET_PERIOD (R386): a new period's allowances; what an exhausted budget or a retrain has held back is tried again, in its order. -/
def execBudgetPeriod (p : PartId) (s : State) : Answer := .next (retryInbox (flushOutbox (refreshBudgets s p)))

/-- WAKE (R331, R424): a token and its value, or NACK ACL when the token names another partition. -/
def execWakePacket (p : Packet) (s : State) : Answer :=
  accept s p 5 2 (fun s =>
    let token := leWord 64 (p.payload.take 8)
    if wbits token 32 4 ≠ (pktDpart p).val then answerPacket s p 3 Cause.acl.code token
    else ackLast (wakeToken s (pktDpart p) token (leWord 64 ((p.payload.drop 8).take 8))) p)

/-- BARRIER (R427): another package's arrival at an episode of a gang. -/
def execBarrier (p : Packet) (s : State) : Answer :=
  accept s p 6 3 (fun s =>
    let b := (pktDpart p, BitVec.ofNat 12 (wbits p.h3 0 12), BitVec.ofNat 16 (wbits p.h3 16 16), pktSpkg p)
    if s.barriers.contains b then s else { s with barriers := s.barriers ++ [b] })

/-- The transfer outstanding from a packet's source that the packet answers (R422). -/
def answeredTransfer (s : State) (p : Packet) : Option Transfer :=
  s.transfers.find? (fun t => t.id % 2 ^ 32 == (pktXfer p).toNat && t.started && t.waiting.contains (pktSpkg p).toNat)

/-- A member has answered: its place in the window is given up with the last one's. -/
def memberAnswered (s : State) (t : Transfer) (spkg : Nat) : State :=
  let t' := { t with waiting := t.waiting.filter (· != spkg) }
  let gone := t'.waiting.isEmpty && t'.copy.isNone && t'.slip.isNone
  { s with transfers := if gone then s.transfers.filter (fun u => u.id != t.id) else s.transfers.map (fun u => if u.id = t.id then t' else u) }

/-- ACK (R425). -/
def execAck (p : Packet) (s : State) : Answer :=
  match (if received s p && pktKind p == 2 then answeredTransfer s p else none) with
  | some t => .next (memberAnswered s t (pktSpkg p).toNat)
  | none => .next s

/-- NACK (R425): the transfer completes with the cause and trap_info that it carries. -/
def execNack (p : Packet) (s : State) : Answer :=
  match (if received s p && pktKind p == 3 then answeredTransfer s p else none) with
  | some t =>
    let cause := Cause.ofCode (pktCause p)
    let s := memberAnswered s t (pktSpkg p).toNat
    match t.copy, t.slip with
    | some (c, x, n), _ => (match liveCopy s c x n with
      | some k => .next (failCopy s c x k cause p.h3)
      | none => .next s)
    | none, some (it, n) => (match (s.itin it).flight.find? (fun q => q.num == n) with
      | some q => .next (failSlip s it q cause)
      | none => .next s)
    | none, none => .next s
  | none => .next s

/-! Ports (R419). -/

/-- PORT_TRAINED: the port of an enabled lane group carries flits. -/
def execPortTrained (p : PortId) (s : State) : Answer :=
  match s.image with
  | some im => if im.ports.getLsbD p.val then .next { s with pkg := { s.pkg with linkUp := wset s.pkg.linkUp p.val 1 1 } } else .next s
  | none => .next s

/-- PORT_DOWN. -/
def execPortDown (p : PortId) (s : State) : Answer := .next { s with pkg := { s.pkg with linkUp := wset s.pkg.linkUp p.val 1 0 } }

/-- FLIT_CRC_ERROR: the flit is discarded and a replay requested. -/
def execFlitCrcError (p : PortId) (seq : BitVec 12) (s : State) : Answer := .next (s.emit (.replay p seq))

/-- REPLAY_REQUEST: the flits from a sequence number on are sent again. -/
def execReplayRequest (p : PortId) (seq : BitVec 12) (s : State) : Answer := .next (s.emit (.resend p seq))

/-! Retrains (R409 to R412). -/

/-- MC_REQ (R411). -/
def execMcReq (v : W64) (s : State) : Answer := .next (hostAct s (fun s => writeMcReq s v))

/-- A save's slot lies in a stack or module (R412; log 20). -/
def saveMeets (s : State) (c : CoreId) (v : SaveRun) (target : Nat) : Bool := saveTarget s c v.slot == some target

/-- A save that is before its deadline holds a requested retrain back (R412). -/
def saveHolds (s : State) (target : Nat) : Bool :=
  (List.finRange 512).any (fun c => (s.core c).saves.any (fun v => decide (s.cycle ≤ v.deadline) && saveMeets s c v target))

/-- Some retrain of a target is running. -/
def retraining (s : State) (target : Nat) : Bool := s.retrains.any (fun r => r.running && r.target == target)

/-- RETRAIN_START (R412): the first requested retrain that no save holds back starts. -/
def execRetrainStart (s : State) : Answer :=
  match s.retrains.find? (fun r => !r.running && !saveHolds s r.target && !retraining s r.target) with
  | some r => .next { s with retrains := { r with running := true, since := s.cycle } :: s.retrains.erase r }
  | none => .next s

/-- The saves on a target changed by f. -/
def mapSaves (s : State) (target : Nat) (f : SaveRun → SaveRun) : State :=
  (List.finRange 512).foldl (fun s c =>
    if (s.core c).saves.isEmpty then s
    else s.setCore c { s.core c with saves := (s.core c).saves.map (fun v => if saveMeets s c v target then f v else v) }) s

/-- THERMAL_RETRAIN (R409, R412): it proceeds at once, and the saves that it meets are late. -/
def execThermalRetrain (target : Nat) (s : State) : Answer :=
  if 20 ≤ target ∨ retraining s target then .next s
  else
    let r : Retrain := { target := target, rate := 0, thermal := true, running := true, since := s.cycle }
    .next (mapSaves { s with retrains := r :: s.retrains } target (fun v => { v with late := true }))

/-- RETRAIN_DONE (R411, R412): the rate is in force and busy reads 0; a thermal retrain extends the deadlines that it met. -/
def execRetrainDone (target : Nat) (s : State) : Answer :=
  match s.retrains.find? (fun r => r.running && r.target == target) with
  | none => .next s
  | some r =>
    let s := { s with retrains := s.retrains.erase r }
    if r.thermal then .next (retryInbox (mapSaves s target (fun v => { v with deadline := v.deadline + (s.cycle - r.since) })))
    else .next (retryInbox { s with rates := s.rates.setIfInBounds target r.rate, pkg := { s.pkg with mcReq := wset s.pkg.mcReq 31 1 0 } })

end Sys2Proof.Machine
end

