-- ==== Sys2Proof/Machine/Boot.lean ====
section
/-! DEFINITION. Boot, reset, freeze and read-out (R428 to R433), attestation (R430), refresh ownership (R235, R238, R413), power (R151,
R434), failed banks (R231), host translation (R223, R224), refresh management (R243) and reported write-back errors (R263). -/

namespace Sys2Proof.Machine

/-! Boot (R428, R429). -/

/-- n little-endian bytes of an image from offset o. -/
def imageNat (bs : List Byte) (o n : Nat) : Nat := leNat ((bs.drop o).take n)

/-- A configuration image that R429 accepts: signed, complete, its magic, format and reserved bytes, its sequence number. -/
def imageOk (b : BootInput) : Bool :=
  Config.signed b.image && b.image.length == 1472 && imageNat b.image 0 4 == 0x50584347 && imageNat b.image 4 4 == 1
    && decide (b.minSeq ≤ imageNat b.image 8 8) && ((b.image.drop 152).take 40).all (· == 0)

/-- The image in force. -/
def imageOf (bs : List Byte) : Image :=
  { seq := BitVec.ofNat 64 (imageNat bs 8 8), qmap := Vector.ofFn (fun q : Fin 128 => (bs[16 + q.val]?).getD 0xFF),
    bytes := bs.take 192, hrate := BitVec.ofNat 8 (imageNat bs 144 1), lrate := BitVec.ofNat 8 (imageNat bs 145 1),
    ports := BitVec.ofNat 18 (imageNat bs 146 3), debug := imageNat bs 149 1 == 1, plim := BitVec.ofNat 16 (imageNat bs 150 2) }

/-- A failed step stops the boot and is reported. -/
def bootFail (s : State) (step : Nat) : State := { s with boot := .failed step }.emit (.mctp step)

/-- A partition with the weight-store banks that the runtime grants it (R234). -/
def grantBanks (s : State) (g : PartId × BitVec 128) : State := s.setPart g.1 { s.part g.1 with wsBanks := g.2 }

/-- First key past the stores whose check codes the package keeps: the scratchpads, the weight stores, T1 and T2 (R230, R234, R239). -/
def ownStores : Nat := keyTier 3 0 0

/-- Adjacent dies of the 2 × 4 arrangement (R402). -/
def adjacent (a b : DieId) : Bool :=
  (a.val / 4 == b.val / 4 && (a.val + 1 == b.val || b.val + 1 == a.val)) || a.val + 4 == b.val || b.val + 4 == a.val

/-- The boundary between two dies has been trained. -/
def joined (b : BootInput) (x y : DieId) : Bool := adjacent x y && !b.apart.contains (x, y) && !b.apart.contains (y, x)

/-- The dies that traffic reaches from die 0, which boots the package, by any path of trained boundaries (R402; log 105). -/
def reached (b : BootInput) : List DieId :=
  (List.range 7).foldl (fun ds _ => (List.finRange 8).filter (fun d => ds.contains d || ds.any (fun e => joined b e d))) [0]

/-- The first step of a boot that fails, if one does (R428): the signatures and the image by their own checks. -/
def bootStop (b : BootInput) : Option Nat :=
  [1, 2, 3, 4, 5, 6, 7].find? (fun n => b.broken.contains n || (match n with
    | 2 => !Config.signed b.firmware
    | 4 => !imageOk b
    | 5 => !b.linksOk
    | _ => false))

/-- The cores that a boot leaves out of every partition: those that fail their power-on test (R404), and those of dies that cannot be reached
(R402). -/
def bootOut (b : BootInput) : List CoreId :=
  b.failed ++ (List.finRange 512).filter (fun c => !(reached b).contains (dieOf c))

/-- BOOT (R428, R429): from power-on to the state in which the host port is enabled. Step 6 zeroes every scratchpad, as R28 has it when the
device leaves reset, and initialises every check code of the package. -/
def execBoot (b : BootInput) (s : State) : Answer :=
  if s.boot ≠ .powerOn then .next s
  else match bootStop b with
  | some n => .next (bootFail s n)
  | none =>
    let im := imageOf b.image
    let rates : Vector (BitVec 2) 20 := Vector.ofFn (fun i : Fin 20 => BitVec.ofNat 2 (if i.val < 4 then im.hrate else im.lrate).toNat)
    let fresh : Refresh := { auto := false, origin := s.cycle, beat := s.cycle, beats := 0, due := none, back := none }
    let s := { s with
      image := some im, firmware := b.firmware, devices := b.devices, rates := rates, boot := .ready, refresh := Vector.replicate _ fresh,
      mem := s.mem.filter (fun e => decide (2 ^ 31 ≤ e.1)), ecc := s.ecc.filter (fun e => decide (ownStores ≤ e.1)),
      pkg := { s.pkg with linkUp := BitVec.ofNat 64 (b.trained &&& im.ports).toNat } }
    let s := (bootOut b).foldl (fun s c => s.setCore c { s.core c with out := true }) s
    .next (b.banks.foldl grantBanks s)

/-- PACKAGE_RESET: the state after reset. The device does not reset memory (R8), whose bytes, poison and check codes stay as they are
(BOOT zeroes the scratchpads, R428); nor what stands outside the package. -/
def execPackageReset (s : State) : Answer :=
  .next { State.reset with mem := s.mem, poison := s.poison, ecc := s.ecc, upsets := s.upsets, agenda := s.agenda, out := s.out }

/-- PARTITION_RESET (R328): the itineraries that run for the partition return to IDLE, their slips dropped; the tiles that they have published are
reclaimed as those of a killed team, and counted (R279). -/
def execPartitionReset (p : PartId) (s : State) : Answer :=
  .next ((List.finRange 128).foldl (fun s it =>
    let y := s.itin it
    if y.part ≠ p ∨ y.state = .idle then s
    else
      let s := y.flight.foldl (fun s q => stopSlip s it q) (pace s it 0)
      let tiles := if y.team = 0 then [] else heldTiles s y.team
      let s := if y.team = 0 then s else reclaimSilently s y.team
      let s := s.setPart p { s.part p with abandoned := (s.part p).abandoned + BitVec.ofNat 64 tiles.length }
      s.setItin it { s.itin it with state := .idle, cause := 0, flight := [], counter := y.issued }) s)

/-! Freeze and read-out (R431 to R433). -/

/-- FREEZE_SIGNAL: the clocks stop. -/
def execFreezeSignal (s : State) : Answer := .next { s with frozen := true }
/-- FREEZE, by JTAG. -/
def execFreeze (s : State) : Answer := .next { s with frozen := true, ir := 0x02 }

/-- Bits of a word, lowest first. -/
def bitsOf (w : W32) : List Bool := (List.range 32).map (fun i => w.getLsbD i)

/-- The image permits read-out. -/
def readoutOk (s : State) : Bool := match s.image with
  | some im => im.debug
  | none => false

/-- IDCODE. -/
def execIdcode (s : State) : Answer := .next ({ s with ir := 0x01 }.emit (.jtag (bitsOf 0x15058A6B)))
/-- STATUS: frozen, and read-out permitted. -/
def execStatus (s : State) : Answer :=
  .next ({ s with ir := 0x03 }.emit (.jtag (bitsOf (BitVec.ofNat 32 (s.frozen.toNat + (readoutOk s).toNat * 2)))))
/-- What the state chains of a package hold: its state, but for what stands outside it (R432). -/
def chains (s : State) : State := { s with out := [], agenda := [], upsets := [] }

/-- SCANOUT: the state chains of a frozen package whose image permits it; zeros otherwise. -/
def execScanout (bits : Nat) (s : State) : Answer :=
  .next ({ s with ir := 0x04 }.emit (.jtag ((List.range bits).map (fun i => s.frozen && readoutOk s && Config.scanBit (chains s) i))))
/-- BYPASS, by its own code or any that names no instruction: one bit through the bypass register. -/
def execBypass (scan : BypassScan) (s : State) : Answer :=
  .next ({ s with ir := scan.code, bypass := scan.tdi }.emit (.jtag [s.bypass]))

/-! Attestation (R430). -/

/-- An answer of n words whose content the spec leaves to keys and blocks outside it. -/
def spdmAnswer (s : State) (code : BitVec 8) (nonce : BitVec 256) (n : Nat) : State :=
  s.emit (.spdm code ((List.range n).map (Config.spdmWord code nonce)))

/-- Measurement 4: one bit per core left out (R404). -/
def leftOut (s : State) : List W64 :=
  (List.range 8).map (fun i => (List.range 64).foldl (fun a j =>
    if (s.core (Fin.ofNat 512 (64 * i + j))).out then a ||| BitVec.twoPow 64 j else a) 0)

/-- GET_VERSION. -/
def execGetVersion (s : State) : Answer := .next (spdmAnswer s 0x84 0 1)
/-- GET_CAPABILITIES. -/
def execGetCapabilities (s : State) : Answer := .next (spdmAnswer s 0xE1 0 2)
/-- NEGOTIATE_ALGORITHMS. -/
def execNegotiateAlgorithms (s : State) : Answer := .next (spdmAnswer s 0xE3 0 4)
/-- GET_DIGESTS. -/
def execGetDigests (s : State) : Answer := .next (spdmAnswer s 0x81 0 8)
/-- GET_CERTIFICATE. -/
def execGetCertificate (s : State) : Answer := .next (spdmAnswer s 0x82 0 512)
/-- CHALLENGE: signed with the device identity key over the nonce. -/
def execChallenge (nonce : BitVec 256) (s : State) : Answer := .next (spdmAnswer s 0x83 nonce 160)
/-- The 64 bytes of a digest. -/
def digest (bs : List Byte) : List W64 := (List.range 8).map (Config.digestWord bs)

/-- Measurements 1 to 3: of the mask ROM, of the firmware, and of the signed bytes of the configuration image. -/
def digests (s : State) : List W64 :=
  digest Config.rom ++ digest s.firmware ++ digest (match s.image with
    | some im => im.bytes
    | none => [])

/-- GET_MEASUREMENTS: three digests of 64 bytes, and the mask of the cores left out. -/
def execGetMeasurements (s : State) : Answer :=
  .next (s.emit (.spdm 0xE0 (digests s ++ leftOut s)))
/-- A session request is answered with ERROR (0x7F), unsupported request (0x07). -/
def execSessionRequest (code : BitVec 8) (s : State) : Answer := .next (s.emit (.spdm 0x7F [0x07, BitVec.ofNat 64 code.toNat]))

/-! Refresh of the weight stores (R235, R238, R413). -/

/-- Refresh of a die. -/
def State.refreshOf (s : State) (d : DieId) : Refresh := rget s.refresh (BitVec.ofNat 3 d.val)
/-- The state with a die's refresh replaced. -/
def State.setRefresh (s : State) (d : DieId) (r : Refresh) : State := { s with refresh := rset s.refresh (BitVec.ofNat 3 d.val) r }

/-- Cycles between two windows. -/
def windowCycles : Nat := 6400
/-- Cycles of a refresh period. -/
def periodCycles : Nat := 102400

/-- REFRESH_WINDOW (R235): windows open and close by the time alone (`inWindow`), so the state stays. -/
def execRefreshWindow (d : DieId) (s : State) : Answer := .next (s.setRefresh d (s.refreshOf d))

/-- HEARTBEAT (R413): beats are consecutive while no window goes without one; after the fourth the return is due at the next boundary
of the autonomous period, whatever beats come later. -/
def execHeartbeat (d : DieId) (s : State) : Answer :=
  let r := s.refreshOf d
  let n := if s.cycle - r.beat ≤ windowCycles then r.beats + 1 else 1
  let next := r.origin + ((s.cycle - r.origin) / periodCycles + 1) * periodCycles
  let due := r.due.or (if r.auto ∧ 4 ≤ n then some next else none)
  .next (s.setRefresh d { r with beat := s.cycle, beats := n, due := due })

/-- AUTONOMOUS_REFRESH (R238): two windows without a heartbeat. -/
def execAutonomousRefresh (d : DieId) (s : State) : Answer :=
  let r := s.refreshOf d
  if r.auto ∨ s.cycle - r.beat < 2 * windowCycles then .next s
  else .next (s.setRefresh d { r with auto := true, origin := s.cycle, beats := 0, due := none })

/-- REFRESH_OWNERSHIP_RETURN (R413): at the boundary, phase 0 of bank 0. -/
def execRefreshOwnershipReturn (d : DieId) (s : State) : Answer :=
  let r := s.refreshOf d
  match r.due with
  | some t => if r.auto ∧ t ≤ s.cycle then .next (s.setRefresh d { r with auto := false, origin := t, due := none, back := some s.cycle }) else .next s
  | none => .next s

/-- REFRESH_MANAGEMENT (R243, R407): a command to a bank of a T1 or T2 controller whose activations, by the requests of every die, have reached
the level that is programmed; their count starts again. -/
def execRefreshManagement (tier bank : Nat) (s : State) : Answer :=
  if aget 0 s.activations bank < Config.refreshLevel then .next s
  else .next ({ s with activations := aset s.activations bank 0 }.emit (.refresh tier bank))

/-! Power and failed banks (R151, R231, R434). -/

/-- POWER_ALARM: the array of a core is narrowed, which requests stretch 2. The narrow of R191's table, cleared with ownership, is this flag of the
core, which R151 has read 1 for as long as narrowing lasts: neither ownership nor a rollback changes it (DESIGN CHOICE, log 109). -/
def execPowerAlarm (c : CoreId) (s : State) : Answer :=
  let s := applyStretch (s.setCore c { s.core c with narrow := true }) c
  .next { s with powerSince := s.powerSince.or (some s.cycle) }

/-- POWER_ALARM_END: narrowing ends; with the last core's, so does the excess. -/
def execPowerAlarmEnd (c : CoreId) (s : State) : Answer :=
  let s := applyStretch (s.setCore c { s.core c with narrow := false }) c
  if s.cores.toList.any (fun k => k.narrow) then .next s else .next { s with powerSince := none }

/-- POWER_EXCESS_NOTIFY: an excess of 1 ms is told to the board controller. -/
def execPowerExcessNotify (s : State) : Answer :=
  match s.powerSince with
  | some t => if t + msCycles ≤ s.cycle then .next (s.emit .powerExcess) else .next s
  | none => .next s

/-- BANK_FAILURE (R231): the first failed bank is carried, with stretch 2; a second one stops the core. -/
def execBankFailure (c : CoreId) (bank : Fin 34) (s : State) : Answer :=
  let k := s.core c
  if k.degraded.contains bank.val then .next s
  else if k.degraded.isEmpty then .next (applyStretch (s.setCore c { k with degraded := [bank.val] }) c)
  else
    let s := leaveOut s c
    .next (s.setCore c { s.core c with degraded := bank.val :: k.degraded })

/-- BANK_REBUILD_DONE (R231): the last row of a re-initialised bank is written, so that no error of it stays; the stretch request ends. -/
def execBankRebuildDone (c : CoreId) (s : State) : Answer :=
  if (s.core c).out then .next s
  else
    let t := { s with ecc := s.ecc.filter (fun e => !(inScratch e.1 && keyCore e.1 == c && carried s e.1)) }
    .next (applyStretch (t.setCore c { t.core c with degraded := [] }) c)

/-! Host translation (R223, R224). -/

/-- Translations and requests of a die. -/
def dieTlb (s : State) (d : DieId) : List TlbEntry := rget s.tlb (BitVec.ofNat 3 d.val)
/-- The state with a die's translations replaced. -/
def setDieTlb (s : State) (d : DieId) (l : List TlbEntry) : State := { s with tlb := rset s.tlb (BitVec.ofNat 3 d.val) l }
/-- Entries of a die's IOTLB (R223); the oldest leaves for a further one (log 48). -/
def tlbEntries : Nat := 16384
/-- An entry has a page of a run in common with it. -/
def tlbMeets (t : TlbEntry) (pasid : BitVec 20) (page count : Nat) : Bool :=
  t.pasid == pasid && decide (t.page < page + count) && decide (page < t.page + t.count)

/-- ATS_TRANSLATION_COMPLETION (R223): the answer to an outstanding request of the die. The completion entries, the configuration operation and
the packets that wait are tried again. -/
def execAtsTranslationCompletion (d : DieId) (t : TlbEntry) (s : State) : Answer :=
  let i : BitVec 3 := BitVec.ofNat 3 d.val
  let mine := fun (a : BitVec 20 × Nat) => a.1 == t.pasid && decide (t.page ≤ a.2) && decide (a.2 < t.page + t.count)
  if !(rget s.asks i).any mine then .next s
  else
    let s := { s with asks := rset s.asks i ((rget s.asks i).filter (fun a => !mine a)) }
    let s := setDieTlb s d ((t :: (dieTlb s d).filter (fun u => !tlbMeets u t.pasid t.page t.count)).take tlbEntries)
    .next (retryInbox (retryCfg (retryCompletions s)))

/-- A lower-half address in a run of pages. -/
def inPages (page count : Nat) (va : W64) : Bool :=
  classOf va == 1 && decide (page ≤ va.toNat / 4096) && decide (va.toNat / 4096 < page + count)

/-- The pages among some whose stores a gate holds. -/
def gatedPages (page count : Nat) (g : List GateLine) : List GateLine :=
  (g.filter (fun l => inPages page count l.addr)).foldl (fun a l =>
    if a.any (fun m => m.addr.toNat / 4096 == l.addr.toNat / 4096) then a else a ++ [l]) []

/-- Stores that a context still holds in a gate translate their pages again (log 47). -/
def storeAgain (c : CoreId) (x : CtxId) (own : Bool) (s : State) (l : GateLine) : State :=
  let k := s.ctx c x
  let o : Op := { id := s.nextId, dest := .none, kind := .store l.addr 1, epoch := k.epoch + own.toNat, pc := k.r.pc, words := 0 }
  if k.ops.any (fun o => match o.kind with
      | .store ea _ => ea.toNat / 4096 == l.addr.toNat / 4096
      | _ => false) then s
  else { s.setCtx c x { k with ops := k.ops ++ [o] } with nextId := s.nextId + 1 }

/-- The accesses of a core that used the translations of some pages: dirty bytes of its near cache are written back with them, and the
stores in its contexts' gates, which have not performed, translate afresh (R223). -/
def dropPages (page count : Nat) (s : State) (c : CoreId) : State :=
  ([0, 1, 2, 3] : List CtxId).foldl (fun s x =>
    let k := s.ctx c x
    (gatedPages page count k.hgate).foldl (storeAgain c x true) ((gatedPages page count k.gate).foldl (storeAgain c x false) s))
    (nearWriteBack s c (inPages page count))

/-- ATS_INVALIDATION_REQUEST (R223): the entries go once the accesses that used them have performed, and the completion returns. -/
def execAtsInvalidationRequest (d : DieId) (pasid : BitVec 20) (page count : Nat) (s : State) : Answer :=
  let mine := (List.finRange 64).map (fun k => (⟨d.val * 64 + k.val, by omega⟩ : CoreId))
  let s := (mine.filter (fun c => (s.part (s.partIdOf c)).pid == pasid)).foldl (dropPages page count) s
  .next ((setDieTlb s d ((dieTlb s d).filter (fun u => !tlbMeets u pasid page count))).emit (.atsDone d pasid))

/-- The copies of an engine context that wait for a page go on, or end with PAGE (R224, R319). -/
def answerEngine (s : State) (c : CoreId) (x : CtxId) (va : W64) (r : PriAnswer) : State :=
  ((s.engine c x).copies.filter (fun k => k.page == some va)).foldl (fun s k =>
    if r = .success then putCopy s c x { k with page := none } else failCopy s c x k .page (va ||| 1)) s

/-- The answer to the page request of a context: it waits for it, or takes it when it comes to wait (R224, R369, R375). -/
def answerCtx (s : State) (c : CoreId) (x : CtxId) (va : W64) (r : PriAnswer) : State :=
  let k := s.ctx c x
  if k.asked ≠ some (va, none) then s
  else match k.phase with
    | .waitPage f => answerPage s c x f r
    | _ => s.setCtx c x { k with asked := some (va, some r) }

/-- PRI_PAGE_RESPONSE (R224, R225, R369): the host's answer to the oldest page request of a context or of its engine; with Success the page
is translated afresh. -/
def execPriPageResponse (c : CoreId) (x : CtxId) (r : PriAnswer) (s : State) : Answer :=
  let d := dieOf c
  let i : BitVec 3 := BitVec.ofNat 3 d.val
  match (rget s.pages i).find? (fun a => a.core == c && a.ctx == x) with
  | none => .next s
  | some a =>
    let s := { s with pages := rset s.pages i ((rget s.pages i).erase a) }
    let s := if r = .success then
        setDieTlb s d ((dieTlb s d).filter (fun u => !tlbMeets u (s.part (s.partIdOf c)).pid (a.va.toNat / 4096) 1))
      else s
    .next (if a.engine then answerEngine s c x a.va r else answerCtx s c x a.va r)

/-- WRITEBACK_POISON (R240, R263): a controller reports a write-back of a line as uncorrectable. -/
def execWritebackPoison (c : CoreId) (line : W64) (s : State) : Answer :=
  let a := lineOf line
  match placeByte s c .peek a with
  | .ok (.tier e pa) =>
    let key := (Place.tier e pa).key
    let s : State := { s with poison := if s.poison.contains key then s.poison else key :: s.poison }
    .next (s.setCore c { s.core c with poisoned := (s.core c).poisoned ++ [a] })
  | _ => .next s

end Sys2Proof.Machine
end

