-- ==== Sys2Proof/Machine/Vector.lean ====
section
/-! DEFINITION. Class V: lane-parallel arithmetic, compares, select and moves (R152 to R169). -/

namespace Sys2Proof.Machine

/-- The lanes of a result: each active lane computes a value and flags, which are ORed (R154, R157). -/
def lanewise (m : W64) (f : Nat → W32 × BitVec 5) : Row × BitVec 5 :=
  let xs := (List.range 64).map (fun l => if active m l then f l else (0, 0))
  (BitVec.ofNat 2048 (lanesNat (xs.map (fun x => x.1))), xs.foldl (fun a x => a ||| x.2) 0)

/-- The bits of a guard result: each active lane computes a bit and flags. -/
def lanebits (m : W64) (f : Nat → Bool × BitVec 5) : W64 × BitVec 5 :=
  let xs := (List.range 64).map (fun l => if active m l then f l else (false, 0))
  (BitVec.ofNat 64 (xs.foldr (fun x n => x.1.toNat + 2 * n) 0), xs.foldl (fun a x => a ||| x.2) 0)

/-- A bitwise or moving operation sets no flag. -/
def quietly (x : W32) : W32 × BitVec 5 := (x, 0)

/-! The operations on 32-bit lanes. -/

/-- The smaller or larger of two FP32 patterns (R160). -/
def fpick (wantMax : Bool) (a b : W32) : W32 × BitVec 5 :=
  let x := f32 a
  let y := f32 b
  let fl := flagIf (x.isSig || y.isSig) flagNV
  let before := fun (p q : Num) => p.lt q || (p.isZero && q.isZero && p.neg? && !q.neg?)
  let r := if x.isNan && y.isNan then 0x7FC00000 else if x.isNan then b else if y.isNan then a
    else if wantMax then (if before x y then b else a) else (if before y x then b else a)
  (r, fl)

/-- A pattern whose sign is changed, NaNs made canonical (R161). -/
def fsign (change : W32 → W32) (a : W32) : W32 × BitVec 5 :=
  let x := f32 a
  (if x.isNan then 0x7FC00000 else change a, flagIf x.isSig flagNV)

/-- Either operand is a signalling NaN. -/
def anySig (a b : W32) : Bool := (f32 a).isSig || (f32 b).isSig
/-- Either operand is a NaN. -/
def anyNan (a b : W32) : Bool := (f32 a).isNan || (f32 b).isNan

/-- 32-bit shifts by the low five bits (R166). -/
def shl32 (a b : W32) : W32 := BitVec.ofNat 32 (a.toNat * 2 ^ (b.toNat % 32))
/-- Zero fill. -/
def shr32 (a b : W32) : W32 := BitVec.ofNat 32 (a.toNat / 2 ^ (b.toNat % 32))
/-- Sign fill. -/
def sar32 (a b : W32) : W32 := BitVec.ofInt 32 (a.toInt / 2 ^ (b.toNat % 32))

/-! The forms. -/

/-- vD := op vD vA vB in the active lanes; `old` says that vD is a source (R153). -/
def vecOp (f : RRR) (s : State) (lat : Nat) (old : Bool) (op : W32 → W32 → W32 → W32 × BitVec 5) : Answer :=
  slotV s f.g [.v f.d] (fun m =>
    need (sources s ([(.v f.a, f.ta), (.v f.b, f.tb)] ++ if old then [(.v f.d, false)] else []))
      (need (ports s [f.a, f.b])
        (let a := vsrc s f.a
         let b := vsrc s f.b
         let d := s.src.getV f.d
         let (x, fl) := lanewise m (fun l => op (lane d l) (lane a l) (lane b l))
         .ok (resultV (pop s f.h [f.a, f.b]) f.d m x fl lat))))

/-- vD := op vA in the active lanes. -/
def vecOp1 (f : RR) (s : State) (lat : Nat) (op : W32 → W32 × BitVec 5) : Answer :=
  slotV s f.g [.v f.d] (fun m => need (sources s [(.v f.a, f.ta)]) (need (ports s [f.a])
    (let a := vsrc s f.a
     let (x, fl) := lanewise m (fun l => op (lane a l))
     .ok (resultV (pop s f.h [f.a]) f.d m x fl lat))))

/-- vD := op sA in the active lanes. -/
def vecFromScalar (f : RR) (s : State) (op : W32 → Nat → W32) : Answer :=
  slotV s f.g [.v f.d] (fun m => need (sources s [(.s f.a, f.ta)])
    (let (x, fl) := lanewise m (fun l => quietly (op (BitVec.ofNat 32 (s.src.getS f.a).toNat) l))
     .ok (resultV s f.d m x fl 1)))

/-- A compare writes the active lanes' bits of its guard pair after 2 bundles (R40, R162). -/
def vecCompare (f : RRR) (s : State) (op : W32 → W32 → Bool × BitVec 5) : Answer :=
  slotV s f.g [] (fun m => need (sources s [(.v f.a, f.ta), (.v f.b, f.tb)]) (need (ports s [f.a, f.b])
    (let a := vsrc s f.a
     let b := vsrc s f.b
     let (x, fl) := lanebits m (fun l => op (lane a l) (lane b l))
     .ok (resultP (pop s f.h [f.a, f.b]) f.d m x fl 2))))

/-! The instructions. -/

/-- FP32 sum (R158). -/
def execVadd (f : RRR) (s : State) : Answer := vecOp f s 4 false (fun _ a b => fadd (f32 a) (f32 b))
/-- FP32 difference (R158). -/
def execVsub (f : RRR) (s : State) : Answer := vecOp f s 4 false (fun _ a b => fadd (f32 a) (f32 b).negate)
/-- FP32 product (R158). -/
def execVmul (f : RRR) (s : State) : Answer := vecOp f s 4 false (fun _ a b => fmul (f32 a) (f32 b))
/-- Fused vD + vA × vB (R159). -/
def execVfma (f : RRR) (s : State) : Answer := vecOp f s 4 true (fun d a b => ffma (f32 d) (f32 a) (f32 b))
/-- Fused vD - vA × vB (R159). -/
def execVfms (f : RRR) (s : State) : Answer := vecOp f s 4 true (fun d a b => ffms (f32 d) (f32 a) (f32 b))
/-- Smaller value (R160). -/
def execVmin (f : RRR) (s : State) : Answer := vecOp f s 2 false (fun _ a b => fpick false a b)
/-- Larger value (R160). -/
def execVmax (f : RRR) (s : State) : Answer := vecOp f s 2 false (fun _ a b => fpick true a b)
/-- Sign cleared (R161). -/
def execVabs (f : RR) (s : State) : Answer := vecOp1 f s 1 (fsign (fun x => x &&& 0x7FFFFFFF))
/-- Sign inverted (R161). -/
def execVneg (f : RR) (s : State) : Answer := vecOp1 f s 1 (fsign (fun x => x ^^^ 0x80000000))
/-- A copy (R167). -/
def execVmov (f : RR) (s : State) : Answer := vecOp1 f s 1 (quietly)
/-- Equal, both ordered (R162). -/
def execVcmpeq (f : RRR) (s : State) : Answer :=
  vecCompare f s (fun a b => ((f32 a).eq (f32 b), flagIf (anySig a b) flagNV))
/-- Less, both ordered (R162). -/
def execVcmplt (f : RRR) (s : State) : Answer :=
  vecCompare f s (fun a b => ((f32 a).lt (f32 b), flagIf (anyNan a b) flagNV))
/-- Less or equal, both ordered (R162). -/
def execVcmple (f : RRR) (s : State) : Answer :=
  vecCompare f s (fun a b => (!anyNan a b && !(f32 b).lt (f32 a), flagIf (anyNan a b) flagNV))
/-- Either a NaN (R162). -/
def execVcmpun (f : RRR) (s : State) : Answer :=
  vecCompare f s (fun a b => (anyNan a b, flagIf (anySig a b) flagNV))
/-- Equal integers (R163). -/
def execVicmpeq (f : RRR) (s : State) : Answer :=
  vecCompare f s (fun a b => (a == b, 0))
/-- Signed less (R163). -/
def execVicmplt (f : RRR) (s : State) : Answer :=
  vecCompare f s (fun a b => (decide (a.toInt < b.toInt), 0))
/-- Sum (R165). -/
def execViadd (f : RRR) (s : State) : Answer := vecOp f s 1 false (fun _ a b => quietly (a + b))
/-- Difference (R165). -/
def execVisub (f : RRR) (s : State) : Answer := vecOp f s 1 false (fun _ a b => quietly (a - b))
/-- Low half of the product (R165). -/
def execVimul (f : RRR) (s : State) : Answer := vecOp f s 1 false (fun _ a b => quietly (a * b))
/-- And (R165). -/
def execViand (f : RRR) (s : State) : Answer := vecOp f s 1 false (fun _ a b => quietly (a &&& b))
/-- Or (R165). -/
def execVior (f : RRR) (s : State) : Answer := vecOp f s 1 false (fun _ a b => quietly (a ||| b))
/-- Exclusive or (R165). -/
def execVixor (f : RRR) (s : State) : Answer := vecOp f s 1 false (fun _ a b => quietly (a ^^^ b))
/-- Left shift (R166). -/
def execVishl (f : RRR) (s : State) : Answer := vecOp f s 1 false (fun _ a b => quietly (shl32 a b))
/-- Right shift, zero fill (R166). -/
def execVishr (f : RRR) (s : State) : Answer := vecOp f s 1 false (fun _ a b => quietly (shr32 a b))
/-- Right shift, sign fill (R166). -/
def execVisar (f : RRR) (s : State) : Answer := vecOp f s 1 false (fun _ a b => quietly (sar32 a b))
/-- Signed minimum (R165). -/
def execVimin (f : RRR) (s : State) : Answer := vecOp f s 1 false (fun _ a b => quietly (if a.toInt ≤ b.toInt then a else b))
/-- Signed maximum (R165). -/
def execVimax (f : RRR) (s : State) : Answer := vecOp f s 1 false (fun _ a b => quietly (if b.toInt ≤ a.toInt then a else b))
/-- Selection by the guard's bits; always on (R164). -/
def execVsel (f : RRR) (s : State) : Answer :=
  finish s (need (dests s [.v f.d]) (need (sources s [(.v f.a, f.ta), (.v f.b, f.tb)]) (need (ports s [f.a, f.b])
    (let a := vsrc s f.a
     let b := vsrc s f.b
     let m := s.src.getG f.g
     let x := ofLanes (fun l => if active m l then lane a l else lane b l)
     .ok (resultV (pop s f.h [f.a, f.b]) f.d allBits x 0 2)))))
/-- sA[31:0] in every active lane (R167). -/
def execVbcast (f : RR) (s : State) : Answer := vecFromScalar f s (fun x _ => x)
/-- sA[31:0] plus the lane number (R167). -/
def execViota (f : RR) (s : State) : Answer := vecFromScalar f s (fun x l => x + BitVec.ofNat 32 l)
/-- Lanes of vA by the indexes in vB (R168). -/
def execVperm (f : RRR) (s : State) : Answer :=
  slotV s f.g [.v f.d] (fun m => need (sources s [(.v f.a, f.ta), (.v f.b, f.tb)]) (need (ports s [f.a, f.b])
    (let a := vsrc s f.a
     let b := vsrc s f.b
     .ok (resultV (pop s f.h [f.a, f.b]) f.d m (ofLanes (fun l => lane a ((lane b l).toNat % 64))) 0 2))))
/-- Rotation of the lanes by sB (R168). -/
def execVrot (f : RRR) (s : State) : Answer :=
  slotV s f.g [.v f.d] (fun m => need (sources s [(.v f.a, f.ta), (.s f.b, f.tb)]) (need (ports s [f.a])
    (let a := vsrc s f.a
     let n := (s.src.getS f.b).toNat % 64
     .ok (resultV (pop s f.h [f.a]) f.d m (ofLanes (fun l => lane a ((l + n) % 64))) 0 2))))
/-- A lane into a scalar register (R169). -/
def execVext (f : RRR) (s : State) : Answer :=
  slotV s f.g [.s f.d] (fun m => need (sources s [(.v f.a, f.ta), (.s f.b, f.tb)]) (need (ports s [f.a])
    (let i := (s.src.getS f.b).toNat % 64
     let t := pop s f.h [f.a]
     .ok (if active m i then resultS t f.d (BitVec.ofNat 64 (lane (vsrc s f.a) i).toNat) 2 else t))))
/-- A scalar into a lane (R169); vD is a source (R153). -/
def execVins (f : RRR) (s : State) : Answer :=
  slotV s f.g [.v f.d] (fun m => need (sources s [(.s f.a, f.ta), (.s f.b, f.tb), (.v f.d, false)])
    (let i := (s.src.getS f.b).toNat % 64
     .ok (if active m i then
       resultV s f.d (BitVec.twoPow 64 i) (ofLanes (fun _ => BitVec.ofNat 32 (s.src.getS f.a).toNat)) 0 2 else s)))
/-- Fused vD + vA × sB (R159). -/
def execVfmai (f : RRR) (s : State) : Answer :=
  slotV s f.g [.v f.d] (fun m => need (sources s [(.v f.a, f.ta), (.s f.b, f.tb), (.v f.d, false)]) (need (ports s [f.a])
    (let a := vsrc s f.a
     let d := s.src.getV f.d
     let b := f32 (BitVec.ofNat 32 (s.src.getS f.b).toNat)
     let (x, fl) := lanewise m (fun l => ffma (f32 (lane d l)) (f32 (lane a l)) b)
     .ok (resultV (pop s f.h [f.a]) f.d m x fl 4))))

end Sys2Proof.Machine
end

