-- ==== Sys2Proof/Machine/Formats.lean ====
section
/-! DEFINITION. Class F: conversion, quantisation, reductions, special functions, the generator, merge and read-back (R170 to
R190). -/

namespace Sys2Proof.Machine

/-! Selectors (R35, R73, R172). -/

/-- Format code of index i of table A (R35). -/
def tableA (i : BitVec 4) : Nat :=
  match i.toNat with
  | 0 => 0x00 | 1 => 0x01 | 2 => 0x02 | 3 => 0x10 | 4 => 0x11 | 5 => 0x12 | 6 => 0x20 | 7 => 0x21 | _ => 0x30
/-- Format code of index i of table B (R35). -/
def tableB (i : BitVec 4) : Nat :=
  match i.toNat with
  | 0 => 0x90 | 1 => 0x91 | 2 => 0x92 | 3 => 0xA0 | 4 => 0xA1 | 5 => 0xB0 | 6 => 0xD0 | 7 => 0xD1 | 8 => 0xD2 | _ => 0xD3

/-- A format of the tables. -/
def tabled (code : Nat) : Format := (formatOf code).getD ⟨.int8, 8, 0, 0, .none⟩

/-- Rounding mode of a selector, or none for a reserved fpctl.rm (R73). -/
def roundMode (s : State) (rnd : BitVec 2) : Option Rm :=
  match rnd.toNat with
  | 0 => some .rne
  | 1 => some .rz
  | 2 => some .sr
  | _ => match wbits s.src.fpctl 0 3 with
    | 0 => some .rne | 1 => some .rz | 2 => some .ru | 3 => some .rd | 4 => some .sr | _ => none

/-- Saturation of an instruction whose sat column admits 1 (R73, R172). -/
def saturates (s : State) (f : UF) : Bool := f.sat || (f.rnd == 3 && wbit s.src.fpctl 3)

/-- Counter that a slot of the bundle in flight draws with (R81). -/
def drawCtr (s : State) : W64 := s.src.rngCtr + BitVec.ofNat 64 s.issue.draws

/-- One use of the generator (R81). -/
def useGenerator (s : State) : State :=
  let t := s.setRegs { s.me.r with rngCtr := s.me.r.rngCtr + 1 }
  { t with issue := { t.issue with draws := t.issue.draws + 1 } }

/-- The random value of lane l under a mode (R82, R175). -/
def laneDraw (s : State) (mode : Rm) (l : Nat) : W32 :=
  match mode with
  | .sr => drawHigh s.src.rngSeed (drawCtr s) l
  | _ => 0

/-- A lane-masked slot that may draw: it draws whether it is on or off (R39, R81, R175). -/
def slotF (s : State) (g : BitVec 3) (ds : List Ref) (draws : Bool) (body : W64 → Except Stop State) : Answer :=
  let after := fun (r : Except Stop State) => match r with
    | .ok t => .ok (if draws then useGenerator t else t)
    | .error e => .error e
  finish s (match dests s ds with
    | .error e => .error e
    | .ok () => after (if s.src.getG g = 0 then .ok s else body (s.src.getG g)))

/-- A U-form slot: EMPTY, ARRAY, QUNF and the reserved mode are checked, then the body runs with the mask, the mode and vA. The spec gives
the ILL of a reserved mode no place among these and the wait for an empty source: it comes last (DESIGN CHOICE, log 35). -/
def unary (f : UF) (s : State) (extra : List (Ref × Bool)) (body : W64 → Rm → Row → State → State) : Answer :=
  let mode := roundMode s f.rnd
  slotF s f.g [.v f.d] (mode == some .sr) (fun m =>
    need (sources s ((.v f.a, f.ta) :: extra)) (need (ports s [f.a])
      (match mode with
       | none => .error (.trap .ill (BitVec.ofNat 64 s.issue.slot))
       | some r => .ok (body m r (vsrc s f.a) (pop s false [f.a])))))

/-- A U-form slot that writes its active lanes. -/
def unaryLanes (f : UF) (s : State) (lat : Nat) (extra : List (Ref × Bool)) (op : Rm → Row → Nat → W32 × BitVec 5) : Answer :=
  unary f s extra (fun m mode a t =>
    let (x, fl) := lanewise m (op mode a)
    resultV t f.d m x fl lat)

/-- An RR-form slot of class F with a mask, vA and vD. -/
def reduce (f : RR) (s : State) (old : Bool) (body : W64 → Row → State → State) : Answer :=
  slotV s f.g [.v f.d] (fun m =>
    need (sources s ((.v f.a, f.ta) :: if old then [(.v f.d, false)] else [])) (need (ports s [f.a])
      (.ok (body m (vsrc s f.a) (pop s f.h [f.a])))))

/-! Element conversions. -/

/-- A 32-bit lane that an element code gives: INT8 sign-extended, others zero-extended (R176). -/
def widenCode (f : Format) (c : Nat) : W32 :=
  match f.elem with
  | .int8 => BitVec.ofInt 32 (BitVec.ofNat 8 c).toInt
  | _ => BitVec.ofNat 32 c

/-- vcvt (R176, R177). -/
def execVcvt (f : UF) (s : State) : Answer :=
  unaryLanes f s 3 [] (fun mode a l =>
    let fmt := tabled (tableA f.fmt)
    let (c, fl) := fmt.elem.round (f32 (lane a l)) mode (saturates s f) (laneDraw s mode l)
    (widenCode fmt c, fl))

/-- vcvtx (R178). -/
def execVcvtx (f : UF) (s : State) : Answer :=
  unaryLanes f s 3 [] (fun mode a l =>
    if f.fmt = 0 then
      let (c, fl) := fp32.round (Num.ofInt (lane a l).toInt) mode false (laneDraw s mode l)
      (BitVec.ofNat 32 c, fl)
    else
      let (v, fl) := roundInt (-2 ^ 31) (2 ^ 31 - 1) (f32 (lane a l)) mode (laneDraw s mode l)
      (BitVec.ofInt 32 v, fl))

/-- n bytes shifted into a register from the top (R174). -/
def shiftIn (old : Row) (p n : Nat) : Row := BitVec.ofNat 2048 (old.toNat / 2 ^ (8 * n) + p * 2 ^ (8 * (256 - n)))

/-- vpack (R179). -/
def execVpack (f : UF) (s : State) : Answer :=
  unary f s [(.v f.d, false)] (fun m mode a t =>
    let fmt := tabled (tableA f.fmt)
    let xs := (List.range 64).map (fun l =>
      if active m l then fmt.elem.round (f32 (lane a l)) mode (saturates s f) (laneDraw s mode l) else (0, 0))
    let p := packElems fmt.bits (xs.map (fun x => x.1))
    resultV t f.d allBits (shiftIn (s.src.getV f.d) p (8 * fmt.bits)) (xs.foldl (fun a x => a ||| x.2) 0) 3)

/-- vunpk (R180). -/
def execVunpk (f : UF) (s : State) : Answer :=
  unaryLanes f s 3 [] (fun _ a l =>
    let fmt := tabled (tableA f.fmt)
    settle [fmt.elem.decode (packedAt fmt.bits a.toNat l)] (fmt.elem.decode (packedAt fmt.bits a.toNat l)))

/-! Block-scaled records. -/

/-- Value of a lane that takes part, +0 otherwise (R181). -/
def partake (m : W64) (a : Row) (l : Nat) : Num := if active m l then f32 (lane a l) else .zero

/-- One block of vqmx from lane `base` (R181, R83, R84). -/
def quantBlock (s : State) (fmt : Format) (mode : Rm) (m : W64) (a : Row) (base : Nat) : Nat × BitVec 5 :=
  let vs := (List.range 32).map (fun i => (partake m a (base + i), laneDraw s mode (base + i)))
  match fmt.scale with
  | .e8m2 => quantFine fmt mode (((List.range 32).filter (fun i => active m (base + i))).getLastD 0 + 1) vs
  | _ => quantMx fmt mode vs

/-- vqmx (R181). -/
def execVqmx (f : UF) (s : State) : Answer :=
  unary f s [(.v f.d, false)] (fun m mode a t =>
    let fmt := tabled (tableB f.fmt)
    let (p0, f0) := quantBlock s fmt mode m a 0
    let (p1, f1) := quantBlock s fmt mode m a 32
    let p := p0 + p1 * 2 ^ (8 * fmt.record)
    resultV t f.d allBits (shiftIn (s.src.getV f.d) p (2 * fmt.record)) (f0 ||| f1) 6)

/-- vdqmx (R182). -/
def execVdqmx (f : UF) (s : State) : Answer :=
  unaryLanes f s 3 [] (fun mode a l =>
    let fmt := tabled (tableB f.fmt)
    let run := a.toNat / 2 ^ (8 * fmt.record * (l / 32)) % 2 ^ (8 * fmt.record)
    let (c, fl) := fp32.round ((fmt.block 0 run).value (l % 32)) mode (saturates s f) (laneDraw s mode l)
    (BitVec.ofNat 32 c, fl))

/-- Super-scale of vq4n and vdq4n: the scalar register that D numbers (R171). -/
def superScale (s : State) (f : UF) : W32 := BitVec.ofNat 32 (s.src.getS f.d).toNat

/-- vq4n (R183, R85). -/
def execVq4n (f : UF) (s : State) : Answer :=
  unary f s [(.v f.d, false), (.s f.d, false)] (fun m mode a t =>
    let (p, fl) := quantQ4n (superScale s f) mode
      ((List.range 64).map (fun l => (if active m l then some (f32 (lane a l)) else none, laneDraw s mode l)))
    resultV t f.d allBits (shiftIn (s.src.getV f.d) p 33) fl 6)

/-- vdq4n (R183, R71): the rounding of the block scale sets flags too (R77, R172). -/
def execVdq4n (f : UF) (s : State) : Answer :=
  unaryLanes f s 3 [(.s f.d, false)] (fun mode a l =>
    let run := a.toNat % 2 ^ 264
    let sup := superScale s f
    let b := (tabled 0x40).block sup run
    let (c, fl) := fp32.round (b.value l) mode (saturates s f) (laneDraw s mode l)
    (BitVec.ofNat 32 c, fl ||| (if b.zero then 0 else (q4nScale sup run).2 ||| flagIf (f32 sup).isSig flagNV)))

/-! Reductions. -/

/-- vamax (R184). -/
def execVamax (f : RR) (s : State) : Answer :=
  reduce f s true (fun m a t =>
    let xs := f32 (lane (s.src.getV f.d) 0) :: ((List.range 64).filter (active m)).map (fun l => f32 (lane a l))
    let best := xs.foldl (fun (b : Num) x => if b.lt x.abs then x.abs else b) .zero
    let x := if xs.any Num.isNan then 0x7FC00000 else (roundF32 best).1
    resultV t f.d allBits (ofLanes (fun _ => x)) (flagIf (xs.any Num.isSig) flagNV) 5)

/-- Neighbours of a list combined, as one level of the tree of R185. Beside an absent neighbour a value passes unchanged: it has been made
canonical, and its flag set, where it entered (R63; log 37). -/
def pairUp : List (Option W32 × BitVec 5) → List (Option W32 × BitVec 5)
  | x :: y :: t =>
    (match x.1, y.1 with
      | some a, some b => let (c, fl) := fadd (f32 a) (f32 b)
        (some c, x.2 ||| y.2 ||| fl)
      | some a, none => (some a, x.2 ||| y.2)
      | none, b => (b, x.2 ||| y.2)) :: pairUp t
  | t => t

/-- A binary32 code with a NaN made canonical (R63). -/
def canonical (x : W32) : W32 := if (f32 x).isNan then 0x7FC00000 else x

/-- A participating lane as a reduction takes it: a signalling NaN sets nv, and no payload is carried (R63). -/
def enter (x : W32) : W32 × BitVec 5 := (canonical x, flagIf (f32 x).isSig flagNV)

/-- vsum: the fixed tree of R185. -/
def execVsum (f : RR) (s : State) : Answer :=
  reduce f s false (fun m a t =>
    let t0 : List (Option W32 × BitVec 5) := (List.range 64).map (fun l =>
      if active m l then (some (enter (lane a l)).1, (enter (lane a l)).2) else (none, 0))
    let root := (pairUp (pairUp (pairUp (pairUp (pairUp (pairUp t0)))))).headD (none, 0)
    resultV t f.d allBits (ofLanes (fun _ => root.1.getD 0)) root.2 6)

/-- Whether value x beats value y in vmaxi (or vmini): NaN loses, -0 is below +0 (R186). -/
def beats (wantMax : Bool) (x y : Num) : Bool :=
  let above := fun (p q : Num) => q.lt p || (p.isZero && q.isZero && q.neg? && !p.neg?)
  if x.isNan then false else if y.isNan then true else if wantMax then above x y else above y x

/-- vmaxi and vmini fold the participating lanes into the running pair (R186). -/
def foldBest (wantMax : Bool) (f : RR) (s : State) : Answer :=
  reduce f s true (fun m a t =>
    let d := s.src.getV f.d
    let base := lane d 2
    let empty : W32 := 0xFFFFFFFF
    let cands := ((List.range 64).filter (active m)).map (fun l => (lane a l, base + BitVec.ofNat 32 l))
    let start : Option (W32 × W32) := if lane d 1 = empty then none else some (lane d 0, lane d 1)
    let best := cands.foldl (fun (b : Option (W32 × W32)) c =>
      if c.2 = empty then b
      else match b with
        | none => some c
        | some p => if beats wantMax (f32 c.1) (f32 p.1) then some c else b) start
    let fl := flagIf ((f32 (lane d 0)).isSig || cands.any (fun c => (f32 c.1).isSig)) flagNV
    let mask : W64 := if best.isSome then 7 else 4
    let (v, i) := best.getD (lane d 0, lane d 1)
    resultV t f.d mask (ofLanes (fun l => if l = 0 then canonical v else if l = 1 then i else base + 64)) fl 5)

/-- Running maximum with its index (R186). -/
def execVmaxi (f : RR) (s : State) : Answer := foldBest true f s
/-- Running minimum with its index (R186). -/
def execVmini (f : RR) (s : State) : Answer := foldBest false f s

/-! Special functions (R187). An irrational result is given by its first bits and one bit more, set: rounding cannot tell it from
the exact value unless that agrees with a rounding boundary in more than 60 bits past the last. -/

/-- The largest r below 2^n with r^2 × d at most m. -/
def rootBits (m d : Nat) : Nat → Nat → Nat
  | 0, r => r
  | n + 1, r => if (r + 2 ^ n) * (r + 2 ^ n) * d ≤ m then rootBits m d n (r + 2 ^ n) else rootBits m d n r

/-- 1 / sqrt(n / d) of a positive magnitude, 104 fraction bits and a sticky one. -/
def invSqrt (n d : Nat) : Num :=
  let m := d * 2 ^ 208
  let r := rootBits m n 184 0
  if r * r * n = m then .fin false r (2 ^ 104) else .fin false (2 * r + 1) (2 ^ 105)

/-- n fraction bits of log2 of a number in [1, 2), given with 300 fraction bits, by repeated squaring. -/
def log2Bits : Nat → Nat → Nat → Nat
  | 0, _, acc => acc
  | n + 1, x, acc =>
    let y := x * x / 2 ^ 300
    if 2 ^ 301 ≤ y then log2Bits n (y / 2) (2 * acc + 1) else log2Bits n y (2 * acc)

/-- log2(n / d) of a positive magnitude. -/
def log2Num (n d : Nat) : Num :=
  let e := floorLog2 n d
  let (x, y) := scale2 n d (-e)
  if x = y then Num.ofInt e
  else
    let t : Int := e * 2 ^ 110 + (log2Bits 110 (x * 2 ^ 300 / y) 0 : Nat)
    let u := 2 * t + 1
    .fin (decide (u < 0)) u.natAbs (2 ^ 111)

/-- floor(2^256 × ln 2). -/
def ln2 : Nat := 80260960185991308862233904206310070533990667611589946606122867505419956976171

/-- Terms of e^y from the k-th on, with 256 fraction bits. -/
def expTerms : Nat → Nat → Nat → Nat → Nat
  | 0, _, _, _ => 0
  | n + 1, k, term, y => term + expTerms n (k + 1) (term * y / 2 ^ 256 / (k + 1)) y

/-- 2^(n / d) with a sign, for an argument between -160 and 128. -/
def exp2Num (neg : Bool) (n d : Nat) : Num :=
  let i : Int := if neg then -(((n + d - 1) / d : Nat) : Int) else ((n / d : Nat) : Int)
  let fr := if neg then (d - n % d) % d else n % d
  if fr = 0 then (Num.fin false 1 1).scale i
  else
    let y := fr * 2 ^ 256 / d * ln2 / 2 ^ 256
    let t := expTerms 64 0 (2 ^ 256) y / 2 ^ 56
    (Num.fin false (2 * t + 1) (2 ^ 201)).scale i

/-- vlog2 of a value (R187). -/
def flog2 (x : Num) : W32 × BitVec 5 :=
  match x with
  | .nan b => (0x7FC00000, flagIf b flagNV)
  | .inf true => (0x7FC00000, flagNV)
  | .inf false => (0x7F800000, 0)
  | .fin neg n d =>
    if n = 0 then (0xFF800000, flagDZ) else if neg then (0x7FC00000, flagNV) else roundF32 (log2Num n d)

/-- vexp2 of a value (R187). -/
def fexp2 (x : Num) : W32 × BitVec 5 :=
  match x with
  | .nan b => (0x7FC00000, flagIf b flagNV)
  | .inf true => (0, 0)
  | .inf false => (0x7F800000, 0)
  | .fin neg n d =>
    if !neg && decide (128 * d ≤ n) then (0x7F800000, flagOF ||| flagNX)
    else if neg && decide (160 * d ≤ n) then (0, flagUF ||| flagNX)
    else roundF32 (exp2Num neg n d)

/-- vrcp of a value (R187). -/
def frcp (x : Num) : W32 × BitVec 5 :=
  match x with
  | .nan b => (0x7FC00000, flagIf b flagNV)
  | .inf neg => (if neg then 0x80000000 else 0, 0)
  | .fin neg n d => if n = 0 then (if neg then 0xFF800000 else 0x7F800000, flagDZ) else roundF32 (.fin neg d n)

/-- vrsqrt of a value (R187). -/
def frsqrt (x : Num) : W32 × BitVec 5 :=
  match x with
  | .nan b => (0x7FC00000, flagIf b flagNV)
  | .inf true => (0x7FC00000, flagNV)
  | .inf false => (0, 0)
  | .fin neg n d =>
    if n = 0 then (if neg then 0xFF800000 else 0x7F800000, flagDZ)
    else if neg then (0x7FC00000, flagNV) else roundF32 (invSqrt n d)

/-- Base-2 logarithm (R187). -/
def execVlog2 (f : UF) (s : State) : Answer := unaryLanes f s 8 [] (fun _ a l => flog2 (f32 (lane a l)))
/-- Power of two (R187). -/
def execVexp2 (f : UF) (s : State) : Answer := unaryLanes f s 8 [] (fun _ a l => fexp2 (f32 (lane a l)))
/-- Reciprocal (R187). -/
def execVrcp (f : UF) (s : State) : Answer := unaryLanes f s 8 [] (fun _ a l => frcp (f32 (lane a l)))
/-- Reciprocal square root (R187). -/
def execVrsqrt (f : UF) (s : State) : Answer := unaryLanes f s 8 [] (fun _ a l => frsqrt (f32 (lane a l)))

/-! Generator, merge, read-back. -/

/-- vrng (R188). -/
def execVrng (f : RR) (s : State) : Answer :=
  slotF s f.g [.v f.d] true (fun m =>
    .ok (resultV s f.d m (ofLanes (fun l => drawHigh s.src.rngSeed (drawCtr s) l)) 0 2))

/-- One pair of vlsem (R189): m, l, the flags of the steps that give m, and all flags. Of zeros of opposite sign m is +0, as vmax takes them
(R160): R189's max does not say (DESIGN CHOICE, log 108). -/
def mergePair (pma pla pmb plb : W32) : W32 × W32 × BitVec 5 × BitVec 5 :=
  let ma := f32 pma
  let la := f32 pla
  let mb := f32 pmb
  let lb := f32 plb
  let nans := [ma, la, mb, lb].any Num.isNan
  if nans || ma == .inf false || mb == .inf false then
    let fl := flagIf ([ma, la, mb, lb].any Num.isSig || !nans) flagNV
    (0x7FC00000, 0x7FC00000, fl, fl)
  else if ma == .inf true && mb == .inf true then (0xFF800000, 0, 0, 0)
  else
    let m := (fpick true pma pmb).1
    let (da, fa) := fadd ma (f32 m).negate
    let (db, fb) := fadd mb (f32 m).negate
    let (ea, ga) := fexp2 (f32 da)
    let (eb, gb) := fexp2 (f32 db)
    let (l, h) := settle [la, lb] ((la.mul (f32 ea)).add (lb.mul (f32 eb)))
    (m, l, 0, fa ||| fb ||| ga ||| gb ||| h)

/-- vlsem (R189). -/
def execVlsem (f : RRR) (s : State) : Answer :=
  slotV s f.g [.v f.d] (fun mask => need (sources s [(.v f.a, f.ta), (.v f.b, f.tb)]) (need (ports s [f.a, f.b])
    (let a := vsrc s f.a
     let b := vsrc s f.b
     let ps := (List.range 32).map (fun i =>
       mergePair (lane a (2 * i)) (lane a (2 * i + 1)) (lane b (2 * i)) (lane b (2 * i + 1)))
     let fl := ps.zipIdx.foldl (fun acc p =>
       acc ||| (if active mask (2 * p.2 + 1) then p.1.2.2.2 else if active mask (2 * p.2) then p.1.2.2.1 else 0)) 0
     let x := BitVec.ofNat 2048 (lanesNat (ps.flatMap (fun p => [p.1, p.2.1])))
     .ok (resultV (pop s f.h [f.a, f.b]) f.d mask x fl 8))))

/-- vfxcvt (R190). -/
def execVfxcvt (f : UF) (s : State) : Answer :=
  unaryLanes f s 3 [] (fun _ a l => if l < 16 then fixedRead (BitVec.ofNat 128 (a.toNat / 2 ^ (128 * l))) else (0, 0))

end Sys2Proof.Machine
end

