-- ==== Sys2Proof/Machine/Dispatch.lean ====
section
/-! DEFINITION. One arm per instruction: a direct call of its meaning. -/

namespace Sys2Proof.Machine

/-- What an instruction, or one of the device's own steps, does. -/
def exec (i : Instr) (s : State) : Host.Outcome State Fault Refusal :=
  match i with
  | .add f => Sys2Proof.Machine.execAdd f s
  | .sub f => Sys2Proof.Machine.execSub f s
  | .addi f => Sys2Proof.Machine.execAddi f s
  | .li f => Sys2Proof.Machine.execLi f s
  | .addpc f => Sys2Proof.Machine.execAddpc f s
  | .mul f => Sys2Proof.Machine.execMul f s
  | .mulh f => Sys2Proof.Machine.execMulh f s
  | .mulhu f => Sys2Proof.Machine.execMulhu f s
  | .div f => Sys2Proof.Machine.execDiv f s
  | .divu f => Sys2Proof.Machine.execDivu f s
  | .rem f => Sys2Proof.Machine.execRem f s
  | .remu f => Sys2Proof.Machine.execRemu f s
  | .and f => Sys2Proof.Machine.execAnd f s
  | .or f => Sys2Proof.Machine.execOr f s
  | .xor f => Sys2Proof.Machine.execXor f s
  | .andn f => Sys2Proof.Machine.execAndn f s
  | .andi f => Sys2Proof.Machine.execAndi f s
  | .ori f => Sys2Proof.Machine.execOri f s
  | .xori f => Sys2Proof.Machine.execXori f s
  | .shl f => Sys2Proof.Machine.execShl f s
  | .shr f => Sys2Proof.Machine.execShr f s
  | .sar f => Sys2Proof.Machine.execSar f s
  | .rol f => Sys2Proof.Machine.execRol f s
  | .shli f => Sys2Proof.Machine.execShli f s
  | .shri f => Sys2Proof.Machine.execShri f s
  | .sari f => Sys2Proof.Machine.execSari f s
  | .min f => Sys2Proof.Machine.execMin f s
  | .max f => Sys2Proof.Machine.execMax f s
  | .minu f => Sys2Proof.Machine.execMinu f s
  | .maxu f => Sys2Proof.Machine.execMaxu f s
  | .clz f => Sys2Proof.Machine.execClz f s
  | .ctz f => Sys2Proof.Machine.execCtz f s
  | .popc f => Sys2Proof.Machine.execPopc f s
  | .bfx f => Sys2Proof.Machine.execBfx f s
  | .bfi f => Sys2Proof.Machine.execBfi f s
  | .sext f => Sys2Proof.Machine.execSext f s
  | .cmpeq f => Sys2Proof.Machine.execCmpeq f s
  | .cmpne f => Sys2Proof.Machine.execCmpne f s
  | .cmplt f => Sys2Proof.Machine.execCmplt f s
  | .cmpge f => Sys2Proof.Machine.execCmpge f s
  | .cmpltu f => Sys2Proof.Machine.execCmpltu f s
  | .cmpgeu f => Sys2Proof.Machine.execCmpgeu f s
  | .cmpeqi f => Sys2Proof.Machine.execCmpeqi f s
  | .cmplti f => Sys2Proof.Machine.execCmplti f s
  | .sel f => Sys2Proof.Machine.execSel f s
  | .gand f => Sys2Proof.Machine.execGand f s
  | .gor f => Sys2Proof.Machine.execGor f s
  | .gxor f => Sys2Proof.Machine.execGxor f s
  | .gset f => Sys2Proof.Machine.execGset f s
  | .gget f => Sys2Proof.Machine.execGget f s
  | .nop => Sys2Proof.Machine.execNop s
  | .br f => Sys2Proof.Machine.execBr f s
  | .call f => Sys2Proof.Machine.execCall f s
  | .jr f => Sys2Proof.Machine.execJr f s
  | .callr f => Sys2Proof.Machine.execCallr f s
  | .ret f => Sys2Proof.Machine.execRet f s
  | .loop f => Sys2Proof.Machine.execLoop f s
  | .rep f => Sys2Proof.Machine.execRep f s
  | .wait f => Sys2Proof.Machine.execWait f s
  | .yield f => Sys2Proof.Machine.execYield f s
  | .stop f => Sys2Proof.Machine.execStop f s
  | .trap f => Sys2Proof.Machine.execTrap f s
  | .eret f => Sys2Proof.Machine.execEret f s
  | .mfs f => Sys2Proof.Machine.execMfs f s
  | .mts f => Sys2Proof.Machine.execMts f s
  | .ckpt f => Sys2Proof.Machine.execCkpt f s
  | .brk f => Sys2Proof.Machine.execBrk f s
  | .ldb f => Sys2Proof.Machine.execLdb f s
  | .ldbu f => Sys2Proof.Machine.execLdbu f s
  | .ldh f => Sys2Proof.Machine.execLdh f s
  | .ldhu f => Sys2Proof.Machine.execLdhu f s
  | .ldw f => Sys2Proof.Machine.execLdw f s
  | .ldwu f => Sys2Proof.Machine.execLdwu f s
  | .ldd f => Sys2Proof.Machine.execLdd f s
  | .stb f => Sys2Proof.Machine.execStb f s
  | .sth f => Sys2Proof.Machine.execSth f s
  | .stw f => Sys2Proof.Machine.execStw f s
  | .std f => Sys2Proof.Machine.execStd f s
  | .ldx f => Sys2Proof.Machine.execLdx f s
  | .vld f => Sys2Proof.Machine.execVld f s
  | .vst f => Sys2Proof.Machine.execVst f s
  | .vldb f => Sys2Proof.Machine.execVldb f s
  | .vldx f => Sys2Proof.Machine.execVldx f s
  | .vstx f => Sys2Proof.Machine.execVstx f s
  | .lds f => Sys2Proof.Machine.execLds f s
  | .sts f => Sys2Proof.Machine.execSts f s
  | .stset f => Sys2Proof.Machine.execStset f s
  | .stget f => Sys2Proof.Machine.execStget f s
  | .stq f => Sys2Proof.Machine.execStq f s
  | .wld f => Sys2Proof.Machine.execWld f s
  | .vldt f => Sys2Proof.Machine.execVldt f s
  | .vldtc f => Sys2Proof.Machine.execVldtc f s
  | .amoadd f => Sys2Proof.Machine.execAmoadd f s
  | .amomin f => Sys2Proof.Machine.execAmomin f s
  | .amomax f => Sys2Proof.Machine.execAmomax f s
  | .amoand f => Sys2Proof.Machine.execAmoand f s
  | .amoor f => Sys2Proof.Machine.execAmoor f s
  | .amoxor f => Sys2Proof.Machine.execAmoxor f s
  | .amoswp f => Sys2Proof.Machine.execAmoswp f s
  | .amocas f => Sys2Proof.Machine.execAmocas f s
  | .fence f => Sys2Proof.Machine.execFence f s
  | .fwait f => Sys2Proof.Machine.execFwait f s
  | .bind f => Sys2Proof.Machine.execBind f s
  | .acq f => Sys2Proof.Machine.execAcq f s
  | .rel f => Sys2Proof.Machine.execRel f s
  | .prf f => Sys2Proof.Machine.execPrf f s
  | .ninv f => Sys2Proof.Machine.execNinv f s
  | .vadd f => Sys2Proof.Machine.execVadd f s
  | .vsub f => Sys2Proof.Machine.execVsub f s
  | .vmul f => Sys2Proof.Machine.execVmul f s
  | .vfma f => Sys2Proof.Machine.execVfma f s
  | .vfms f => Sys2Proof.Machine.execVfms f s
  | .vmin f => Sys2Proof.Machine.execVmin f s
  | .vmax f => Sys2Proof.Machine.execVmax f s
  | .vabs f => Sys2Proof.Machine.execVabs f s
  | .vneg f => Sys2Proof.Machine.execVneg f s
  | .vcmpeq f => Sys2Proof.Machine.execVcmpeq f s
  | .vcmplt f => Sys2Proof.Machine.execVcmplt f s
  | .vcmple f => Sys2Proof.Machine.execVcmple f s
  | .vcmpun f => Sys2Proof.Machine.execVcmpun f s
  | .vsel f => Sys2Proof.Machine.execVsel f s
  | .vmov f => Sys2Proof.Machine.execVmov f s
  | .vbcast f => Sys2Proof.Machine.execVbcast f s
  | .viota f => Sys2Proof.Machine.execViota f s
  | .viadd f => Sys2Proof.Machine.execViadd f s
  | .visub f => Sys2Proof.Machine.execVisub f s
  | .vimul f => Sys2Proof.Machine.execVimul f s
  | .viand f => Sys2Proof.Machine.execViand f s
  | .vior f => Sys2Proof.Machine.execVior f s
  | .vixor f => Sys2Proof.Machine.execVixor f s
  | .vishl f => Sys2Proof.Machine.execVishl f s
  | .vishr f => Sys2Proof.Machine.execVishr f s
  | .visar f => Sys2Proof.Machine.execVisar f s
  | .vimin f => Sys2Proof.Machine.execVimin f s
  | .vimax f => Sys2Proof.Machine.execVimax f s
  | .vicmpeq f => Sys2Proof.Machine.execVicmpeq f s
  | .vicmplt f => Sys2Proof.Machine.execVicmplt f s
  | .vperm f => Sys2Proof.Machine.execVperm f s
  | .vrot f => Sys2Proof.Machine.execVrot f s
  | .vext f => Sys2Proof.Machine.execVext f s
  | .vins f => Sys2Proof.Machine.execVins f s
  | .vfmai f => Sys2Proof.Machine.execVfmai f s
  | .vcvt f => Sys2Proof.Machine.execVcvt f s
  | .vcvtx f => Sys2Proof.Machine.execVcvtx f s
  | .vpack f => Sys2Proof.Machine.execVpack f s
  | .vunpk f => Sys2Proof.Machine.execVunpk f s
  | .vqmx f => Sys2Proof.Machine.execVqmx f s
  | .vdqmx f => Sys2Proof.Machine.execVdqmx f s
  | .vq4n f => Sys2Proof.Machine.execVq4n f s
  | .vdq4n f => Sys2Proof.Machine.execVdq4n f s
  | .vamax f => Sys2Proof.Machine.execVamax f s
  | .vsum f => Sys2Proof.Machine.execVsum f s
  | .vmaxi f => Sys2Proof.Machine.execVmaxi f s
  | .vmini f => Sys2Proof.Machine.execVmini f s
  | .vlog2 f => Sys2Proof.Machine.execVlog2 f s
  | .vexp2 f => Sys2Proof.Machine.execVexp2 f s
  | .vrcp f => Sys2Proof.Machine.execVrcp f s
  | .vrsqrt f => Sys2Proof.Machine.execVrsqrt f s
  | .vrng f => Sys2Proof.Machine.execVrng f s
  | .vlsem f => Sys2Proof.Machine.execVlsem f s
  | .vfxcvt f => Sys2Proof.Machine.execVfxcvt f s
  | .mpush f => Sys2Proof.Machine.execMpush f s
  | .mswap f => Sys2Proof.Machine.execMswap f s
  | .macc f => Sys2Proof.Machine.execMacc f s
  | .maccp f => Sys2Proof.Machine.execMaccp f s
  | .mdrain f => Sys2Proof.Machine.execMdrain f s
  | .mdrainp f => Sys2Proof.Machine.execMdrainp f s
  | .mclr f => Sys2Proof.Machine.execMclr f s
  | .mownAcquire f => Sys2Proof.Machine.execMownAcquire f s
  | .mownRelease f => Sys2Proof.Machine.execMownRelease f s
  | .shw f => Sys2Proof.Machine.execShw f s
  | .cpy f => Sys2Proof.Machine.execCpy f s
  | .cpyadd f => Sys2Proof.Machine.execCpyadd f s
  | .cpymc f => Sys2Proof.Machine.execCpymc f s
  | .cpyt f => Sys2Proof.Machine.execCpyt f s
  | .cpyg f => Sys2Proof.Machine.execCpyg f s
  | .tlrd f => Sys2Proof.Machine.execTlrd f s
  | .tlwait f => Sys2Proof.Machine.execTlwait f s
  | .swset f => Sys2Proof.Machine.execSwset f s
  | .swwait f => Sys2Proof.Machine.execSwwait f s
  | .itstart f => Sys2Proof.Machine.execItstart f s
  | .itstat f => Sys2Proof.Machine.execItstat f s
  | .plan f => Sys2Proof.Machine.execPlan f s
  | .lnscfgTemplate f => Sys2Proof.Machine.execLnscfgTemplate f s
  | .lnscfgDescriptor f => Sys2Proof.Machine.execLnscfgDescriptor f s
  | .lnsgo f => Sys2Proof.Machine.execLnsgo f s
  | .gcfg f => Sys2Proof.Machine.execGcfg f s
  | .gsub f => Sys2Proof.Machine.execGsub f s
  | .cpyw f => Sys2Proof.Machine.execCpyw f s
  | .spawn f => Sys2Proof.Machine.execSpawn f s
  | .qpush f => Sys2Proof.Machine.execQpush f s
  | .join f => Sys2Proof.Machine.execJoin f s
  | .trig f => Sys2Proof.Machine.execTrig f s
  | .park f => Sys2Proof.Machine.execPark f s
  | .wake f => Sys2Proof.Machine.execWake f s
  | .futwait f => Sys2Proof.Machine.execFutwait f s
  | .futset f => Sys2Proof.Machine.execFutset f s
  | .futpoison f => Sys2Proof.Machine.execFutpoison f s
  | .talloc f => Sys2Proof.Machine.execTalloc f s
  | .tfin f => Sys2Proof.Machine.execTfin f s
  | .tdrop f => Sys2Proof.Machine.execTdrop f s
  | .bar f => Sys2Proof.Machine.execBar f s
  | .barr f => Sys2Proof.Machine.execBarr f s
  | .barw f => Sys2Proof.Machine.execBarw f s
  | .kvapp f => Sys2Proof.Machine.execKvapp f s
  | .susp f => Sys2Proof.Machine.execSusp f s
  | .bundleIssue c => Sys2Proof.Machine.execBundleIssue c s
  | .continuationStart c x => Sys2Proof.Machine.execContinuationStart c x s
  | .suspensionPoint c x => Sys2Proof.Machine.execSuspensionPoint c x s
  | .heldPushRetry c => Sys2Proof.Machine.execHeldPushRetry c s
  | .barrierEpisodeComplete team scope dom => Sys2Proof.Machine.execBarrierEpisodeComplete team scope dom s
  | .tileStep c x => Sys2Proof.Machine.execTileStep c x s
  | .tileStepDone c x => Sys2Proof.Machine.execTileStepDone c x s
  | .divisionResult c x id => Sys2Proof.Machine.execDivisionResult c x id s
  | .variableLoadResult c x id => Sys2Proof.Machine.execVariableLoadResult c x id s
  | .atomicResult c x id => Sys2Proof.Machine.execAtomicResult c x id s
  | .fenceComplete c x => Sys2Proof.Machine.execFenceComplete c x s
  | .tileGrant c pool => Sys2Proof.Machine.execTileGrant c pool s
  | .planResult c x id => Sys2Proof.Machine.execPlanResult c x id s
  | .kvappResult c x id => Sys2Proof.Machine.execKvappResult c x id s
  | .rollback c x => Sys2Proof.Machine.execRollback c x s
  | .page c x id => Sys2Proof.Machine.execPage c x id s
  | .heldFault c x => Sys2Proof.Machine.execHeldFault c x s
  | .int c x => Sys2Proof.Machine.execInt c x s
  | .watchdog c x => Sys2Proof.Machine.execWatchdog c x s
  | .preempt c x => Sys2Proof.Machine.execPreempt c x s
  | .preemptHandlerTimeout c x => Sys2Proof.Machine.execPreemptHandlerTimeout c x s
  | .dispatch p => Sys2Proof.Machine.execDispatch p s
  | .steal p o c => Sys2Proof.Machine.execSteal p o c s
  | .preemption p => Sys2Proof.Machine.execPreemption p s
  | .drainLimit c x => Sys2Proof.Machine.execDrainLimit c x s
  | .save c x => Sys2Proof.Machine.execSave c x s
  | .saveResume c x => Sys2Proof.Machine.execSaveResume c x s
  | .kill c x => Sys2Proof.Machine.execKill c x s
  | .teamAbort team => Sys2Proof.Machine.execTeamAbort team s
  | .killDrainDone team => Sys2Proof.Machine.execKillDrainDone team s
  | .gangPlacement p gang => Sys2Proof.Machine.execGangPlacement p gang s
  | .priorityTokenPeriod p => Sys2Proof.Machine.execPriorityTokenPeriod p s
  | .budgetPeriod p => Sys2Proof.Machine.execBudgetPeriod p s
  | .tstall c x => Sys2Proof.Machine.execTstall c x s
  | .engineAllocWatchdog c pool id => Sys2Proof.Machine.execEngineAllocWatchdog c pool id s
  | .copyWalkStart c x id => Sys2Proof.Machine.execCopyWalkStart c x id s
  | .copyComplete c x id => Sys2Proof.Machine.execCopyComplete c x id s
  | .copyError c x id f => Sys2Proof.Machine.execCopyError c x id f s
  | .syncWordArrival c x id bytes => Sys2Proof.Machine.execSyncWordArrival c x id bytes s
  | .destinationAccumulate c x id => Sys2Proof.Machine.execDestinationAccumulate c x id s
  | .gatherPageLanded c x id => Sys2Proof.Machine.execGatherPageLanded c x id s
  | .slipStart it => Sys2Proof.Machine.execSlipStart it s
  | .slipComplete it num => Sys2Proof.Machine.execSlipComplete it num s
  | .slipFailure it num f => Sys2Proof.Machine.execSlipFailure it num f s
  | .demotionTimer e tier => Sys2Proof.Machine.execDemotionTimer e tier s
  | .demotionMoveDone e => Sys2Proof.Machine.execDemotionMoveDone e s
  | .demotionRetry e => Sys2Proof.Machine.execDemotionRetry e s
  | .wakeWrite token value => Sys2Proof.Machine.execWakeWrite token value s
  | .promotionResume e => Sys2Proof.Machine.execPromotionResume e s
  | .promotionMoveDone e => Sys2Proof.Machine.execPromotionMoveDone e s
  | .gathererDeadline g => Sys2Proof.Machine.execGathererDeadline g s
  | .powerAlarm c => Sys2Proof.Machine.execPowerAlarm c s
  | .powerExcessNotify => Sys2Proof.Machine.execPowerExcessNotify s
  | .bankFailure c bank => Sys2Proof.Machine.execBankFailure c bank s
  | .bankRebuildDone c => Sys2Proof.Machine.execBankRebuildDone c s
  | .refreshWindow d => Sys2Proof.Machine.execRefreshWindow d s
  | .autonomousRefresh d => Sys2Proof.Machine.execAutonomousRefresh d s
  | .refreshOwnershipReturn d => Sys2Proof.Machine.execRefreshOwnershipReturn d s
  | .refreshManagement tier bank => Sys2Proof.Machine.execRefreshManagement tier bank s
  | .atsTranslationCompletion d t => Sys2Proof.Machine.execAtsTranslationCompletion d t s
  | .priPageResponse c x r => Sys2Proof.Machine.execPriPageResponse c x r s
  | .atsInvalidationRequest d pasid page count => Sys2Proof.Machine.execAtsInvalidationRequest d pasid page count s
  | .writebackPoison c line => Sys2Proof.Machine.execWritebackPoison c line s
  | .interruptPageWrite v => Sys2Proof.Machine.execInterruptPageWrite v s
  | .intSend v => Sys2Proof.Machine.execIntSend v s
  | .hostQueueDoorbell q tail => Sys2Proof.Machine.execHostQueueDoorbell q tail s
  | .registerWrite block number v => Sys2Proof.Machine.execRegisterWrite block number v s
  | .rcRegisterRead block number => Sys2Proof.Machine.execRcRegisterRead block number s
  | .spillConfigWrite c number v => Sys2Proof.Machine.execSpillConfigWrite c number v s
  | .itOwnWrite p v => Sys2Proof.Machine.execItOwnWrite p v s
  | .freeListTailWrite p tier v => Sys2Proof.Machine.execFreeListTailWrite p tier v s
  | .cfgTranslationTable v => Sys2Proof.Machine.execCfgTranslationTable v s
  | .tableInstall p => Sys2Proof.Machine.execTableInstall p s
  | .cfgPoolDescriptor v => Sys2Proof.Machine.execCfgPoolDescriptor v s
  | .cfgParkClass v => Sys2Proof.Machine.execCfgParkClass v s
  | .wsLockSet p => Sys2Proof.Machine.execWsLockSet p s
  | .wsLockClear p => Sys2Proof.Machine.execWsLockClear p s
  | .wsLockEffect p => Sys2Proof.Machine.execWsLockEffect p s
  | .ldacl => Sys2Proof.Machine.execLdacl s
  | .ldgrp => Sys2Proof.Machine.execLdgrp s
  | .groupTableInstall => Sys2Proof.Machine.execGroupTableInstall s
  | .mcReq v => Sys2Proof.Machine.execMcReq v s
  | .retrainStart => Sys2Proof.Machine.execRetrainStart s
  | .thermalRetrain target => Sys2Proof.Machine.execThermalRetrain target s
  | .retrainDone target => Sys2Proof.Machine.execRetrainDone target s
  | .multicastTransferStart id => Sys2Proof.Machine.execMulticastTransferStart id s
  | .data p => Sys2Proof.Machine.execData p s
  | .ack p => Sys2Proof.Machine.execAck p s
  | .nack p => Sys2Proof.Machine.execNack p s
  | .launch p => Sys2Proof.Machine.execLaunch p s
  | .wakePacket p => Sys2Proof.Machine.execWakePacket p s
  | .barrier p => Sys2Proof.Machine.execBarrier p s
  | .boot b => Sys2Proof.Machine.execBoot b s
  | .packageReset => Sys2Proof.Machine.execPackageReset s
  | .freezeSignal => Sys2Proof.Machine.execFreezeSignal s
  | .idcode => Sys2Proof.Machine.execIdcode s
  | .freeze => Sys2Proof.Machine.execFreeze s
  | .status => Sys2Proof.Machine.execStatus s
  | .scanout bits => Sys2Proof.Machine.execScanout bits s
  | .bypass scan => Sys2Proof.Machine.execBypass scan s
  | .getVersion => Sys2Proof.Machine.execGetVersion s
  | .getCapabilities => Sys2Proof.Machine.execGetCapabilities s
  | .negotiateAlgorithms => Sys2Proof.Machine.execNegotiateAlgorithms s
  | .getDigests => Sys2Proof.Machine.execGetDigests s
  | .getCertificate => Sys2Proof.Machine.execGetCertificate s
  | .challenge nonce => Sys2Proof.Machine.execChallenge nonce s
  | .getMeasurements => Sys2Proof.Machine.execGetMeasurements s
  | .sessionRequest code => Sys2Proof.Machine.execSessionRequest code s
  | .powerAlarmEnd c => Sys2Proof.Machine.execPowerAlarmEnd c s
  | .partitionReset p => Sys2Proof.Machine.execPartitionReset p s
  | .heartbeat d => Sys2Proof.Machine.execHeartbeat d s
  | .portTrained p => Sys2Proof.Machine.execPortTrained p s
  | .portDown p => Sys2Proof.Machine.execPortDown p s
  | .flitCrcError p seq => Sys2Proof.Machine.execFlitCrcError p seq s
  | .replayRequest p seq => Sys2Proof.Machine.execReplayRequest p seq s
  | .hostQueuePageWrite q word v => Sys2Proof.Machine.execHostQueuePageWrite q word v s

end Sys2Proof.Machine
end

