-- ==== Sys2Proof/Machine/Agenda.lean ====
section
/-! DEFINITION. Which event happens next (log 1, log 2), and an instruction placed where the next step fetches it. The agenda holds the
events to come; while it is empty, an issue slot and one of the device's own steps that stand ready take turns. -/

namespace Sys2Proof.Machine

/-- Whether a row has no encoding: only such rows are events. -/
def isEvent (i : Instr) : Bool := (encode i).isEmpty

/-- What an event does to the state. -/
abbrev Meaning := State → Host.Outcome State Fault Refusal

/-! The device's own steps that stand ready. -/

/-- The event that ends an outstanding operation. -/
def opEvent (c : CoreId) (x : CtxId) (o : Op) : List Meaning :=
  match o.kind with
  | .div _ => [execDivisionResult c x o.id]
  | .load _ _ _ _ | .vload _ _ | .bload _ _ | .store _ _ => [execVariableLoadResult c x o.id, execPage c x o.id]
  | .wload _ => [execVariableLoadResult c x o.id]
  | .atomic _ _ => [execAtomicResult c x o.id]
  | .plan _ => [execPlanResult c x o.id]
  | .kvapp _ _ => [execKvappResult c x o.id]
  | .talloc _ _ _ => [execTstall c x]
  | .tile _ _ _ _ _ => []

/-- The steps of a context's phase. -/
def phaseEvent (c : CoreId) (x : CtxId) (k : Ctx) : List Meaning :=
  match k.phase with
  | .idle => [execContinuationStart c x, execSaveResume c x]
  | .suspending _ _ => [execSuspensionPoint c x, execWatchdog c x]
  | .waitArray _ => [execTileStep c x, execWatchdog c x]
  | .tileStep _ => [execTileStep c x, execTileStepDone c x, execWatchdog c x]
  | .running | .waitPage _ => [execWatchdog c x]
  | _ => []

/-- The steps of what waits for a context. -/
def pendingEvent (c : CoreId) (x : CtxId) (k : Ctx) : List Meaning :=
  (if k.pendFault.isSome || k.ownFault.isSome then [execRollback c x, execHeldFault c x] else []) ++ (if k.fences.isEmpty then [] else [execFenceComplete c x])
    ++ (if k.pendInt.isSome then [execInt c x] else []) ++ (if k.pendPreempt.isSome then [execPreempt c x] else [])
    ++ (match k.action with
      | some a => [execPreemptHandlerTimeout c x, if a = 0 then execDrainLimit c x else if a = 1 then execSave c x else execKill c x]
      | none => [])

/-- The barrier episodes that a context's arrivals may complete. -/
def barrierEvent (c : CoreId) (k : Ctx) : List Meaning :=
  let open_ := (List.range 6).filter (fun sc => k.r.arrived.getLsbD sc)
  let mine := match k.barWait with
    | some (sc, _) => sc.toNat :: open_
    | none => open_
  mine.map (fun sc => execBarrierEpisodeComplete k.job.team sc (domainOf c sc))

/-- The steps of a context's copies. -/
def copyEvent (c : CoreId) (x : CtxId) (e : Engine) : List Meaning :=
  e.copies.map (fun k => if k.started then execCopyComplete c x k.id else execCopyWalkStart c x k.id)

/-- The request of an asker, by the number that the watchdog names it with. -/
def askerId : Asker → Option Nat
  | .copy _ _ n => some n
  | .slip _ n => some n
  | .xfer n => some n
  | _ => none

/-- The steps of a core's pools. -/
def poolEvent (c : CoreId) (k : Core) : List Meaning :=
  (List.finRange 16).flatMap (fun q =>
    let p := k.pools[q.val]'q.isLt
    if p.waiting.isEmpty then []
    else execTileGrant c q :: p.waiting.filterMap (fun r => (askerId r.who).map (fun n => execEngineAllocWatchdog c q n)))

/-- The steps that a core has ready. -/
def coreEvents (s : State) (c : CoreId) : List Meaning :=
  let k := s.core c
  let ctxs := ([0, 1, 2, 3] : List CtxId).flatMap (fun x =>
    let y := s.ctx c x
    phaseEvent c x y ++ pendingEvent c x y ++ barrierEvent c y ++ y.ops.flatMap (opEvent c x) ++ copyEvent c x (s.engine c x))
  ctxs ++ poolEvent c k ++ (if k.heldPushes.isEmpty ∧ k.spillCount = 0 then [] else [execHeldPushRetry c])

/-- A core that holds something. -/
def coreHolds (k : Core) : Bool :=
  !k.queue.isEmpty || k.ctx.toList.any (fun y => y.phase != .idle || y.newcomer.isSome) || !k.saved.isEmpty || !k.heldPushes.isEmpty
    || k.engine.toList.any (fun e => !e.copies.isEmpty) || k.pools.toList.any (fun p => !p.waiting.isEmpty)

/-- The steps of the cores. -/
def allCoreEvents (s : State) : List Meaning :=
  (List.finRange 512).flatMap (fun c => if coreHolds (s.core c) then coreEvents s c else [])

/-- The steps of the engines outside the cores. -/
def engineEvents (s : State) : List Meaning :=
  (List.finRange 128).flatMap (fun it =>
      let y := s.itin it
      (if y.state = .running then [execSlipStart it] else []) ++ y.flight.map (fun p => execSlipComplete it p.num))
    ++ (List.finRange 512).flatMap (fun g => if (s.gatherer g).batches.isEmpty then [] else [execGathererDeadline g])
    ++ (s.transfers.filter (fun t => !t.started)).map (fun t => execMulticastTransferStart t.id)
    ++ s.shelf.flatMap (fun h => match h.2.state with
      | .free => []
      | .parked => [execDemotionMoveDone h.1, execDemotionRetry h.1, execDemotionTimer h.1 1, execDemotionTimer h.1 2, execDemotionTimer h.1 3]
      | .waking => [execDemotionMoveDone h.1, execPromotionMoveDone h.1, execPromotionResume h.1])

/-- The steals that a partition's full cores stand open to (R380). -/
def stealEvents (s : State) (p : PartId) : List Meaning :=
  if (s.part p).stealDly = 0 then []
  else
    let mine := (List.finRange 512).filter (fun c => s.partOf c == some p)
    let full := mine.filter (fun o => (s.core o).fullSince.isSome)
    if full.isEmpty then []
    else (mine.filter (fun c => (s.core c).ctx.toList.any (fun y => y.phase == .idle))).flatMap (fun c => full.map (fun o => execSteal p o c))

/-- What a die's refresh has due (R238, R413). -/
def refreshEvents (s : State) (d : DieId) : List Meaning :=
  let r := s.refreshOf d
  (if !r.auto && s.boot == .ready && decide (2 * windowCycles ≤ s.cycle - r.beat) then [execAutonomousRefresh d] else [])
    ++ (if r.due.isSome then [execRefreshOwnershipReturn d] else [])

/-- The steps of the dispatcher and of what waits in the package. -/
def packageEvents (s : State) : List Meaning :=
  let parts := (List.finRange 16).filter (fun p => s.queues.toList.any (fun h => h.en && h.part == p && decide (0 < h.pending))
    || s.replaced.any (fun r => r.1 == p))
  parts.flatMap (fun p => [execDispatch p, execPreemption p]) ++ s.gangs.map (fun g => execGangPlacement g.part g.gangid.toNat)
    ++ (List.finRange 16).flatMap (stealEvents s) ++ (List.finRange 8).flatMap (refreshEvents s)
    ++ (s.teams.filter (fun t => t.killed)).map (fun t => execKillDrainDone t.id)
    ++ (s.teams.filter (fun t => t.gang.isSome && t.present.isEmpty)).map (fun t => execBarrierEpisodeComplete t.id 5 0)
    ++ (if cfgBusy s then [execTableInstall (cfgPart s.pkg.cfgOp)] else []) ++ (if s.groupLoad.isSome then [execGroupTableInstall] else [])
    ++ (List.finRange 16).flatMap (fun p => if (s.part p).wsWant == (s.part p).wsLocked then [] else [execWsLockEffect p])
    ++ (if s.retrains.any (fun r => !r.running) then [execRetrainStart] else [])

/-- The step that the device takes next of its own: the ready ones in turn, as the cycles pass. -/
def ownEvent (s : State) : Meaning :=
  let l := allCoreEvents s ++ engineEvents s ++ packageEvents s
  (l[s.cycle % max 1 l.length]?).getD (execBundleIssue s.turn)

/-! The next event. -/

/-- What reaches a frozen package (R431, R432). -/
def whileFrozen : Instr → Bool
  | .packageReset | .freezeSignal | .freeze | .idcode | .status | .scanout _ | .bypass _ => true
  | _ => false

/-- The event that happens next: the head of the agenda; with none there, the issue slot of the core whose turn it is, or a step of
the device's own. A frozen package does nothing but answer its JTAG port and take a reset. -/
def nextEvent (s : State) : Meaning :=
  match s.agenda with
  | e :: _ => if isEvent e && (!s.frozen || whileFrozen e) then exec e else execBundleIssue s.turn
  | [] => if s.auto && !s.frozen then ownEvent s else execBundleIssue s.turn

/-- The state without the event that happens now, and with no bundle in flight. -/
def dropEvent (s : State) : State :=
  let t := s.calm
  { t with agenda := t.agenda.tail, auto := if s.agenda.isEmpty then !s.auto else s.auto }

/-! An instruction placed (log 21). -/

/-- The four words of the bundle that holds one slot: the slot with S clear, nops, the last of them with S set, and the literal
that the slot owns, all as kzas pads a bundle (R54). -/
def placedWords (nbits w : Nat) : List W32 :=
  let slot : W32 := BitVec.ofNat 32 (w % 2 ^ 31)
  let lit : W32 := BitVec.ofNat 32 (if nbits ≤ 32 then 0 else w / 2 ^ 32)
  if litBit slot then [slot, 0x10000000, 0x90000000, lit] else [slot, 0x10000000, 0x10000000, 0x90000000]

/-- The extent that maps code address 0: 64 KiB of T1, readable, writable and executable (R220). -/
def placedExtent : Extent := { w0 := 0x0E70, w1 := 0 }

/-- Context 0 of core 0 running a continuation whose code image holds one bundle at address 0, on a core of partition 0 (R17,
R218, R404), with the turn and nothing on the agenda. -/
def placeWord (s : State) (nbits w : Nat) : State :=
  let image : Image := { seq := 0, qmap := Vector.replicate _ 0, hrate := 0, lrate := 0, ports := 0, debug := false, plim := 600, bytes := [] }
  let bytes := (placedWords nbits w).flatMap (fun x => leBytes 4 x.toNat)
  let k := s.ctx 0 0
  let k := { k with
    phase := .running, bubble := 0, barWait := none, pendFault := none, ownFault := none, pendInt := none, pendPreempt := none,
    pendWatchdog := none, action := none, handler := false, code := Memory.writeRun k.code (keyTier 1 0 0) bytes,
    r := { k.r with pc := 0, rep := none, replay := none } }
  let s := s.setCtx 0 0 k
  let s := s.setCore 0 { s.core 0 with current := 0, out := false, stretch := 0, stretchFrom := s.cycle }
  let s := s.setPart 0 { s.part 0 with table := [placedExtent] }
  { s with agenda := [], turn := 0, auto := false, frozen := false, image := some image, boot := .ready }

end Sys2Proof.Machine
end

