-- ==== Sys2Proof/Machine/Step.lean ====
section
/-! DEFINITION. One step of the machine: the event at the head of the agenda, or the issue slot of the core whose turn it is;
and an instruction placed where the next step fetches it. -/

namespace Sys2Proof.Machine

/-- One step. -/
def step (s : State) : Host.Outcome State Fault Refusal :=
  let t := dropEvent s
  match nextEvent s t with
  | .next u => completeIssue exec t u
  | .fault r => .fault r
  | .refused r => .refused r

/-- The state with an instruction of the opcode table stored where `step` fetches next (see `placeWord`). -/
def State.withFetchWord (s : State) (nbits w : Nat) : State := placeWord s nbits w

end Sys2Proof.Machine
end

