-- ==== Sys2Proof/Safety.lean ====
section
/-! DEFINITION. The words in which claims are stated: when a slot of the bundle in flight executes, what it answers, and what a safe
step is. -/

namespace Sys2Proof.Machine

/-- A step that ends neither in a fault nor in a refusal: the spec gives the PX-8 no such end, every cause is a trap (R369 to R374). -/
def Proceeds (a : Answer) : Prop := ∃ t, a = .next t

/-- Every register of a list is full in the snapshot that the bundle's slots read (R18, R26). -/
def AllFull (s : State) (rs : List Ref) : Prop := ∀ r ∈ rs, s.src.full r = true

/-- A scalar-type slot that executes: bit 0 of its guard is 1 and every register it names is full (R26, R38, R39). -/
def Executes (s : State) (g : BitVec 3) (rs : List Ref) : Prop := on s g = true ∧ AllFull s rs

/-- A lane-masked slot that executes: its guard has an active lane and every register it names is full (R38). -/
def ExecutesV (s : State) (g : BitVec 3) (rs : List Ref) : Prop := s.src.getG g ≠ 0 ∧ AllFull s rs

/-- The read ports among a slot's sources have a row to read, and the context owns the array (R34, R140, R143). -/
def PortsReady (s : State) (rs : List (BitVec 5)) : Prop :=
  ∀ r ∈ rs, ∀ q, portOf r = some q → s.src.owns = true ∧ (headRow s.src q).isSome = true

/-- The slot took the exception of a cause with trap_info i: the context as `deliver` leaves it, and the verdict that says so. -/
def Raises (s : State) (a : Answer) (c : Cause) (i : W64) : Prop := a = .next (raise s c i false)

/-- The slot holds its bundle: nothing else is changed (R20, R26). -/
def Holds (s : State) (a : Answer) : Prop := a = .next (s.verdict .held)

/-- A context that a cause stopped (R369, R370): back at its checkpoint, running, its trap registers and trap frame written. -/
def framed (s : State) (c : CoreId) (x : CtxId) (cause : Cause) (info : W64) (pc : CodeAddr) (words : Nat) : State :=
  let t := rollBack s c x
  writeTrap (t.setCtx c x { t.ctx c x with phase := .running, bubble := 0, paused := none }) c x (s.ctx c x).ck
    { cause := cause.code, pc := pc, info := info, words := words, replay := false, inhandler := (s.ctx c x).handler }

end Sys2Proof.Machine
end

