-- ==== Sys2Proof/Safety/Scalar.lean ====
section
/-! DEFINITION. What the scalar instructions compute, written from the tables of R95 to R104 over bit vectors, apart from the
model's own arithmetic. -/

namespace Sys2Proof.Machine

/-- bfx (R100): the field, sign-extended when the descriptor says so. -/
def bfxRule (a b : W64) : W64 :=
  let lo := b.toNat % 64
  let w := min (b.toNat / 2 ^ 8 % 128) (64 - lo)
  let f := (a >>> lo) &&& ((1#64 <<< w) - 1#64)
  if b.getLsbD 15 ∧ 0 < w then (f <<< (64 - w)).sshiftRight (64 - w) else f

/-- bfi (R100): the field of d replaced. -/
def bfiRule (d a b : W64) : W64 :=
  let lo := b.toNat % 64
  let w := min (b.toNat / 2 ^ 8 % 128) (64 - lo)
  let m := ((1#64 <<< w) - 1#64) <<< lo
  (d &&& ~~~m) ||| ((a <<< lo) &&& m)

/-- Quotient of div (R102). -/
def divRule (a b : W64) : W64 := if b = 0 then BitVec.allOnes 64 else a.sdiv b
/-- Remainder of rem (R102). -/
def remRule (a b : W64) : W64 := if b = 0 then a else a.srem b
/-- Quotient of divu (R102). -/
def divuRule (a b : W64) : W64 := if b = 0 then BitVec.allOnes 64 else a / b
/-- Remainder of remu (R102). -/
def remuRule (a b : W64) : W64 := if b = 0 then a else a % b

/-- What a two-source scalar instruction writes to sD, and after how many bundles (R27, R96, R97, R100, R101). -/
def aluRule : Instr → Option (RRR × Nat × (W64 → W64 → W64))
  | .add f => some (f, 1, fun a b => a + b)
  | .sub f => some (f, 1, fun a b => a - b)
  | .and f => some (f, 1, fun a b => a &&& b)
  | .or f => some (f, 1, fun a b => a ||| b)
  | .xor f => some (f, 1, fun a b => a ^^^ b)
  | .andn f => some (f, 1, fun a b => a &&& ~~~b)
  | .min f => some (f, 1, fun a b => if a.sle b then a else b)
  | .max f => some (f, 1, fun a b => if b.sle a then a else b)
  | .minu f => some (f, 1, fun a b => if a.ule b then a else b)
  | .maxu f => some (f, 1, fun a b => if b.ule a then a else b)
  | .shl f => some (f, 1, fun a b => a <<< (b.toNat % 64))
  | .shr f => some (f, 1, fun a b => a >>> (b.toNat % 64))
  | .sar f => some (f, 1, fun a b => a.sshiftRight (b.toNat % 64))
  | .rol f => some (f, 1, fun a b => (a <<< (b.toNat % 64)) ||| (a >>> (64 - b.toNat % 64)))
  | .bfx f => some (f, 1, bfxRule)
  | .mul f => some (f, 3, fun a b => a * b)
  | .mulh f => some (f, 3, fun a b => ((a.signExtend 128 * b.signExtend 128) >>> 64).setWidth 64)
  | .mulhu f => some (f, 3, fun a b => ((a.setWidth 128 * b.setWidth 128) >>> 64).setWidth 64)
  | _ => none

/-- An immediate of the RRI forms extended as signed (R95). -/
def signedImm (f : RRI) : W64 := match f.lit with
  | some l => l.signExtend 64
  | none => f.imm.signExtend 64
/-- An immediate of the RRI forms extended as unsigned (R95). -/
def unsignedImm (f : RRI) : W64 := match f.lit with
  | some l => l.setWidth 64
  | none => f.imm.setWidth 64
/-- An immediate of the RI forms extended as signed (R95). -/
def signedImm13 (f : RI) : W64 := match f.lit with
  | some l => l.signExtend 64
  | none => f.imm.signExtend 64
/-- An immediate of the RI forms extended as unsigned (R95). -/
def unsignedImm13 (f : RI) : W64 := match f.lit with
  | some l => l.setWidth 64
  | none => f.imm.setWidth 64

/-- What a scalar instruction with an immediate writes to sD (R95 to R97, R99). -/
def aluImmRule : Instr → Option (RRI × (W64 → W64))
  | .addi f => some (f, fun a => a + signedImm f)
  | .andi f => some (f, fun a => a &&& unsignedImm f)
  | .ori f => some (f, fun a => a ||| unsignedImm f)
  | .xori f => some (f, fun a => a ^^^ unsignedImm f)
  | .shli f => some (f, fun a => a <<< (unsignedImm f).toNat)
  | .shri f => some (f, fun a => a >>> (unsignedImm f).toNat)
  | .sari f => some (f, fun a => a.sshiftRight (unsignedImm f).toNat)
  | .sext f => some (f, fun a => (a <<< (64 - (unsignedImm f).toNat)).sshiftRight (64 - (unsignedImm f).toNat))
  | _ => none

/-- What a division leaves in sD (R102). -/
def divisionRule : Instr → Option (RRR × (W64 → W64 → W64))
  | .div f => some (f, divRule)
  | .rem f => some (f, remRule)
  | .divu f => some (f, divuRule)
  | .remu f => some (f, remuRule)
  | _ => none

/-- The condition of a compare of two registers (R103). -/
def compareRule : Instr → Option (RRR × (W64 → W64 → Bool))
  | .cmpeq f => some (f, fun a b => a == b)
  | .cmpne f => some (f, fun a b => a != b)
  | .cmplt f => some (f, fun a b => a.slt b)
  | .cmpge f => some (f, fun a b => b.sle a)
  | .cmpltu f => some (f, fun a b => a.ult b)
  | .cmpgeu f => some (f, fun a b => b.ule a)
  | _ => none

/-- The condition of a compare with an immediate (R103). -/
def compareImmRule : Instr → Option (RRI × (W64 → Bool))
  | .cmpeqi f => some (f, fun a => a == signedImm f)
  | .cmplti f => some (f, fun a => a.slt (signedImm f))
  | _ => none

/-- The guard operation of an instruction (R104). -/
def guardRule : Instr → Option (RRR × (W64 → W64 → W64))
  | .gand f => some (f, fun a b => a &&& b)
  | .gor f => some (f, fun a b => a ||| b)
  | .gxor f => some (f, fun a b => a ^^^ b)
  | _ => none

/-- Leading zeros, trailing zeros and one bits of a word (R98), as properties of the count. -/
def CountRule (i : Instr) (a : W64) (n : Nat) : Prop :=
  match i with
  | .clz _ => n ≤ 64 ∧ (∀ k, k < n → a.getLsbD (63 - k) = false) ∧ (n < 64 → a.getLsbD (63 - n) = true)
  | .ctz _ => n ≤ 64 ∧ (∀ k, k < n → a.getLsbD k = false) ∧ (n < 64 → a.getLsbD n = true)
  | .popc _ => n = ((List.finRange 64).filter (fun k => a.getLsbD k.val)).length
  | _ => False

end Sys2Proof.Machine
end

