-- ==== Sys2Proof/Safety/Memory.lean ====
section
/-! DEFINITION. The forms of the memory and task instructions, and the conditions under which they execute, in the words of the spec. -/

namespace Sys2Proof.Machine

/-- Bytes and extension of the scalar loads with a displacement (R288). -/
def loadRule : Instr → Option (RRI × Nat × Bool)
  | .ldb f => some (f, 1, true)
  | .ldbu f => some (f, 1, false)
  | .ldh f => some (f, 2, true)
  | .ldhu f => some (f, 2, false)
  | .ldw f => some (f, 4, true)
  | .ldwu f => some (f, 4, false)
  | .ldd f => some (f, 8, false)
  | _ => none

/-- Bytes of the scalar stores (R288). -/
def storeRule : Instr → Option (RRI × Nat)
  | .stb f => some (f, 1)
  | .sth f => some (f, 2)
  | .stw f => some (f, 4)
  | .std f => some (f, 8)
  | _ => none

/-- Operation of an atomic (R300). -/
def atomicRule : Instr → Option (AT × AtomOp)
  | .amoadd f => some (f, .add)
  | .amomin f => some (f, .min)
  | .amomax f => some (f, .max)
  | .amoand f => some (f, .and)
  | .amoor f => some (f, .or)
  | .amoxor f => some (f, .xor)
  | .amoswp f => some (f, .swp)
  | .amocas f => some (f, .cas)
  | _ => none

/-- What an atomic leaves in memory, from the old value, v and the compare value (R300). -/
def atomicNew : AtomOp → W64 → W64 → W64 → W64
  | .add, old, v, _ => old + v
  | .min, old, v, _ => if old.sle v then old else v
  | .max, old, v, _ => if v.sle old then old else v
  | .and, old, v, _ => old &&& v
  | .or, old, v, _ => old ||| v
  | .xor, old, v, _ => old ^^^ v
  | .swp, _, v, _ => v
  | .cas, old, v, c => if old = c then v else old

/-- Effective address of an RRI form (R283). -/
def effective (s : State) (f : RRI) : W64 := s.src.getS f.a + signedImm f

/-- A loaded value: the bytes in little-endian order, extended to 64 bits (R4, R288). -/
def loaded (n : Nat) (signed : Bool) (bs : List Byte) : W64 :=
  if signed then (BitVec.ofNat (8 * n) (leNat bs)).signExtend 64 else BitVec.ofNat 64 (leNat bs)

/-- What stores of runs of bytes leave of a context: they wait in its gate, a handler's in the handler's own (R368, R374). -/
def stored (k : Ctx) (runs : List (W64 × List Byte)) : Ctx :=
  if k.handler then { k with hgate := runs.foldl (fun g r => gateStore g r.1 r.2) k.hgate }
  else { k with gate := runs.foldl (fun g r => gateStore g r.1 r.2) k.gate }

/-- Every unit of a vector access is aligned, has a place, and all lie in one class, rank or extent (R221, R283). -/
def LanesPlaced (s : State) (acc : Access) (ls : List (Nat × W64)) : Prop :=
  (∀ q ∈ ls, q.2.toNat % 4 = 0 ∧ ∃ p, place s s.issue.core acc q.2 4 = .ok p) ∧
  (∀ q ∈ ls, ∀ r ∈ ls, zone s (s.partIdOf s.issue.core) q.2 = zone s (s.partIdOf s.issue.core) r.2)

/-- Every unit of a gather or scatter lies where its base lies: in the base's scratchpad, or in the extent that maps it (R290). -/
def WithinBase (s : State) (b : W64) (ls : List (Nat × W64)) : Prop :=
  (classOf b = 0 ∧ ∀ q ∈ ls, classOf q.2 = 0 ∧ wbits q.2 22 2 = wbits b 22 2) ∨
  (classOf b = 2 ∧ wbits b 48 15 = 0 ∧ ∃ e, extentAt (s.part (s.partIdOf s.issue.core)).table b = some e ∧
    ∀ q ∈ ls, classOf q.2 = 2 ∧ wbits q.2 48 15 = 0 ∧ e.holds (wbits q.2 0 48) = true)

/-- What a vector load of units makes of a state: their bytes in flight where they lie in a scratchpad, after 6 bundles from the own one
and 14 from a peer's, else the load outstanding, its host translation asked for (R284). -/
def VectorLoaded (s t : State) (d : BitVec 5) (m : W64) (ls : List (Nat × W64)) (u : State) : Prop :=
  ∀ q rest p, ls = q :: rest → place s s.issue.core .load q.2 4 = .ok p →
    (∀ c, p.scratchOf = some c → ∃ x,
      (∀ r ∈ ls, ∃ o, place s s.issue.core .load r.2 4 = .ok (.scratch c o) ∧
        lane x r.1 = leWord 32 (seenBytes s r.2 (.scratch c o) 4)) ∧
      u = resultV t d m x 0 (if c = s.issue.core then 6 else 14)) ∧
    (p.scratchOf = none → u = startOp (askFor t p) (.vector d m)
      (.vload ls (ls.flatMap (fun r => gateRun s.issue.pre.view r.2 4))))

/-- Stores can be made at once: the lines fit the gate, and a checkpoint bundle's host translations are there (R223, R366, R368). -/
def StoresFit (s : State) (ls : List (W64 × List Byte)) : Prop :=
  (stored s.me ls).view.length ≤ 512 ∧
  (s.issue.ckpt = true → ∀ q ∈ ls, ∀ p, place s s.issue.core .store q.1 4 = .ok p → storable s p = true)

/-- What a vector store makes of a state: the bytes wait in the gate, lanes in ascending order, and memory is as before. -/
def VectorStored (s : State) (ls : List (W64 × List Byte)) (u : State) : Prop :=
  u.mem = s.mem ∧ u.me.gate = (stored s.me ls).gate ∧ u.me.hgate = (stored s.me ls).hgate

/-- A value that stset may write to field n of a stream register (R296): it fits the field, an assigned format code, no reserved bit of a
whole word, and no ring left without a count. -/
def StsetFits (st : File 3 W64) (n : Nat) (v : W64) : Prop :=
  (n < 16 → v.toNat < 2 ^ (streamFieldAt n).width) ∧ (n = 17 → wbits v 17 15 = 0) ∧ (n = 21 → wbits v 32 32 = 0) ∧
  (22 ≤ n → v = 0) ∧
  (n = 1 ∨ n = 17 → (formatOf (v.toNat % 256)).isSome = true) ∧
  (n ∈ [3, 7, 8, 9, 17, 19] → stField (stPut st n v.toNat) 3 = 1 →
    stField (stPut st n v.toNat) 7 ≠ 0 ∧ stField (stPut st n v.toNat) 8 ≠ 0 ∧ stField (stPut st n v.toNat) 9 ≠ 0)

/-- No code of the machine's stores holds an error (R230, R378). -/
def CodesGood (s : State) : Prop := s.ecc = []

/-- Bytes at a place may be read by the die of a core: those of the host in a page that it may read (R223, R224). -/
def Readable (s : State) (c : CoreId) (p : Place) : Prop :=
  ∀ pid a, p = .host pid a → ∃ t, tlbFind s (dieOf c) pid a = some t ∧ t.read = true

/-- Every fabric write of the issuing context has been acknowledged, which its release at .pod waits for (R252, R425). -/
def FabricDone (s : State) (scope : Nat) : Prop :=
  scope = 5 → (∀ k ∈ s.eng.copies, k.xfer = none) ∧ unanswered s s.issue.core s.issue.ctx = false

/-- The memory controllers take the blocks that n bytes at a place need: allowance is left for each, and no stack or module of theirs
retrains (R386, R409). -/
def MemTaken (s : State) (p : Place) (n : Nat) : Prop := memReady s (s.partIdOf s.issue.core) (p.blocks n) = true

/-- The n bytes from va, at place p, can be read when their bundle issues (R205, R221, R223, R224, R230, R240, R386): they have a place, the
host's translations are there, and either the near cache holds all of them or the memory controllers take the read and no code is wrong. -/
def BlockReady (s : State) (va : W64) (n : Nat) (p : Place) : Prop :=
  place s s.issue.core .load va n = .ok p ∧ engineBar s s.issue.core p 0 n false = none ∧
  (p.cached = true ∧ nearHas (s.core s.issue.core) va n = true ∨ MemTaken s p n ∧ CodesGood s ∧ s.poison = [])

/-- The state after such a read: what it takes of the allowance of its partition is spent. -/
def blockTaken (s : State) (va : W64) (n : Nat) (p : Place) : State :=
  if p.cached && nearHas (s.core s.issue.core) va n then s else spendMem s (s.partIdOf s.issue.core) (p.blocks n)

/-- Each of the n bytes from va lies at its offset from place p, as in every table whose extents do not overlap, and all in one line. -/
def Contiguous (s : State) (c : CoreId) (va : W64) (p : Place) (n : Nat) : Prop :=
  va.toNat % 64 + n ≤ 64 ∧
  ∀ i, i < n → ∃ q, placeByte s c .peek (va + BitVec.ofNat 64 i) = .ok q ∧ q.key = p.key + i ∧ q.cached = p.cached

/-- What the near cache gives of n bytes from va can be told from the state: nothing goes through it, it holds them all, or nothing of their
line, which the load then fetches (R232). -/
def LineKnown (s : State) (c : CoreId) (va : W64) (p : Place) (n : Nat) : Prop :=
  p.cached = false ∨ nearHas (s.core c) va n = true ∨
  (nearFind (s.core c) va = none ∧ ∃ k, ownerKey s c (lineOf va) = some k ∧ p.key = k + va.toNat % 64)

/-- The n bytes of a load at a place, where they can be told from the state: those that the load has already, then those of the near
cache, then memory's (R232, R284). -/
def loadedBytes (s : State) (c : CoreId) (va : W64) (p : Place) (own : List (Option Byte)) : List Byte :=
  own.mapIdx (fun i o => (o.or (if p.cached then nearByte (s.core c) (va + BitVec.ofNat 64 i) else none)).getD (s.mem.read (p.key + i)))

/-- The state in which an atomic reads its word (R248, R249, R300): the context's earlier stores made, the release of .rel and .acqrel, and
the line of the word out of the near cache. -/
def atomicBefore (f : AT) (s : State) (p : Place) : State :=
  let ea := s.src.getS f.a
  let t := if f.ord.getLsbD 1 then release (drainMe s) s.issue.core f.scope.toNat (bound s.me.r.bind 1 ea) else drainMe s
  if p.cached then nearDrop t s.issue.core ea else t

/-- The form of a copy instruction, and where its source comes from (R346). -/
def copyRule (s : State) : Instr → Option (CP × CopyForm × W64 × List W64 × Ref)
  | .cpy f => some (f, .plain, s.src.getS f.a, [], .s f.a)
  | .cpyadd f => some (f, .add, s.src.getS f.a, [], .s f.a)
  | .cpymc f => some (f, .mcast, s.src.getS f.a, [], .s f.a)
  | .cpyt f => some (f, .tile, s.src.getS f.a, [], .s f.a)
  | .cpyg f => some (f, .gather, 0, (List.range 32).map (fun j => rowWord (s.src.getV f.a) j), .v f.a)
  | .cpyw f => some (f, .wstore, s.src.getS f.a, [], .s f.a)
  | _ => none

/-- A handle that a context of the issuing core may use: its quad's, in a valid pool of a core that takes part (R267, R277). -/
def Usable (s : State) (h : W64) : Prop :=
  quadOf (handleCore h) = quadOf s.issue.core ∧ (s.core (handleCore h)).out = false ∧ (poolOf s h).valid = true

/-- A handle of the issuing core's quad that matches its tile (R267). -/
def Matches (s : State) (h : W64) : Prop := Usable s h ∧ handleMatches s h = true

/-- A record at va, at place p, with words w that may be pushed (R121, R129, R205). -/
def RecordFits (s : State) (va : W64) (p : Place) (w : File 3 W64) : Prop :=
  va.toNat % 64 = 0 ∧ wbits va 48 15 = 0 ∧ BlockReady s va 64 p ∧
  w = recordWords (blockTaken s va 64 p) s.issue.core (nameOf s.issue.core va) ∧ badRecord w va = false ∧ gangBit w = false

/-- The 16 bytes at va, at place p, can be changed at their owner point when their bundle issues (R203, R230, R240, R248, R386): not in the
lower half, taken by the memory controllers, and with no code wrong. -/
def OwnerReady (s : State) (va : W64) (p : Place) : Prop :=
  classOf va ≠ 1 ∧ place s s.issue.core .atomic va 16 = .ok p ∧ MemTaken s p 16 ∧ CodesGood s ∧ s.poison = []

/-- The state in which a core reads those bytes: its near-cache line is gone, written back (R233, R248), and what the access takes of the
partition's allowance is spent. -/
def ownerTaken (s : State) (va : W64) (p : Place) : State :=
  spendMem (if p.cached then nearDrop s s.issue.core va else s) (s.partIdOf s.issue.core) (p.blocks 16)

/-- The join counter at w1 can be counted, if w1 names one (R124). -/
def CounterFits (s : State) (w1 : W64) : Prop := w1 = 0 ∨ ∃ p, OwnerReady s w1 p

/-- The state with the join counter at w1 one up, where w1 names one (R124). -/
def counted (s : State) (w1 : W64) : State :=
  if w1 = 0 then s
  else match place s s.issue.core .atomic w1 16 with
    | .ok p => pairPut (ownerTaken s w1 p) p.key ((pairAt (ownerTaken s w1 p) p.key).1 + 1) (pairAt (ownerTaken s w1 p) p.key).2
    | .error _ => s

/-- No word of a record lies on the n bytes from a key. -/
def RecordApart (s : State) (name : W64) (k n : Nat) : Prop :=
  ∀ i p, i < 8 → place s (nameCore s.issue.core name) .peek (nameAddr name + BitVec.ofNat 64 (8 * i)) 8 = .ok p → p.key + 8 ≤ k ∨ k + n ≤ p.key

/-- The issuing continuation, which has registered its record, leaves at this bundle's own address (R16, R206). -/
def registered (s : State) (why : Why) : State :=
  (leave (keepRecord s s.me.job) s.issue.core s.issue.ctx why s.issue.pc).verdict .left

/-- A core whose task queue takes an entry at once: room in hardware, nothing spilled, no push held (R126 to R128). -/
def QueueRoom (s : State) (c : CoreId) : Prop :=
  (s.core c).queue.length < 32 ∧ (s.core c).spillCount = 0 ∧ (s.core c).heldPushes = []

/-- A core whose task queue is full and has no ring, and no entry of the device's own that came in this cycle gives way (R126, R127). -/
def QueueFull (s : State) (c : CoreId) : Prop :=
  32 ≤ (s.core c).queue.length ∧ spillEntries (s.core c) = 0 ∧ (s.core c).heldPushes = [] ∧
  ((s.core c).freshAt = s.cycle → (s.core c).fresh.getLast? ≠ some Pusher.device.rank)

/-- What a push of an entry to the queue of core c leaves: the entry in its place, at the tail unless a later pusher of the same cycle
is there already (R126), and no other change of the queue. -/
def Pushed (s t : State) (c : CoreId) (e : W64) : Prop :=
  (∃ l m, (s.core c).queue = l ++ m ∧ (t.core c).queue = l ++ e :: m ∧ ((s.core c).freshAt ≠ s.cycle → m = [])) ∧
  (t.core c).spillCount = 0 ∧ (t.core c).heldPushes = []

/-- In state t the bundle of context x of core c that stands at its pc in state s is in flight: its slots, its length, its context's
registers with what is due landed, and the context as its slots read it (R18, R22). -/
def InFlight (s t : State) (c : CoreId) (x : CtxId) (is : List Instr) (words : Nat) : Prop :=
  t.issue.live = true ∧ t.issue.core = c ∧ t.issue.ctx = x ∧ t.issue.pc = (s.ctx c x).r.pc ∧ t.issue.words = words ∧
  t.issue.slots = is ∧ (t.ctx c x).r = (s.ctx c x).r.landAll ∧ t.issue.pre = t.ctx c x

/-- Code and words of the SPDM answers (R430). -/
def attestation : Instr → Option (BitVec 8 × Nat)
  | .getVersion => some (0x84, 1)
  | .getCapabilities => some (0xE1, 2)
  | .negotiateAlgorithms => some (0xE3, 4)
  | .getDigests => some (0x81, 8)
  | .getCertificate => some (0x82, 512)
  | .challenge _ => some (0x83, 160)
  | .getMeasurements => some (0xE0, 32)
  | _ => none

end Sys2Proof.Machine
end

