-- ==== Sys2Proof/Safety/Array.lean ====
section
/-! DEFINITION. When a beat of the array can read its row, and what it reads, from R192, R194, R195, R197 and R292 to R294. -/

namespace Sys2Proof.Machine

/-- Where the next row of a stream lies (R292): below the row limit, or in a filled slot of a ring whose counts are not zero. -/
def rowAddr (st : File 3 W64) : Option W64 :=
  let pos := stField st 6
  let seq := pos / (stField st 7 * stField st 8)
  let row := fun (n : Nat) => BitVec.ofNat 64 (stField st 0) + BitVec.ofNat 64 (n * stField st 4)
  if stField st 3 = 0 then (if stField st 5 = 0 ∨ pos < stField st 5 then some (row pos) else none)
  else if stField st 7 ≠ 0 ∧ stField st 8 ≠ 0 ∧ stField st 9 ≠ 0 ∧ stField st 11 % 2 ^ 16 ≠ seq % 2 ^ 16
      ∧ (stField st 11 + 2 ^ 16 - seq % 2 ^ 16) % 2 ^ 16 < 2 ^ 15 then
    some (row (seq % stField st 9 * stField st 7 + pos % stField st 7))
  else none

/-- The stream after the access (R292): one position on, and in a ring the head past a slot whose last use this was. -/
def rowAfter (st : File 3 W64) : File 3 W64 :=
  let pos := stField st 6 + 1
  let st2 := stPut st 6 pos
  if stField st 3 ≠ 0 ∧ pos % (stField st 7 * stField st 8) = 0 then
    stPut st2 10 ((stField st 6 / (stField st 7 * stField st 8) + 1) % 2 ^ 16)
  else st2

/-- Record i of a Q4N row that begins at ra, counted from the stream's base, and the address of its super-scale (R294). -/
def recordAddr (st : File 3 W64) (ra : W64) (i : Nat) : Nat := (ra + BitVec.ofNat 64 (33 * i) - BitVec.ofNat 64 (stField st 0)).toNat
/-- Address of the super-scale of record i. -/
def superAddr (st : File 3 W64) (ra : W64) (i : Nat) : W64 :=
  BitVec.ofNat 64 (stField st 12) + BitVec.ofNat 64 (recordAddr st ra i / 33 / 256 * stField st 13)

/-- A beat can read a row through stream r: an accepted format, a row in the own scratchpad, and for Q4N records on their boundaries with
super-scales in the own scratchpad (R192, R292 to R294). -/
def BeatReady (s : State) (r : BitVec 5) : Prop :=
  (beatDepth (stField (streamOf s r) 1)).isSome = true ∧
  ∃ ra, rowAddr (streamOf s r) = some ra ∧ inOwn s ra (beatBytes (stField (streamOf s r) 1)) = true ∧
    (stField (streamOf s r) 1 = 0x40 → ∀ i, i < 2 → recordAddr (streamOf s r) ra i % 33 = 0 ∧
      inOwn s (superAddr (streamOf s r) ra i) 4 = true)

/-- What a beat reads through stream r: the bytes of its row, the super-scales of its records, and the stream after it. -/
def beatOf (s : State) (r : BitVec 5) : BeatRead :=
  let st := streamOf s r
  let ra := (rowAddr st).getD 0
  { fmt := stField st 1, run := leNat (ownBytes s ra (beatBytes (stField st 1))),
    sups := if stField st 1 = 0x40 then (List.range 2).map (fun i => leWord 32 (ownBytes s (superAddr st ra i) 4)) else [],
    st := rowAfter st, keys := [] }

/-- A push through stream r fits the shadow buffer: at row 0, or in the format row of what was pushed at row 0 (R195). -/
def PushFits (s : State) (r : BitVec 5) (zero : Bool) : Prop :=
  zero = true ∨ s.src.arr.fill = 0 ∨ ∃ p, s.src.arr.pfmt = some p ∧ beatDepth p.toNat = beatDepth (stField (streamOf s r) 1)

/-- The active buffer has a format, in the format row of stream r's (R197). -/
def ActiveFits (s : State) (r : BitVec 5) : Prop :=
  ∃ p, s.src.arr.active.2 = some p ∧ beatDepth p.toNat = beatDepth (stField (streamOf s r) 1)

/-- The row that a row register names lies in the grant, and holds no error (R139, R378). -/
def RowGood (s : State) (r : BitVec 5) : Prop := (s.src.getS r).toNat % 256 < 64 * s.me.acc ∧ s.me.badRows = []

/-- A result queue has room for a drain, whatever the bundle pops (R142). -/
def DrainRoom (s : State) (q : BitVec 2) : Prop := (rget s.src.rq q).length < 16

end Sys2Proof.Machine
end

