-- ==== Sys2Proof/Safety/Engines.lean ====
section
/-! DEFINITION. When a copy passes the checks of its issue, from R314 to R317, R321, R343 and R346. -/

namespace Sys2Proof.Machine

/-- The source of a copy is no result queue, or one that is owned and whose head row is there (R315). -/
def QueueFits (s : State) (sh : File 4 W64) : Prop :=
  shField sh 28 = 0 ∨ s.src.owns = true ∧ (headRow s.src (BitVec.ofNat 2 (shField sh 29))).isSome = true

/-- The addresses of a copy are aligned as its kind and its form ask (R316, R321, R345). -/
def CopyAligned (form : CopyForm) (sh : File 4 W64) (dst caddr : W64) (kind : BitVec 2) : Prop :=
  (2 ≤ kind.toNat → caddr.toNat % 16 = 0) ∧ (form = .tile → dst.toNat % 8 = 0) ∧ (form = .add → accAligned sh dst = true)

/-- The sync word and the mailbox of a copy lie in the quad's scratchpad (R316, R345). -/
def InQuad (form : CopyForm) (dst caddr : W64) (kind : BitVec 2) : Prop :=
  (kind = 2 → classOf caddr = 0) ∧ (form = .tile → classOf dst = 0)

/-- The form of a copy may read a row of a result queue, and its walk stays in the row (R315, R346). -/
def RowFits (form : CopyForm) (sh : File 4 W64) : Prop :=
  shField sh 28 = 0 ∨ form ≠ .gather ∧ form ≠ .wstore ∧ (form = .plain → shField sh 6 ≠ 1) ∧ srcWithin sh 256 = true

/-- A walk of a source tile stays in the tile, while its pool is valid (R314, R346). -/
def SourceFits (s : State) (form : CopyForm) (sh : File 4 W64) (src : W64) : Prop :=
  form = .plain → shField sh 6 = 1 → (poolOf s src).valid = true → srcWithin sh (poolOf s src).tsize = true

/-- What the form of a copy asks of the shape, the walk, the group, the pool or the banks (R316, R317, R321, R346, R423). -/
def FormFits (s : State) (form : CopyForm) (sh : File 4 W64) (dst : W64) : Prop :=
  match form with
  | .plain => shField sh 6 ≤ 1
  | .add => shField sh 3 ≤ 1 ∧ runLen sh % accElem sh = 0
  | .mcast => groupOk s (s.partIdOf s.issue.core) sh dst = true
  | .tile => 1 ≤ shField sh 6 ∧ (mailPool s s.issue.core sh dst).valid = true ∧ dstWithin sh (mailPool s s.issue.core sh dst).tsize = true
  | .gather => srcWithin sh (32 * pageBytes) = true
  | .wstore => banksOk s s.issue.core sh dst = true

/-- No check of alignment or bounds turns a copy away. -/
def CopyInBounds (s : State) (form : CopyForm) (sh : File 4 W64) (src dst caddr : W64) (kind : BitVec 2) : Prop :=
  QueueFits s sh ∧ CopyAligned form sh dst caddr kind ∧ InQuad form dst caddr kind ∧ RowFits form sh ∧ SourceFits s form sh src ∧
    FormFits s form sh dst

/-- A copy passes every check of its issue: bounds and alignment, the weight-store lock of a cpyw, and a source tile that is there. -/
def CopyFits (s : State) (form : CopyForm) (sh : File 4 W64) (src dst caddr : W64) (kind : BitVec 2) : Prop :=
  CopyInBounds s form sh src dst caddr kind ∧ (form = .wstore → (s.part (s.partIdOf s.issue.core)).wsLocked = false) ∧
    (form = .plain → shField sh 6 = 1 → (s.core (handleCore src)).out = false ∧ (poolOf s src).valid = true ∧ handleMatches s src = true)

/-- A value that shw may write to field n of a shape register (R308, R344): it fits the field and sets no reserved bit of a whole word, and
a format code is assigned (R67). -/
def ShwFits (n : Nat) (v : W64) : Prop :=
  v.toNat < 2 ^ (shapeFieldAt n).width ∧ (n = 32 → wbits v 35 5 = 0 ∧ wbits v 56 8 = 0) ∧ (n = 33 → wbits v 34 30 = 0) ∧
  (n = 35 → wbits v 32 32 = 0) ∧ (n = 3 → (formatOf v.toNat).isSome = true) ∧ (n = 32 → (formatOf (wbits v 48 8)).isSome = true)

/-- The state in which an engine that a bundle hands work to reads memory: the bundle's stores made and released at .pkg (R253). -/
def handedOver (s : State) : State := releasePkg (drainMe s)

/-- Bundles that stand one after the other from an address, each readable: its first stop bit ends its slots, and a literal word
follows for each slot with L set, 8 words at most (R41, R42). -/
def BundlesAt (s : State) : List (List W32) → W64 → Prop
  | [], _ => True
  | ws :: rest, va =>
    (∃ k, ws.length = k + 1 + ((ws.take (k + 1)).filter litBit).length ∧ (ws.take (k + 1)).findIdx? stopBit = some k) ∧
    ws.length ≤ 8 ∧ (∀ i, i < ws.length → ws[i]? = some (leWord 32 (deviceRead s s.issue.core (va + BitVec.ofNat 64 (4 * i)) 4))) ∧
    (∃ p, BlockReady s va (4 * ws.length) p) ∧ BundlesAt s rest (va + BitVec.ofNat 64 (4 * ws.length))

/-- Each trip count that stands in memory has a place, in a page that the die may read where it is the host's (R221, R224, R340). -/
def TripsReadable (s : State) (d : List W64) : Prop :=
  ∀ l va, tripAddr d l = some va → ∃ p, place s s.issue.core .load va 4 = .ok p ∧
    ∀ pid a, p = .host pid a → ∃ t, tlbFind s (dieOf s.issue.core) pid a = some t ∧ t.read = true

/-- The template bundles from `first` on, in a core's store. -/
def withTemplates (k : Core) (first : Nat) (ts : List (List W32)) : Core :=
  { k with templates := ts.zipIdx.foldl (fun l t => aset l (first + t.2) t.1) k.templates }

/-- The operands of tile step n of a GEMM can all be read: the rows of the weights and of the activations, and the biases (R145). -/
def StepReadable (s : State) (c : CoreId) (p : File 3 W64) (n : Nat) : Prop :=
  (∀ j ∈ gemmCols p n, (∃ ws, operRow s c (gemmW p) (gemmK p) (gemmWAt p j) = .ok ws) ∧
    (gemmOp p = 2 → ∃ b, operRead s c (gemmBiasAt p j) 4 = .ok b)) ∧
  (∀ i ∈ gemmRows p n, ∃ as, operRow s c (gemmA p) (gemmK p) (gemmAAt p i) = .ok as)

end Sys2Proof.Machine
end

