-- ==== Sys2Proof/Safety/Vector.lean ====
section
/-! DEFINITION. What the vector instructions compute in a lane, from the tables of R158 to R169 and R176 to R190. -/

namespace Sys2Proof.Machine

/-- A lane operation that sets no flag. -/
def plain (op : W32 → W32 → W32) : W32 → W32 → W32 → W32 × BitVec 5 := fun _ a b => (op a b, 0)

/-- What a two-source vector instruction gives lane by lane: its form, its latency (R27), whether vD is a source (R153), and the value and
flags from the old lane of vD and the lanes of vA and vB (R158 to R166). -/
def vectorRule : Instr → Option (RRR × Nat × Bool × (W32 → W32 → W32 → W32 × BitVec 5))
  | .vadd f => some (f, 4, false, fun _ a b => fadd (f32 a) (f32 b))
  | .vsub f => some (f, 4, false, fun _ a b => fadd (f32 a) (f32 b).negate)
  | .vmul f => some (f, 4, false, fun _ a b => fmul (f32 a) (f32 b))
  | .vfma f => some (f, 4, true, fun d a b => ffma (f32 d) (f32 a) (f32 b))
  | .vfms f => some (f, 4, true, fun d a b => ffms (f32 d) (f32 a) (f32 b))
  | .vmin f => some (f, 2, false, fun _ a b => fpick false a b)
  | .vmax f => some (f, 2, false, fun _ a b => fpick true a b)
  | .viadd f => some (f, 1, false, plain (fun a b => a + b))
  | .visub f => some (f, 1, false, plain (fun a b => a - b))
  | .vimul f => some (f, 1, false, plain (fun a b => a * b))
  | .viand f => some (f, 1, false, plain (fun a b => a &&& b))
  | .vior f => some (f, 1, false, plain (fun a b => a ||| b))
  | .vixor f => some (f, 1, false, plain (fun a b => a ^^^ b))
  | .vishl f => some (f, 1, false, plain (fun a b => a <<< (b.toNat % 32)))
  | .vishr f => some (f, 1, false, plain (fun a b => a >>> (b.toNat % 32)))
  | .visar f => some (f, 1, false, plain (fun a b => a.sshiftRight (b.toNat % 32)))
  | .vimin f => some (f, 1, false, plain (fun a b => if a.sle b then a else b))
  | .vimax f => some (f, 1, false, plain (fun a b => if b.sle a then a else b))
  | _ => none

/-- What a one-source vector instruction gives in a lane, after 1 bundle (R161, R167). A NaN becomes the canonical one, and a signalling one
is invalid. -/
def vectorRule1 : Instr → Option (RR × (W32 → W32 × BitVec 5))
  | .vabs f => some (f, fun a => (if (f32 a).isNan then 0x7FC00000 else a &&& 0x7FFFFFFF, if (f32 a).isSig then 16 else 0))
  | .vneg f => some (f, fun a => (if (f32 a).isNan then 0x7FC00000 else a ^^^ 0x80000000, if (f32 a).isSig then 16 else 0))
  | .vmov f => some (f, fun a => (a, 0))
  | _ => none

/-- The condition and flags of a vector compare in a lane (R162, R163). -/
def vectorCompareRule : Instr → Option (RRR × (W32 → W32 → Bool × BitVec 5))
  | .vcmpeq f => some (f, fun a b => ((f32 a).eq (f32 b), if (f32 a).isSig || (f32 b).isSig then 16 else 0))
  | .vcmplt f => some (f, fun a b => ((f32 a).lt (f32 b), if (f32 a).isNan || (f32 b).isNan then 16 else 0))
  | .vcmple f => some (f, fun a b =>
      (!((f32 a).isNan || (f32 b).isNan) && !(f32 b).lt (f32 a), if (f32 a).isNan || (f32 b).isNan then 16 else 0))
  | .vcmpun f => some (f, fun a b => ((f32 a).isNan || (f32 b).isNan, if (f32 a).isSig || (f32 b).isSig then 16 else 0))
  | .vicmpeq f => some (f, fun a b => (a == b, 0))
  | .vicmplt f => some (f, fun a b => (a.slt b, 0))
  | _ => none

/-- The value and flags of an instruction of the U form in lane l of the row a, under a rounding mode, with its latency and the scalar
register it also reads (R176 to R178, R180, R182, R183, R187, R190). -/
def unaryRule (s : State) : Instr → Option (UF × Nat × List Ref × (Rm → Row → Nat → W32 × BitVec 5))
  | .vcvt f => some (f, 3, [], fun mode a l =>
      let fmt := tabled (tableA f.fmt)
      let r := fmt.elem.round (f32 (lane a l)) mode (saturates s f) (laneDraw s mode l)
      (widenCode fmt r.1, r.2))
  | .vcvtx f => some (f, 3, [], fun mode a l =>
      if f.fmt = 0 then
        let r := fp32.round (Num.ofInt (lane a l).toInt) mode false (laneDraw s mode l)
        (BitVec.ofNat 32 r.1, r.2)
      else
        let r := roundInt (-2147483648) 2147483647 (f32 (lane a l)) mode (laneDraw s mode l)
        (BitVec.ofInt 32 r.1, r.2))
  | .vunpk f => some (f, 3, [], fun _ a l =>
      let x := (tabled (tableA f.fmt)).elem.decode (packedAt (tabled (tableA f.fmt)).bits a.toNat l)
      settle [x] x)
  | .vdqmx f => some (f, 3, [], fun mode a l =>
      let fmt := tabled (tableB f.fmt)
      let r := fp32.round ((fmt.block 0 (a.toNat / 2 ^ (8 * fmt.record * (l / 32)) % 2 ^ (8 * fmt.record))).value (l % 32)) mode
        (saturates s f) (laneDraw s mode l)
      (BitVec.ofNat 32 r.1, r.2))
  | .vdq4n f => some (f, 3, [.s f.d], fun mode a l =>
      let b := (tabled 0x40).block (superScale s f) (a.toNat % 2 ^ 264)
      let r := fp32.round (b.value l) mode (saturates s f) (laneDraw s mode l)
      (BitVec.ofNat 32 r.1, r.2 ||| if b.zero then 0 else (roundF32 ((f32 (superScale s f)).mul (.fin false (a.toNat % 256) 256))).2
        ||| if (f32 (superScale s f)).isSig then 16 else 0))
  | .vlog2 f => some (f, 8, [], fun _ a l => flog2 (f32 (lane a l)))
  | .vexp2 f => some (f, 8, [], fun _ a l => fexp2 (f32 (lane a l)))
  | .vrcp f => some (f, 8, [], fun _ a l => frcp (f32 (lane a l)))
  | .vrsqrt f => some (f, 8, [], fun _ a l => frsqrt (f32 (lane a l)))
  | .vfxcvt f => some (f, 3, [], fun _ a l => if l < 16 then fixedRead (BitVec.ofNat 128 (a.toNat / 2 ^ (128 * l))) else (0, 0))
  | _ => none

/-- The row x and the flags fl are what an operation gives in the active lanes of a mask: the flags of all of them, ORed (R154, R157). -/
def LanesGive (m : W64) (op : Nat → W32 × BitVec 5) (x : Row) (fl : BitVec 5) : Prop :=
  (∀ l, l < 64 → m.getLsbD l = true → lane x l = (op l).1) ∧
  (∀ k, k < 5 → (fl.getLsbD k = true ↔ ∃ l, l < 64 ∧ m.getLsbD l = true ∧ (op l).2.getLsbD k = true))

/-- The bits x and the flags fl are what a condition gives in the active lanes of a mask. -/
def BitsGive (m : W64) (op : Nat → Bool × BitVec 5) (x : W64) (fl : BitVec 5) : Prop :=
  (∀ l, l < 64 → m.getLsbD l = true → x.getLsbD l = (op l).1) ∧
  (∀ k, k < 5 → (fl.getLsbD k = true ↔ ∃ l, l < 64 ∧ m.getLsbD l = true ∧ (op l).2.getLsbD k = true))

/-- The state after a slot that draws from the generator under the stochastic mode (R81). -/
def drawn (mode : Rm) (t : State) : State := if mode = .sr then useGenerator t else t

/-- Two partial sums of the fixed tree (R185): a side without an active lane leaves the other as it is. -/
def joinSums (x y : Option W32 × BitVec 5) : Option W32 × BitVec 5 :=
  match x.1, y.1 with
  | some a, some b => (some (fadd (f32 a) (f32 b)).1, x.2 ||| y.2 ||| (fadd (f32 a) (f32 b)).2)
  | some a, none => (some a, x.2 ||| y.2)
  | none, b => (b, x.2 ||| y.2)

/-- Node i of level k of that tree: its leaves are lanes i × 2^k to (i + 1) × 2^k - 1. A lane that takes part enters with a NaN made
canonical, and sets nv if that signals (R63; log 37). -/
def sumNode (m : W64) (a : Row) : Nat → Nat → Option W32 × BitVec 5
  | 0, i =>
    if m.getLsbD i then (some (if (f32 (lane a i)).isNan then 0x7FC00000 else lane a i), if (f32 (lane a i)).isSig then 16 else 0)
    else (none, 0)
  | k + 1, i => joinSums (sumNode m a k (2 * i)) (sumNode m a k (2 * i + 1))

/-- The largest magnitude of a list, or the canonical NaN when one of them is a NaN (R184). -/
def largest (xs : List Num) : W32 :=
  if xs.any Num.isNan then 0x7FC00000 else (roundF32 (xs.foldl (fun b x => if b.lt x.abs then x.abs else b) .zero)).1

/-- One candidate of vmaxi or vmini meets the running pair (R186): the index FFFFFFFFH takes no part. -/
def meet (wantMax : Bool) (best : Option (W32 × W32)) (c : W32 × W32) : Option (W32 × W32) :=
  if c.2 = 0xFFFFFFFF then best
  else match best with
    | none => some c
    | some p => if beats wantMax (f32 c.1) (f32 p.1) then some c else some p

/-- The pair that vmaxi or vmini leaves: the old one, then the active lanes in ascending order (R186). -/
def winner (wantMax : Bool) (m : W64) (d a : Row) : Option (W32 × W32) :=
  (((List.range 64).filter (fun l => m.getLsbD l)).map (fun l => (lane a l, lane d 2 + BitVec.ofNat 32 l))).foldl (meet wantMax)
    (if lane d 1 = 0xFFFFFFFF then none else some (lane d 0, lane d 1))

end Sys2Proof.Machine
end

