-- ==== Sys2Proof/Certificates/Slice0/Obligations.lean ====
section
/-! DEFINITION. The statements about the machine. A slot's statement is about the bundle in flight: `s.src` is the snapshot that its
sources are read from (R18), `resultS` and its like put a result in flight (R22), and what they leave unchanged is stated once, by
ResultFrame. -/

open Sys2Proof Sys2Proof.Machine

/-! Scalar and control instructions. -/

/-- Two-source scalar instructions put their result in flight (R96, R97, R100, R101), and the slot does nothing else. Scalar instructions
with an immediate put their result in flight (R95 to R97, R99); li and addpc too. -/
def Obligations.ScalarResults : Prop :=
  (∀ (i : Instr) (f : RRR) (n : Nat) (op : W64 → W64 → W64) (s : State), aluRule i = some (f, n, op) →
    Executes s f.g [.s f.d, .s f.a, .s f.b] →
    exec i s = .next (resultS s f.d (op (s.src.getS f.a) (s.src.getS f.b)) n)) ∧
  (∀ (i : Instr) (f : RRI) (op : W64 → W64) (s : State), aluImmRule i = some (f, op) → Executes s f.g [.s f.d, .s f.a] →
    exec i s = .next (resultS s f.d (op (s.src.getS f.a)) 1)) ∧
  (∀ (f : RI) (s : State), Executes s f.g [.s f.d] →
    exec (.li f) s = .next (resultS s f.d (signedImm13 f) 1) ∧
    exec (.addpc f) s = .next (resultS s f.d (s.issue.pc.setWidth 64 + signedImm13 f) 1))

/-- bfi, the counting instructions, gget and sel put their result in flight (R98, R100, R104, R105); sel is on under every guard. -/
def Obligations.FieldAndCountResults : Prop :=
  (∀ (f : RRR) (s : State), Executes s f.g [.s f.d, .s f.a, .s f.b] →
    exec (.bfi f) s = .next (resultS s f.d (bfiRule (s.src.getS f.d) (s.src.getS f.a) (s.src.getS f.b)) 1)) ∧
  (∀ (i : Instr) (f : RR) (s : State), i = .clz f ∨ i = .ctz f ∨ i = .popc f → Executes s f.g [.s f.d, .s f.a] →
    ∃ n, CountRule i (s.src.getS f.a) n ∧ exec i s = .next (resultS s f.d (BitVec.ofNat 64 n) 1)) ∧
  (∀ (f : RR) (s : State), Executes s f.g [.s f.d] →
    exec (.gget f) s = .next (resultS s f.d (s.src.getG (f.a.setWidth 3)) 1)) ∧
  (∀ (f : RRR) (s : State), AllFull s [.s f.d, .s f.a, .s f.b] →
    exec (.sel f) s = .next (resultS s f.d (if (s.src.getG f.g).getLsbD 0 then s.src.getS f.a else s.src.getS f.b) 1))

/-- Compares put the pair of guards in flight, the odd one the complement of the even one; guard logic and gset write one guard (R40, R103,
R104). -/
def Obligations.GuardResults : Prop :=
  (∀ (i : Instr) (f : RRR) (op : W64 → W64 → Bool) (s : State), compareRule i = some (f, op) → Executes s f.g [.s f.a, .s f.b] →
    exec i s = .next (resultP s f.d (BitVec.allOnes 64)
      (if op (s.src.getS f.a) (s.src.getS f.b) then BitVec.allOnes 64 else 0) 0 1)) ∧
  (∀ (i : Instr) (f : RRI) (op : W64 → Bool) (s : State), compareImmRule i = some (f, op) → Executes s f.g [.s f.a] →
    exec i s = .next (resultP s f.d (BitVec.allOnes 64) (if op (s.src.getS f.a) then BitVec.allOnes 64 else 0) 0 1)) ∧
  (∀ (i : Instr) (f : RRR) (op : W64 → W64 → W64) (s : State), guardRule i = some (f, op) → Executes s f.g [] →
    exec i s = .next (resultG s f.d (op (s.src.getG (f.a.setWidth 3)) (s.src.getG (f.b.setWidth 3))) 1)) ∧
  (∀ (f : RR) (s : State), Executes s f.g [.s f.a] → exec (.gset f) s = .next (resultG s f.d (s.src.getS f.a) 1))

/-- A division empties sD, turns its pending latches into flags-only ones and leaves its quotient or remainder outstanding; a division that
is off changes nothing; when DIVISION_RESULT completes it, sD holds the result and is full (R21, R24, R102). -/
def Obligations.Divisions : Prop :=
  (∀ (i : Instr) (f : RRR) (op : W64 → W64 → W64) (s : State), divisionRule i = some (f, op) →
    Executes s f.g [.s f.d, .s f.a, .s f.b] →
    exec i s = .next (startOp s (opS f.d) (.div (op (s.src.getS f.a) (s.src.getS f.b))))) ∧
  (∀ (i : Instr) (f : RRR) (op : W64 → W64 → W64) (s : State), divisionRule i = some (f, op) → on s f.g = false →
    AllFull s [.s f.d] → exec i s = .next s) ∧
  (∀ (s : State) (d : BitVec 5) (kind : OpKind), d ≠ 0 → (startOp s (opS d) kind).me.r.fullS d = false ∧
    (startOp s (opS d) kind).me.r.latches = s.me.r.latches.map (fun l =>
      if l.dest = .scalar d then { l with dest := .flagsOnly, mask := 0, value := 0 } else l) ∧
    (∀ e, e ≠ d → (startOp s (opS d) kind).me.r.fullS e = s.me.r.fullS e) ∧
    (∀ e, (startOp s (opS d) kind).me.r.getS e = s.me.r.getS e)) ∧
  (∀ (c : CoreId) (x : CtxId) (s : State) (o : Op) (d : BitVec 5) (v : W64), opOf s c x o.id = some o → o.kind = .div v →
    o.dest = .scalar d → d ≠ 0 → (s.ctx c x).handler = false →
    ∃ t, exec (.divisionResult c x o.id) s = .next t ∧ (t.ctx c x).r.getS d = v ∧ (t.ctx c x).r.fullS d = true ∧
      (t.ctx c x).ops = (s.ctx c x).ops.filter (fun p => p.id != o.id) ∧ t.mem = s.mem)

/-- Taken transfers (R106): the target is the offset in words from the bundle, or the register; call and callr also write the link, and
callr and ret read the old s31. A register target that is no multiple of 4 raises ALIGN, with the target in trap_info, which no rule states
(log 107). -/
def Obligations.Transfers : Prop :=
  (∀ (f : BR) (s : State), Executes s f.g [] →
    exec (.br f) s = .next (s.transfer (.jump (BitVec.ofNat 48 (s.issue.pc.toNat + 4 * (brOffset f).toNat)) true))) ∧
  (∀ (f : BR) (s : State), Executes s f.g [.s 31] →
    exec (.call f) s = .next ((resultS s 31 (BitVec.ofNat 64 (s.issue.pc.toNat + 4 * s.issue.words)) 1).transfer
      (.jump (BitVec.ofNat 48 (s.issue.pc.toNat + 4 * (brOffset f).toNat)) false))) ∧
  (∀ (f : RR) (s : State), Executes s f.g [.s f.a] →
    exec (.jr f) s = (if (s.src.getS f.a).toNat % 4 = 0 then
        .next (s.transfer (.jump (BitVec.ofNat 48 (s.src.getS f.a).toNat) true))
      else .next (raise s .align (s.src.getS f.a) false))) ∧
  (∀ (f : RR) (s : State), Executes s f.g [.s 31, .s f.a] →
    exec (.callr f) s = (if (s.src.getS f.a).toNat % 4 = 0 then
        .next ((resultS s 31 (BitVec.ofNat 64 (s.issue.pc.toNat + 4 * s.issue.words)) 1).transfer (.jump (BitVec.ofNat 48 (s.src.getS f.a).toNat) false))
      else .next (raise s .align (s.src.getS f.a) false))) ∧
  (∀ (f : NF) (s : State), Executes s f.g [.s 31] →
    exec (.ret f) s = (if (s.src.getS 31).toNat % 4 = 0 then
        .next (s.transfer (.jump (BitVec.ofNat 48 (s.src.getS 31).toNat) true))
      else .next (raise s .align (s.src.getS 31) false)))

/-- Loops and repetition (R108, R110), token waits with nothing to wait for (R111, R312), nop, stop and yield (R43, R112): what each asks of
the end of its bundle. A loop at stack depth 4 raises ILL, and a yield after a trig raises BADREC. A ckpt slot has no effect beside its
bundle's: a bundle outside handler mode whose ckpt slot is on is a checkpoint bundle, which takes the registers for its checkpoint and
hands the gate over before its slots run, once no access is outstanding and the memory controllers take it (R366, R386, R392). -/
def Obligations.Sequencing : Prop :=
  (∀ (f : RI) (s : State), Executes s f.g [.s f.d] →
    exec (.loop f) s = (if s.src.loops.length = 4 then .next (raise s .ill (BitVec.ofNat 64 s.issue.slot) false)
      else .next (s.transfer (.loop (BitVec.ofNat 64 (s.issue.pc.toNat + 4 * s.issue.words))
        (BitVec.ofNat 64 (s.issue.pc.toNat + 4 * (unsignedImm13 f).toNat)) (s.src.getS f.d)))) ∧
    exec (.rep f) s = .next (s.transfer (.rep (if f.d = 0 then (unsignedImm13 f).toNat % 2 ^ 32
      else (s.src.getS f.d).toNat % 2 ^ 32)))) ∧
  (∀ (f : RI) (s : State), Executes s f.g [] →
    ((∃ k ∈ s.eng.copies, f.imm.toNat.testBit k.tok.toNat = true) → Holds s (exec (.wait f) s)) ∧
    ((∀ k ∈ s.eng.copies, f.imm.toNat.testBit k.tok.toNat = false) → s.eng.err = none →
      reported s s.issue.core (tokenBytes s f.imm.toNat) = none →
      exec (.wait f) s = .next (acquire s s.issue.core 4 (tokenBytes s f.imm.toNat)))) ∧
  (∀ s : State, exec .nop s = .next s) ∧
  (∀ (f : NF) (s : State), Executes s f.g [] →
    exec (.stop f) s = .next (s.transfer (.leave .stop)) ∧
    (s.src.triggered = true → exec (.yield f) s = .next (raise s .badrec 6 false)) ∧
    (s.src.triggered = false → QueueRoom s s.issue.core → exec (.yield f) s = .next (s.transfer (.leave .yield)))) ∧
  (∀ (f : NF) (s : State), exec (.ckpt f) s = .next s) ∧
  (∀ (f : NF) (c : CoreId) (x : CtxId) (s : State) (slots : List Slot) (words : Nat), ctxReady s c x = true →
    nextBundle s c x = .good slots words → (∃ sl ∈ slots, sl.instr = .ok (.ckpt f)) → wbit ((s.ctx c x).r.landAll.getG f.g) 0 = true →
    (s.ctx c x).handler = false → ckptBlocked (s.ctx c x) = false → drainReady s c x = true → (s.ctx c x).badStore = false →
    (s.ctx c x).r.rep = none → (s.ctx c x).barWait = none →
    ∃ u, prepare s c x = .ready u ∧ (u.ctx c x).ck = (s.ctx c x).r ∧ (u.ctx c x).r = (s.ctx c x).r.landAll ∧ (u.ctx c x).gate = [] ∧
      (u.ctx c x).epoch = (s.ctx c x).epoch + 1)

/-- trap, brk and eret take and leave an exception (R113, R372, R392): the causes SWTRAP and BRK from `raise`, and the return from the
issuing context's eret_ctl, once no store of the handler waits for its translation; outside handler mode eret raises PRIV. -/
def Obligations.SoftwareTraps : Prop :=
  (∀ (f : RI) (s : State), Executes s f.g [] →
    exec (.trap f) s = .next (raise s .swtrap (BitVec.ofNat 64 ((unsignedImm13 f).toNat % 2 ^ 32)) false)) ∧
  (∀ (f : NF) (s : State), Executes s f.g [] →
    exec (.brk f) s = .next (raise s .brk 0 false) ∧
    (s.me.handler = true → handlerStores s.me = false →
      exec (.eret f) s = .next ((eretCtx s s.issue.core s.issue.ctx).verdict .left)) ∧
    (s.me.handler = true → handlerStores s.me = true → Holds s (exec (.eret f) s)) ∧
    (s.me.handler = false → exec (.eret f) s = .next (raise s .priv (BitVec.ofNat 64 s.issue.slot) false)))

/-- mfs puts a system register in flight and clears one that reads clear; the values of the registers, and which of them a read clears.
mts writes fpctl, rng_seed, rng_ctr, eret_ctl, eret_pc or a k register under their writable bits, posts an interrupt request within its
partition and raises ACL for another one; it leaves every other register alone (R114, R115, R377, R388, R389, R392, R393). -/
def Obligations.SystemRegisters : Prop :=
  (∀ (f : SYS) (s : State), Executes s f.g [.s f.d] →
    exec (.mfs f) s = .next (resultS (clearReg s s.issue.core (s.partIdOf s.issue.core) f.num.toNat) f.d
      (if f.num = 0 then s.src.fpctl else if f.num = 1 then s.src.rngSeed else if f.num = 2 then s.src.rngCtr
        else readReg s s.issue.core s.issue.ctx f.num.toNat) 1)) ∧
  (∀ (s : State) (c : CoreId) (x : CtxId),
    (∀ p ∈ [(0x004, BitVec.ofNat 64 x.val), (0x005, BitVec.ofNat 64 (c.val % 64)), (0x006, BitVec.ofNat 64 (c.val / 64)),
        (0x000, (s.ctx c x).r.fpctl), (0x001, (s.ctx c x).r.rngSeed), (0x002, (s.ctx c x).r.rngCtr), (0x003, BitVec.ofNat 64 s.now),
        (0x007, BitVec.ofNat 64 (wbits s.pkg.fabCtl 8 6)), (0x008, BitVec.ofNat 64 (s.partIdOf c).val), (0x00C, 0x50580101#64), (0x100, (s.ctx c x).trapCause),
        (0x101, (s.ctx c x).trapPc.setWidth 64), (0x102, (s.ctx c x).trapInfo), (0x103, (s.ctx c x).ck.pc.setWidth 64),
        (0x104, (s.ctx c x).eretCtl), (0x105, (s.ctx c x).eretPc), (0x120, (s.core c).saveBase), (0x121, (s.core c).spillBase),
        (0x122, BitVec.ofNat 64 (s.core c).spillSize.toNat), (0x123, (s.core c).corrErr), (0x124, (s.core c).dropInt), (0x200, (s.part (s.partIdOf c)).hbase),
        (0x201, (s.part (s.partIdOf c)).pasid), (0x202, (s.part (s.partIdOf c)).tokens), (0x203, (s.part (s.partIdOf c)).pushLim),
        (0x204, (s.part (s.partIdOf c)).stealDly), (0x205, (s.part (s.partIdOf c)).drainLim), (0x206, (s.part (s.partIdOf c)).blkWdog),
        (0x20A, (s.part (s.partIdOf c)).sringBase), (0x20B, (s.part (s.partIdOf c)).sringCtl), (0x20D, (s.part (s.partIdOf c)).gangBase),
        (0x20E, (s.part (s.partIdOf c)).budMem), (0x20F, (s.part (s.partIdOf c)).budSlip), (0x210, (s.part (s.partIdOf c)).flBase[0]),
        (0x211, (s.part (s.partIdOf c)).flBase[1]), (0x212, (s.part (s.partIdOf c)).flBase[2]), (0x213, (s.part (s.partIdOf c)).itOwn),
        (0x214, (s.part (s.partIdOf c)).flCtl[0]), (0x215, (s.part (s.partIdOf c)).flCtl[1]), (0x216, (s.part (s.partIdOf c)).flCtl[2]),
        (0x217, (s.part (s.partIdOf c)).saveLate), (0x218, (s.part (s.partIdOf c)).budLugil), (0x219, (s.part (s.partIdOf c)).podGrp),
        (0x21A, (s.part (s.partIdOf c)).flBase[3]), (0x21B, (s.part (s.partIdOf c)).flCtl[3]), (0x301, s.pkg.cfgAddr),
        (0x303, s.pkg.fabCtl), (0x304, s.pkg.aclBase), (0x305, s.pkg.grpBase), (0x306, s.pkg.fabLoad), (0x309, s.pkg.mcReq),
        (0x207, (s.part (s.partIdOf c)).allocWdog), (0x208, (s.part (s.partIdOf c)).abandoned),
        (0x209, (s.part (s.partIdOf c)).staleWake), (0x20C, (s.part (s.partIdOf c)).sringLost), (0x300, s.pkg.wsLock),
        (0x302, s.pkg.cfgOp), (0x307, s.pkg.linkUp), (0x308, s.pkg.aclDeny)], readReg s c x p.1 = p.2) ∧
    (∀ n : BitVec 6, readReg s c x (0x310 + n.toNat) = rget s.pkg.route n) ∧
    (wbits (readReg s c x 0x009) 0 8 = (stretchNow s (s.core c)).1.toNat ∧ (readReg s c x 0x009).getLsbD 8 = (s.core c).narrow ∧
      (readReg s c x 0x009).getLsbD 9 = decide ((s.core c).degraded ≠ []) ∧
      (readReg s c x 0x009).getLsbD 10 = (s.core c).pace.any (fun q => decide (q.2 ≠ 0))) ∧
    ((∀ y, arrayOwner (s.core c) = some y → wbits (readReg s c x 0x00A) 0 3 = y.val + 4) ∧
      (arrayOwner (s.core c) = none → wbits (readReg s c x 0x00A) 0 3 = 0) ∧ (readReg s c x 0x00A).getLsbD 3 = (s.core c).narrow) ∧
    (((s.refreshOf (dieOf c)).auto = true → readReg s c x 0x00B = 0x8000000000000000) ∧
      ((s.refreshOf (dieOf c)).auto = false → wbits (readReg s c x 0x00B) 16 48 = refreshPhase s (dieOf c) ∧
        (readReg s c x 0x00B).getLsbD 4 = decide (refreshPhase s (dieOf c) % 3200 < 1600) ∧
        wbits (readReg s c x 0x00B) 0 4 = (if refreshPhase s (dieOf c) % 3200 < 1600 then refreshPhase s (dieOf c) / 3200
          else (refreshPhase s (dieOf c) / 3200 + 1) % 16))) ∧
    (wbits (readReg s c x 0x126) 0 16 = (s.core c).spillHead.toNat ∧ wbits (readReg s c x 0x126) 16 16 = (s.core c).spillTail.toNat ∧
      wbits (readReg s c x 0x126) 32 17 = (s.core c).spillCount % 2 ^ 17 ∧
      (readReg s c x 0x126).getLsbD 63 = (s.core c).spillRefused) ∧
    (∀ k : BitVec 4, readReg s c x (0x110 + k.toNat) = rget (s.ctx c x).k k) ∧
    (∀ n ∈ [0x123, 0x124, 0x208, 0x209, 0x20C, 0x217, 0x308], readReg (clearReg s c (s.partIdOf c) n) c x n = 0 ∧
      (clearReg s c (s.partIdOf c) n).mem = s.mem) ∧
    (∀ n, n ∉ [0x123, 0x124, 0x208, 0x209, 0x20C, 0x217, 0x308] → clearReg s c (s.partIdOf c) n = s)) ∧
  (∀ (f : SYS) (s : State), Executes s f.g [.s f.d] →
    (f.num = 0 → exec (.mts f) s = .next (s.setRegs { s.me.r with fpctl := s.src.getS f.d &&& 0x1F0F#64 })) ∧
    (f.num = 1 → exec (.mts f) s = .next (s.setRegs { s.me.r with rngSeed := s.src.getS f.d })) ∧
    (f.num = 2 → exec (.mts f) s = .next (s.setRegs { s.me.r with rngCtr := s.src.getS f.d })) ∧
    (f.num = 0x104 → exec (.mts f) s = .next (s.setMe { s.me with eretCtl := s.src.getS f.d &&& 0xFF03#64 })) ∧
    (f.num = 0x105 → exec (.mts f) s = .next (s.setMe { s.me with eretPc := s.src.getS f.d })) ∧
    (∀ k : BitVec 4, f.num.toNat = 0x110 + k.toNat →
      exec (.mts f) s = .next (s.setMe { s.me with k := rset s.me.k k (s.src.getS f.d) })) ∧
    (f.num = 0x125 →
      (s.partOf (intCore (s.src.getS f.d)) ≠ s.partOf s.issue.core →
        exec (.mts f) s = .next (raise s .acl (s.src.getS f.d) false)) ∧
      (s.partOf (intCore (s.src.getS f.d)) = s.partOf s.issue.core →
        exec (.mts f) s = .next (if (s.ctx (intCore (s.src.getS f.d)) (intCtx (s.src.getS f.d))).empty
          then s.setCore (intCore (s.src.getS f.d)) { s.core (intCore (s.src.getS f.d)) with
            dropInt := (s.core (intCore (s.src.getS f.d))).dropInt + 1 }
          else s.setCtx (intCore (s.src.getS f.d)) (intCtx (s.src.getS f.d)) {
            s.ctx (intCore (s.src.getS f.d)) (intCtx (s.src.getS f.d)) with
            pendInt := some ((s.src.getS f.d >>> 32).setWidth 32) }))) ∧
    (f.num.toNat ∉ [0, 1, 2, 0x104, 0x105, 0x125] → ¬ (0x110 ≤ f.num.toNat ∧ f.num.toNat ≤ 0x11F) → exec (.mts f) s = .next s))

/-! Vector instructions. -/

/-- Two-source vector arithmetic (R154, R157 to R160, R165, R166): the lanes of the result in flight, and its flags; vfmai with its scalar
multiplier (R159). Ports read are popped as their keep bit says. Vector compares put the active lanes' bits of a guard pair in flight (R40,
R162, R163). -/
def Obligations.VectorResults : Prop :=
  (∀ (i : Instr) (f : RRR) (n : Nat) (old : Bool) (op : W32 → W32 → W32 → W32 × BitVec 5) (s : State),
    vectorRule i = some (f, n, old, op) → ExecutesV s f.g [.v f.d, .v f.a, .v f.b] → PortsReady s [f.a, f.b] →
    ∃ x fl, LanesGive (s.src.getG f.g) (fun l => op (lane (s.src.getV f.d) l) (lane (vsrc s f.a) l) (lane (vsrc s f.b) l)) x fl ∧
      exec i s = .next (resultV (pop s f.h [f.a, f.b]) f.d (s.src.getG f.g) x fl n)) ∧
  (∀ (f : RRR) (s : State), ExecutesV s f.g [.v f.d, .v f.a, .s f.b] → PortsReady s [f.a] →
    ∃ x fl, LanesGive (s.src.getG f.g) (fun l => ffma (f32 (lane (s.src.getV f.d) l)) (f32 (lane (vsrc s f.a) l))
        (f32 ((s.src.getS f.b).setWidth 32))) x fl ∧
      exec (.vfmai f) s = .next (resultV (pop s f.h [f.a]) f.d (s.src.getG f.g) x fl 4)) ∧
  (∀ (i : Instr) (f : RRR) (op : W32 → W32 → Bool × BitVec 5) (s : State), vectorCompareRule i = some (f, op) →
    ExecutesV s f.g [.v f.a, .v f.b] → PortsReady s [f.a, f.b] →
    ∃ x fl, BitsGive (s.src.getG f.g) (fun l => op (lane (vsrc s f.a) l) (lane (vsrc s f.b) l)) x fl ∧
      exec i s = .next (resultP (pop s f.h [f.a, f.b]) f.d (s.src.getG f.g) x fl 2))

/-- Moves between lanes and between register files (R161, R164, R167 to R169); vsel writes every lane under every guard. -/
def Obligations.VectorMoves : Prop :=
  (∀ (i : Instr) (f : RR) (op : W32 → W32 × BitVec 5) (s : State), vectorRule1 i = some (f, op) →
    ExecutesV s f.g [.v f.d, .v f.a] → PortsReady s [f.a] →
    ∃ x fl, LanesGive (s.src.getG f.g) (fun l => op (lane (vsrc s f.a) l)) x fl ∧
      exec i s = .next (resultV (pop s f.h [f.a]) f.d (s.src.getG f.g) x fl 1)) ∧
  (∀ (f : RR) (s : State), ExecutesV s f.g [.v f.d, .s f.a] →
    (∃ x, LanesGive (s.src.getG f.g) (fun _ => ((s.src.getS f.a).setWidth 32, 0)) x 0 ∧
      exec (.vbcast f) s = .next (resultV s f.d (s.src.getG f.g) x 0 1)) ∧
    (∃ x, LanesGive (s.src.getG f.g) (fun l => ((s.src.getS f.a).setWidth 32 + BitVec.ofNat 32 l, 0)) x 0 ∧
      exec (.viota f) s = .next (resultV s f.d (s.src.getG f.g) x 0 1))) ∧
  (∀ (f : RRR) (s : State), AllFull s [.v f.d, .v f.a, .v f.b] → PortsReady s [f.a, f.b] →
    ∃ x, (∀ l, l < 64 → lane x l = if (s.src.getG f.g).getLsbD l then lane (vsrc s f.a) l else lane (vsrc s f.b) l) ∧
      exec (.vsel f) s = .next (resultV (pop s f.h [f.a, f.b]) f.d (BitVec.allOnes 64) x 0 2)) ∧
  (∀ (f : RRR) (s : State), ExecutesV s f.g [.v f.d, .v f.a, .v f.b] → PortsReady s [f.a, f.b] →
    ∃ x, (∀ l, l < 64 → lane x l = lane (vsrc s f.a) ((lane (vsrc s f.b) l).toNat % 64)) ∧
      exec (.vperm f) s = .next (resultV (pop s f.h [f.a, f.b]) f.d (s.src.getG f.g) x 0 2)) ∧
  (∀ (f : RRR) (s : State), ExecutesV s f.g [.v f.d, .v f.a, .s f.b] → PortsReady s [f.a] →
    ∃ x, (∀ l, l < 64 → lane x l = lane (vsrc s f.a) ((l + (s.src.getS f.b).toNat % 64) % 64)) ∧
      exec (.vrot f) s = .next (resultV (pop s f.h [f.a]) f.d (s.src.getG f.g) x 0 2)) ∧
  (∀ (f : RRR) (s : State), ExecutesV s f.g [.s f.d, .v f.a, .s f.b] → PortsReady s [f.a] →
    exec (.vext f) s = .next (if (s.src.getG f.g).getLsbD ((s.src.getS f.b).toNat % 64)
      then resultS (pop s f.h [f.a]) f.d ((lane (vsrc s f.a) ((s.src.getS f.b).toNat % 64)).setWidth 64) 2
      else pop s f.h [f.a])) ∧
  (∀ (f : RRR) (s : State), ExecutesV s f.g [.v f.d, .s f.a, .s f.b] →
    if (s.src.getG f.g).getLsbD ((s.src.getS f.b).toNat % 64)
    then ∃ x, lane x ((s.src.getS f.b).toNat % 64) = (s.src.getS f.a).setWidth 32 ∧
      exec (.vins f) s = .next (resultV s f.d (BitVec.twoPow 64 ((s.src.getS f.b).toNat % 64)) x 0 2)
    else exec (.vins f) s = .next s)

/-- Conversions and special functions of the U form (R73, R81, R172, R176 to R178, R180, R182, R183, R187, R190): each active lane gets the
value of its rule, and the stochastic mode uses the generator once. A reserved dynamic mode raises ILL. The flags of the conversions to narrow
formats and of the block scales are the model's reading (log 62). -/
def Obligations.UnaryResults : Prop :=
  ∀ (i : Instr) (f : UF) (n : Nat) (more : List Ref) (op : Rm → Row → Nat → W32 × BitVec 5) (s : State),
    unaryRule s i = some (f, n, more, op) → ExecutesV s f.g (.v f.d :: .v f.a :: more) → PortsReady s [f.a] →
    (∀ mode, roundMode s f.rnd = some mode → ∃ x fl, LanesGive (s.src.getG f.g) (op mode (vsrc s f.a)) x fl ∧
      exec i s = .next (drawn mode (resultV (pop s false [f.a]) f.d (s.src.getG f.g) x fl n))) ∧
    (roundMode s f.rnd = none → exec i s = .next (raise s .ill (BitVec.ofNat 64 s.issue.slot) false))

/-- Packing and block quantisation (R174, R179, R181, R183): the old register shifted down and the new bytes at its top, with the flags of
every lane that takes part. A reserved dynamic mode raises ILL. -/
def Obligations.PackingResults : Prop :=
  (∀ (f : UF) (s : State) (mode : Rm), ExecutesV s f.g [.v f.d, .v f.a] → PortsReady s [f.a] → roundMode s f.rnd = some mode →
    ∃ fl, (∀ k, k < 5 → (fl.getLsbD k = true ↔ ∃ l, l < 64 ∧ (s.src.getG f.g).getLsbD l = true ∧
        ((tabled (tableA f.fmt)).elem.round (f32 (lane (vsrc s f.a) l)) mode (saturates s f) (laneDraw s mode l)).2.getLsbD k = true)) ∧
      exec (.vpack f) s = .next (drawn mode (resultV (pop s false [f.a]) f.d (BitVec.allOnes 64)
        (shiftIn (s.src.getV f.d) (packElems (tabled (tableA f.fmt)).bits ((List.range 64).map (fun l =>
            if (s.src.getG f.g).getLsbD l then ((tabled (tableA f.fmt)).elem.round (f32 (lane (vsrc s f.a) l)) mode (saturates s f)
              (laneDraw s mode l)).1 else 0))) (8 * (tabled (tableA f.fmt)).bits)) fl 3))) ∧
  (∀ (f : UF) (s : State) (mode : Rm), ExecutesV s f.g [.v f.d, .v f.a] → PortsReady s [f.a] → roundMode s f.rnd = some mode →
    exec (.vqmx f) s = .next (drawn mode (resultV (pop s false [f.a]) f.d (BitVec.allOnes 64)
        (shiftIn (s.src.getV f.d)
          ((quantBlock s (tabled (tableB f.fmt)) mode (s.src.getG f.g) (vsrc s f.a) 0).1
            + (quantBlock s (tabled (tableB f.fmt)) mode (s.src.getG f.g) (vsrc s f.a) 32).1 * 2 ^ (8 * (tabled (tableB f.fmt)).record))
          (2 * (tabled (tableB f.fmt)).record))
        ((quantBlock s (tabled (tableB f.fmt)) mode (s.src.getG f.g) (vsrc s f.a) 0).2
          ||| (quantBlock s (tabled (tableB f.fmt)) mode (s.src.getG f.g) (vsrc s f.a) 32).2) 6))) ∧
  (∀ (f : UF) (s : State) (mode : Rm), ExecutesV s f.g [.v f.d, .v f.a, .s f.d] → PortsReady s [f.a] → roundMode s f.rnd = some mode →
    exec (.vq4n f) s = .next (drawn mode (resultV (pop s false [f.a]) f.d (BitVec.allOnes 64)
        (shiftIn (s.src.getV f.d) (quantQ4n ((s.src.getS f.d).setWidth 32) mode ((List.range 64).map (fun l =>
          (if (s.src.getG f.g).getLsbD l then some (f32 (lane (vsrc s f.a) l)) else none, laneDraw s mode l)))).1 33)
        (quantQ4n ((s.src.getS f.d).setWidth 32) mode ((List.range 64).map (fun l =>
          (if (s.src.getG f.g).getLsbD l then some (f32 (lane (vsrc s f.a) l)) else none, laneDraw s mode l)))).2 6))) ∧
  (∀ (i : Instr) (f : UF) (s : State), i = .vpack f ∨ i = .vqmx f ∨ i = .vq4n f →
    ExecutesV s f.g [.v f.d, .v f.a, .s f.d] → PortsReady s [f.a] → roundMode s f.rnd = none →
    exec i s = .next (raise s .ill (BitVec.ofNat 64 s.issue.slot) false))

/-- Reductions, the generator and the log-sum-exp merge (R81, R82, R184 to R186, R188, R189). vamax broadcasts the largest magnitude or the
canonical NaN, vsum the root of the fixed tree; vmaxi and vmini write lanes 0 and 1 with the winner, if there is one, and step the index
base in lane 2 by 64; a signalling NaN among what they compare is invalid. A lone participating NaN of vsum becomes the canonical NaN, and
the merge of two zeros of opposite sign takes +0 as the larger (the model's readings, log 37 and log 108). -/
def Obligations.ReductionResults : Prop :=
  (∀ (f : RR) (s : State), ExecutesV s f.g [.v f.d, .v f.a] → PortsReady s [f.a] →
    exec (.vamax f) s = .next (resultV (pop s f.h [f.a]) f.d (BitVec.allOnes 64)
      (ofLanes (fun _ => largest (f32 (lane (s.src.getV f.d) 0)
        :: ((List.range 64).filter (fun l => (s.src.getG f.g).getLsbD l)).map (fun l => f32 (lane (vsrc s f.a) l)))))
      (if (f32 (lane (s.src.getV f.d) 0)).isSig ∨ ∃ l ∈ List.range 64, (s.src.getG f.g).getLsbD l = true ∧
        (f32 (lane (vsrc s f.a) l)).isSig = true then 16 else 0) 5) ∧
    exec (.vsum f) s = .next (resultV (pop s f.h [f.a]) f.d (BitVec.allOnes 64)
      (ofLanes (fun _ => (sumNode (s.src.getG f.g) (vsrc s f.a) 6 0).1.getD 0)) (sumNode (s.src.getG f.g) (vsrc s f.a) 6 0).2 6) ∧
    (∀ i wantMax, (i = Instr.vmaxi f ∧ wantMax = true) ∨ (i = Instr.vmini f ∧ wantMax = false) →
      ∃ x, lane x 2 = lane (s.src.getV f.d) 2 + 64 ∧
        (∀ v n, winner wantMax (s.src.getG f.g) (s.src.getV f.d) (vsrc s f.a) = some (v, n) →
          lane x 0 = (if (f32 v).isNan then 0x7FC00000 else v) ∧ lane x 1 = n) ∧
        exec i s = .next (resultV (pop s f.h [f.a]) f.d
          (if (winner wantMax (s.src.getG f.g) (s.src.getV f.d) (vsrc s f.a)).isSome then 7 else 4) x
          (if (f32 (lane (s.src.getV f.d) 0)).isSig ∨ ∃ l ∈ List.range 64, (s.src.getG f.g).getLsbD l = true ∧
            (f32 (lane (vsrc s f.a) l)).isSig = true then 16 else 0) 5)) ∧
    (∃ x, (∀ l, l < 64 → lane x l = drawHigh s.src.rngSeed (s.src.rngCtr + BitVec.ofNat 64 s.issue.draws) l) ∧
      exec (.vrng f) s = .next (useGenerator (resultV s f.d (s.src.getG f.g) x 0 2)))) ∧
  (∀ (f : RRR) (s : State), ExecutesV s f.g [.v f.d, .v f.a, .v f.b] → PortsReady s [f.a, f.b] →
    ∃ x fl, (∀ i, i < 32 →
        lane x (2 * i) = (mergePair (lane (vsrc s f.a) (2 * i)) (lane (vsrc s f.a) (2 * i + 1)) (lane (vsrc s f.b) (2 * i))
          (lane (vsrc s f.b) (2 * i + 1))).1 ∧
        lane x (2 * i + 1) = (mergePair (lane (vsrc s f.a) (2 * i)) (lane (vsrc s f.a) (2 * i + 1)) (lane (vsrc s f.b) (2 * i))
          (lane (vsrc s f.b) (2 * i + 1))).2.1) ∧
      (∀ k, k < 5 → (fl.getLsbD k = true ↔ ∃ i, i < 32 ∧
        ((s.src.getG f.g).getLsbD (2 * i + 1) = true ∧ (mergePair (lane (vsrc s f.a) (2 * i)) (lane (vsrc s f.a) (2 * i + 1))
            (lane (vsrc s f.b) (2 * i)) (lane (vsrc s f.b) (2 * i + 1))).2.2.2.getLsbD k = true ∨
          (s.src.getG f.g).getLsbD (2 * i + 1) = false ∧ (s.src.getG f.g).getLsbD (2 * i) = true ∧
            (mergePair (lane (vsrc s f.a) (2 * i)) (lane (vsrc s f.a) (2 * i + 1)) (lane (vsrc s f.b) (2 * i))
              (lane (vsrc s f.b) (2 * i + 1))).2.2.1.getLsbD k = true))) ∧
      exec (.vlsem f) s = .next (resultV (pop s f.h [f.a, f.b]) f.d (s.src.getG f.g) x fl 8))

/-- The array (R139 to R142, R191 to R200): pushes, the buffer exchange, multiply-accumulate beats, drains and clears put their results in
flight when the context owns the array, the streams can read their rows, the formats fit, the row lies in the grant and the queue has
room. The effects of a push, of a macc and of a drain: what is written at issue, and what is in flight for how many bundles; the bytes and
super-scales read, under their format, are the row that a push leaves in the shadow buffer, and row 0 starts that buffer anew with its
format (R195). A release keeps the array from others until the checkpoint commits (R367). -/
def Obligations.ArrayBeats : Prop :=
  (∀ (f : MF) (s : State), Executes s f.g [] → s.src.owns = true → CodesGood s →
    (BeatReady s f.a → PushFits s f.a f.z →
      exec (.mpush f) s = .next (pushEffect (setStream s f.a (beatOf s f.a).st) f.z (beatOf s f.a))) ∧
    exec (.mswap f) s = .next (result (s.setRegs { s.me.r with arr := { s.me.r.arr with fill := 0 } }) .exchange
      (BitVec.allOnes 64) 0 0 2)) ∧
  (∀ (f : MF) (s : State), Executes s f.g [.s f.b] → s.src.owns = true → CodesGood s → RowGood s f.b → BeatReady s f.a →
    ActiveFits s f.a →
    exec (.macc f) s = .next (maccEffect (setStream s f.a (beatOf s f.a).st) ((s.src.getS f.b).toNat % 256) f.z (beatOf s f.a)) ∧
    (BeatReady s f.d → PushFits s f.d false →
      exec (.maccp f) s = .next (pushEffect (maccEffect (setStream (setStream s f.a (beatOf s f.a).st) f.d (beatOf s f.d).st)
        ((s.src.getS f.b).toNat % 256) f.z (beatOf s f.a)) false (beatOf s f.d)))) ∧
  (∀ (f : MF) (s : State), Executes s f.g [.s f.a] → s.src.owns = true → CodesGood s → RowGood s f.a → DrainRoom s (f.d.setWidth 2) →
    exec (.mdrain f) s = .next (drainEffect s (f.d.setWidth 2) ((s.src.getS f.a).toNat % 256)) ∧
    (BeatReady s f.b → PushFits s f.b f.z →
      exec (.mdrainp f) s = .next (pushEffect (drainEffect (setStream s f.b (beatOf s f.b).st) (f.d.setWidth 2)
        ((s.src.getS f.a).toNat % 256)) f.z (beatOf s f.b)))) ∧
  (∀ (f : MF) (s : State), Executes s f.g [.s f.a, .s f.b] →
    (s.src.getS f.a).toNat % 256 + (s.src.getS f.b).toNat % 512 ≤ 64 * s.me.acc →
    exec (.mclr f) s = .next (if (s.src.getS f.b).toNat % 512 = 0 then s
      else result s (.rowClear ((s.src.getS f.a).toNat % 256) ((s.src.getS f.b).toNat % 512)) (BitVec.allOnes 64) 0 0 2)) ∧
  (∀ (s : State) (zero : Bool) (b : BeatRead),
    (pushEffect s zero b).me.r.arr.fill = (if zero then 0 else s.src.arr.fill) + 1 ∧
    ((if zero then 0 else s.src.arr.fill) = 0 → (pushEffect s zero b).me.r.arr.pfmt = some (BitVec.ofNat 8 b.fmt)) ∧
    ∃ l, (pushEffect s zero b).me.r.latches = s.me.r.latches ++ [l] ∧ l.left = (if s.me.handler then 1 else 2) ∧ l.flags = 0 ∧
      l.dest = .shadow (if zero then 0 else s.src.arr.fill)
        (if (if zero then 0 else s.src.arr.fill) = 0 then some (BitVec.ofNat 8 b.fmt) else none) ∧
      WeightRow.unpack l.value = { fmt := BitVec.ofNat 8 b.fmt, bytes := BitVec.ofNat 1024 b.run, sup0 := (b.sups[0]?).getD 0,
                                   sup1 := (b.sups[1]?).getD 0 }) ∧
  (∀ (r : Regs) (l : Latch) (j : BitVec 6) (f : Option Byte), l.dest = .shadow j f →
    (r.arr.swapped = false → (r.land l).arr = { r.arr with
      rows0 := aset (if j = 0 then [] else r.arr.rows0) j.toNat (WeightRow.unpack l.value), bfmt0 := if j = 0 then f else r.arr.bfmt0 }) ∧
    (r.arr.swapped = true → (r.land l).arr = { r.arr with
      rows1 := aset (if j = 0 then [] else r.arr.rows1) j.toNat (WeightRow.unpack l.value), bfmt1 := if j = 0 then f else r.arr.bfmt1 })) ∧
  (∀ (s : State) (row : Nat) (zero : Bool) (b : BeatRead),
    ∃ x, (∀ j, j < 64 → lane x j = columnValue (if zero then none else some (lane (accRowOf s row) j))
        (List.zipWith groupValue (rowGroups b.fmt b.run b.sups ((beatDepth b.fmt).getD 0))
          (weightGroups s.src.arr.active.1 ((beatDepth b.fmt).getD 0) j))) ∧
      maccEffect s row zero b = result s (.accRow row) (BitVec.allOnes 64) x 0 72) ∧
  (∀ (s : State) (q : BitVec 2) (row : Nat),
    rget (drainEffect s q row).me.r.rq q = rget s.me.r.rq q ++ [none] ∧
    ∃ l, (drainEffect s q row).me.r.latches = s.me.r.latches ++ [l] ∧ l.dest = .queue q ∧ l.value = accRowOf s row ∧
      l.left = (if s.me.handler then 1 else 8)) ∧
  (∀ (f : MF) (s : State), Executes s f.g [] →
    (arrayOwner (s.core s.issue.core) = none →
      (∀ x, x ≠ s.issue.ctx → arrayCandidate s s.issue.core s.issue.ctx x = false) →
      exec (.mownAcquire f) s = .next (s.setRegs s.me.r.takeArray) ∧ s.me.r.takeArray.owns = true ∧
        s.me.r.takeArray.arr = ArrayState.clear) ∧
    (arrayOwner (s.core s.issue.core) = some s.issue.ctx → exec (.mownAcquire f) s = .next (if s.me.r.owns then s
      else s.setRegs s.me.r.takeArray)) ∧
    (∀ x, arrayOwner (s.core s.issue.core) = some x → x ≠ s.issue.ctx → ∃ t, exec (.mownAcquire f) s = .next (t.verdict .held) ∧
      t = s.setMe { s.me with arrayWait := s.me.arrayWait.or (some s.cycle) })) ∧
  (∀ (f : MF) (s : State), Executes s f.g [] →
    (s.me.r.owns = true → exec (.mownRelease f) s = .next (s.setMe { s.me with r := s.me.r.releaseArray, arrayKept := true }) ∧ s.me.r.releaseArray.owns = false ∧
      s.me.r.releaseArray.rows = s.me.r.rows ∧ (∀ l ∈ s.me.r.latches, l.drains = true → l.beat = false → l ∈ s.me.r.releaseArray.latches) ∧
      ((∀ l ∈ s.me.r.latches, l.drains = false) → s.me.r.releaseArray.arr = ArrayState.clear)) ∧
    (s.me.r.owns = false → exec (.mownRelease f) s = .next s))

/-! Memory instructions. -/

/-- Scalar loads (R283, R284, R288): from a scratchpad the value is in flight, after 6 bundles from the own one and 14 from a peer's, the
context's own stores over what memory held; from elsewhere sD is empty and the load outstanding. A misaligned address raises ALIGN, one
without a place TXLATE. -/
def Obligations.ScalarLoads : Prop :=
  (∀ (i : Instr) (f : RRI) (n : Nat) (signed : Bool) (s : State), loadRule i = some (f, n, signed) → Executes s f.g [.s f.d, .s f.a] →
    ((effective s f).toNat % n ≠ 0 → exec i s = .next (raise s .align (effective s f) false)) ∧
    ((effective s f).toNat % n = 0 →
      (∀ c o, place s s.issue.core .load (effective s f) n = .ok (.scratch c o) → CodesGood s →
        exec i s = .next (resultS s f.d
          (loaded n signed (seenBytes s (effective s f) (.scratch c o) n)) (if c = s.issue.core then 6 else 14))) ∧
      (∀ p, place s s.issue.core .load (effective s f) n = .ok p → p.scratchOf = none →
        exec i s = .next (startOp (askFor s p) (opS f.d)
          (.load (effective s f) n signed (gateRun s.issue.pre.view (effective s f) n)))) ∧
      (∀ r, place s s.issue.core .load (effective s f) n = .error r →
        exec i s = .next (raise s .txlate (txInfo (effective s f) r) false)))) ∧
  (∀ (f : RRR) (s : State), Executes s f.g [.s f.d, .s f.a, .s f.b] →
    ((s.src.getS f.a + s.src.getS f.b).toNat % 8 ≠ 0 →
      exec (.ldx f) s = .next (raise s .align (s.src.getS f.a + s.src.getS f.b) false)) ∧
    ((s.src.getS f.a + s.src.getS f.b).toNat % 8 = 0 →
      (∀ c o, place s s.issue.core .load (s.src.getS f.a + s.src.getS f.b) 8 = .ok (.scratch c o) → CodesGood s →
        exec (.ldx f) s = .next (resultS s f.d
          (loaded 8 false (seenBytes s (s.src.getS f.a + s.src.getS f.b) (.scratch c o) 8)) (if c = s.issue.core then 6 else 14))) ∧
      (∀ p, place s s.issue.core .load (s.src.getS f.a + s.src.getS f.b) 8 = .ok p → p.scratchOf = none →
        exec (.ldx f) s = .next (startOp (askFor s p) (opS f.d)
          (.load (s.src.getS f.a + s.src.getS f.b) 8 false (gateRun s.issue.pre.view (s.src.getS f.a + s.src.getS f.b) 8)))) ∧
      (∀ r, place s s.issue.core .load (s.src.getS f.a + s.src.getS f.b) 8 = .error r →
        exec (.ldx f) s = .next (raise s .txlate (txInfo (s.src.getS f.a + s.src.getS f.b) r) false)))) ∧
  (∀ (s : State) (va : W64) (p : Place) (n : Nat), (seenBytes s va p n).length = n ∧
    (s.issue.drained = false → seenBytes s va p n = readRun s s.issue.core s.issue.pre.view va p n))

/-- Scalar stores (R223, R283, R288, R368): the low bytes of sD wait in the context's gate, a handler's in its own, and no byte of memory
changes; where the host has not translated the page, an operation waits for it as well. A gate that would need more than 512 lines raises
GATE, a misaligned address ALIGN. What a store leaves in a gate: inside the run the bytes stored, outside it what the gate held. -/
def Obligations.ScalarStores : Prop :=
  (∀ (i : Instr) (f : RRI) (n : Nat) (s : State), storeRule i = some (f, n) → Executes s f.g [.s f.a, .s f.d] →
    ((effective s f).toNat % n ≠ 0 → exec i s = .next (raise s .align (effective s f) false)) ∧
    (∀ r, (effective s f).toNat % n = 0 → place s s.issue.core .store (effective s f) n = .error r →
      exec i s = .next (raise s .txlate (txInfo (effective s f) r) false)) ∧
    (∀ p, (effective s f).toNat % n = 0 → place s s.issue.core .store (effective s f) n = .ok p →
      (storable s p = true →
        ((stored s.me [(effective s f, leBytes n (s.src.getS f.d).toNat)]).view.length ≤ 512 →
          exec i s = .next (s.setMe (stored s.me [(effective s f, leBytes n (s.src.getS f.d).toNat)]))) ∧
        (512 < (stored s.me [(effective s f, leBytes n (s.src.getS f.d).toNat)]).view.length →
          exec i s = .next (raise s .gate 0 false))) ∧
      (storable s p = false → s.issue.ckpt = false →
        (stored s.me [(effective s f, leBytes n (s.src.getS f.d).toNat)]).view.length ≤ 512 →
        ∃ t, exec i s = .next t ∧ t.mem = s.mem ∧ t.me.gate = (stored s.me [(effective s f, leBytes n (s.src.getS f.d).toNat)]).gate ∧
          t.me.hgate = (stored s.me [(effective s f, leBytes n (s.src.getS f.d).toNat)]).hgate ∧
          ∃ o ∈ t.me.ops, ∃ a k, o.kind = .store a k ∧ a.toNat / 4096 = (effective s f).toNat / 4096))) ∧
  (∀ (g : List GateLine) (va : W64) (bs : List Byte) (a : W64), bs.length ≤ 256 →
    gateByte (gateStore g va bs) a = if (a - va).toNat < bs.length then some (bs.getD (a - va).toNat 0) else gateByte g a)

/-- Vector loads (R38, R284, R289, R290, R292, R295): when their active lanes are aligned and placed, a gather's within its base's storage, the
lanes of vD are in flight from a scratchpad, or the load is outstanding; lds moves its stream; vldb broadcasts 4 bytes. A misaligned
access raises ALIGN. -/
def Obligations.VectorLoads : Prop :=
  (∀ (f : RRI) (s : State), ExecutesV s f.g [.v f.d, .s f.a] →
    (LanesPlaced s .load (runLanes (s.src.getG f.g) (effective s f)) → CodesGood s →
      ∃ u, exec (.vld f) s = .next u ∧ VectorLoaded s s f.d (s.src.getG f.g) (runLanes (s.src.getG f.g) (effective s f)) u) ∧
    ((effective s f).toNat % 4 ≠ 0 → ∃ a, a.toNat % 4 ≠ 0 ∧ exec (.vld f) s = .next (raise s .align a false))) ∧
  (∀ (f : RRR) (s : State), ExecutesV s f.g [.v f.d, .v f.a, .s f.b] → PortsReady s [f.a] →
    LanesPlaced s .load (gatherLanes (s.src.getG f.g) (vsrc s f.a) (s.src.getS f.b)) →
    WithinBase s (s.src.getS f.b) (gatherLanes (s.src.getG f.g) (vsrc s f.a) (s.src.getS f.b)) → CodesGood s →
    ∃ u, exec (.vldx f) s = .next u ∧ VectorLoaded s (pop s f.h [f.a]) f.d (s.src.getG f.g)
      (gatherLanes (s.src.getG f.g) (vsrc s f.a) (s.src.getS f.b)) u) ∧
  (∀ (f : RR) (s : State) (ra : W64), ExecutesV s f.g [.v f.d] → rowAddr (streamOf s f.a) = some ra →
    LanesPlaced s .load (runLanes (s.src.getG f.g) ra) → CodesGood s →
    ∃ u, exec (.lds f) s = .next (setStream u f.a (rowAfter (streamOf s f.a))) ∧
      VectorLoaded s s f.d (s.src.getG f.g) (runLanes (s.src.getG f.g) ra) u) ∧
  (∀ (f : RRI) (s : State), ExecutesV s f.g [.v f.d, .s f.a] → (effective s f).toNat % 4 = 0 →
    (∀ c o, place s s.issue.core .load (effective s f) 4 = .ok (.scratch c o) → CodesGood s →
      ∃ x, (∀ l, l < 64 → lane x l = leWord 32 (seenBytes s (effective s f) (.scratch c o) 4)) ∧
        exec (.vldb f) s = .next (resultV s f.d (s.src.getG f.g) x 0 (if c = s.issue.core then 6 else 14))) ∧
    (∀ p, place s s.issue.core .load (effective s f) 4 = .ok p → p.scratchOf = none →
      exec (.vldb f) s = .next (startOp (askFor s p) (.vector f.d (s.src.getG f.g))
        (.bload (effective s f) (gateRun s.issue.pre.view (effective s f) 4))))) ∧
  (∀ (m : W64) (a : Row) (b : W64) (l : Nat), (l, b + BitVec.ofNat 64 (4 * (lane a l).toNat)) ∈ gatherLanes m a b ↔
    l < 64 ∧ m.getLsbD l = true) ∧
  (∀ (m ea : W64) (l : Nat), (l, ea + BitVec.ofNat 64 (4 * l)) ∈ runLanes m ea ↔ l < 64 ∧ m.getLsbD l = true)

/-- Vector stores (R289, R290, R295, R297): when their active lanes are aligned and placed, a scatter's within its base's storage, and the
lines fit the gate, the active lanes of vD, a result queue's head row for stq, enter the gate; memory is as before. -/
def Obligations.VectorStores : Prop :=
  (∀ (f : RRI) (s : State), ExecutesV s f.g [.s f.a, .v f.d] → PortsReady s [f.d] →
    LanesPlaced s .store (runLanes (s.src.getG f.g) (effective s f)) →
    StoresFit s ((runLanes (s.src.getG f.g) (effective s f)).map (fun q => (q.2, leBytes 4 (lane (vsrc s f.d) q.1).toNat))) →
    ∃ u, exec (.vst f) s = .next u ∧ u.issue = (pop s false [f.d]).issue ∧ VectorStored s
      ((runLanes (s.src.getG f.g) (effective s f)).map (fun q => (q.2, leBytes 4 (lane (vsrc s f.d) q.1).toNat))) u) ∧
  (∀ (f : RRR) (s : State), ExecutesV s f.g [.v f.a, .s f.b, .v f.d] → PortsReady s [f.d, f.a] →
    LanesPlaced s .store (gatherLanes (s.src.getG f.g) (vsrc s f.a) (s.src.getS f.b)) →
    WithinBase s (s.src.getS f.b) (gatherLanes (s.src.getG f.g) (vsrc s f.a) (s.src.getS f.b)) →
    StoresFit s ((gatherLanes (s.src.getG f.g) (vsrc s f.a) (s.src.getS f.b)).map (fun q =>
      (q.2, leBytes 4 (lane (vsrc s f.d) q.1).toNat))) →
    ∃ u, exec (.vstx f) s = .next u ∧ u.issue = (pop s f.h [f.d, f.a]).issue ∧ VectorStored s
      ((gatherLanes (s.src.getG f.g) (vsrc s f.a) (s.src.getS f.b)).map (fun q => (q.2, leBytes 4 (lane (vsrc s f.d) q.1).toNat))) u) ∧
  (∀ (f : RR) (s : State) (ra : W64), ExecutesV s f.g [.v f.d] → PortsReady s [f.d] → rowAddr (streamOf s f.a) = some ra →
    LanesPlaced s .store (runLanes (s.src.getG f.g) ra) →
    StoresFit s ((runLanes (s.src.getG f.g) ra).map (fun q => (q.2, leBytes 4 (lane (vsrc s f.d) q.1).toNat))) →
    ∃ u, exec (.sts f) s = .next (setStream u f.a (rowAfter (streamOf s f.a))) ∧ u.issue = (pop s f.h [f.d]).issue ∧ VectorStored s
      ((runLanes (s.src.getG f.g) ra).map (fun q => (q.2, leBytes 4 (lane (vsrc s f.d) q.1).toNat))) u) ∧
  (∀ (f : RRI) (s : State), ExecutesV s f.g [.s f.a] → PortsReady s [f.d ||| 28] →
    LanesPlaced s .store (runLanes (s.src.getG f.g) (effective s f)) →
    StoresFit s ((runLanes (s.src.getG f.g) (effective s f)).map (fun q => (q.2, leBytes 4 (lane (vsrc s (f.d ||| 28)) q.1).toNat))) →
    ∃ u, exec (.stq f) s = .next u ∧ u.issue = (pop s false [f.d ||| 28]).issue ∧ VectorStored s
      ((runLanes (s.src.getG f.g) (effective s f)).map (fun q => (q.2, leBytes 4 (lane (vsrc s (f.d ||| 28)) q.1).toNat))) u)

/-- Stream fields are written after 1 bundle and read at once (R287, R296), a value that does not fit raises BOUNDS with reason 4 and an
unassigned format code ILL; a binding slot is written in its bundle, with its checks (R302); prf and ninv act on the near cache, and prf
raises nothing for a place that has none, nor where an exhausted budget keeps its fetch back (R304, R386). -/
def Obligations.StreamsBindingsHints : Prop :=
  (∀ (f : RRI) (s : State), Executes s f.g [.s f.a] →
    (StsetFits (streamOf s f.d) f.imm.toNat (s.src.getS f.a) →
      exec (.stset f) s = .next (result s (.stream (f.d.setWidth 4) f.imm.toNat) (BitVec.allOnes 64) (rowOfWord (s.src.getS f.a)) 0 1)) ∧
    (f.imm.toNat = 1 → (s.src.getS f.a).toNat < 256 → formatOf (s.src.getS f.a).toNat = none →
      exec (.stset f) s = .next (raise s .ill (BitVec.ofNat 64 s.issue.slot) false)) ∧
    (f.imm.toNat < 14 → 2 ^ (streamFieldAt f.imm.toNat).width ≤ (s.src.getS f.a).toNat →
      exec (.stset f) s = .next (raise s .bounds (streamInfo (streamOf s f.d) f.d 4) false))) ∧
  (∀ (f : RRI) (s : State), Executes s f.g [.s f.d] →
    exec (.stget f) s = .next (resultS s f.d (BitVec.ofNat 64 (stField (streamOf s f.a) f.imm.toNat)) 1)) ∧
  (∀ (f : RRR) (s : State), Executes s f.g [.s f.a, .s f.b, .s f.d] →
    (wbits (s.src.getS f.d) 4 3 = 0 → exec (.bind f) s = .next (s.setRegs { s.me.r with
      bind := rset s.me.r.bind ((s.src.getS f.d).setWidth 4) (Vector.replicate _ 0) })) ∧
    (wbits (s.src.getS f.d) 4 3 ≠ 0 → wbits (s.src.getS f.d) 4 3 ≠ 7 → (s.src.getS f.a).toNat % 64 = 0 →
      wbits (s.src.getS f.d) 32 32 % 64 = 0 → wbits (s.src.getS f.d) 32 32 ≠ 0 →
      (s.src.getS f.a).toNat + wbits (s.src.getS f.d) 32 32 ≤ 2 ^ 64 →
      classOf (s.src.getS f.a) = classOf (s.src.getS f.a + BitVec.ofNat 64 (wbits (s.src.getS f.d) 32 32 - 1)) →
      exec (.bind f) s = .next (s.setRegs { s.me.r with
        bind := rset s.me.r.bind ((s.src.getS f.d).setWidth 4) #v[s.src.getS f.a, BitVec.ofNat 64 (wbits (s.src.getS f.d) 32 32),
          s.src.getS f.b, BitVec.ofNat 64 (wbits (s.src.getS f.d) 4 3)] })) ∧
    (wbits (s.src.getS f.d) 4 3 ≠ 0 → (s.src.getS f.a).toNat % 64 ≠ 0 ∨ wbits (s.src.getS f.d) 32 32 % 64 ≠ 0 →
      exec (.bind f) s = .next (raise s .align (s.src.getS f.d) false))) ∧
  (∀ (f : RRI) (s : State), Executes s f.g [.s f.a] →
    (∀ p, placeByte s s.issue.core .load (effective s f) = .ok p →
      exec (.prf f) s = .next (if p.cached = true ∧ nearFind (s.core s.issue.core) (effective s f) = none ∧
          fetchable s p (effective s f) = true ∧ memReady s (s.partIdOf s.issue.core) (keyBlocks (p.key / 64 * 64) 64) = true
        then nearFetch (spendMem s (s.partIdOf s.issue.core) (keyBlocks (p.key / 64 * 64) 64)) s.issue.core (effective s f) else s)) ∧
    (∀ r, placeByte s s.issue.core .load (effective s f) = .error r → exec (.prf f) s = .next s) ∧
    (∀ p, place s s.issue.core .peek (effective s f) 1 = .ok p →
      exec (.ninv f) s = .next (if p.cached then nearDrop s s.issue.core (effective s f) else s)) ∧
    (∀ r, place s s.issue.core .peek (effective s f) 1 = .error r →
      exec (.ninv f) s = .next (raise s .txlate (txInfo (effective s f) r) false)))

/-- Weight-store loads (R234, R237, R298): in flight for 20 bundles outside the refresh windows of the banks of its 256 bytes, outstanding
inside them; WSLOCK with the lowest active lane's address while the partition's lock is clear; BOUNDS past the store's end. Which loads find their bank
refreshing while the refresh is autonomous is the model's choice (log 103). -/
def Obligations.WeightLoads : Prop :=
  ∀ (f : RRI) (s : State), ExecutesV s f.g [.v f.d, .s f.a] → (effective s f).toNat % 4 = 0 →
    (0x5FFFFFFF < (effective s f).toNat + 255 → ∃ a, exec (.wld f) s = .next (raise s .bounds a false)) ∧
    ((effective s f).toNat + 255 ≤ 0x5FFFFFFF →
      ownsBank s s.issue.core (effective s f).toNat = true → ownsBank s s.issue.core ((effective s f).toNat + 255) = true →
      ((s.part (s.partIdOf s.issue.core)).wsLocked = false → ∀ l, (activeLanes (s.src.getG f.g)).head? = some l →
        exec (.wld f) s = .next (raise s .wslock (effective s f + BitVec.ofNat 64 (4 * l)) false)) ∧
      ((s.part (s.partIdOf s.issue.core)).wsLocked = true →
        inWindow s (dieOf s.issue.core) (weightBank (effective s f).toNat) = false →
        inWindow s (dieOf s.issue.core) (weightBank ((effective s f).toNat + 255)) = false → CodesGood s →
        ∃ x, (∀ l, l < 64 → (s.src.getG f.g).getLsbD l = true →
            lane x l = leWord 32 (s.mem.readRun (keyWeight (dieOf s.issue.core) ((effective s f).toNat + 4 * l)) 4)) ∧
          exec (.wld f) s = .next (resultV s f.d (s.src.getG f.g) x 0 20)) ∧
      ((s.part (s.partIdOf s.issue.core)).wsLocked = true →
        inWindow s (dieOf s.issue.core) (weightBank (effective s f).toNat) = true ∨
          inWindow s (dieOf s.issue.core) (weightBank ((effective s f).toNat + 255)) = true →
        exec (.wld f) s = .next (startOp s (.vector f.d (s.src.getG f.g))
          (.wload ((activeLanes (s.src.getG f.g)).map (fun l => (l, (effective s f).toNat + 4 * l)))))))

/-- Tile loads (R267, R271, R272, R277, R299): a handle that does not match raises TSTALE, a unit outside the tile BOUNDS; a load of an OPEN
tile is outstanding with the context's own stores and the bindings of its issue; a load of a published tile acquires at .quad, spends a
read if it is vldtc, and has its row in flight. -/
def Obligations.TileLoads : Prop :=
  ∀ (i : Instr) (f : RRI) (spend : Bool) (s : State), (i = .vldt f ∧ spend = false) ∨ (i = .vldtc f ∧ spend = true) →
    ExecutesV s f.g [.v f.d, .s f.a] →
    (¬ Usable s (s.src.getS f.a) → exec i s = .next (raise s .tstale (tstaleInfo (s.src.getS f.a) 3) false)) ∧
    (Usable s (s.src.getS f.a) → handleMatches s (s.src.getS f.a) = false →
      exec i s = .next (raise s .tstale (tstaleInfo (s.src.getS f.a) 1) false)) ∧
    (Matches s (s.src.getS f.a) → (poolOf s (s.src.getS f.a)).tsize < 256 * f.imm.toNat + 256 →
      ∃ a, exec i s = .next (raise s .bounds a false)) ∧
    (Matches s (s.src.getS f.a) → 256 * f.imm.toNat + 256 ≤ (poolOf s (s.src.getS f.a)).tsize →
      ((tileOf s (s.src.getS f.a)).state = .open →
        exec i s = .next (startOp s (.vector f.d (s.src.getG f.g)) (.tile (s.src.getS f.a) f.imm.toNat spend
          ((runLanes (s.src.getG f.g) (tileAddr s (s.src.getS f.a) + BitVec.ofNat 64 (256 * f.imm.toNat))).flatMap
            (fun q => gateRun s.issue.pre.view q.2 4)) s.me.r.bind))) ∧
      ((tileOf s (s.src.getS f.a)).state = .published → CodesGood s →
        reported s s.issue.core (bound s.me.r.bind 3 (s.src.getS f.a)) = none →
        ∃ x, (∀ l, l < 64 → (s.src.getG f.g).getLsbD l = true → lane x l = leWord 32 (seenBytes s
              (tileAddr s (s.src.getS f.a) + BitVec.ofNat 64 (256 * f.imm.toNat) + BitVec.ofNat 64 (4 * l))
              (.scratch (handleCore (s.src.getS f.a)) (wbits (tileAddr s (s.src.getS f.a) + BitVec.ofNat 64 (256 * f.imm.toNat)
                + BitVec.ofNat 64 (4 * l)) 0 22)) 4)) ∧
          exec i s = .next (resultV
            (if spend then spendTile (acquire s s.issue.core 2 (bound s.me.r.bind 3 (s.src.getS f.a))) (s.src.getS f.a)
              else acquire s s.issue.core 2 (bound s.me.r.bind 3 (s.src.getS f.a)))
            f.d (s.src.getG f.g) x 0 (if handleCore (s.src.getS f.a) = s.issue.core then 6 else 14))))

/-- Atomics (R248, R249, R300). That the read-modify-write is made when the atomic issues is the model's choice, log 8 (R248 to R300 order it
among the context's accesses and fix no moment): the word at the location is read after the context's earlier stores and the release, and
memory takes the new value at once; sD becomes empty and the old value is outstanding. A misaligned address raises ALIGN, one without a place
TXLATE, and an operation that PCIe cannot carry to the host TXLATE with reason 3. ATOMIC_RESULT only fills sD with the old value. -/
def Obligations.Atomics : Prop :=
  (∀ (i : Instr) (f : AT) (op : AtomOp) (s : State), atomicRule i = some (f, op) →
    Executes s f.g ([.s f.d, .s f.a] ++ if op = .cas then [.s (f.d + 1)] else []) →
    ((s.src.getS f.a).toNat % 8 ≠ 0 → exec i s = .next (raise s .align (s.src.getS f.a) false)) ∧
    ((s.src.getS f.a).toNat % 8 = 0 →
      (∀ r, place s s.issue.core .atomic (s.src.getS f.a) 8 = .error r →
        exec i s = .next (raise s .txlate (txInfo (s.src.getS f.a) r) false)) ∧
      (∀ p, place s s.issue.core .atomic (s.src.getS f.a) 8 = .ok p →
        (classOf (s.src.getS f.a) = 1 → op ≠ .add → op ≠ .swp → op ≠ .cas →
          exec i s = .next (raise s .txlate (txInfo (s.src.getS f.a) 3) false)) ∧
        ((classOf (s.src.getS f.a) ≠ 1 ∧ ∀ pid va, p ≠ .host pid va) ∨
          ((op = .add ∨ op = .swp ∨ op = .cas) ∧ ∃ pid va e, p = .host pid va ∧
            tlbFind s (dieOf s.issue.core) pid va = some e ∧ e.read = true ∧ e.write = true) →
          CodesGood s → s.poison = [] → MemTaken s p 8 → (f.ord.getLsbD 1 = true → FabricDone s f.scope.toNat) →
          ∃ t old, exec i s = .next t ∧ old = leWord 64 ((atomicBefore f s p).mem.readRun p.key 8) ∧
            t.mem = (atomicBefore f s p).mem.writeRun p.key
              (leBytes 8 (atomicNew op old (s.src.getS f.d) (s.src.getS (f.d + 1))).toNat) ∧
            (∃ o, t.me.ops = (atomicBefore f s p).me.ops ++ [o] ∧ o.dest = opS f.d ∧ o.kind = .atomic (s.src.getS f.a) old) ∧
            (f.d ≠ 0 → t.me.r.fullS f.d = false) ∧ (∀ e, t.me.r.getS e = s.me.r.getS e))))) ∧
  (∀ (c : CoreId) (x : CtxId) (s : State) (o : Op) (ea old : W64) (d : BitVec 5), opOf s c x o.id = some o →
    o.kind = .atomic ea old → o.dest = .scalar d → d ≠ 0 → (s.ctx c x).handler = false →
    ∃ u, exec (.atomicResult c x o.id) s = .next u ∧ (u.ctx c x).r.getS d = old ∧ (u.ctx c x).r.fullS d = true ∧
      (u.ctx c x).ops = (s.ctx c x).ops.filter (fun p => p.id != o.id) ∧ u.mem = s.mem)

/-- Fences and lock words (R253 to R256, R301, R303): a fence writes its token and is outstanding, a handler's after the handler's stores; a
17th holds its bundle; rel at .pod waits for every answer to a transfer of its context (R425); fwait holds its bundle
while a fence issued before its bundle, up to its token, is outstanding; rel and acq release and acquire the bytes bound to the lock word,
and a misaligned lock word raises ALIGN. -/
def Obligations.FencesAndLocks : Prop :=
  (∀ (f : RI) (s t : State), Executes s f.g [.s f.d] → t = (if s.me.handler then drainMe s else s) →
    (16 ≤ s.me.fences.length → Holds s (exec (.fence f) s)) ∧
    (s.me.fences.length < 16 → exec (.fence f) s = .next (resultS (t.setMe { t.me with
        fenceCount := s.me.fenceCount + 1,
        fences := t.me.fences ++ [{ token := s.me.fenceCount + 1, scope := f.imm.setWidth 3, before := t.nextId, pc := t.issue.pc,
                                    words := t.issue.words, epoch := t.me.epoch, byHandler := t.me.handler }] })
      f.d (BitVec.ofNat 64 (s.me.fenceCount + 1)) 1))) ∧
  (∀ (f : RR) (s : State), Executes s f.g [.s f.a] →
    ((∃ q ∈ s.issue.pre.fences, q.token ≤ (s.src.getS f.a).toNat) → Holds s (exec (.fwait f) s)) ∧
    ((∀ q ∈ s.issue.pre.fences, (s.src.getS f.a).toNat < q.token) → exec (.fwait f) s = .next s)) ∧
  (∀ (f : RR) (s : State), Executes s f.g [.s f.a] →
    ((s.src.getS f.a).toNat % 8 ≠ 0 → exec (.rel f) s = .next (raise s .align (s.src.getS f.a) false) ∧
      exec (.acq f) s = .next (raise s .align (s.src.getS f.a) false)) ∧
    ((s.src.getS f.a).toNat % 8 = 0 →
      (FabricDone s f.d.toNat →
        exec (.rel f) s = .next (release (drainMe s) s.issue.core f.d.toNat (bound s.me.r.bind 1 (s.src.getS f.a)))) ∧
      (f.d = 5 → (∃ k ∈ s.eng.copies, k.xfer ≠ none) ∨ unanswered s s.issue.core s.issue.ctx = true → Holds s (exec (.rel f) s)) ∧
      (reported s s.issue.core (bound s.me.r.bind 1 (s.src.getS f.a)) = none →
        exec (.acq f) s = .next (acquire s s.issue.core f.d.toNat (bound s.me.r.bind 1 (s.src.getS f.a))))))

/-! Copy engines. -/

/-- Copies issue (R305, R315, R343, R345, R346): one that passes the checks of its form enters its context's engine, a 65th holds its bundle,
and each check that fails raises its cause: ARRAY and QUNF of a queue source, ALIGN, BOUNDS with its reason (which address trap_info holds is
log 39), WSLOCK under the weight-store lock, TSTALE of a source tile. What a copy that is not empty adds to its engine (R305, R306, R310,
R345): itself, not started, the newest of its context; with kind 1 it counts on the timeline. An empty one leaves no copy and moves nothing. -/
def Obligations.Copies : Prop :=
  (∀ (i : Instr) (f : CP) (form : CopyForm) (src : W64) (es : List W64) (a : Ref) (s : State), copyRule s i = some (f, form, src, es, a) →
    Executes s f.g ([a, .s f.b] ++ if 2 ≤ f.kind.toNat then [.s (f.b + 1)] else []) →
    let sh := rget s.src.sh f.sh
    let dst := s.src.getS f.b
    let caddr := s.src.getS (f.b + 1)
    let q : BitVec 2 := BitVec.ofNat 2 (shField sh 29)
    let raises := fun (cause : Cause) (info : W64) => exec i s = .next (raise s cause info false)
    let bounds := fun (reason : Nat) (v : W64) => raises .bounds (BitVec.ofNat 64 (reason * 2 ^ 56 + v.toNat % 2 ^ 56))
    (64 ≤ s.eng.copies.length → Holds s (exec i s)) ∧
    (s.eng.copies.length < 64 →
      (CopyFits s form sh src dst caddr f.kind → exec i s = .next (startCopy s f form src dst es)) ∧
      (shField sh 28 = 1 → s.src.owns = false → raises .array (arrayInfo 1 q.toNat)) ∧
      (shField sh 28 = 1 → s.src.owns = true → headRow s.src q = none → raises .qunf (BitVec.ofNat 64 q.toNat)) ∧
      (QueueFits s sh →
        (2 ≤ f.kind.toNat → caddr.toNat % 16 ≠ 0 → raises .align caddr) ∧
        ((2 ≤ f.kind.toNat → caddr.toNat % 16 = 0) → ¬ CopyAligned form sh dst caddr f.kind → raises .align dst) ∧
        (CopyAligned form sh dst caddr f.kind →
          (shField sh 28 = 1 → form = .gather ∨ form = .wstore ∨ (form = .plain ∧ shField sh 6 = 1) → bounds 2 dst) ∧
          (shField sh 28 = 0 → f.kind = 2 → classOf caddr ≠ 0 → bounds 3 caddr) ∧
          (shField sh 28 = 0 → (f.kind = 2 → classOf caddr = 0) → form = .tile → classOf dst ≠ 0 → bounds 3 dst) ∧
          (InQuad form dst caddr f.kind → ¬ RowFits form sh → bounds 2 dst) ∧
          (InQuad form dst caddr f.kind → RowFits form sh → ¬ SourceFits s form sh src → bounds 2 src) ∧
          (InQuad form dst caddr f.kind → RowFits form sh → SourceFits s form sh src → ¬ FormFits s form sh dst → bounds 2 dst))) ∧
      (CopyInBounds s form sh src dst caddr f.kind →
        (form = .wstore → (s.part (s.partIdOf s.issue.core)).wsLocked = true → raises .wslock 0) ∧
        (form = .plain → shField sh 6 = 1 →
          ((s.core (handleCore src)).out = true ∨ (poolOf s src).valid = false → raises .tstale (tstaleInfo src 3)) ∧
          ((s.core (handleCore src)).out = false → (poolOf s src).valid = true → handleMatches s src = false →
            raises .tstale (tstaleInfo src 1)))))) ∧
  (∀ (s : State) (f : CP) (form : CopyForm) (src dst : W64) (es : List W64), (walkRuns (rget s.src.sh f.sh) ≠ 0 ∨ form = .tile) →
    ∃ k, (startCopy s f form src dst es).eng.copies = s.eng.copies ++ [k] ∧ k.form = form ∧ k.shape = rget s.src.sh f.sh ∧ k.src = src ∧
      k.dst = dst ∧ k.entries = es ∧ k.kind = f.kind ∧ k.tok = f.tok ∧ k.caddr = s.src.getS (f.b + 1) ∧ k.started = false ∧ k.moved = 0 ∧
      k.num = (if f.kind = 1 then some (s.eng.issued + 1) else none) ∧
      (startCopy s f form src dst es).eng.issued = (if f.kind = 1 then s.eng.issued + 1 else s.eng.issued)) ∧
  (∀ (s : State) (f : CP) (form : CopyForm) (src dst : W64) (es : List W64), walkRuns (rget s.src.sh f.sh) = 0 → form ≠ .tile → f.kind ≠ 3 →
    (∀ k ∈ s.eng.copies, k.id ≠ s.nextId) →
    (startCopy s f form src dst es).eng.copies = s.eng.copies ∧
    (startCopy s f form src dst es).eng.issued = (if f.kind = 1 then s.eng.issued + 1 else s.eng.issued) ∧
    ((s.core s.issue.core).near = [] → (startCopy s f form src dst es).mem = s.mem))

/-- Shape registers, timeline counters and sync words (R67, R309, R312, R313, R320, R322, R323, R344, R347 to R350): shw's field after 3
bundles, BOUNDS for a value too wide and ILL for an unassigned format; tlrd's four readings of a copy engine and two of an itinerary;
tlwait and swwait hold until their counter or generation is reached, and then acquire what the waited work wrote. -/
def Obligations.TimelinesAndSync : Prop :=
  (∀ (f : RRI) (s : State), Executes s f.g [.s f.a] →
    (ShwFits f.imm.toNat (s.src.getS f.a) → exec (.shw f) s =
      .next (result s (.shape (f.d.setWidth 3) f.imm.toNat) (BitVec.allOnes 64) (rowOfWord (s.src.getS f.a)) 0 3)) ∧
    (f.imm.toNat < 32 → 2 ^ (shapeFieldAt f.imm.toNat).width ≤ (s.src.getS f.a).toNat → exec (.shw f) s =
      .next (raise s .bounds (BitVec.ofNat 64 (2 ^ 56 + (s.src.getS f.a).toNat % 2 ^ 56)) false)) ∧
    (f.imm.toNat = 3 → (s.src.getS f.a).toNat < 256 → formatOf (s.src.getS f.a).toNat = none → exec (.shw f) s =
      .next (raise s .ill (BitVec.ofNat 64 s.issue.slot) false))) ∧
  (∀ (f : RR) (s : State), Executes s f.g [.s f.d, .s f.a] →
    (∀ x, named s (s.src.getS f.a) = some (.copy x) →
      (wbits (s.src.getS f.a) 6 2 = 0 →
        exec (.tlrd f) s = .next (resultS s f.d (BitVec.ofNat 64 (s.engine s.issue.core x).counter) 2)) ∧
      (wbits (s.src.getS f.a) 6 2 = 1 →
        exec (.tlrd f) s = .next (resultS s f.d (BitVec.ofNat 64 (s.engine s.issue.core x).issued) 2)) ∧
      (wbits (s.src.getS f.a) 6 2 = 2 → exec (.tlrd f) s = .next (resultS s f.d (engineStatus (s.engine s.issue.core x)) 2)) ∧
      (wbits (s.src.getS f.a) 6 2 = 3 → exec (.tlrd f) s = .next ((resultS s f.d (engineStatus (s.engine s.issue.core x)) 2).setEngine
        s.issue.core x { s.engine s.issue.core x with accof := false }))) ∧
    (∀ i, named s (s.src.getS f.a) = some (.itin i) →
      (wbits (s.src.getS f.a) 6 2 = 0 → exec (.tlrd f) s = .next (resultS s f.d (BitVec.ofNat 64 (s.itin i).counter) 2)) ∧
      (wbits (s.src.getS f.a) 6 2 = 1 → exec (.tlrd f) s = .next (resultS s f.d (BitVec.ofNat 64 (s.itin i).issued) 2))) ∧
    (named s (s.src.getS f.a) = none → exec (.tlrd f) s =
      .next (raise s .bounds (BitVec.ofNat 64 (4 * 2 ^ 56 + (s.src.getS f.a).toNat % 2 ^ 56)) false))) ∧
  (∀ (f : RR) (s : State), Executes s f.g [.s f.a, .s f.d] →
    (∀ x, named s (s.src.getS f.d) = some (.copy x) →
      ((s.engine s.issue.core x).counter < (s.src.getS f.a).toNat → Holds s (exec (.tlwait f) s)) ∧
      ((s.src.getS f.a).toNat ≤ (s.engine s.issue.core x).counter → (s.engine s.issue.core x).err = none →
        reported s s.issue.core (counterBytes s s.issue.core (.copy x) (s.src.getS f.a).toNat) = none →
        exec (.tlwait f) s = .next (acquire s s.issue.core 4 (counterBytes s s.issue.core (.copy x) (s.src.getS f.a).toNat)))) ∧
    (∀ i, named s (s.src.getS f.d) = some (.itin i) →
      ((s.itin i).counter < (s.src.getS f.a).toNat → Holds s (exec (.tlwait f) s)) ∧
      ((s.src.getS f.a).toNat ≤ (s.itin i).counter → (s.itin i).state ≠ .error →
        reported s s.issue.core (counterBytes s s.issue.core (.itin i) (s.src.getS f.a).toNat) = none →
        exec (.tlwait f) s = .next (acquire s s.issue.core 4 (counterBytes s s.issue.core (.itin i) (s.src.getS f.a).toNat))))) ∧
  (∀ (f : RRR) (s : State), Executes s f.g [.s f.a, .s f.b, .s f.d] → (s.src.getS f.a).toNat % 16 = 0 →
    classOf (s.src.getS f.a) = 0 → CodesGood s →
    exec (.swset f) s = .next (writeSync s (quadKey s.issue.core (s.src.getS f.a))
      { readSync s (quadKey s.issue.core (s.src.getS f.a)) with
        target := wbits (s.src.getS f.b) 0 40, armed := (s.src.getS f.d).getLsbD 0, err := false,
        arrived := if (s.src.getS f.d).getLsbD 1 then 0 else (readSync s (quadKey s.issue.core (s.src.getS f.a))).arrived,
        gen := if (s.src.getS f.d).getLsbD 1 then wbits (s.src.getS f.d) 32 32
          else (readSync s (quadKey s.issue.core (s.src.getS f.a))).gen })) ∧
  (∀ (f : RR) (s : State) (ahead : Nat), Executes s f.g [.s f.a, .s f.d] → (s.src.getS f.a).toNat % 16 = 0 →
    classOf (s.src.getS f.a) = 0 → CodesGood s →
    ahead = ((readSync s (quadKey s.issue.core (s.src.getS f.a))).gen + 2 ^ 32 - wbits (s.src.getS f.d) 0 32) % 2 ^ 32 →
    ((readSync s (quadKey s.issue.core (s.src.getS f.a))).err = false →
      (ahead = 0 ∨ 2 ^ 31 ≤ ahead → Holds s (exec (.swwait f) s)) ∧
      (1 ≤ ahead → ahead < 2 ^ 31 → s.eng.err = none →
        reported s s.issue.core (syncBytes s (quadKey s.issue.core (s.src.getS f.a)) (s.src.getS f.a)) = none →
        exec (.swwait f) s = .next (acquire s s.issue.core 4
          (syncBytes s (quadKey s.issue.core (s.src.getS f.a)) (s.src.getS f.a))))) ∧
    ((readSync s (quadKey s.issue.core (s.src.getS f.a))).err = true → s.eng.err = none →
      exec (.swwait f) s = .next (raise s .bounds (s.src.getS f.a ||| 1) false)))

/-- Itineraries, the planner and the loop-nest sequencer are started (R324, R328, R339 to R341, R351 to R355): itstart releases at .pkg and
runs a valid descriptor, BOUNDS where the itinerary runs already; itstat; plan starts its variable-latency operation; lnscfg loads the
template or the descriptor; lnsgo makes the bundle start the replay, BOUNDS without a descriptor, and a replay whose trip counts are
immediate and not 0 then starts at position 0 of every level. -/
def Obligations.EnginesStarted : Prop :=
  (∀ (f : RR) (s : State) (p : Place) (i : ItinId) (w : File 3 W64), Executes s f.g [.s f.a, .s f.d] → (s.src.getS f.a).toNat % 64 = 0 →
    i = itinOf s.issue.core (wbits (s.src.getS f.d) 0 4) → itOwned s s.issue.core (wbits (s.src.getS f.d) 0 4) = true →
    BlockReady (handedOver s) (s.src.getS f.a) 64 p →
    w = words8 (deviceRead (handedOver s) s.issue.core (s.src.getS f.a) 64) →
    (itValid w = true → ((handedOver s).itin i).state ≠ .running → ((handedOver s).itin i).state ≠ .draining →
      ∃ t, exec (.itstart f) s = .next t ∧ (t.itin i).state = .running ∧ (t.itin i).desc = w ∧ (t.itin i).started = 0 ∧
        (t.itin i).cause = 0 ∧ (t.itin i).lateness = 0 ∧ (t.itin i).t0 = s.now ∧
        (t.itin i).issued = ((handedOver s).itin i).issued + itPasses (t.itin i) * itSlips (t.itin i)) ∧
    (itValid w = false ∨ ((handedOver s).itin i).state = .running ∨ ((handedOver s).itin i).state = .draining →
      exec (.itstart f) s = .next (raise s .bounds (BitVec.ofNat 64 (5 * 2 ^ 56 + (s.src.getS f.a).toNat % 2 ^ 56)) false))) ∧
  (∀ (f : RR) (s : State), Executes s f.g [.s f.d, .s f.a] →
    (itOwned s s.issue.core (wbits (s.src.getS f.a) 0 4) = true →
      exec (.itstat f) s = .next (resultS s f.d (itWord (s.itin (itinOf s.issue.core (wbits (s.src.getS f.a) 0 4)))) 2)) ∧
    (itOwned s s.issue.core (wbits (s.src.getS f.a) 0 4) = false →
      exec (.itstat f) s = .next (raise s .bounds (BitVec.ofNat 64 (4 * 2 ^ 56 + (s.src.getS f.a).toNat % 2 ^ 56)) false))) ∧
  (∀ (f : RRR) (s : State), Executes s f.g [.s f.d, .s f.a] →
    ((s.src.getS f.a).toNat % 8 = 0 →
      exec (.plan f) s = .next (startOp (handedOver s) (opS f.d) (.plan (s.src.getS f.a)))) ∧
    ((s.src.getS f.a).toNat % 8 ≠ 0 → exec (.plan f) s = .next (raise s .align (s.src.getS f.a) false))) ∧
  (∀ (f : RRI) (s u : State) (p : Place) (w0 w1 : W64) (ts : List (List W32)), Executes s f.g [.s f.a] → (s.src.getS f.a).toNat % 16 = 0 →
    BlockReady s (s.src.getS f.a) 16 p → u = blockTaken s (s.src.getS f.a) 16 p →
    w0 = wordAt (deviceRead s s.issue.core (s.src.getS f.a) 16) 0 → w1 = wordAt (deviceRead s s.issue.core (s.src.getS f.a) 16) 1 →
    (256 < wbits w0 0 8 + (wbits w0 8 8 + 1) → exec (.lnscfgTemplate f) s =
      .next (raise s .bounds (BitVec.ofNat 64 (6 * 2 ^ 56 + (s.src.getS f.a).toNat % 2 ^ 56)) false)) ∧
    (wbits w0 0 8 + (wbits w0 8 8 + 1) ≤ 256 →
      (∀ x, x ≠ s.issue.ctx → replaying (s.ctx s.issue.core x) (wbits w0 0 8) (wbits w0 8 8 + 1) = false) →
      (∀ v ∈ (s.core s.issue.core).saved, replaying v.ctx (wbits w0 0 8) (wbits w0 8 8 + 1) = false) →
      ts.length = wbits w0 8 8 + 1 → BundlesAt u ts w1 →
      exec (.lnscfgTemplate f) s = .next (u.setCore s.issue.core (withTemplates (u.core s.issue.core) (wbits w0 0 8) ts)))) ∧
  (∀ (f : RRI) (s u : State) (p : Place) (d : List W64), Executes s f.g [.s f.a] → (s.src.getS f.a).toNat % 16 = 0 →
    BlockReady s (s.src.getS f.a) 304 p → u = blockTaken s (s.src.getS f.a) 304 p →
    d = (List.range 38).map (wordAt (deviceRead s s.issue.core (s.src.getS f.a) 304)) →
    (badDescriptor d = false → exec (.lnscfgDescriptor f) s = .next (u.setMe { u.me with seqDesc := some d })) ∧
    (badDescriptor d = true → exec (.lnscfgDescriptor f) s =
      .next (raise s .bounds (BitVec.ofNat 64 (6 * 2 ^ 56 + (s.src.getS f.a).toNat % 2 ^ 56)) false))) ∧
  (∀ (f : RR) (s : State), Executes s f.g [] →
    (∀ d, s.me.seqDesc = some d → TripsReadable s d → CodesGood s → s.poison = [] →
      exec (.lnsgo f) s = .next { s with issue := { s.issue with replay := true } }) ∧
    (s.me.seqDesc = none → exec (.lnsgo f) s = .next (raise s .bounds (BitVec.ofNat 64 (6 * 2 ^ 56)) false))) ∧
  (∀ (s : State) (d : List W64), s.issue.replay = true → s.me.r.replay = none → s.me.seqDesc = some d → seqLevels d ≤ 6 →
    (∀ l, l < seqLevels d → tripAddr d l = none ∧ wbits (descWord d (2 + 2 * l)) 0 32 ≠ 0) →
    ∃ p, (advance s).1.replay = some p ∧ (advance s).2.2 = none ∧ p.pos = 0 ∧ p.counters = List.replicate 6 0 ∧
      p.resume = (advanceCode s (popQueues s.me.r s.issue.pops)).1.pc ∧
      ∀ l, l < seqLevels d → p.trips[l]? = some (BitVec.ofNat 32 (wbits (descWord d (2 + 2 * l)) 0 32)))

/-- Request gatherers (R334, R335, R356, R357). gcfg releases at .pkg and reads its block: target 0 closes the open batch and leaves the
gatherer unconfigured, a valid block configures it, one that is not valid and a gatherer that another partition uses raise BOUNDS. gsub
raises BOUNDS without a configuration, joins the open batch, opens one when fewer than two are held, else holds its bundle. -/
def Obligations.Gatherers : Prop :=
  (∀ (f : RRR) (s : State) (p : Place) (g : GathererId) (w : File 3 W64), Executes s f.g [.s f.a, .s f.b] →
    (s.src.getS f.b).toNat % 64 = 0 → g = gathererOf s.issue.core (s.src.getS f.a) →
    w = words8 (deviceRead (handedOver s) s.issue.core (s.src.getS f.b) 64) →
    ((s.gatherer g).part ≠ s.partIdOf s.issue.core → ((s.gatherer g).config.isSome = true ∨ (s.gatherer g).batches ≠ []) →
      exec (.gcfg f) s = .next (raise s .bounds (BitVec.ofNat 64 (4 * 2 ^ 56 + (s.src.getS f.a).toNat % 2 ^ 56)) false)) ∧
    ((s.gatherer g).part = s.partIdOf s.issue.core ∨ (s.gatherer g).config = none ∧ (s.gatherer g).batches = [] →
      BlockReady (handedOver s) (s.src.getS f.b) 64 p →
      (gTarget w = 0 → ∃ t, exec (.gcfg f) s = .next t ∧ (t.gatherer g).config = none ∧
        (t.gatherer g).batches.find? Batch.open? = none) ∧
      (gTarget w ≠ 0 → gValid (handedOver s) (s.partIdOf s.issue.core) w = true →
        ∃ t, exec (.gcfg f) s = .next t ∧ (t.gatherer g).config = some w ∧ (t.gatherer g).part = s.partIdOf s.issue.core ∧
          (t.gatherer g).batches.find? Batch.open? = none) ∧
      (gTarget w ≠ 0 → gValid (handedOver s) (s.partIdOf s.issue.core) w = false →
        exec (.gcfg f) s = .next (raise s .bounds (BitVec.ofNat 64 (4 * 2 ^ 56 + (s.src.getS f.a).toNat % 2 ^ 56)) false)))) ∧
  (∀ (f : RRR) (s : State) (g : GathererId), Executes s f.g [.s f.d, .s f.a, .s f.b] → g = gathererOf s.issue.core (s.src.getS f.a) →
    ((s.gatherer g).config = none ∨ (s.gatherer g).part ≠ s.partIdOf s.issue.core →
      exec (.gsub f) s = .next (raise s .bounds (BitVec.ofNat 64 (4 * 2 ^ 56 + (s.src.getS f.a).toNat % 2 ^ 56)) false)) ∧
    (∀ cfg, (s.gatherer g).config = some cfg → (s.gatherer g).part = s.partIdOf s.issue.core →
      (∀ b, (s.gatherer g).batches.find? Batch.open? = some b → (∀ q ∈ (s.gatherer g).batches, q.expired (s.cycle - 1) = false) →
        ∃ t, exec (.gsub f) s = .next (resultS t f.d (BitVec.ofNat 64 (b.words.length % 512 + b.num % 2 ^ 32 * 2 ^ 32)) 2) ∧
          (b.words.length + 1 < gTarget b.config → ((s.gatherer g).batches.map (fun q => q.num)).Nodup →
            { b with words := b.words ++ [s.src.getS f.b] } ∈ (t.gatherer g).batches)) ∧
      ((s.gatherer g).batches.find? Batch.open? = none → 2 ≤ (s.gatherer g).batches.length → Holds s (exec (.gsub f) s)) ∧
      ((s.gatherer g).batches.find? Batch.open? = none → (s.gatherer g).batches.length < 2 →
        (s.pool (gCore cfg) (gPool cfg)).valid = true →
        ∃ t, exec (.gsub f) s = .next (resultS t f.d (BitVec.ofNat 64 (((s.gatherer g).opened + 1) % 2 ^ 32 * 2 ^ 32)) 2) ∧
          ∃ b ∈ (t.gatherer g).batches, b.words = [s.src.getS f.b] ∧ b.num = (s.gatherer g).opened + 1 ∧ b.config = cfg)))

/-- Parking, waking and appending pages (R329, R331, R358 to R361): park files a valid descriptor at the end of its bundle, BOUNDS for a
descriptor that is not valid or a full shelf, BADREC after a trig; wake releases and writes the token, ACL for another partition's;
kvapp starts its operation on well-formed entries, BOUNDS for the first malformed one and for more than 4096. -/
def Obligations.ParkingAndPages : Prop :=
  (∀ (f : RR) (s : State), Executes s f.g [.s f.a] →
    ((s.src.getS f.a).toNat % 32 ≠ 0 → exec (.park f) s = .next (raise s .align (s.src.getS f.a) false)) ∧
    (∀ p, (s.src.getS f.a).toNat % 32 = 0 → BlockReady (drainMe s) (s.src.getS f.a) 32 p →
      (parkValid (words8 (deviceRead (drainMe s) s.issue.core (s.src.getS f.a) 32)) = false ∨ shelfSlot s = none →
        exec (.park f) s = .next (raise s .bounds (BitVec.ofNat 64 (7 * 2 ^ 56 + (s.src.getS f.a).toNat % 2 ^ 56)) false)) ∧
      (parkValid (words8 (deviceRead (drainMe s) s.issue.core (s.src.getS f.a) 32)) = true → (shelfSlot s).isSome = true →
        (s.src.triggered = false → exec (.park f) s = .next ((blockTaken (drainMe s) (s.src.getS f.a) 32 p).transfer
          (.leave (.park (s.src.getS f.a))))) ∧
        (s.src.triggered = true → exec (.park f) s = .next (raise s .badrec 6 false))))) ∧
  (∀ (f : RR) (s : State), Executes s f.g [.s f.a, .s f.d] →
    (wbits (s.src.getS f.a) 36 28 ≠ 0 →
      exec (.wake f) s = .next (raise s .bounds (BitVec.ofNat 64 (7 * 2 ^ 56 + (s.src.getS f.a).toNat % 2 ^ 56)) false)) ∧
    (wbits (s.src.getS f.a) 36 28 = 0 → wbits (s.src.getS f.a) 32 4 = (s.partIdOf s.issue.core).val →
      exec (.wake f) s = .next (wakeToken (handedOver s) (s.partIdOf s.issue.core) (s.src.getS f.a) (s.src.getS f.d))) ∧
    (wbits (s.src.getS f.a) 36 28 = 0 → wbits (s.src.getS f.a) 32 4 ≠ (s.partIdOf s.issue.core).val →
      exec (.wake f) s = .next (raise s .acl (s.src.getS f.a) false))) ∧
  (∀ (s : State) (p : PartId) (token value : W64) (e : Nat), e = wbits token 0 16 →
    ((s.shelfAt e).state = .parked → (s.shelfAt e).gen.toNat = wbits token 16 16 → (s.shelfAt e).part = p →
      ((wakeToken s p token value).shelfAt e).state ≠ .parked ∧ ((wakeToken s p token value).shelfAt e).words[4] = value ∧
      ((s.shelfAt e).move.isSome = true → ((wakeToken s p token value).shelfAt e).state = .waking)) ∧
    ((s.shelfAt e).state ≠ .parked ∨ (s.shelfAt e).gen.toNat ≠ wbits token 16 16 ∨ (s.shelfAt e).part ≠ p →
      wakeToken s p token value = s.setPart p { s.part p with staleWake := (s.part p).staleWake + 1 })) ∧
  (∀ (f : RRR) (s : State), Executes s f.g [.s f.d, .s f.a, .s f.b] → (s.src.getS f.a).toNat % 16 = 0 →
    (s.src.getS f.b = 0 → exec (.kvapp f) s = .next (startOp s (opS f.d) (.kvapp (s.src.getS f.a) 0))) ∧
    (4096 < (s.src.getS f.b).toNat →
      exec (.kvapp f) s = .next (raise s .bounds (BitVec.ofNat 64 (8 * 2 ^ 56 + (s.src.getS f.a).toNat % 2 ^ 56)) false)) ∧
    (∀ p bs u, s.src.getS f.b ≠ 0 → (s.src.getS f.b).toNat ≤ 4096 →
      BlockReady (handedOver s) (s.src.getS f.a) (16 * (s.src.getS f.b).toNat) p →
      u = blockTaken (handedOver s) (s.src.getS f.a) (16 * (s.src.getS f.b).toNat) p →
      bs = deviceRead (handedOver s) s.issue.core (s.src.getS f.a) (16 * (s.src.getS f.b).toNat) →
      ((∀ i, i < (s.src.getS f.b).toNat → badKv (wordAt bs (2 * i)) (wordAt bs (2 * i + 1)) = false) →
        kvBar u s.issue.core (s.src.getS f.a) bs (s.src.getS f.b).toNat = none →
        exec (.kvapp f) s = .next (startOp u (opS f.d) (.kvapp (s.src.getS f.a) (s.src.getS f.b)))) ∧
      (∀ i, i < (s.src.getS f.b).toNat → badKv (wordAt bs (2 * i)) (wordAt bs (2 * i + 1)) = true →
        (∀ j, j < i → badKv (wordAt bs (2 * j)) (wordAt bs (2 * j + 1)) = false) →
        exec (.kvapp f) s = .next (raise s .bounds
          (BitVec.ofNat 64 (8 * 2 ^ 56 + (s.src.getS f.a + BitVec.ofNat 64 (16 * i)).toNat % 2 ^ 56)) false))))

/-! Tasks. -/

/-- Records are pushed (R121, R124, R126, R127, R129, R204, R205, R257, R262): spawn to the own core's queue at scope .core, qpush to a
core of the caller's partition at the smallest scope that holds both, each widened for a stolen continuation; the join counter counts, the
release is made, the entry takes its place (log 25). A queue that is full with no ring raises QOVF before anything counts. trig makes the
completion effects once, and susp leaves without a push (R125, R203, R207): a second trig does nothing, a gang member's or a triggered
continuation's susp raises BADREC (7 for both at once is log 110); of a triggered continuation that stops nothing is released and no counter
counts again. -/
def Obligations.RecordsPushed : Prop :=
  (∀ (f : RR) (s u : State) (p : Place) (w : File 3 W64) (scope : Nat), Executes s f.g [.s f.a] →
    RecordFits (drainMe s) (s.src.getS f.a) p w → u = blockTaken (drainMe s) (s.src.getS f.a) 64 p →
    scope = max 1 s.me.job.widening.toNat → FabricDone s scope →
    (QueueRoom s s.issue.core → CounterFits u (recWord w 1) → ∃ t, exec (.spawn f) s = .next t ∧
      Pushed s t s.issue.core (queueEntry (nameOf s.issue.core (s.src.getS f.a)) false scope s.issue.core false) ∧
      t.mem = (release (counted u (recWord w 1)) s.issue.core scope everyByte).mem) ∧
    (QueueFull s s.issue.core → exec (.spawn f) s = .next (raise s .qovf (taskQovf s.issue.core) false))) ∧
  (∀ (f : RRR) (s u : State) (p : Place) (w : File 3 W64) (c : CoreId) (scope : Nat), Executes s f.g [.s f.a, .s f.b] →
    RecordFits (drainMe s) (s.src.getS f.a) p w → u = blockTaken (drainMe s) (s.src.getS f.a) 64 p → c = qpushCore (s.src.getS f.b) →
    scope = max (scopeOf s.issue.core c) s.me.job.widening.toNat → FabricDone s scope →
    (wbits (s.src.getS f.b) 9 55 = 0 → (s.core c).out = false → (s.partOf c).isSome = true → s.partOf c = s.partOf s.issue.core →
      (QueueRoom s c → CounterFits u (recWord w 1) → ∃ t, exec (.qpush f) s = .next t ∧
        Pushed s t c (queueEntry (nameOf s.issue.core (s.src.getS f.a)) false scope s.issue.core false) ∧
        t.mem = (release (counted u (recWord w 1)) s.issue.core scope everyByte).mem) ∧
      (QueueFull s c → exec (.qpush f) s = .next (raise s .qovf (taskQovf c) false))) ∧
    (wbits (s.src.getS f.b) 9 55 ≠ 0 ∨ (s.core c).out = true ∨ s.partOf c = none ∨ s.partOf c ≠ s.partOf s.issue.core →
      exec (.qpush f) s = .next (raise s .badrec 3 false))) ∧
  (∀ (f : NF) (s : State), Executes s f.g [] →
    (s.src.triggered = true → exec (.trig f) s = .next s) ∧
    (s.src.triggered = false → FabricDone s s.me.job.scope.toNat → CodesGood (drainMe s) → (drainMe s).poison = [] →
      ∃ t, exec (.trig f) s = .next t ∧ t.me.r.triggered = true ∧
        t.mem = (completionEffects (drainMe s) s.issue.core s.issue.ctx).mem) ∧
    (gangBit s.me.job.words = true → exec (.susp f) s = .next (raise s .badrec 7 false)) ∧
    (gangBit s.me.job.words = false → s.src.triggered = true → exec (.susp f) s = .next (raise s .badrec 6 false)) ∧
    (gangBit s.me.job.words = false → s.src.triggered = false → exec (.susp f) s = .next (s.transfer (.leave .susp)))) ∧
  (∀ (s : State) (c : CoreId) (x : CtxId), (s.ctx c x).r.triggered = true → (s.ctx c x).gate = [] → (s.ctx c x).job.host = none →
    (completeCtx s c x).mem = s.mem ∧ ((completeCtx s c x).ctx c x).phase = .idle)

/-- Joins and futures (R124, R132 to R134, R203, R206, R208, R302, R312): a join on a count of zero and a futwait on a final future go on
after an acquire, at scope .pkg (log 65); on any other a join writes its link beside the count, a futwait makes the future WAITED with its
record at the head and one waiter more and links the record to the one before, and each leaves, BADREC with a second waiter (4), at the
limit of waiters (5) or after a trig (6); a future that is not final takes its value or poison code after the release of what is bound to it,
and one that is final raises DRESOLVE. What a slot before it in the bundle has changed a join or futwait does not see (R206). One that leaves
waits for what is outstanding, its registration made; with nothing outstanding its record takes the resume address at once. -/
def Obligations.JoinsAndFutures : Prop :=
  (∀ (f : RR) (s t : State) (p : Place) (n w : W64), Executes s f.g [.s f.a] → (s.src.getS f.a).toNat % 16 = 0 →
    OwnerReady s (s.src.getS f.a) p → t = ownerTaken s (s.src.getS f.a) p → foundPair s (s.src.getS f.a) = (n, w) →
    (n = 0 → reported t s.issue.core everyByte = none → exec (.join f) s = .next (acquire t s.issue.core 4 everyByte)) ∧
    (n ≠ 0 → w ≠ 0 → exec (.join f) s = .next (raise s .badrec 4 false)) ∧
    (n ≠ 0 → w = 0 → s.src.triggered = true → exec (.join f) s = .next (raise s .badrec 6 false)) ∧
    (n ≠ 0 → w = 0 → s.src.triggered = false →
      exec (.join f) s = .next (registered (pairPut t p.key n (linkTo s.me.job.name s.issue.core)) .join) ∧
      pairAt (pairPut t p.key n (linkTo s.me.job.name s.issue.core)) p.key = (n, linkTo s.me.job.name s.issue.core))) ∧
  (∀ (f : RR) (s t : State) (p : Place) (w0 w1 : W64), Executes s f.g [.s f.d, .s f.a] → (s.src.getS f.a).toNat % 16 = 0 →
    OwnerReady s (s.src.getS f.a) p → t = ownerTaken s (s.src.getS f.a) p → foundPair s (s.src.getS f.a) = (w0, w1) →
    (2 ≤ futState w0 → reported t s.issue.core (futBytes t p.key (s.src.getS f.a)) = none →
      exec (.futwait f) s = .next (resultS (acquire t s.issue.core 4 (futBytes t p.key (s.src.getS f.a))) f.d w1 1)) ∧
    (futState w0 < 2 → futWaiters w0 = 16383 → exec (.futwait f) s = .next (raise s .badrec 5 false)) ∧
    (futState w0 < 2 → futWaiters w0 < 16383 → s.src.triggered = true → exec (.futwait f) s = .next (raise s .badrec 6 false)) ∧
    (∀ u, futState w0 < 2 → futWaiters w0 < 16383 → s.src.triggered = false →
      u = recordPut (pairPut t p.key (futWord 1 (futWaiters w0 + 1) s.me.job.name) w1) s.issue.core s.me.job.name 3
        (linkTo (if futWaiters w0 = 0 then 0 else futHead w0) s.issue.core) →
      exec (.futwait f) s = .next (registered u .futwait) ∧
      (RecordApart t s.me.job.name p.key 16 → pairAt u p.key = (futWord 1 (futWaiters w0 + 1) s.me.job.name, w1)))) ∧
  (∀ (n : Nat) (name : W64), n < 16384 → futState (futWord 1 n name) = 1 ∧ futWaiters (futWord 1 n name) = n ∧
    futHead (futWord 1 n name) = BitVec.ofNat 64 (wbits name 6 42 * 2 ^ 6 + nameClass name * 2 ^ 62)) ∧
  (∀ (s : State) (va : W64) (p : Place), OwnerReady s va p → s.issue.drained = false →
    foundPair s va = pairAt (ownerTaken s va p) p.key) ∧
  (∀ (s t : State) (why : Why) (k : Nat), why = .join ∨ why = .futwait → t = registered s why →
    t.issue.verdict = .left ∧
    (quiet s s.issue.core s.issue.ctx = false → t.mem = s.mem ∧ (t.ctx s.issue.core s.issue.ctx).phase = .suspending why s.issue.pc) ∧
    (quiet s s.issue.core s.issue.ctx = true → s.me.badStore = false → s.me.gate = [] → (s.core s.issue.core).near = [] →
      (t.ctx s.issue.core s.issue.ctx).phase = .idle ∧
      t.mem = (recordPut s s.issue.core s.me.job.name 0
        (wset (recWord (recordWords s s.issue.core s.me.job.name) 0) 0 48 s.issue.pc.toNat)).mem ∧
      (RecordApart s s.me.job.name k 16 → pairAt t k = pairAt s k))) ∧
  (∀ (i : Instr) (d a : BitVec 5) (g : BitVec 3) (state : Nat) (s r t : State) (p : Place),
    ((∃ f, i = .futset f ∧ f.g = g ∧ f.a = a ∧ f.b = d ∧ state = 2) ∨ (∃ f, i = .futpoison f ∧ f.g = g ∧ f.a = a ∧ f.d = d ∧ state = 3)) →
    Executes s g [.s a, .s d] → (s.src.getS a).toNat % 16 = 0 →
    r = release (drainMe s) s.issue.core 4 (bound s.me.r.bind 2 (s.src.getS a)) →
    OwnerReady r (s.src.getS a) p → t = ownerTaken r (s.src.getS a) p →
    (2 ≤ futState (pairAt t p.key).1 → exec i s = .next (raise s .dresolve (s.src.getS a) false)) ∧
    (futState (pairAt t p.key).1 < 2 → futWaiters (pairAt t p.key).1 = 0 →
      exec i s = .next (pairPut t p.key (BitVec.ofNat 64 state) (s.src.getS d))) ∧
    (futState (pairAt t p.key).1 < 2 → exec i s = .next (releaseChain (futWaiters (pairAt t p.key).1)
      (pairPut t p.key (BitVec.ofNat 64 state) (s.src.getS d)) s.issue.core
      (if futWaiters (pairAt t p.key).1 = 0 then 0 else futHead (pairAt t p.key).1))))

/-- Barriers (R136, R202, R209, R251, R257, R302): while the episode of the last arrival is open they hold their bundle; else bar arrives
and waits, barr arrives and leaves its arrival open, after the release of the bytes bound to the scope; barw ends an open arrival with the
acquire, and does nothing without one. -/
def Obligations.Barriers : Prop :=
  ∀ (f : RI) (s : State) (sc : BitVec 3), Executes s f.g [] → sc = f.imm.setWidth 3 →
    (arrivalDone s sc.toNat = false → Holds s (exec (.bar f) s) ∧ Holds s (exec (.barr f) s)) ∧
    (arrivalDone s sc.toNat = true → FabricDone s sc.toNat →
      exec (.barr f) s = .next ((arriveHere s sc).setRegs { (arriveHere s sc).me.r with
        arrived := (arriveHere s sc).me.r.arrived ||| BitVec.ofNat 6 (2 ^ sc.toNat) }) ∧
      exec (.bar f) s = .next ((arriveHere s sc).setMe { (arriveHere s sc).me with
        barWait := some (sc, myArrivals (arriveHere s sc) sc.toNat) })) ∧
    (∀ t, s.team s.me.job.team = some t →
      myArrivals (arriveHere s sc) sc.toNat = myArrivals s sc.toNat + 1 ∧
      (arriveHere s sc).mem = (release (drainMe s) s.issue.core sc.toNat
        (bound s.me.r.bind 4 (BitVec.ofNat 64 sc.toNat))).mem) ∧
    (s.src.arrived.getLsbD sc.toNat = false → exec (.barw f) s = .next s) ∧
    (s.src.arrived.getLsbD sc.toNat = true → arrivalDone s sc.toNat = false → Holds s (exec (.barw f) s)) ∧
    (s.src.arrived.getLsbD sc.toNat = true → arrivalDone s sc.toNat = true →
      reported s s.issue.core (bound s.me.r.bind 4 (BitVec.ofNat 64 sc.toNat)) = none →
      ∃ t, exec (.barw f) s = .next t ∧ t.me.r.arrived = s.me.r.arrived &&& ~~~(BitVec.ofNat 6 (2 ^ sc.toNat)) ∧
        t.mem = (acquire s s.issue.core sc.toNat (bound s.me.r.bind 4 (BitVec.ofNat 64 sc.toNat))).mem)

/-- Tiles (R265, R266, R271, R273 to R277): talloc leaves a request in its pool and sD empty; tfin publishes an OPEN tile after the release,
and raises TSTALE for a published one (2); tdrop frees an OPEN tile and spends a read of a published one; both raise TSTALE
for a handle of another quad, of an invalid pool or of a core that takes no part (3) or that does not match its tile (1). The life of a tile (R266, R271):
freeing and spending the last read end its
handle and, but for a killed team whose drain is not confirmed (R279, R383), advance its generation; spending leaves a published tile with
one read less. -/
def Obligations.Tiles : Prop :=
  (∀ (f : RRI) (s : State), Executes s f.g [.s f.d, .s f.a] →
    (wbits (s.src.getS f.a) 0 12 = 0 ∨ (s.pool s.issue.core (tallocPool f)).valid = false →
      exec (.talloc f) s = .next (raise s .bounds (BitVec.ofNat 64 (f.imm.toNat + wbits (s.src.getS f.a) 0 12 * 2 ^ 8)) false)) ∧
    (wbits (s.src.getS f.a) 0 12 ≠ 0 → (s.pool s.issue.core (tallocPool f)).valid = true → ∃ t, exec (.talloc f) s = .next t ∧
      (f.d ≠ 0 → t.me.r.fullS f.d = false) ∧ (t.pool s.issue.core (tallocPool f)).waiting
        = (s.pool s.issue.core (tallocPool f)).waiting ++ [PoolReq.mk (.ctx s.issue.ctx) (BitVec.ofNat 2 (f.imm.toNat / 16))
            (BitVec.ofNat 12 (wbits (s.src.getS f.a) 0 12)) s.me.job.team s.cycle])) ∧
  (∀ (f : RR) (s : State), Executes s f.g [.s f.a] →
    (¬ Usable s (s.src.getS f.a) →
      exec (.tfin f) s = .next (raise s .tstale (tstaleInfo (s.src.getS f.a) 3) false) ∧
      exec (.tdrop f) s = .next (raise s .tstale (tstaleInfo (s.src.getS f.a) 3) false)) ∧
    (Usable s (s.src.getS f.a) → handleMatches s (s.src.getS f.a) = false →
      exec (.tfin f) s = .next (raise s .tstale (tstaleInfo (s.src.getS f.a) 1) false) ∧
      exec (.tdrop f) s = .next (raise s .tstale (tstaleInfo (s.src.getS f.a) 1) false)) ∧
    (Matches s (s.src.getS f.a) → (tileOf s (s.src.getS f.a)).state = .published →
      exec (.tfin f) s = .next (raise s .tstale (tstaleInfo (s.src.getS f.a) 2) false) ∧
      exec (.tdrop f) s = .next (spendTile s (s.src.getS f.a))) ∧
    (Matches s (s.src.getS f.a) → (tileOf s (s.src.getS f.a)).state = .open →
      exec (.tfin f) s = .next (serveReads (publishTile (release (drainMe s) s.issue.core 2 (bound s.me.r.bind 3 (s.src.getS f.a)))
        (s.src.getS f.a)) (s.src.getS f.a)) ∧
      exec (.tdrop f) s = .next (freeTile s (s.src.getS f.a)))) ∧
  (∀ (s : State) (h : W64),
    handleMatches (freeTile s h) h = false ∧ (freeTile s h).mem = s.mem ∧
    (quarantined s (tileOf s h).team = false →
      (tileOf (freeTile s h) h).state = .free ∧ (tileOf (freeTile s h) h).gen = (tileOf s h).gen + 1) ∧
    (tileOf (publishTile s h) h).state = .published ∧ (tileOf (publishTile s h) h).gen = (tileOf s h).gen ∧
    (2 ≤ (tileOf s h).reads.toNat → (tileOf (spendTile s h) h).reads = (tileOf s h).reads - 1 ∧
      (tileOf (spendTile s h) h).state = (tileOf s h).state ∧ (spendTile s h).mem = s.mem) ∧
    ((tileOf s h).reads.toNat ≤ 1 → handleMatches (spendTile s h) h = false ∧ (spendTile s h).mem = s.mem ∧
      (quarantined s (tileOf s h).team = false →
        (tileOf (spendTile s h) h).state = .free ∧ (tileOf (spendTile s h) h).gen = (tileOf s h).gen + 1)))

/-! Events: each has a statement of the states in which it has its own effect, and of that effect. -/

/-- BUNDLE_ISSUE (R18, R20, R22, R119, R149, R366, R374, R378): in an issue slot that neither a freeze, nor a bubble, nor the stretch takes
away, a current context that can issue and whose bundle is good has that bundle in flight, its results that are due landed. A bundle that
commits nothing issues whatever is outstanding, with or without an error in the gate, in handler mode too, and no byte of memory changes. A
checkpoint bundle outside handler mode takes the registers for its checkpoint and hands the gate over, where no access is outstanding and the
memory controllers take it; in handler mode an irrevocable bundle hands the handler's own stores over and leaves the checkpoint; with an
error in the gate either ends the continuation. In a bubble the slot passes. -/
def Obligations.BundleIssues : Prop :=
  (∀ (c : CoreId) (x : CtxId) (s : State) (slots : List Slot) (words : Nat) (is : List Instr), s.frozen = false →
    (s.core c).out = false → x = (s.core c).current → ctxReady s c x = true → stretchAllows s (s.core c) = true → barError s c x = none →
    nextBundle s c x = .good slots words → ((s.ctx c x).r.rep ≠ some 0 ∨ (s.ctx c x).r.replay.isSome = true) →
    is = slots.filterMap (fun sl => sl.instr.toOption) →
    ((∀ i ∈ is, irrevocable i = false ∧ ((s.ctx c x).handler = true ∨ ckptSlot (s.ctx c x).r.landAll i = false)) →
      ∃ t, exec (.bundleIssue c) s = .next t ∧ InFlight s t c x is words ∧ (t.ctx c x).ck = (s.ctx c x).ck ∧
        (t.ctx c x).ops = (s.ctx c x).ops ∧ ((s.ctx c x).barWait = none ∨ (s.ctx c x).handler = true → t.mem = s.mem)) ∧
    ((∃ i ∈ is, irrevocable i = true ∨ ckptSlot (s.ctx c x).r.landAll i = true) → (s.ctx c x).handler = false →
      ckptBlocked (s.ctx c x) = false → drainReady s c x = true →
      ((s.ctx c x).badStore = false → ∃ t, exec (.bundleIssue c) s = .next t ∧ InFlight s t c x is words ∧
        (t.ctx c x).ck = (s.ctx c x).r ∧ (t.ctx c x).gate = []) ∧
      ((s.ctx c x).badStore = true → ∃ u, u = endBad s.calm c x (s.ctx c x).r.pc words ∧
        exec (.bundleIssue c) s = .next (tick (u.setCore c { u.core c with current := x })))) ∧
    ((∃ i ∈ is, irrevocable i = true) → (s.ctx c x).handler = true → handlerStores (s.ctx c x) = false → drainReady s c x = true →
      ((s.ctx c x).badStore = false → ∃ t, exec (.bundleIssue c) s = .next t ∧ InFlight s t c x is words ∧
        (t.ctx c x).ck = (s.ctx c x).ck ∧ (t.ctx c x).hgate = []) ∧
      ((s.ctx c x).badStore = true → ∃ u, u = endBad s.calm c x (s.ctx c x).r.pc words ∧
        exec (.bundleIssue c) s = .next (tick (u.setCore c { u.core c with current := x }))))) ∧
  (∀ (c : CoreId) (s : State), s.frozen = false → (s.core c).out = false → (s.ctx c (s.core c).current).phase = .running →
    (s.ctx c (s.core c).current).bubble ≠ 0 → s.upsets = [] →
    ∃ t, exec (.bundleIssue c) s = .next t ∧ t.issue.live = false ∧ t.mem = s.mem) ∧
  (∀ (c : CoreId) (s : State), s.frozen = true → exec (.bundleIssue c) s = .next s.calm)

/-- Results of operations (R21, R223, R237, R284, R337, R338, R353, R361, R386): a load whose bytes can be read and whose partition has
allowance left fills its destination with the bytes of its units, those it had at issue first, then the near cache's, then memory's; a plan
and an append fill theirs in one event, which reads their tables again (log 68); a store whose translation is there leaves its operation.
Other steps of a context's operations (R224, R252, R256, R266, R269, R274): a refused page asks the host and raises PAGE at the next
boundary; the oldest fence completes, once the stores of its bundle have drained, with its release and acquire; a grant opens the lowest
FREE tile and hands its handle to the talloc. -/
def Obligations.OperationResults : Prop :=
  (∀ (c : CoreId) (x : CtxId) (s : State) (o : Op), opOf s c x o.id = some o → (s.ctx c x).handler = false →
    (∀ d ea n sg own p, o.dest = .scalar d → d ≠ 0 → o.kind = .load ea n sg own → own.length = n → place s c .peek ea n = .ok p →
      Readable s c p → CodesGood s → s.poison = [] → memReady s (s.partIdOf c) (o.blocks s c) = true →
      ∃ t, exec (.variableLoadResult c x o.id) s = .next t ∧ (t.ctx c x).r.fullS d = true ∧ opOf t c x o.id = none ∧
        (Contiguous s c ea p n → LineKnown s c ea p n ∨ own.all Option.isSome = true →
          (t.ctx c x).r.getS d = loaded n sg (loadedBytes s c ea p own))) ∧
    (∀ d m ls own (pl : W64 → Place), o.dest = .vector d m → o.kind = .vload ls own → own.length = 4 * ls.length →
      (∀ l ∈ ls, place s c .peek l.2 4 = .ok (pl l.2) ∧ Readable s c (pl l.2)) → CodesGood s → s.poison = [] →
      memReady s (s.partIdOf c) (o.blocks s c) = true →
      ∃ t, exec (.variableLoadResult c x o.id) s = .next t ∧ (t.ctx c x).r.fullV d = true ∧ opOf t c x o.id = none ∧
        ((∀ l ∈ ls, Contiguous s c l.2 (pl l.2) 4) →
          own.all Option.isSome = true ∨ (∀ l ∈ ls, (pl l.2).cached = false) ∨
            (∀ l ∈ ls, LineKnown s c l.2 (pl l.2) 4 ∧ ∀ k ∈ ls, lineOf k.2 = lineOf l.2) →
          (t.ctx c x).r.getV d = blend m (rowFrom (ls.zipIdx.map (fun l =>
            (l.1.1, leWord 32 (loadedBytes s c l.1.2 (pl l.1.2) ((own.drop (4 * l.2)).take 4)))))) ((s.ctx c x).r.getV d))) ∧
    (∀ d m ea own p, o.dest = .vector d m → o.kind = .bload ea own → own.length = 4 → place s c .peek ea 4 = .ok p →
      Readable s c p → CodesGood s → s.poison = [] → memReady s (s.partIdOf c) (o.blocks s c) = true →
      ∃ t, exec (.variableLoadResult c x o.id) s = .next t ∧ (t.ctx c x).r.fullV d = true ∧ opOf t c x o.id = none ∧
        (Contiguous s c ea p 4 → LineKnown s c ea p 4 ∨ own.all Option.isSome = true →
          (t.ctx c x).r.getV d = blend m (ofLanes (fun _ => leWord 32 (loadedBytes s c ea p own))) ((s.ctx c x).r.getV d))) ∧
    (∀ d m ls, o.dest = .vector d m → o.kind = .wload ls → CodesGood s →
      (∀ b ∈ wldBanks ls, inWindow s (dieOf c) b = false) →
      ∃ t, exec (.variableLoadResult c x o.id) s = .next t ∧ (t.ctx c x).r.fullV d = true ∧
        (t.ctx c x).r.getV d = blend m (rowFrom (ls.map (fun l => (l.1, leWord 32 (s.mem.readRun (keyWeight (dieOf c) l.2) 4)))))
          ((s.ctx c x).r.getV d)) ∧
    (∀ ea n pid a e, o.kind = .store ea n → place s c .peek ea n = .ok (.host pid a) → tlbFind s (dieOf c) pid a = some e →
      e.write = true → ∃ t, exec (.variableLoadResult c x o.id) s = .next t ∧ opOf t c x o.id = none ∧ t.mem = s.mem) ∧
    (∀ d desc, o.dest = .scalar d → d ≠ 0 → o.kind = .plan desc →
      (∀ status, planRun s c desc = .error (.status status) → ∃ t, exec (.planResult c x o.id) s = .next t ∧
        (t.ctx c x).r.fullS d = true ∧ (t.ctx c x).r.getS d = BitVec.ofNat 64 status ∧ t.mem = s.mem) ∧
      (∀ va bs, planRun s c desc = .ok (va, bs) → ∃ t, exec (.planResult c x o.id) s = .next t ∧
        (t.ctx c x).r.fullS d = true ∧ (t.ctx c x).r.getS d = 0 ∧ t.mem = (writeOwner s c va bs).mem) ∧
      (∀ t, planRun s c desc = .error (.wait t) → exec (.planResult c x o.id) s = .next t)) ∧
    (∀ d desc n, o.dest = .scalar d → d ≠ 0 → o.kind = .kvapp desc n →
      kvBar s c desc (deviceRead s c desc (16 * n.toNat)) n.toNat = none → ∃ t, exec (.kvappResult c x o.id) s = .next t ∧
      (t.ctx c x).r.fullS d = true ∧ (t.ctx c x).r.getS d = BitVec.ofNat 64 (kvServe c desc n.toNat 0 s).1 ∧
      t.mem = (kvServe c desc n.toNat 0 s).2.mem)) ∧
  (∀ (c : CoreId) (x : CtxId) (s : State) (o : Op) (ea : W64) (n : Nat) (sg : Bool) (own : List (Option Byte)) (pid : BitVec 20) (a : Nat)
    (e : TlbEntry), opOf s c x o.id = some o → o.kind = .load ea n sg own → place s c .peek ea n = .ok (.host pid a) →
    tlbFind s (dieOf c) pid a = some e → e.read = false → (s.ctx c x).handler = false → (s.ctx c x).pendFault = none →
    (s.ctx c x).asked = none → (rget s.pages (BitVec.ofNat 3 (dieOf c).val)).length < 512 →
    ∃ t, exec (.page c x o.id) s = .next t ∧ (t.ctx c x).pendFault = some (o.late .page (ea &&& ~~~7)) ∧ t.mem = s.mem ∧
      ({ core := c, ctx := x, engine := false, va := ea &&& ~~~7 } ∈ rget t.pages (BitVec.ofNat 3 (dieOf c).val)) ∧
      ((∀ q ∈ rget s.pages (BitVec.ofNat 3 (dieOf c).val), q.core ≠ c) →
        t.out = s.out ++ [.pri c x (s.part (s.partIdOf c)).pid (ea &&& ~~~7)])) ∧
  (∀ (c : CoreId) (x : CtxId) (s : State) (f : Fence) (rest : List Fence), (s.ctx c x).fences = f :: rest →
    (∀ o ∈ (s.ctx c x).ops, o.kind.access = true → f.before ≤ o.id) → (f.byHandler = true ∨ f.epoch < (s.ctx c x).epoch) →
    (f.scope = 5 → (∀ k ∈ (s.engine c x).copies, k.xfer = none) ∧ unanswered s c x = false) → (s.core c).poisoned = [] →
    ∃ t, exec (.fenceComplete c x) s = .next t ∧ (t.ctx c x).fences = rest ∧
      (((release s c f.scope.toNat everyByte).core c).poisoned = [] → t.mem = (release s c f.scope.toNat everyByte).mem)) ∧
  (∀ (c : CoreId) (x : CtxId) (q : Fin 16) (s : State) (r : PoolReq) (i : Nat) (o : Op) (d : BitVec 5),
    (s.pool c q).waiting.find? (fun r => (s.pool c q).grantable r.share.toNat) = some r → (s.pool c q).firstFree = some i →
    r.who = .ctx x → (s.ctx c x).ops = [o] → (∃ a b n, o.kind = .talloc a b n) → o.dest = .scalar d → d ≠ 0 →
    ∃ t, exec (.tileGrant c q) s = .next t ∧ ((t.pool c q).tile i).state = .open ∧ ((t.pool c q).tile i).reads = r.reads ∧
      ((s.ctx c x).handler = false → (s.ctx c x).badStore = false → (t.ctx c x).r.getS d = handleOf c q i ((s.pool c q).tile i).gen ∧
        (t.ctx c x).r.fullS d = true ∧ (t.ctx c x).ck = (t.ctx c x).r))

/-- Records start (R15, R117, R122, R129 to R131, R257, R381): the head of the core's queue, on the lowest free context, and a newcomer on
the context that was freed for it; a record with the gang bit that has not started is left alone. The words of a record are
those that the acquire of its start lets the core see. What a start leaves in the registers; the scratchpads stay as they are. -/
def Obligations.RecordsStart : Prop :=
  (∀ (c : CoreId) (x : CtxId) (s : State), (s.part (s.partIdOf c)).reserving = none → startable s c = true → (s.ctx c x).phase = .idle →
    (∀ e rest, (s.ctx c x).newcomer = none → (∀ y, y < x → (s.ctx c y).phase ≠ .idle ∨ (s.ctx c y).newcomer ≠ none) →
      (s.core c).saved = [] → (s.core c).queue = e :: rest → leaving (s.core c) (entryName e) = false →
      recAcc (startWords s c (entryName e)) ≤ accFree (s.core c) → recScratch (startWords s c (entryName e)) ≤ scratchFree s c →
      ((wbit e 2 = true ∨ gangBit (startWords s c (entryName e)) = false) →
        exec (.continuationStart c x) s = .next (beginRecord (popQueue s c) c x (entryName e) (wbit e 2)
          (if wbit e 2 then wbits e 3 3 else 0) none)) ∧
      (wbit e 2 = false → gangBit (startWords s c (entryName e)) = true → exec (.continuationStart c x) s = .next s)) ∧
    (∀ n, (s.ctx c x).newcomer = some n → recAcc (startWords s c n.name) ≤ accFree (s.core c) →
      recScratch (startWords s c n.name) ≤ scratchFree s c →
      exec (.continuationStart c x) s = .next (beginRecord s c x n.name false 0 n.host))) ∧
  (∀ (s : State) (c : CoreId) (x : CtxId) (name : W64) (started : Bool) (w : Nat) (host : Option (QueueId × BitVec 16)),
    ∃ u job, takeRecord s c x name started w host = startCtx u c x job ∧ u.mem = s.mem ∧ job.words = startWords s c name ∧
      job.started = started ∧ job.scope.toNat = max (wbits (recWord job.words 0) 56 3) w % 8 ∧ job.widening.toNat = w % 8) ∧
  (∀ (s : State) (c : CoreId) (x : CtxId) (job : Record) (r : Regs), ((startCtx s c x job).ctx c x).r = r →
    r.pc = (recWord job.words 0).setWidth 48 ∧ r.getS 1 = recWord job.words 4 ∧ r.getS 2 = recWord job.words 5 ∧
    r.getS 3 = recWord job.words 6 ∧ r.getS 4 = recWord job.words 7 ∧ r.getS 5 = nameAddr job.name ∧
    (∀ n : BitVec 5, 5 < n.toNat → r.getS n = 0) ∧ r.getS 0 = 0 ∧ (∀ n : BitVec 5, r.fullS n = true) ∧
    (∀ n : BitVec 3, 2 ≤ n.toNat → r.getG n = 0) ∧ r.fpctl = 0 ∧ r.rngSeed = 0 ∧ r.rngCtr = 0 ∧ r.latches = [] ∧ r.loops = [] ∧
    ((startCtx s c x job).ctx c x).ck = r ∧ ((startCtx s c x job).ctx c x).gate = [] ∧
    ((startCtx s c x job).ctx c x).handler = false ∧ ((startCtx s c x job).ctx c x).acc = recAcc job.words ∧
    ((startCtx s c x job).ctx c x).phase =
      (if wbits (recWord job.words 0) 48 4 = 1 then .waitArray (recWord job.words 3).toNat else .running) ∧
    ((∀ l ∈ (s.core c).near, l.dirty ≠ 0 → ∀ j, ownerKey s c l.addr = some j → 2 ^ 31 ≤ j) →
      ∀ j, j < 2 ^ 31 → (startCtx s c x job).mem.read j = s.mem.read j))

/-- The ends of continuations, held pushes and barrier episodes (R16, R128, R136). Operators (R144 to R147, R341): a tile step begins when
the array is free and its turn; a GEMM's results are written when it is done, and the progress word w3 of the record in memory advances, with
the device's own copy of it; a template's step replays its bundles. A step reads the parameter block and its operands when it is done, not
before (log 54). -/
def Obligations.SuspensionsAndEpisodes : Prop :=
  (∀ (c : CoreId) (x : CtxId) (s : State) (why : Why) (pc : CodeAddr), (s.ctx c x).phase = .suspending why pc →
    quiet s c x = true → (s.ctx c x).pendFault = none →
    exec (.suspensionPoint c x) s = .next (finishLeave s c x why pc)) ∧
  (∀ (c : CoreId) (s : State) (e : W64), (s.core c).heldPushes = [e] → (s.core c).spillCount = 0 → (s.core c).queue.length < 32 →
    ∃ t, exec (.heldPushRetry c) s = .next t ∧ (t.core c).heldPushes = [] ∧ (t.core c).queue = (s.core c).queue ++ [e] ∧
      t.mem = s.mem) ∧
  (∀ (s : State) (t : Team) (scope dom : Nat), s.team t.id = some t → scope ≠ 5 →
    t.someArrived scope (t.completed scope dom + 1) = true → t.allArrived scope dom (t.completed scope dom + 1) = true →
    ∃ u v, exec (.barrierEpisodeComplete t.id scope dom) s = .next u ∧ u.team t.id = some v ∧
      v.completed scope dom = t.completed scope dom + 1 ∧ u.mem = s.mem) ∧
  (∀ (c : CoreId) (x : CtxId) (s : State) (n : Nat) (p : File 3 W64), (s.ctx c x).phase = .waitArray n →
    arrayOwner (s.core c) = none → arrayHeir s c x = x → operHeld (s.ctx c x) = false → (s.ctx c x).pendFault = none →
    s.frozen = false → (s.core c).out = false → (s.ctx c x).gate = [] → (s.ctx c x).badStore = false → paramBlock s c (s.ctx c x).r.pc = .ok p →
    (isTemplate p = false → gemmValid p (s.ctx c x).acc = true →
      (n < gemmSteps p → ∃ t, exec (.tileStep c x) s = .next t ∧ (t.ctx c x).phase = .tileStep n ∧ (t.ctx c x).r.owns = true ∧
        (t.ctx c x).ck = (t.ctx c x).r ∧ t.mem = s.mem) ∧
      (gemmSteps p ≤ n → exec (.tileStep c x) s = .next (leave s c x .stop (s.ctx c x).r.pc))) ∧
    (∀ d, isTemplate p = true → (s.ctx c x).seqDesc = some d → seqLevels d ≤ 6 →
      (∀ l, l < seqLevels d → tripAddr d l = none ∧ wbits (descWord d (2 + 2 * l)) 0 32 ≠ 0) →
      n < wbits (descWord d (2 * seqLevels d)) 0 32 → ∃ t q, exec (.tileStep c x) s = .next t ∧ (t.ctx c x).phase = .tileStep n ∧
        (t.ctx c x).r.owns = true ∧ (t.ctx c x).r.replay = some q ∧ q.pos = 0 ∧
        q.counters[seqLevels d - 1]? = some (BitVec.ofNat 32 n) ∧ t.mem = s.mem)) ∧
  (∀ (c : CoreId) (x : CtxId) (s : State) (n : Nat) (p : File 3 W64), (s.ctx c x).phase = .tileStep n →
    (s.ctx c x).r.replay = none → (s.ctx c x).ops = [] → (s.ctx c x).pendFault = none → paramBlock s c (s.ctx c x).r.pc = .ok p →
    isTemplate p = false → gemmValid p (s.ctx c x).acc = true → StepReadable s c p n →
    ∃ os, gemmStep s c p n = .ok os ∧
      (∀ i ∈ gemmRows p n, ∀ j ∈ gemmCols p n, ∀ as ws b, operRow s c (gemmA p) (gemmK p) (gemmAAt p i) = .ok as →
        operRow s c (gemmW p) (gemmK p) (gemmWAt p j) = .ok ws → (gemmOp p = 2 → operRead s c (gemmBiasAt p j) 4 = .ok b) →
        (gemmOp p ≠ 2 → b = []) →
        (p[5] + BitVec.ofNat 64 (i * wbits p[2] 32 32 + j * gemmOut p), gemmBytes p (gemmValue p as ws (leWord 32 b))) ∈ os) ∧
      (∀ u, u = spendMem (stepCorrect s c p n) (s.partIdOf c) (stepBlocks s c p n) →
        memReady s (s.partIdOf c) (stepBlocks s c p n ++ os.flatMap (fun o => operBlocks s c o.1 o.2.length)) = true →
        (∀ o ∈ os, ∃ q, operPlace u c .store o.1 o.2.length = .ok q) →
        exec (.tileStepDone c x) s = .next (stepDone (os.foldl (fun s o => performStore s c o.1 o.2) u) c x n (gemmSteps p)))) ∧
  (∀ (c : CoreId) (x : CtxId) (s : State) (n total : Nat), n + 1 < total → (s.ctx c x).action ≠ some 0 → (s.ctx c x).badStore = false →
    ((stepDone s c x n total).ctx c x).phase = .waitArray (n + 1) ∧
    ((stepDone s c x n total).ctx c x).job.words = (s.ctx c x).job.words.set 3 (BitVec.ofNat 64 (n + 1)) ∧
    ((s.ctx c x).gate = [] → nameShelf (s.ctx c x).job.name = none → nameIn s c (s.ctx c x).job.name = true → ∀ q,
      place s (nameCore c (s.ctx c x).job.name) .peek (nameAddr (s.ctx c x).job.name + 24) 8 = .ok q →
      (stepDone s c x n total).mem = s.mem.writeRun q.key (leBytes 8 ((n + 1) % 2 ^ 64))))

/-- Causes found after issue are delivered at a boundary (R224, R280, R369, R375): a first ECCUE is retried from the checkpoint, a PAGE
waits for the host. Interrupts, watchdogs and pre-emption enter a handler by replay, or are ignored without one (R374, R376, R377, R382):
the handler's address, the saved pc and trap_info; a watchdog that is ignored starts its count again (log 76). A handler that outstays its
time is left, and the stores that it has made are dropped (log 56). -/
def Obligations.LateCauses : Prop :=
  (∀ (c : CoreId) (x : CtxId) (s : State) (f : Late), (s.ctx c x).pendFault = some f → (s.ctx c x).ownFault = none →
    (s.ctx c x).handler = false → atBoundary (s.ctx c x) = true →
    (f.cause ≠ .page → f.cause ≠ .eccue →
      exec (.rollback c x) s = .next (deliver (s.setCtx c x { s.ctx c x with pendFault := none }) c x f.cause f.info f.pc f.words)) ∧
    (f.cause = .eccue → (s.ctx c x).eccRetried = true →
      exec (.rollback c x) s = .next (deliver (s.setCtx c x { s.ctx c x with pendFault := none }) c x .eccue f.info f.pc f.words)) ∧
    (f.cause = .eccue → (s.ctx c x).eccRetried = false → f.info.getLsbD 0 = false → (s.ctx c x).badStore = false →
      ∃ t, exec (.rollback c x) s = .next t ∧ (t.ctx c x).r = (s.ctx c x).ck ∧ (t.ctx c x).gate = [] ∧ (t.ctx c x).eccRetried = true ∧
        (t.ctx c x).handler = false ∧ (t.ctx c x).phase = (s.ctx c x).going ∧ (t.ctx c x).trapInfo = f.info ∧
        (t.ctx c x).trapPc = f.pc) ∧
    (f.cause = .page → (s.ctx c x).badStore = false → (∀ va a, (s.ctx c x).asked ≠ some (va, some a)) →
      ∃ t, exec (.rollback c x) s = .next t ∧ (t.ctx c x).r = (s.ctx c x).ck ∧ (t.ctx c x).phase = .waitPage f ∧
        (t.ctx c x).trapInfo = f.info ∧ (t.ctx c x).trapPc = f.pc)) ∧
  (∀ (c : CoreId) (x : CtxId) (s : State) (f : Late), (s.ctx c x).pendFault = some f → (s.ctx c x).handler = true →
    (s.ctx c x).replayEntry = true → (s.ctx c x).held = none →
    ∃ t, exec (.heldFault c x) s = .next t ∧ (t.ctx c x).held = some f ∧ (t.ctx c x).pendFault = none ∧
      (t.ctx c x).r = (s.ctx c x).r) ∧
  (∀ (c : CoreId) (x : CtxId) (s : State) (o : Op) (q : BitVec 4) (sh : BitVec 2) (n : BitVec 12) (r : PoolReq),
    (s.ctx c x).ops = [o] → o.kind = .talloc q sh n → (s.pool c ⟨q.toNat, q.isLt⟩).waiting = [r] → r.who = .ctx x →
    (s.part (s.partIdOf c)).allocWdog ≠ 0 → 2000 * (s.part (s.partIdOf c)).allocWdog.toNat < s.cycle - r.since →
    (s.ctx c x).handler = false → (s.ctx c x).pendFault = none →
    exec (.tstall c x) s = .next (deliver s c x .tstall
      (BitVec.ofNat 64 (q.toNat + sh.toNat * 2 ^ 4 + (s.cycle - r.since) / 2000 % 2 ^ 32 * 2 ^ 16)) o.pc o.words)) ∧
  (∀ (c : CoreId) (x : CtxId) (s u : State) (v : BitVec 32), (s.ctx c x).pendInt = some v → (s.ctx c x).pendPreempt = none →
    replayable (s.ctx c x) = true → (s.ctx c x).badStore = false → u = s.setCtx c x { s.ctx c x with pendInt := none } →
    (handlerAt u c 0x20 = 0 → exec (.int c x) s = .next u) ∧
    (handlerAt u c 0x20 ≠ 0 → ∃ t, exec (.int c x) s = .next t ∧ (t.ctx c x).handler = true ∧ (t.ctx c x).replayEntry = true ∧
      (t.ctx c x).r.pc = handlerAt u c 0x20 ∧ (t.ctx c x).trapInfo = v.setWidth 64 ∧ (t.ctx c x).trapPc = (s.ctx c x).r.pc ∧
      (t.ctx c x).frame = some (s.ctx c x).r ∧ (t.ctx c x).pendInt = none)) ∧
  (∀ (c : CoreId) (x : CtxId) (s u : State) (n : Nat), (s.ctx c x).pendInt = none → (s.ctx c x).pendPreempt = none →
    ((s.ctx c x).pendWatchdog = some n ∨ (s.ctx c x).pendWatchdog = none ∧ (s.part (s.partIdOf c)).blkWdog ≠ 0 ∧
      2000 * (s.part (s.partIdOf c)).blkWdog.toNat < s.cycle - (s.ctx c x).lastIssue ∧ n = (s.cycle - (s.ctx c x).lastIssue) / 2000) →
    replayable (s.ctx c x) = true → (s.ctx c x).badStore = false →
    u = s.setCtx c x { s.ctx c x with pendWatchdog := none, lastIssue := s.cycle } →
    (handlerAt u c 0x22 = 0 → exec (.watchdog c x) s = .next u) ∧
    (handlerAt u c 0x22 ≠ 0 → ∃ t, exec (.watchdog c x) s = .next t ∧ (t.ctx c x).handler = true ∧
      (t.ctx c x).r.pc = handlerAt u c 0x22 ∧ (t.ctx c x).trapInfo = BitVec.ofNat 64 n ∧ (t.ctx c x).frame = some (s.ctx c x).r)) ∧
  (∀ (c : CoreId) (x : CtxId) (s u : State) (a : BitVec 2) (us : BitVec 32), (s.ctx c x).pendPreempt = some (a, us) →
    replayable (s.ctx c x) = true → (∀ why pc, (s.ctx c x).phase ≠ .suspending why pc) → (s.ctx c x).badStore = false →
    u = s.setCtx c x { s.ctx c x with pendPreempt := none, action := some a, drainFrom := some s.cycle } →
    (handlerAt u c 0x21 = 0 → exec (.preempt c x) s = .next u) ∧
    (handlerAt u c 0x21 ≠ 0 → ∃ t, exec (.preempt c x) s = .next t ∧ (t.ctx c x).handler = true ∧
      (t.ctx c x).r.pc = handlerAt u c 0x21 ∧ (t.ctx c x).trapInfo = BitVec.ofNat 64 (a.toNat + us.toNat * 2 ^ 32) ∧
      (t.ctx c x).action = some a)) ∧
  (∀ (c : CoreId) (x : CtxId) (s : State) (a : BitVec 2) (from_ : Nat), (s.ctx c x).action = some a → (s.ctx c x).drainFrom = some from_ →
    (s.ctx c x).handler = true → (s.ctx c x).replayEntry = true → wbits (s.ctx c x).trapCause 0 8 = 0x21 →
    2000 * wbits (s.ctx c x).trapInfo 32 32 < s.cycle - from_ → (s.ctx c x).paused = none →
    ∃ t, exec (.preemptHandlerTimeout c x) s = .next t ∧ (t.ctx c x).handler = false ∧
      (∀ r, (s.ctx c x).frame = some r → (t.ctx c x).r = r) ∧ t.mem = s.mem)

/-- The dispatcher (R121, R262, R379 to R381, R385, R386): the next host record is refused, joins its gang, or starts on the core with the
fewest running continuations among those that have room; a steal starts the head of another core's queue, widened by its origin; a newcomer
takes a victim's place; a complete gang starts whole; the allowances of a period. DRAIN, SAVE and KILL (R381 to R383): the second choice
after a drain's limit, the two halves of a save and its resume from the slot, and a team that is killed and, once drained, placed again.
The model's own readings: which record, victim and core come first in the corners of R379 to R381 and R385 (log 81), that a save waits for
its fences and that a slot without a place gives back the device's own copy (log 80), and the members of a killed team (log 79). -/
def Obligations.Dispatching : Prop :=
  (∀ (p : PartId) (s : State) (h : HostHead), serving s p = true → (s.part p).reserving = none → deadQueue s p = none →
    (∀ q ∈ servedQueues s p, ringReach s q ≠ .missing) → nextHost s p = some h → hasToken s p = true →
    (badRecord h.words h.addr = true → exec (.dispatch p) s = .next (refuseHost s p h)) ∧
    (badRecord h.words h.addr = false → gangBit h.words = true → exec (.dispatch p) s = .next (arriveGang (takeHost s p h) p h)) ∧
    (∀ c x, badRecord h.words h.addr = false → gangBit h.words = false → c ∈ coresOf s p → placeable s h.words c = true →
      (∀ d ∈ coresOf s p, placeable s h.words d = true → runningCount (s.core c) < runningCount (s.core d) ∨
        runningCount (s.core c) = runningCount (s.core d) ∧ c ≤ d) → freeCtxOf (s.core c) = some x →
      exec (.dispatch p) s = .next (beginRecord (spendToken (takeHost s p h) p) c x h.taken.name false 0 h.taken.host))) ∧
  (∀ (p : PartId) (o c w : CoreId) (s u : State) (x : CtxId) (e : W64) (rest : List W64), serving s p = true → startable s c = true →
    (s.part p).reserving = none → nextHost s p = none → s.partOf c = some p → queueLength (s.core c) = 0 → hasToken s p = true →
    stealable s p c o = true →
    (∀ d ∈ coresOf s p, stealable s p c d = true → stealRank c o ≤ stealRank c d) → freeCtxOf (s.core c) = some x →
    (s.core o).queue = e :: rest → wbit e 57 = false → w = linkCore e →
    canGrant s c (startWords (release s w (scopeOf w c) everyByte) c (entryName e)) = true →
    u = popQueue (release (spendToken s p) w (scopeOf w c) everyByte) o →
    exec (.steal p o c) s = .next (beginRecord (u.setCore o { u.core o with fullSince := none }) c x (entryName e) false (scopeOf w c)
      none)) ∧
  (∀ (p : PartId) (s u : State) (h : HostHead) (c : CoreId) (x : CtxId), serving s p = true → hasToken s p = true →
    nextHost s p = some h → badRecord h.words h.addr = false → gangBit h.words = false →
    (∀ d ∈ coresOf s p, placeable s h.words d = false) → victim s p (recPrio h.words) = some (c, x) →
    u = spendToken (takeHost s p h) p →
    exec (.preemption p) s = .next (chooseAction (u.setCtx c x { u.ctx c x with newcomer := some h.taken }) c x)) ∧
  (∀ (p : PartId) (gang : Nat) (s : State) (g : Gang) (n gs acc scratch : Nat) (places : List (CoreId × CtxId)),
    s.gangs.find? (fun g => g.part == p && g.gangid.toNat == gang) = some g → gangEntry s p gang = (n, gs, acc, scratch) →
    n ≤ g.records.length → serving s p = true → (s.part p).reserving = none → places ≠ [] → places.length = n →
    places = assignGroups ((coresOf s p).map (fun c => (c, gangRoom s c g.ticket none acc scratch))) n gs → hasToken s p = true →
    exec (.gangPlacement p gang) s = .next (startGang s p g n places)) ∧
  (∀ (p : PartId) (s : State),
    ((s.part p).tokenAt ≠ s.cycle / 200000 + 1 → (s.part p).tokens ≠ 0 → ∃ t, exec (.priorityTokenPeriod p) s = .next t ∧
      (t.part p).tokensLeft = some (s.part p).tokens.toNat ∧ t.mem = s.mem) ∧
    ((s.part p).slipAt ≠ s.cycle / 2000 + 1 → s.inbox = [] → s.outbox = [] → ∃ t, exec (.budgetPeriod p) s = .next t ∧
      ((s.part p).budSlip ≠ 0 → (t.part p).slipsLeft = some (s.part p).budSlip.toNat) ∧
      (t.part p).memSpent = [] ∧ (t.part p).lugilSpent = [] ∧ t.mem = s.mem)) ∧
  (∀ (c : CoreId) (x : CtxId) (s : State) (from_ : Nat), (s.ctx c x).action = some 0 → (s.ctx c x).drainFrom = some from_ →
    2000 * (s.part (s.partIdOf c)).drainLim.toNat < s.cycle - from_ →
    (∀ a, strongAction s c x = some a → exec (.drainLimit c x) s = .next (beginAction s c x a)) ∧
    (strongAction s c x = none → exec (.drainLimit c x) s = .next (s.setCtx c x { s.ctx c x with drainFrom := none }))) ∧
  (∀ (c : CoreId) (x : CtxId) (s : State), (s.ctx c x).action = some 1 → (s.ctx c x).handler = false →
    (∀ n, (s.ctx c x).phase = .running → (s.core c).saves = [] → n < 8 → n ∉ slotsUsed (s.core c) →
      (∀ m, m < n → m ∈ slotsUsed (s.core c)) →
      ∃ t, exec (.save c x) s = .next t ∧ (t.ctx c x).phase = .saving n ∧ (t.ctx c x).r = (s.ctx c x).r ∧ t.mem = s.mem ∧
        ∃ late, (t.core c).saves = [{ ctx := x, slot := n, deadline := s.cycle + 2000 * saveCost (s.ctx c x), late := late }] ∧
          (late = true ↔ ∃ r ∈ s.retrains, r.running = true ∧ r.thermal = true ∧ saveTarget s c n = some r.target)) ∧
    (∀ n v, (s.ctx c x).phase = .saving n → (s.core c).saves = [v] → v.ctx = x → quiet s c x = true →
      (∀ m, saveTarget s c v.slot = some m → stopped s m = false) → (s.ctx c x).fences = [] → (s.ctx c x).pendFault = none →
      exec (.save c x) s = .next (finishSave s c x v))) ∧
  (∀ (c : CoreId) (x : CtxId) (s u : State) (v : Saved) (rest : List Saved), (s.part (s.partIdOf c)).reserving = none →
    (s.core c).saved = v :: rest → v.ctx.acc ≤ accFree (s.core c) → (v.ctx.r.owns = false ∨ arrayOwner (s.core c) = none) →
    startable s c = true → freeCtxOf (s.core c) = some x → u = (fullAcquire s c).2 →
    ∃ t, exec (.saveResume c x) s = .next t ∧ (t.ctx c x).ck = (t.ctx c x).r ∧ (t.ctx c x).phase = v.ctx.phase ∧
      (t.ctx c x).job = v.ctx.job ∧ (t.ctx c x).acc = v.ctx.acc ∧
      (∀ q, place u c .peek (saveSlotAddr u c v.slot) 0x2C000 = .error q → (t.ctx c x).r = v.ctx.r) ∧
      (∀ q (n : BitVec 5), place u c .peek (saveSlotAddr u c v.slot) 0x2C000 = .ok q → n ≠ 0 →
        (t.ctx c x).r.getS n = wordAt (deviceRead u c (saveSlotAddr u c v.slot + 0xC100) 352) n.toNat)) ∧
  (∀ (c : CoreId) (x : CtxId) (s : State) (t : Team), (s.ctx c x).action = some 2 → (s.ctx c x).handler = false →
    running (s.ctx c x) = true → s.team (s.ctx c x).job.team = some t → exec (.kill c x) s = .next (killTeam s t false)) ∧
  (∀ (s : State) (t : Team), s.team t.id = some t → exec (.teamAbort t.id) s = .next (killTeam s t true)) ∧
  (∀ (s : State) (t : Team), s.team t.id = some t → t.killed = true → t.abort = false →
    ∃ u, exec (.killDrainDone t.id) s = .next u ∧ u.team t.id = none ∧
      u.replaced = t.exits.map (fun e => (t.part, { name := e.record.name, host := e.record.host })) ++ s.replaced)

/-- The steps of copies (R310 to R312, R314, R316, R317, R319, R321, R322, R345, R386, R387, R424, R425): the walks of a context start in
issue order; a consuming copy waits, not started, while its tile is OPEN (log 42), then acquires, takes its bytes and spends one read, TSTALE
where the handle does not match (reason 1: log 102); the bytes of a sync word's copy, the elements of a cpyadd, each added to its word, and the
runs of a gather perform, in walk order (log 67); an error from outside and an allocation that stands too long stop their work; a transfer
leaves once its group's window has a slot, to the members that the group has then, and fails with BOUNDS when the group has gone. -/
def Obligations.CopySteps : Prop :=
  (∀ (c : CoreId) (x : CtxId) (s : State) (k : Copy) (l m : List Copy), (s.engine c x).copies = l ++ k :: m →
    (∀ q ∈ l, q.started = true ∨ q.aborted = true) → k.started = false → k.aborted = false →
    (k.form ≠ .tile → k.form ≠ .mcast → (k.form = .plain → shField k.shape 6 ≠ 1 ∨ shField k.shape 28 = 1) →
      exec (.copyWalkStart c x k.id) s = .next (putCopy s c x { k with started := true })) ∧
    (k.form = .plain → shField k.shape 6 = 1 → shField k.shape 28 ≠ 1 →
      (handleMatches s k.src = false → exec (.copyWalkStart c x k.id) s = .next (failCopy s c x k .tstale (tstaleInfo k.src 1))) ∧
      (handleMatches s k.src = true → (tileOf s k.src).state = .open →
        exec (.copyWalkStart c x k.id) s = .next (putCopy s c x { k with waiting := true })) ∧
      (∀ q, handleMatches s k.src = true → (tileOf s k.src).state ≠ .open → CodesGood s → s.poison = [] → q = { k with
          started := true, waiting := false,
          data := some (s.mem.readRun (keyScratch (handleCore k.src) (tileOffset s k.src)) (poolOf s k.src).tsize) } →
        exec (.copyWalkStart c x k.id) s = .next (spendTile (acquireCopy (putCopy s c x q) c x q) k.src))) ∧
    (k.form = .tile → exec (.copyWalkStart c x k.id) s = .next (startTile s c x k)) ∧
    (k.form = .mcast → exec (.copyWalkStart c x k.id) s = .next (startMulticast s c x k))) ∧
  (∀ (c : CoreId) (x : CtxId) (s : State) (k : Copy) (n : Nat), movingCopy s c x k.id = some k →
    (k.kind = 2 → k.form ≠ .add → exec (.syncWordArrival c x k.id n) s = .next (moveBytes s c x k (min n (walkBytes k.shape)))) ∧
    (k.form = .add → exec (.destinationAccumulate c x k.id) s = .next (moveBytes s c x k (accElem k.shape))) ∧
    (k.form = .gather → exec (.gatherPageLanded c x k.id) s = .next (moveBytes s c x k (runLeft k)))) ∧
  (∀ (c : CoreId) (x : CtxId) (s : State) (k : Copy) (p : Place), k.form = .add → k.moved = 0 → k.data = none → k.kind.toNat < 2 →
    walkRuns k.shape ≠ 0 → accElem k.shape ≤ runLen k.shape → place s c .read k.src (runLen k.shape) = .ok p →
    (∀ pid va, p ≠ .host pid va) → CodesGood s → s.poison = [] →
    memReady s (s.partIdOf c) (copyBlocks s c k 0 0 (accElem k.shape)) = true →
    leWord 128 ((moveBytes s c x k (accElem k.shape)).mem.readRun (quadKey c k.dst) 16)
      = (fixedAdd (leWord 128 (s.mem.readRun (quadKey c k.dst) 16))
          (accValue k.shape (s.mem.readRun p.key (accElem k.shape)))).1) ∧
  (∀ (c : CoreId) (x : CtxId) (s : State) (k : Copy) (f : EngineFault) (cause : Cause) (info : W64), liveCopy s c x k.id = some k →
    k.started = true → engineCause f = (cause, info) →
    exec (.copyError c x k.id f) s = .next (failCopy s c x k cause info)) ∧
  (∀ (c : CoreId) (pool : Fin 16) (s : State) (r : PoolReq) (info : W64), (s.pool c pool).waiting = [r] →
    (s.part (s.partIdOf c)).allocWdog ≠ 0 → 2000 * (s.part (s.partIdOf c)).allocWdog.toNat < s.cycle - r.since →
    info = BitVec.ofNat 64 (pool.val + r.share.toNat * 2 ^ 4 + (s.cycle - r.since) / 2000 % 2 ^ 32 * 2 ^ 16) →
    (∀ d x k, r.who = .copy d x k.id → (s.engine d x).copy k.id = some k →
      exec (.engineAllocWatchdog c pool k.id) s = .next (failCopy s d x k .tstall info)) ∧
    (∀ it p, r.who = .slip it p.num → (s.itin it).flight = [p] →
      exec (.engineAllocWatchdog c pool p.num) s = .next (failSlip s it p .tstall)) ∧
    (∀ q, r.who = .xfer q.id → s.receives = [q] →
      exec (.engineAllocWatchdog c pool q.id) s = .next (nackReceive (withdraw s c r.who) q .tstall info))) ∧
  (∀ (s : State) (t : Transfer) (c : CoreId) (x : CtxId) (k : Copy), s.transfers.find? (fun u => u.id == t.id && !u.started) = some t →
    t.copy = some (c, x, k.id) → liveCopy s c x k.id = some k →
    (∀ e u, s.group t.group.toNat = some e → windowOpen s t.group e = true → u = { t with waiting := otherMembers s e } →
      exec (.multicastTransferStart t.id) s = .next (startCopyTransfer
        { s with transfers := s.transfers.map (fun w => if w.id = t.id then u else w) } u e c x k)) ∧
    (s.group t.group.toNat = none →
      exec (.multicastTransferStart t.id) s = .next (failCopy s c x k .bounds (BitVec.ofNat 64 (2 * 2 ^ 56 + k.dst.toNat % 2 ^ 56)))))

/-- COPY_COMPLETE of a plain copy of one run between places on the device (R310 to R312): the destination holds the bytes that the source
held, no other byte changes, and the copy leaves its engine. Source and destination lie apart: what an overlap leaves is a race (R310). -/
def Obligations.CopiesMove : Prop :=
  ∀ (c : CoreId) (x : CtxId) (s : State) (k : Copy) (p q : Place), movingCopy s c x k.id = some k → k.form = .plain → k.moved = 0 →
    k.data = none → k.fault = none → k.kind.toNat < 2 → k.xfer = none → walkRuns k.shape = 1 → shField k.shape 9 = 0 →
    place s c .read k.src (runLen k.shape) = .ok p → placeIn s (s.partIdOf c) c .write k.dst (runLen k.shape) = .ok q →
    (∀ pid va, p ≠ .host pid va ∧ q ≠ .host pid va) → p.key + runLen k.shape ≤ q.key ∨ q.key + runLen k.shape ≤ p.key → CodesGood s → s.poison = [] →
    memReady s (s.partIdOf c) (copyBlocks s c k 0 0 (runLen k.shape)) = true →
    ∃ t, exec (.copyComplete c x k.id) s = .next t ∧
      (∀ j, j < runLen k.shape → t.mem.read (q.key + j) = s.mem.read (p.key + j)) ∧
      (∀ j, j < q.key ∨ q.key + runLen k.shape ≤ j → t.mem.read j = s.mem.read j) ∧
      (t.engine c x).copies = (s.engine c x).copies.filter (fun e => e.id != k.id)

/-- Itineraries and gatherers (R306, R326 to R328, R335, R386, R425): a valid slip in its window starts, one of kind 4 once its group's window
has a slot; one whose bytes are there performs, into an extent or into its tile, all of them in one event (log 82); a failed one ends its
itinerary; a batch whose deadline has passed closes with reason 1. Parked pages (R330 to R333): a timer that has run out begins a demotion, a
retry goes on with it, a page that has moved takes its frame and its CRC values, as they are taken then (log 86), with it, a wake write of a
live token wakes in the partition that the token names (log 87) and of a stale one is counted, and promotion goes on until every page has
arrived. -/
def Obligations.SlipsAndBatches : Prop :=
  (∀ (it : ItinId) (s u : State) (y : Itin) (q : Place) (p : Slip), s.itin it = y → y.state = .running →
    y.started < itPasses y * itSlips y → CodesGood s → s.poison = [] →
    placeIn s y.part y.core .read (itRing y + BitVec.ofNat 64 (32 * (y.started % itSlips y))) 32 = .ok q →
    p = { num := y.base + y.started + 1,
          words := Vector.ofFn (fun i : Fin (2 ^ 2) => leWord 64 (((s.mem.readRun q.key 32).drop (8 * i.val)).take 8)),
          waiting := false, tile := none, moved := false, xfer := none, since := s.cycle, retried := false } →
    memReady s y.part (q.blocks 32) = true →
    (∀ cause, slipFault s it y p = some cause → exec (.slipStart it) s = .next (failItin s it cause)) ∧
    (slipFault s it y p = none → y.flight = [] → 0 < itWindow y p.hop → u = refreshBudgets s y.part →
      (u.part y.part).slipsLeft ≠ some 0 →
      (∀ v, (p.hop = 4 → (slipGroup u p).isSome = true ∧ memReady u y.part (keyBlocks ((slipSrc u y p).getD 0) p.bytes) = true) →
        v = spendMem u y.part (q.blocks 32) →
        exec (.slipStart it) s = .next (startSlip (v.setPart y.part { v.part y.part with
          slipsLeft := (v.part y.part).slipsLeft.map (· - 1) }) it p)) ∧
      (p.hop = 4 → slipGroup u p = none → exec (.slipStart it) s = .next u))) ∧
  (∀ (it : ItinId) (s : State) (p : Slip) (k : Nat), (s.itin it).flight = [p] → p.waiting = false → p.moved = false →
    slipSrc s (s.itin it) p = some k → CodesGood s → s.poison = [] → memReady s (s.itin it).part (slipBlocks s it p) = true →
    (∀ d n, p.hop ≤ 2 → p.tile = none → slipDst s it (s.itin it) p = some (d, n) →
      exec (.slipComplete it p.num) s = .next (slipMoved
        ((spendMem s (s.itin it).part (slipBlocks s it p)).writeAt d (s.mem.readRun k p.bytes)) it p)) ∧
    (p.hop = 4 → p.tile = none → exec (.slipComplete it p.num) s = .next (slipMoved s it p)) ∧
    (∀ h, p.tile = some h → exec (.slipComplete it p.num) s = .next (slipMoved
      (fillTile (spendMem s (s.itin it).part (slipBlocks s it p)) it p h (s.mem.readRun k p.bytes)) it p))) ∧
  (∀ (it : ItinId) (s : State) (p : Slip) (f : EngineFault) (cause : Cause) (info : W64), (s.itin it).flight = [p] →
    engineCause f = (cause, info) → exec (.slipFailure it p.num f) s = .next (failSlip s it p cause)) ∧
  (∀ (g : GathererId) (s : State) (b : Batch), (s.gatherer g).batches = [b] → b.expired (s.cycle - 1) = true → b.tile = none →
    ∃ t, exec (.gathererDeadline g) s = .next t ∧ (t.gatherer g).batches = [{ b with reason := some 1 }] ∧ t.mem = s.mem) ∧
  (∀ (e tier : Nat) (s : State), (s.shelfAt e).state = .parked → 1 ≤ tier → tier ≤ 3 → timerOn (s.shelfAt e).cls tier = true →
    (s.shelfAt e).demote = none → (s.shelfAt e).timers.getLsbD (tier - 1) = false →
    (s.shelfAt e).parkedAt + classTimer (s.shelfAt e).cls (tier - 1) * 2000000 < s.cycle →
    exec (.demotionTimer e tier) s = .next (demoteNext e ((s.shelfAt e).pages + 1) (s.setShelf e { s.shelfAt e with
      timers := (s.shelfAt e).timers ||| BitVec.ofNat 3 (2 ^ (tier - 1)), demote := some (tier, 0) }))) ∧
  (∀ (e : Nat) (d : Nat × Nat × Nat) (s : State), (s.shelfAt e).state = .parked → (s.shelfAt e).demote = none →
    (s.shelfAt e).stalled.find? (fun d => decide (d.2.2 ≤ s.cycle)) = some d →
    exec (.demotionRetry e) s = .next (demoteNext e ((s.shelfAt e).pages + 1) (s.setShelf e { s.shelfAt e with
      demote := some (d.1, d.2.1), stalled := (s.shelfAt e).stalled.erase d }))) ∧
  (∀ (e : Nat) (s : State) (h : Shelf) (m : Move) (w : W64) (src dst : Nat), s.shelfAt e = h → h.state = .parked → h.move = some m →
    tableEntry s h m.page = w → pageKey s h.part (entryState w) (entryFrame w) = some src →
    pageKey s h.part m.tier m.frame = some dst → memReady s h.part (moveBlocks (some src) (some dst)) = true →
    (s.part h.part).flCount (entryState w) + 1 ≠ (s.part h.part).flSize (entryState w) →
    ∃ t u v, giveFrame (spendMem s h.part (moveBlocks (some src) (some dst))) h.part (entryState w) (entryFrame w) = some t ∧
      (demotePage t e m.page (entryState w) src dst).mem = t.mem.writeRun dst (t.mem.readRun src 16384) ∧
      u = putEntry (demotePage t e m.page (entryState w) src dst) ((demotePage t e m.page (entryState w) src dst).shelfAt e) m.page m.tier
        m.frame ∧
      v = (u.setShelf e { u.shelfAt e with move := none }) ∧
      exec (.demotionMoveDone e) s = .next (demoteNext e ((u.shelfAt e).pages + 1) (v.setShelf e { v.shelfAt e with
        demote := (u.shelfAt e).demote.map (fun d => (d.1, d.2 + 1)) }))) ∧
  (∀ (token value : W64) (s : State) (p : PartId), s.boot = .ready → p.val = wbits token 32 4 →
    exec (.wakeWrite token value) s = .next (wakeToken s p token value) ∧
    ((s.shelfAt (wbits token 0 16)).gen.toNat ≠ wbits token 16 16 → ∃ t, exec (.wakeWrite token value) s = .next t ∧
      (t.part p).staleWake = (s.part p).staleWake + 1 ∧ t.shelf = s.shelf ∧ t.mem = s.mem)) ∧
  (∀ (e : Nat) (s : State), (s.shelfAt e).state = .waking → (s.shelfAt e).move = none →
    exec (.promotionResume e) s = .next (settleWake (transit e (s.shelfAt e).pages 0 s).1 e)) ∧
  (∀ (e i f src dst : Nat) (w : W64) (rest : List (Nat × W64 × Nat)) (s : State) (h : Shelf), s.shelfAt e = h →
    h.sources = (i, w, f) :: rest → h.state = .waking → h.move = none →
    (s.part h.part).flCount (entryState w) + 1 ≠ (s.part h.part).flSize (entryState w) →
    pageKey s h.part (entryState w) (entryFrame w) = some src → pageKey s h.part 1 f = some dst →
    memReady s h.part (moveBlocks (some src) (some dst)) = true →
    ∃ t u, giveFrame (spendMem s h.part (moveBlocks (some src) (some dst))) h.part (entryState w) (entryFrame w) = some t ∧
      u = putEntry (movePage t src dst) ((movePage t src dst).shelfAt e) i 1 f ∧
      (crcOk t h i src = true →
        exec (.promotionMoveDone e) s = .next (settleWake (u.setShelf e { u.shelfAt e with sources := rest }) e)))

/-- What the host writes to pages and registers, and reads there (R8, R127, R388, R391, R393, R414 to R417, R428): a plain register takes
the bits of its width, one reached through a block of another scope nothing, and a register that a read clears is cleared; an enabled queue
takes no write of q1 or q3, and before boot has enabled the host port nothing happens. A size outside its range leaves the old size (log
44), and a queue that is enabled or resized starts from slot 0 (log 18): the model's choices. -/
def Obligations.HostWrites : Prop :=
  (∀ (v : W64) (s : State) (i : Instr), i = .interruptPageWrite v ∧ s.boot = .ready ∨ i = .intSend v →
    ((s.ctx (intCore v) (intCtx v)).empty = false → exec i s = .next (s.setCtx (intCore v) (intCtx v)
      { s.ctx (intCore v) (intCtx v) with pendInt := some ((v >>> 32).setWidth 32) })) ∧
    ((s.ctx (intCore v) (intCtx v)).empty = true → exec i s = .next (s.setCore (intCore v)
      { s.core (intCore v) with dropInt := (s.core (intCore v)).dropInt + 1 }))) ∧
  (∀ (q : QueueId) (tail : BitVec 16) (v : W64) (s : State), s.boot = .ready → (s.queue q).fabric = false →
    ∃ t, exec (.hostQueueDoorbell q tail) s = .next t ∧ (t.queue q).tail = tail.toNat ∧ (t.queue q).head = (s.queue q).head ∧
      t.mem = s.mem ∧ (v.toNat % 2 ^ 16 = tail.toNat → exec (.hostQueuePageWrite q 2 v) s = .next t)) ∧
  (∀ (q : QueueId) (v : W64) (s : State), s.boot = .ready →
    exec (.hostQueuePageWrite q 0 v) s = .next (s.setQueue q { s.queue q with q0 := v }) ∧
    ((s.queue q).en = false → exec (.hostQueuePageWrite q 3 v) s = .next (s.setQueue q { s.queue q with q3 := v })) ∧
    ((s.queue q).en = true → exec (.hostQueuePageWrite q 3 v) s = .next s) ∧ exec (.hostQueuePageWrite q 4 v) s = .next s) ∧
  (∀ (q : QueueId) (v : W64) (s : State), s.boot = .ready → ∃ t, exec (.hostQueuePageWrite q 1 v) s = .next t ∧
    t.mem = s.mem ∧ (∀ p, p ≠ q → t.queue p = s.queue p) ∧ ((s.queue q).en = true → t.queue q = s.queue q) ∧
    ((s.queue q).en = false → (t.queue q).en = v.getLsbD 12 ∧ (t.queue q).part.val = wbits v 8 4 ∧ (t.queue q).fabric = v.getLsbD 13 ∧
      (t.queue q).vec.toNat = wbits v 16 11 ∧ (t.queue q).size = (if wbits v 0 4 < 4 then (s.queue q).size else wbits v 0 4) ∧
      (t.queue q).q0 = (s.queue q).q0 ∧ (t.queue q).q3 = (s.queue q).q3 ∧
      ((t.queue q).en = true ∨ (t.queue q).size ≠ (s.queue q).size → (t.queue q).q2 = 0 ∧ (t.queue q).q4 = 0))) ∧
  (∀ (n : BitVec 6) (v : W64) (s : State), s.boot = .ready → exec (.registerWrite 0 (0x310 + n.toNat) v) s =
    .next { s with pkg := { s.pkg with route := rset s.pkg.route n (v &&& 0x3F) } }) ∧
  (∀ (p : PartId) (n w : Nat) (v : W64) (s : State), (n, w) ∈ [(0x200, 64), (0x201, 20), (0x202, 16), (0x203, 6), (0x204, 32), (0x205, 32),
      (0x206, 32), (0x207, 32), (0x20A, 64), (0x20D, 64), (0x20E, 32), (0x20F, 32), (0x210, 64), (0x211, 64), (0x212, 64), (0x218, 32),
      (0x219, 8), (0x21A, 64)] →
    s.boot = .ready → ∃ t, exec (.registerWrite (1 + p.val) n v) s = .next t ∧ (readPartReg t p n).toNat = v.toNat % 2 ^ w ∧
      (∀ m, m ≠ n → readPartReg t p m = readPartReg s p m) ∧ t.mem = s.mem) ∧
  (∀ (p : PartId) (v : W64) (s : State), s.boot = .ready → ∃ t, exec (.registerWrite (1 + p.val) 0x20B v) s = .next t ∧
    wbits (t.part p).sringCtl 0 16 = wbits v 0 16 ∧ wbits (t.part p).sringCtl 16 16 = wbits (s.part p).sringCtl 16 16 ∧
    wbits (t.part p).sringCtl 32 5 = (if 6 ≤ wbits v 32 5 ∧ wbits v 32 5 ≤ 16 then wbits v 32 5 else wbits (s.part p).sringCtl 32 5)) ∧
  (∀ (block n : Nat) (v : W64) (s : State), (block = 0 → n < 0x300) → (1 ≤ block → block ≤ 16 → n < 0x200 ∨ 0x300 ≤ n) →
    (32 ≤ block → block < 544 → n < 0x120 ∨ 0x200 ≤ n) → exec (.registerWrite block n v) s = .next s) ∧
  (∀ (c : CoreId) (v : W64) (s : State), s.boot = .ready → exec (.registerWrite (32 + c.val) 0x120 v) s =
    .next (s.setCore c { s.core c with saveBase := v })) ∧
  (∀ (c : CoreId) (s : State), s.boot = .ready →
    exec (.rcRegisterRead (32 + c.val) 0x120) s = .next (s.emit (.regRead (32 + c.val) 0x120 (s.core c).saveBase)) ∧
    exec (.rcRegisterRead (32 + c.val) 0x123) s = .next ((s.setCore c { s.core c with corrErr := 0 }).emit
      (.regRead (32 + c.val) 0x123 (s.core c).corrErr)) ∧
    exec (.rcRegisterRead (32 + c.val) 0x124) s = .next ((s.setCore c { s.core c with dropInt := 0 }).emit
      (.regRead (32 + c.val) 0x124 (s.core c).dropInt)) ∧
    exec (.rcRegisterRead 0 0x308) s = .next ({ s with pkg := { s.pkg with aclDeny := 0 } }.emit (.regRead 0 0x308 s.pkg.aclDeny))) ∧
  (∀ (p : PartId) (n : Nat) (s : State), n = 0x208 ∨ n = 0x209 ∨ n = 0x20C ∨ n = 0x217 → s.boot = .ready →
    ∃ t, exec (.rcRegisterRead (1 + p.val) n) s = .next t ∧ t.out = s.out ++ [.regRead (1 + p.val) n (readPartReg s p n)] ∧
      readPartReg t p n = 0 ∧ (∀ m, m ≠ n → readPartReg t p m = readPartReg s p m)) ∧
  (∀ (c : CoreId) (v : W64) (s : State), s.boot = .ready → (s.core c).queue = [] → (s.core c).spillCount = 0 → (s.core c).heldPushes = [] →
    exec (.spillConfigWrite c 0x121 v) s = .next (s.setCore c { s.core c with
      spillBase := v, spillHead := 0, spillTail := 0, spillCount := 0, spillRefused := false }) ∧
    (wbits v 0 5 = 0 ∨ 6 ≤ wbits v 0 5 ∧ wbits v 0 5 ≤ 16 → exec (.spillConfigWrite c 0x122 v) s = .next (s.setCore c { s.core c with
      spillSize := v.setWidth 5, spillHead := 0, spillTail := 0, spillCount := 0, spillRefused := false }))) ∧
  (∀ (c : CoreId) (n : Nat) (v : W64) (s : State), n = 0x121 ∨ n = 0x122 → s.boot = .ready → (s.core c).queue ≠ [] ∨ (s.core c).spillCount ≠ 0 →
    exec (.spillConfigWrite c n v) s = .next (s.setCore c { s.core c with spillRefused := true })) ∧
  (∀ (p : PartId) (v : W64) (s : State), s.boot = .ready → (∀ it, (s.itin it).state = .idle) → (∀ o, o ≠ p → (s.part o).itOwn = 0) →
    exec (.itOwnWrite p v) s = .next (s.setPart p { s.part p with itOwn := v &&& 0xFFFF })) ∧
  (∀ (p : PartId) (tier : Fin 4) (v : W64) (s : State), s.boot = .ready → ∃ t, exec (.freeListTailWrite p tier v) s = .next t ∧
    wbits ((t.part p).flCtl[tier.val]'tier.isLt) 28 28 = wbits v 28 28 ∧
    wbits ((t.part p).flCtl[tier.val]'tier.isLt) 0 28 = wbits ((s.part p).flCtl[tier.val]'tier.isLt) 0 28 ∧ t.mem = s.mem) ∧
  (∀ (s : State) (v : W64) (q : QueueId) (tail : BitVec 16) (w : Fin 5) (c : CoreId) (p : PartId) (tier : Fin 4) (b n : Nat),
    s.boot ≠ .ready → exec (.interruptPageWrite v) s = .next s ∧ exec (.hostQueueDoorbell q tail) s = .next s ∧
    exec (.hostQueuePageWrite q w v) s = .next s ∧ exec (.registerWrite b n v) s = .next s ∧ exec (.rcRegisterRead b n) s = .next s ∧
    exec (.spillConfigWrite c n v) s = .next s ∧ exec (.itOwnWrite p v) s = .next s ∧ exec (.freeListTailWrite p tier v) s = .next s)

/-- Configuration operations and weight-store locks (R222, R265, R330, R394, R395): a table load begins, and installs its table once the
partition is idle; a pool descriptor and a park class are installed when their checks pass; a lock takes effect when it may. -/
def Obligations.Configuration : Prop :=
  (∀ (v : W64) (s : State), s.boot = .ready → cfgBusy s = false → cfgBad v = false → cfgKind v = 1 → ∃ t, exec (.cfgTranslationTable v) s = .next t ∧
    cfgBusy t = true ∧ (t.part (cfgPart v)).loading = true ∧ (t.part (cfgPart v)).table = (s.part (cfgPart v)).table) ∧
  (∀ (p : PartId) (s : State) (bs : List Byte), cfgBusy s = true → cfgKind s.pkg.cfgOp = 1 → cfgPart s.pkg.cfgOp = p →
    partIdle s p = true → cfgBytes s p 8192 = .bytes bs → ((tableOf bs).filter (fun e => e.valid)).all (extentOk s) = true →
    disjoint ((tableOf bs).filter (fun e => e.valid)) = true → ∃ t, exec (.tableInstall p) s = .next t ∧
      (t.part p).table = (tableOf bs).filter (fun e => e.valid) ∧ (t.part p).loading = false ∧ cfgBusy t = false ∧
      wbits t.pkg.cfgOp 32 8 = 0 ∧ t.mem = s.mem) ∧
  (∀ (v : W64) (s : State) (bs : List Byte) (n : Pool), s.boot = .ready → cfgBusy s = false → cfgBad v = false → cfgKind v = 2 →
    s.partOf (cfgCore v) = some (cfgPart v) → cfgBytes s (cfgPart v) 32 = .bytes bs →
    n = poolOfWords (Vector.ofFn (fun i : Fin (2 ^ 2) => wordAt bs i.val)) → poolOk s (cfgCore v) (cfgPool v) n = true →
    ∃ t, exec (.cfgPoolDescriptor v) s = .next t ∧ (t.pool (cfgCore v) (cfgPool v)).desc = n.desc ∧
      (t.pool (cfgCore v) (cfgPool v)).tiles = (s.pool (cfgCore v) (cfgPool v)).tiles ∧ wbits t.pkg.cfgOp 32 8 = 0) ∧
  (∀ (v : W64) (s : State) (bs : List Byte), s.boot = .ready → cfgBusy s = false → cfgBad v = false → cfgKind v = 3 →
    cfgBytes s (cfgPart v) 16 = .bytes bs → classOk #v[wordAt bs 0, wordAt bs 1] = true → ∃ t, exec (.cfgParkClass v) s = .next t ∧
      rget (t.part (cfgPart v)).park (cfgClass v) = #v[wordAt bs 0, wordAt bs 1] ∧ wbits t.pkg.cfgOp 32 8 = 0) ∧
  (∀ (p : PartId) (s : State), s.boot = .ready → exec (.wsLockSet p) s = .next (s.setPart p { s.part p with wsWant := true }) ∧
    exec (.wsLockClear p) s = .next (s.setPart p { s.part p with wsWant := false })) ∧
  (∀ (p : PartId) (s : State), (s.part p).wsWant ≠ (s.part p).wsLocked →
    ((s.part p).wsWant = true → writingStore s p = false) →
    ((s.part p).wsWant = false → ∀ c ∈ coresOf s p, (s.core c).ctx.toList.any running = false) →
    ∃ t, exec (.wsLockEffect p) s = .next t ∧ (t.part p).wsLocked = (s.part p).wsWant ∧
      wbit t.pkg.wsLock p.val = (s.part p).wsWant ∧ t.mem = s.mem)

/-- The fabric's tables, ports and retrains (R409 to R412, R419, R421, R423). A load of the access-control table whose entries set no reserved
bit puts its 1,024 entries in force, and one of the group table, with no transfer in flight, the valid groups of its 255 entries; both are read
through partition 0's address space (log 19). A group table that waited for its windows is installed once they are empty. A write of mc_req
requests a retrain and sets busy; a requested retrain starts when no save before its deadline goes to its target (the target that holds the
first byte of the save's slot: log 20), a thermal one at once; its end puts the rate in force and clears busy. A port of an enabled lane group
that has trained is up, one that goes down is not; a bad flit and a replay only ask for the repetition (log 77). -/
def Obligations.FabricTablesAndPorts : Prop :=
  (∀ (s : State) (bs : List Byte), s.boot = .ready → fabricBytes s s.pkg.aclBase 16384 = some bs →
    ((List.range 1024).map (fun i => (#v[wordAt bs (2 * i), wordAt bs (2 * i + 1)] : File 1 W64))).all aclOk = true →
    ∃ t, exec .ldacl s = .next t ∧ t.acl = (List.range 1024).map (fun i => (#v[wordAt bs (2 * i), wordAt bs (2 * i + 1)] : File 1 W64)) ∧
      wbit t.pkg.fabLoad 9 = false ∧ t.mem = s.mem) ∧
  (∀ (s : State) (bs : List Byte), s.boot = .ready → fabricBytes s s.pkg.grpBase 8192 = some bs → s.transfers = [] →
    (∀ i, 1 ≤ i → i ≤ 255 → groupEntryOk #v[wordAt bs (4 * i), wordAt bs (4 * i + 1)] (wordAt bs (4 * i + 2)) (wordAt bs (4 * i + 3)) = true) →
    ∃ t, exec .ldgrp s = .next t ∧ wbit t.pkg.fabLoad 9 = false ∧ (∀ i, 1 ≤ i → i ≤ 255 → t.group i =
      if groupValid #v[wordAt bs (4 * i), wordAt bs (4 * i + 1)] then some #v[wordAt bs (4 * i), wordAt bs (4 * i + 1)] else none)) ∧
  (∀ (s : State) (new : List (Nat × File 1 W64)), s.groupLoad = some new → groupHeld s new = false →
    ∃ t, exec .groupTableInstall s = .next t ∧ t.groups = new ∧ t.groupLoad = none ∧ wbit t.pkg.fabLoad 8 = false) ∧
  (∀ (v : W64) (s : State), s.boot = .ready → wbit s.pkg.mcReq 31 = false → v.getLsbD 31 = true → wbits v 0 5 < 20 →
    ∃ t r, exec (.mcReq v) s = .next t ∧ t.retrains = s.retrains ++ [r] ∧ r.target = wbits v 0 5 ∧ r.rate.toNat = wbits v 8 2 ∧
      r.running = false ∧ wbit t.pkg.mcReq 31 = true) ∧
  (∀ (s : State) (r : Retrain), s.retrains = [r] → r.running = false → saveHolds s r.target = false →
    exec .retrainStart s = .next { s with retrains := [{ r with running := true, since := s.cycle }] }) ∧
  (∀ (target : Nat) (s : State), target < 20 → retraining s target = false → ∃ t r, exec (.thermalRetrain target) s = .next t ∧
    t.retrains = r :: s.retrains ∧ r.target = target ∧ r.thermal = true ∧ r.running = true ∧ t.mem = s.mem) ∧
  (∀ (target : Nat) (s : State) (r : Retrain), s.retrains = [r] → r.running = true → r.target = target → r.thermal = false →
    target < 20 → s.inbox = [] → ∃ t, exec (.retrainDone target) s = .next t ∧ t.retrains = [] ∧ t.rates[target]? = some r.rate ∧
      wbit t.pkg.mcReq 31 = false ∧ t.mem = s.mem) ∧
  (∀ (p : PortId) (s : State) (im : Image), s.image = some im → im.ports.getLsbD p.val = true →
    ∃ t, exec (.portTrained p) s = .next t ∧ wbit t.pkg.linkUp p.val = true ∧ t.mem = s.mem) ∧
  (∀ (p : PortId) (n : BitVec 12) (s : State), (∃ t, exec (.portDown p) s = .next t ∧ wbit t.pkg.linkUp p.val = false) ∧
    exec (.flitCrcError p n) s = .next (s.emit (.replay p n)) ∧ exec (.replayRequest p n) s = .next (s.emit (.resend p n)))

/-- Packets (R331, R386, R420, R422, R424, R425, R427): a packet of its kind that the access table admits performs, and its last one is
acknowledged; a DATA or LAUNCH packet waits behind one of its source that waits, and while the budget of its partition is exhausted (log
41); a record that finds its queue full is answered with NACK QOVF, and its ring is translated by die 0 (log 97); one that would reach
another partition's scratchpad is refused (log 46); a packet that the table refuses is counted and answered with NACK ACL and trap_info 0
(log 83); an answer gives up a member's place, and a NACK ends the transfer with its cause. -/
def Obligations.Packets : Prop :=
  (∀ (p : Packet) (s : State), received s p = true → pktKind p = 1 ∧ counterFits s p 0 = true ∨ pktKind p = 4 ∧ counterFits s p 1 = true →
    (∃ q ∈ s.inbox, pktSpkg q = pktSpkg p) →
    (pktKind p = 1 → exec (.data p) s = .next { s with inbox := s.inbox ++ [p] }) ∧
    (pktKind p = 4 → exec (.launch p) s = .next { s with inbox := s.inbox ++ [p] })) ∧
  (∀ (p : Packet) (s u : State) (q : Place) (c : CoreId), received s p = true → pktKind p = 1 → counterFits s p 0 = true →
    (∀ r ∈ s.inbox, pktSpkg r ≠ pktSpkg p) → p.h3.getLsbD 63 = false → c.val = wbits p.h3 32 9 →
    placeIn s (pktDpart p) c .write p.h1 p.payload.length = .ok q →
    u = (spendMem s (pktDpart p) (q.blocks p.payload.length)).writeAt q.key p.payload →
    (classOf p.h1 = 0 → s.partOf c ≠ some (pktDpart p) →
      exec (.data p) s = .next (answerPacket s p 3 (Cause.code .txlate) (txInfo p.h1 6))) ∧
    (s.partOf c = some (pktDpart p) → memReady s (pktDpart p) (q.blocks p.payload.length) = false →
      exec (.data p) s = .next { s with inbox := s.inbox ++ [p] }) ∧
    (memReady s (pktDpart p) (q.blocks p.payload.length) = true →
      (p.h3.getLsbD 62 = false → classOf p.h1 ≠ 0 ∨ s.partOf c = some (pktDpart p) → exec (.data p) s = .next (ackLast u p)) ∧
      (∀ k, p.h3.getLsbD 62 = true → s.partOf c = some (pktDpart p) → k = quadKey c (BitVec.ofNat 64 (wbits p.h3 0 24)) →
        exec (.data p) s = .next (ackLast (countSync (noteLanded u
          { via := .word k, dst := p.h1, shape := shPut (Vector.replicate _ 0) 0 1, run := p.payload.length }) k p.payload.length) p)))) ∧
  (∀ (p : Packet) (s : State), received s p = true → pktKind p = 1 → counterFits s p 0 = true → (∀ r ∈ s.inbox, pktSpkg r ≠ pktSpkg p) →
    p.h3.getLsbD 63 = true → pktLast p = false → (∀ r ∈ s.receives, r.spkg ≠ pktSpkg p) → exec (.data p) s = .next { s with
      receives := s.receives.filter (fun r => r.id != s.nextId) ++ [{ id := s.nextId, spkg := pktSpkg p, xfer := pktXfer p, packets := [p] }],
      nextId := s.nextId + 1 }) ∧
  (∀ (p : Packet) (s : State), received s p = true → pktKind p = 4 → counterFits s p 1 = true → p.payload.length = 64 →
    (∀ r ∈ s.inbox, pktSpkg r ≠ pktSpkg p) →
    (∀ t, fillSlot s (pktDpart p) (queueAt p.h1) p.payload = .ok t → exec (.launch p) s = .next (ackLast t p)) ∧
    (∀ t, fillSlot s (pktDpart p) (queueAt p.h1) p.payload = .wait t →
      exec (.launch p) s = .next { t with inbox := t.inbox ++ [p] }) ∧
    (fillSlot s (pktDpart p) (queueAt p.h1) p.payload = .full →
      exec (.launch p) s = .next (answerPacket s p 3 (Cause.code .qovf) 0))) ∧
  (∀ (s : State) (p : PartId) (q : QueueId) (bs : List Byte), (s.queue q).fabric = true → (s.queue q).part = p →
    (2 ^ (s.queue q).size ≤ (s.queue q).busy + (s.queue q).pending → fillSlot s p q bs = .full) ∧
    ((s.queue q).busy + (s.queue q).pending < 2 ^ (s.queue q).size →
      hostReach s p ((s.queue q).q0.toNat + 64 * ((s.queue q).tail % 2 ^ (s.queue q).size)) true = .ready →
      ∃ t, fillSlot s p q bs = .ok t ∧ (t.queue q).tail = ((s.queue q).tail + 1) % 2 ^ (s.queue q).size ∧
        t.mem = s.mem.writeRun (keyHost (s.part p).pid ((s.queue q).q0.toNat + 64 * ((s.queue q).tail % 2 ^ (s.queue q).size))) bs)) ∧
  (∀ (p : Packet) (s : State), received s p = true → pktKind p = 5 → counterFits s p 2 = true →
    wbits (leWord 64 (p.payload.take 8)) 32 4 = (pktDpart p).val → exec (.wakePacket p) s = .next (ackLast
      (wakeToken s (pktDpart p) (leWord 64 (p.payload.take 8)) (leWord 64 ((p.payload.drop 8).take 8))) p)) ∧
  (∀ (p : Packet) (s : State), received s p = true → pktKind p = 6 → counterFits s p 3 = true → ∃ t, exec (.barrier p) s = .next t ∧
    (pktDpart p, BitVec.ofNat 12 (wbits p.h3 0 12), BitVec.ofNat 16 (wbits p.h3 16 16), pktSpkg p) ∈ t.barriers ∧ t.mem = s.mem) ∧
  (∀ (p : Packet) (s : State), received s p = true → pktKind p = 1 → counterFits s p 0 = false →
    exec (.data p) s = .next (answerPacket (denyPacket s) p 3 0x14 0)) ∧
  (∀ (p : Packet) (s : State) (t : Transfer), received s p = true → answeredTransfer s p = some t →
    (pktKind p = 2 → exec (.ack p) s = .next (memberAnswered s t (pktSpkg p).toNat)) ∧
    (∀ cause c x k, pktKind p = 3 → Cause.ofCode (pktCause p) = cause → t.copy = some (c, x, k.id) →
      liveCopy (memberAnswered s t (pktSpkg p).toNat) c x k.id = some k →
      exec (.nack p) s = .next (failCopy (memberAnswered s t (pktSpkg p).toNat) c x k cause p.h3)) ∧
    (∀ cause it q, pktKind p = 3 → Cause.ofCode (pktCause p) = cause → t.copy = none → t.slip = some (it, q.num) →
      ((memberAnswered s t (pktSpkg p).toNat).itin it).flight = [q] →
      exec (.nack p) s = .next (failSlip (memberAnswered s t (pktSpkg p).toNat) it q cause)))

/-- Boot, reset, freeze, read-out and attestation (R8, R328, R402, R404, R428 to R433). The first step of a boot that fails stops it; one that
completes enables the host port and leaves out the cores that failed their test and those of dies that cannot be reached (from die 0: log
105). The reset does not reset memory, nor what stands outside the package: its errors to come, its agenda, what has left it (log 4, 50, 92); a
partition's reset returns its itineraries to IDLE and leaves the rest (log 84); a frozen package runs nothing (log 92), and SCANOUT shifts out
its chains where the image permits it, zeros otherwise. The bits of the chains, the signatures and the words of an attestation answer are
opaque values (log 10); the code 0x07 of a refused session is the SPDM standard's (log 89). -/
def Obligations.BootAndReadOut : Prop :=
  (∀ (b : BootInput) (s : State) (fails : Nat → Prop), s.boot = .powerOn →
    fails = (fun n => n ∈ b.broken ∨ (n = 2 ∧ Config.signed b.firmware = false) ∨ (n = 4 ∧ imageOk b = false) ∨ (n = 5 ∧ b.linksOk = false)) →
    (∀ n, 1 ≤ n → n ≤ 7 → fails n → (∀ m, 1 ≤ m → m < n → ¬ fails m) → exec (.boot b) s = .next (bootFail s n)) ∧
    ((∀ n, 1 ≤ n → n ≤ 7 → ¬ fails n) → ∃ t, exec (.boot b) s = .next t ∧ t.boot = .ready ∧ t.image = some (imageOf b.image) ∧
      t.firmware = b.firmware ∧ t.devices = b.devices ∧ (∀ c, c ∈ b.failed ∨ dieOf c ∉ reached b → (t.core c).out = true) ∧
      (∀ k, k < 2 ^ 31 → t.mem.read k = 0) ∧ (∀ k, 2 ^ 31 ≤ k → t.mem.read k = s.mem.read k))) ∧
  (∀ s : State, exec .packageReset s = .next { State.reset with
    mem := s.mem, poison := s.poison, ecc := s.ecc, upsets := s.upsets, agenda := s.agenda, out := s.out }) ∧
  (∀ s : State, exec .freezeSignal s = .next { s with frozen := true } ∧ exec .freeze s = .next { s with frozen := true, ir := 0x02 }) ∧
  (∀ s : State, exec .idcode s = .next ({ s with ir := 0x01 }.emit (.jtag (bitsOf 0x15058A6B))) ∧
    exec .status s = .next ({ s with ir := 0x03 }.emit (.jtag
      (bitsOf (BitVec.ofNat 32 (s.frozen.toNat + 2 * (readoutOk s).toNat)))))) ∧
  (∀ (s : State) (n : Nat),
    (s.frozen = true → readoutOk s = true →
      exec (.scanout n) s = .next ({ s with ir := 0x04 }.emit (.jtag ((List.range n).map (Config.scanBit (chains s)))))) ∧
    (s.frozen = false ∨ readoutOk s = false →
      exec (.scanout n) s = .next ({ s with ir := 0x04 }.emit (.jtag (List.replicate n false))))) ∧
  (∀ (s : State) (b : BypassScan),
    exec (.bypass b) s = .next ({ s with ir := b.code, bypass := b.tdi }.emit (.jtag [s.bypass]))) ∧
  (∀ (s : State) (code : BitVec 8), exec (.sessionRequest code) s = .next (s.emit (.spdm 0x7F [0x07, code.setWidth 64]))) ∧
  (∀ (s : State) (i : Instr) (code : BitVec 8) (n : Nat), attestation i = some (code, n) →
    ∃ ws, ws.length = n ∧ exec i s = .next (s.emit (.spdm code ws))) ∧
  (∀ (p : PartId) (s : State), ∃ t, exec (.partitionReset p) s = .next t ∧ t.mem = s.mem ∧ ∀ it,
    ((s.itin it).part = p → (t.itin it).state = .idle) ∧
    ((s.itin it).part = p → (s.itin it).state ≠ .idle → (t.itin it).flight = [] ∧ (t.itin it).cause = 0) ∧
    ((s.itin it).part ≠ p → t.itin it = s.itin it)) ∧
  (∀ s : State, s.frozen = true → s.agenda.head? ≠ some .packageReset → ∃ t, step s = .next t ∧
    t.frozen = true ∧ t.mem = s.mem ∧ t.cycle = s.cycle ∧ t.cores = s.cores)

/-- Refresh, power and failed banks (R151, R231, R235, R238, R243, R413, R434). Host translation and reported write-backs (R223, R224, R240,
R263, R369): an answer that comes while its context still runs is kept. The model's own readings: how beats are counted and where the
autonomous period starts (log 85), that a PRI answer of Success drops the die's old translation (log 90), stores that wait when a page is
invalidated (log 47), which entry leaves a full IOTLB (log 48), and the level of activations as an opaque value (log 41). -/
def Obligations.RefreshAndPower : Prop :=
  (∀ (d : DieId) (s : State), exec (.refreshWindow d) s = .next s) ∧
  (∀ (d : DieId) (s : State), ∃ t, exec (.heartbeat d) s = .next t ∧ (t.refreshOf d).beat = s.cycle ∧
    (s.cycle - (s.refreshOf d).beat ≤ 6400 → (t.refreshOf d).beats = (s.refreshOf d).beats + 1) ∧
    (6400 < s.cycle - (s.refreshOf d).beat → (t.refreshOf d).beats = 1) ∧ (t.refreshOf d).auto = (s.refreshOf d).auto) ∧
  (∀ (d : DieId) (s : State), (s.refreshOf d).auto = false → 12800 ≤ s.cycle - (s.refreshOf d).beat →
    ∃ t, exec (.autonomousRefresh d) s = .next t ∧ (t.refreshOf d).auto = true ∧ (t.refreshOf d).origin = s.cycle ∧ t.mem = s.mem) ∧
  (∀ (d : DieId) (s : State) (n : Nat), (s.refreshOf d).due = some n → (s.refreshOf d).auto = true → n ≤ s.cycle →
    ∃ t, exec (.refreshOwnershipReturn d) s = .next t ∧ (t.refreshOf d).auto = false ∧ (t.refreshOf d).origin = n ∧ (t.refreshOf d).back = some s.cycle ∧
      t.mem = s.mem) ∧
  (∀ (tier bank : Nat) (s : State),
    (aget 0 s.activations bank < Config.refreshLevel → exec (.refreshManagement tier bank) s = .next s) ∧
    (Config.refreshLevel ≤ aget 0 s.activations bank → exec (.refreshManagement tier bank) s = .next
      ({ s with activations := aset s.activations bank 0 }.emit (.refresh tier bank)))) ∧
  (∀ (c : CoreId) (s : State), ∃ t, exec (.powerAlarm c) s = .next t ∧ (t.core c).narrow = true ∧
    (t.core c).stretch = wantedStretch (t.core c) ∧ 4 ≤ (t.core c).stretch.toNat ∧
    stretchNow t (t.core c) = stretchNow s (s.core c) ∧ t.powerSince = some (s.powerSince.getD s.cycle) ∧ t.mem = s.mem) ∧
  (∀ (c : CoreId) (s : State), ∃ t, exec (.powerAlarmEnd c) s = .next t ∧ (t.core c).narrow = false ∧
    (t.core c).stretch = wantedStretch (t.core c) ∧
    ((∀ d, d ≠ c → (s.core d).narrow = false) → t.powerSince = none) ∧ t.mem = s.mem) ∧
  (∀ (s : State) (n : Nat), s.powerSince = some n → n + 2000000 ≤ s.cycle → exec .powerExcessNotify s = .next (s.emit .powerExcess)) ∧
  (∀ (c : CoreId) (bank : Fin 34) (s : State), (s.core c).degraded = [] → ∃ t, exec (.bankFailure c bank) s = .next t ∧
    (t.core c).degraded = [bank.val] ∧ (t.core c).out = (s.core c).out ∧ 4 ≤ (t.core c).stretch.toNat ∧ t.mem = s.mem) ∧
  (∀ (c : CoreId) (s : State), (s.core c).out = false → ∃ t, exec (.bankRebuildDone c) s = .next t ∧ (t.core c).degraded = [] ∧
    (t.core c).stretch = wantedStretch (t.core c) ∧ (∀ e ∈ t.ecc, e ∈ s.ecc ∧ (inScratch e.1 = true → keyCore e.1 = c → carried s e.1 = false)) ∧
    t.mem = s.mem) ∧
  (∀ (d : DieId) (e : TlbEntry) (n : Nat) (s : State), (e.pasid, n) ∈ rget s.asks (BitVec.ofNat 3 d.val) → e.page ≤ n → n < e.page + e.count →
    s.completions = [] → s.inbox = [] → cfgBusy s = false →
    ∃ t, exec (.atsTranslationCompletion d e) s = .next t ∧ e ∈ dieTlb t d ∧ (e.pasid, n) ∉ rget t.asks (BitVec.ofNat 3 d.val) ∧
      ((dieTlb s d).length < 16384 → ∀ u ∈ dieTlb s d, tlbMeets u e.pasid e.page e.count = false → u ∈ dieTlb t d) ∧ t.mem = s.mem) ∧
  (∀ (d : DieId) (pasid : BitVec 20) (page n : Nat) (s : State), ∃ t, exec (.atsInvalidationRequest d pasid page n) s = .next t ∧
    (∀ e ∈ dieTlb t d, tlbMeets e pasid page n = false) ∧ (∀ e ∈ dieTlb s d, tlbMeets e pasid page n = false → e ∈ dieTlb t d) ∧
    t.out = s.out ++ [.atsDone d pasid] ∧
    ((∀ (c : CoreId) (l : NearLine) (j : Nat), dieOf c = d → l ∈ (s.core c).near → l.dirty.getLsbD j = true →
      inPages page n (l.addr + BitVec.ofNat 64 j) = false) → t.mem = s.mem)) ∧
  (∀ (c : CoreId) (x : CtxId) (r : PriAnswer) (s : State) (va : W64), rget s.pages (BitVec.ofNat 3 (dieOf c).val) = [PageAsk.mk c x false va] →
    (s.ctx c x).asked = some (va, none) →
    (∀ f, (s.ctx c x).phase = .waitPage f → r = .success → ∃ t, exec (.priPageResponse c x r) s = .next t ∧
      (t.ctx c x).phase = (s.ctx c x).going ∧ (t.ctx c x).asked = none ∧ (t.ctx c x).r = (s.ctx c x).r ∧
      rget t.pages (BitVec.ofNat 3 (dieOf c).val) = [] ∧
      (∀ e ∈ dieTlb t (dieOf c), tlbMeets e (s.part (s.partIdOf c)).pid (va.toNat / 4096) 1 = false) ∧ t.mem = s.mem) ∧
    (∀ f, (s.ctx c x).phase = .waitPage f → r ≠ .success → ∃ t, exec (.priPageResponse c x r) s
        = .next (deliver t c x .page (f.info ||| 1) f.pc f.words) ∧ (t.ctx c x).asked = none ∧ (t.ctx c x).r = (s.ctx c x).r ∧ t.mem = s.mem) ∧
    ((s.ctx c x).phase = .running → ∃ t, exec (.priPageResponse c x r) s = .next t ∧ (t.ctx c x).asked = some (va, some r) ∧
      (t.ctx c x).phase = .running ∧ (t.ctx c x).r = (s.ctx c x).r ∧ t.mem = s.mem)) ∧
  (∀ (c : CoreId) (x : CtxId) (r : PriAnswer) (s : State) (va : W64) (k : Copy),
    rget s.pages (BitVec.ofNat 3 (dieOf c).val) = [PageAsk.mk c x true va] → (s.engine c x).copies = [k] → k.page = some va →
    (r = .success → ∃ t, exec (.priPageResponse c x r) s = .next t ∧ (t.engine c x).copies = [{ k with page := none }] ∧ t.mem = s.mem) ∧
    (r ≠ .success → exec (.priPageResponse c x r) s = .next (failCopy
      { s with pages := rset s.pages (BitVec.ofNat 3 (dieOf c).val) [] } c x k .page (va ||| 1)))) ∧
  (∀ (c : CoreId) (line : W64) (s : State) (e : Extent) (pa : Nat), placeByte s c .peek (lineOf line) = .ok (.tier e pa) →
    ∃ t, exec (.writebackPoison c line) s = .next t ∧ (Place.tier e pa).key ∈ t.poison ∧
      (t.core c).poisoned = (s.core c).poisoned ++ [lineOf line] ∧ t.mem = s.mem)

/-! The machine as a whole. -/

/-- A slot that is off changes nothing, but holds its bundle for an empty destination; a slot that is on holds it for an empty source, or
raises EMPTY outside handler mode when the source has its trap-on-empty bit set (R26, R38, R39). Said for two-source scalar and vector
arithmetic, loads, stores and atomics. -/
def Obligations.GuardedOffAndEmpty : Prop :=
  (∀ (i : Instr) (f : RRR) (n : Nat) (op : W64 → W64 → W64) (s : State), aluRule i = some (f, n, op) →
    (s.src.fullS f.d = false → Holds s (exec i s)) ∧
    (s.src.fullS f.d = true →
      (on s f.g = false → exec i s = .next s) ∧
      (on s f.g = true → s.src.fullS f.a = false → f.ta = false → Holds s (exec i s)) ∧
      (on s f.g = true → s.src.fullS f.a = false → f.ta = true → s.src.fullS f.b = true → s.me.handler = false →
        Raises s (exec i s) .empty 0) ∧
      (on s f.g = true → s.src.fullS f.a = true → s.src.fullS f.b = false → f.tb = true → s.me.handler = false →
        Raises s (exec i s) .empty 0))) ∧
  (∀ (i : Instr) (f : RRR) (n : Nat) (old : Bool) (op : W32 → W32 → W32 → W32 × BitVec 5) (s : State),
    vectorRule i = some (f, n, old, op) →
    (s.src.fullV f.d = false → Holds s (exec i s)) ∧
    (s.src.fullV f.d = true → s.src.getG f.g = 0 → exec i s = .next s)) ∧
  (∀ (i : Instr) (f : RRI) (n : Nat) (signed : Bool) (s : State), loadRule i = some (f, n, signed) →
    (s.src.fullS f.d = false → Holds s (exec i s)) ∧
    (s.src.fullS f.d = true → (on s f.g = false → exec i s = .next s) ∧
      (on s f.g = true → s.src.fullS f.a = false → Holds s (exec i s)))) ∧
  (∀ (i : Instr) (f : RRI) (n : Nat) (s : State), storeRule i = some (f, n) → (on s f.g = false → exec i s = .next s) ∧
    (on s f.g = true → s.src.fullS f.d = false → Holds s (exec i s)) ∧
    (on s f.g = true → s.src.fullS f.a = false → Holds s (exec i s))) ∧
  (∀ (i : Instr) (f : AT) (op : AtomOp) (s : State), atomicRule i = some (f, op) →
    (s.src.fullS f.d = false → Holds s (exec i s)) ∧
    (s.src.fullS f.d = true → (on s f.g = false → exec i s = .next s) ∧
      (on s f.g = true → s.src.fullS f.a = false → Holds s (exec i s))))

/-- The frame of a slot whose statement is an equation with `result`, `startOp`, `pop`, `transfer` or `verdict`: a result in flight adds one
latch to the issuing context, an outstanding operation adds one operation (a load after a drain of its own bundle has sampled what the bundle
found) and takes its destination, the others touch only the bundle in
flight; every other register, context, core, byte of memory and device state is as before (R18, R21 to R24). -/
def Obligations.ResultFrame : Prop :=
  (∀ (s : State) (d : Dest) (m : W64) (v : Row) (fl : BitVec 5) (n : Nat),
    (result s d m v fl n).me = { s.me with
      r := { s.me.r with latches := s.me.r.latches ++ [Latch.mk d m v fl (if s.me.handler then 1 else n)] } } ∧
    { result s d m v fl n with cores := s.cores } = s ∧
    (∀ c, { (result s d m v fl n).core c with ctx := (s.core c).ctx } = s.core c) ∧
    (∀ c x, (c, x) ≠ (s.issue.core, s.issue.ctx) → (result s d m v fl n).ctx c x = s.ctx c x)) ∧
  (∀ (s : State) (d : BitVec 5) (kind : OpKind),
    (startOp s (opS d) kind).me.ops = s.me.ops ++ [Op.mk s.nextId (opS d) (if s.issue.drained then kind.sampled s.before s.issue.core else kind)
      (s.me.epoch + s.me.handler.toNat) s.issue.pc s.issue.words] ∧
    { startOp s (opS d) kind with cores := s.cores, nextId := s.nextId } = s ∧
    { (startOp s (opS d) kind).me with r := s.me.r, ops := s.me.ops } = s.me ∧
    (∀ c, { (startOp s (opS d) kind).core c with ctx := (s.core c).ctx } = s.core c) ∧
    (∀ c x, (c, x) ≠ (s.issue.core, s.issue.ctx) → (startOp s (opS d) kind).ctx c x = s.ctx c x)) ∧
  (∀ (s : State) (keep : Bool) (rs : List (BitVec 5)), { pop s keep rs with issue := s.issue } = s) ∧
  (∀ (s : State) (t : Transfer1) (v : Verdict), { s.transfer t with issue := s.issue } = s ∧ { s.verdict v with issue := s.issue } = s)

/-- A latch with n bundles to go lands at the n-th bundle issued after it, before that bundle's sources are read, and until then the
register is as it was; two that land together land in issue order; what landing writes; an array whose ownership
has ended is cleared once its last drain has landed (R14, R22 to R24, R40, R141). -/
def Obligations.Landing : Prop :=
  (∀ (r : Regs) (l : Latch), r.latches = [l] → 0 < l.left → r.clearing = false →
    (∀ m, m < l.left → Regs.landAll^[m] r = { r with latches := [{ l with left := l.left - m }] }) ∧
    Regs.landAll^[l.left] r = Regs.land { r with latches := [] } l) ∧
  (∀ (r : Regs) (l k : Latch), r.latches = [l, k] → l.left = k.left → 0 < l.left → r.clearing = false →
    Regs.landAll^[l.left] r = Regs.land (Regs.land { r with latches := [] } l) k) ∧
  (∀ (r : Regs) (l : Latch), r.latches = [l] → 0 < l.left → r.clearing = true → l.drains = true →
    (∀ m, m < l.left → Regs.landAll^[m] r = { r with latches := [{ l with left := l.left - m }] }) ∧
    Regs.landAll^[l.left] r = (Regs.land { r with latches := [] } l).clearArray) ∧
  (∀ (r : Regs) (l : Latch), (∀ i : Nat, (r.land l).fpctl.getLsbD i
      = (r.fpctl.getLsbD i || (decide (8 ≤ i) && l.flags.getLsbD (i - 8))))) ∧
  (∀ (r : Regs) (l : Latch) (d : BitVec 5) (x : W64), l.dest = .scalar d → l.value = rowOfWord x → d ≠ 0 →
    (r.land l).getS d = x ∧ (∀ e, e ≠ d → (r.land l).getS e = r.getS e) ∧ (∀ e, (r.land l).fullS e = r.fullS e)) ∧
  (∀ (r : Regs) (l : Latch) (d : BitVec 5), l.dest = .vector d → d.toNat < 28 →
    (∀ i, i < 64 → lane ((r.land l).getV d) i = if l.mask.getLsbD i then lane l.value i else lane (r.getV d) i) ∧
    (∀ e, e ≠ d → (r.land l).getV e = r.getV e)) ∧
  (∀ (r : Regs) (d : BitVec 5) (m x : W64) (fl : BitVec 5) (n i : Nat), d = 2 ∨ d = 4 ∨ d = 6 → i < 64 →
    ((r.land (Latch.mk (.pair (BitVec.ofNat 3 d.toNat)) m (BitVec.ofNat 2048 (x.toNat + (~~~x).toNat * 2 ^ 64)) fl
        n)).getG (BitVec.ofNat 3 d.toNat)).getLsbD i
      = (if m.getLsbD i then x.getLsbD i else (r.getG (BitVec.ofNat 3 d.toNat)).getLsbD i) ∧
    ((r.land (Latch.mk (.pair (BitVec.ofNat 3 d.toNat)) m (BitVec.ofNat 2048 (x.toNat + (~~~x).toNat * 2 ^ 64)) fl
        n)).getG (BitVec.ofNat 3 (d.toNat + 1))).getLsbD i
      = (if m.getLsbD i then !x.getLsbD i else (r.getG (BitVec.ofNat 3 (d.toNat + 1))).getLsbD i))

/-- A checkpoint takes the context's state as it stands, empties its gate, and frees an array that it released since the last one, be it one
that it acquired since then; a rollback brings that state back, discards the gate, the fences and the results of operations issued since,
and leaves memory, the time and every other context as they are (R366 to R369, R378). -/
def Obligations.CheckpointAndRollback : Prop :=
  (∀ (s : State) (c : CoreId) (x : CtxId), ((commit s c x).ctx c x).ck = ((commit s c x).ctx c x).r ∧
    ((commit s c x).ctx c x).r = (s.ctx c x).r ∧ ((commit s c x).ctx c x).gate = [] ∧
    ((commit s c x).ctx c x).epoch = (s.ctx c x).epoch + 1 ∧ ((commit s c x).ctx c x).moved = false ∧
    ((commit s c x).ctx c x).eccRetried = ((s.ctx c x).eccRetried && !(s.ctx c x).moved) ∧
    ((s.ctx c x).gate = [] → (commit s c x).mem = s.mem) ∧
    ((commit s c x).ctx c x).arrayKept = false ∧
    ((s.ctx c x).ck.owns = true ∨ (s.ctx c x).arrayKept = true → (s.ctx c x).r.owns = false →
      ((commit s c x).core c).arrayFreed = s.cycle ∧ ((commit s c x).core c).arrayLast = x)) ∧
  (∀ (s : State) (c : CoreId) (x : CtxId), ((rollBack s c x).ctx c x).r = (s.ctx c x).ck ∧
    ((rollBack s c x).ctx c x).ck = (s.ctx c x).ck ∧ ((rollBack s c x).ctx c x).gate = [] ∧ ((rollBack s c x).ctx c x).hgate = [] ∧
    ((rollBack s c x).ctx c x).commitDue = false ∧
    ((rollBack s c x).ctx c x).fences = (s.ctx c x).fences.filter (fun f => f.byHandler || decide (f.epoch < (s.ctx c x).epoch)) ∧
    ((rollBack s c x).ctx c x).ops = (s.ctx c x).ops.filter (fun o => decide (o.epoch < (s.ctx c x).epoch)) ∧
    (∀ i, i ∈ ((rollBack s c x).ctx c x).badRows ↔ i ∈ (s.ctx c x).badRows ∧ (s.ctx c x).r.rows[i]? = (s.ctx c x).ck.rows[i]?) ∧
    (rollBack s c x).mem = s.mem ∧ (rollBack s c x).cycle = s.cycle ∧
    (∀ d y, (d, y) ≠ (c, x) → (rollBack s c x).ctx d y = s.ctx d y))

/-- Taking an exception by rollback (R369, R370, R372, R373, R390): the registers return to the checkpoint, the trap registers say what was
raised and where, and the handler is entered at its address with the checkpoint's registers kept for the return; without a handler, and from
a handler-mode bundle, whose trap_pc and frame are written anew (the model's reading, log 56), the continuation ends with the cause; an
uncorrectable error in what the rollback restores ends it with ECCUE (R378). -/
def Obligations.ExceptionEntry : Prop :=
  ∀ (s : State) (c : CoreId) (x : CtxId) (cause : Cause) (info : W64) (pc : CodeAddr) (words : Nat),
    ((s.ctx c x).badStore = true → ∃ t, deliver s c x cause info pc words = endWith t c x (Cause.code .eccue) 0x8000000000000000 false false ∧
      (t.ctx c x).r = (s.ctx c x).ck ∧ (t.ctx c x).trapPc = pc ∧ (t.ctx c x).trapInfo = 0x8000000000000000) ∧
    ((s.ctx c x).badStore = false →
      ((s.ctx c x).handler = true →
        deliver s c x cause info pc words = endWith (framed s c x cause info pc words) c x cause.code info true false) ∧
      ((s.ctx c x).handler = false → handlerAt (framed s c x cause info pc words) c cause.code = 0 →
        deliver s c x cause info pc words = endWith (framed s c x cause info pc words) c x cause.code info false false) ∧
      ((s.ctx c x).handler = false → handlerAt (framed s c x cause info pc words) c cause.code ≠ 0 →
        ∃ k, (deliver s c x cause info pc words).ctx c x = k ∧ k.handler = true ∧ k.replayEntry = false ∧ k.phase = .running ∧
          k.r.pc = handlerAt (framed s c x cause info pc words) c cause.code ∧ k.r.latches = [] ∧
          (∀ d, k.r.getS d = (s.ctx c x).ck.getS d) ∧ (∀ d, k.r.getV d = (s.ctx c x).ck.getV d) ∧
          k.frame = some (s.ctx c x).ck ∧ k.ck = (s.ctx c x).ck ∧ k.gate = [] ∧ k.trapPc = pc ∧ k.trapInfo = info ∧
          k.trapCause = BitVec.ofNat 64 (cause.code.toNat + words % 16 * 2 ^ 8) ∧ k.eretCtl = 0 ∧
          k.eretPc = BitVec.ofNat 64 pc.toNat ∧ k.k = (s.ctx c x).k))

/-- The return from an exception (R274, R369, R374, R375, R392), by the form in eret_ctl. Form 0 resumes at the checkpoint, after a replay
entry at trap_pc with the latches re-injected and with what the entry found the context doing, or delivers the fault held meanwhile. Form 1
resumes at eret_pc, which must be a multiple of 4. Form 2 ends the continuation with the status given, or completes it. A form that may not
be used ends it. An error in what the resume would commit ends it with ECCUE (R378). The model's readings: the handler's stores stay apart
until the return (log 56), a checkpoint that a grant made due meanwhile commits where the run goes on (log 57), and form 2 with status 0
completes as a stop does (log 58). -/
def Obligations.ExceptionReturn : Prop :=
  ∀ (s : State) (c : CoreId) (x : CtxId),
    (wbits (s.ctx c x).eretCtl 0 2 = 0 → (s.ctx c x).held = none → (s.ctx c x).replayEntry = false → (s.ctx c x).badStore = false →
      ((eretCtx s c x).ctx c x).r = { reload s c x with pc := (s.ctx c x).ck.pc } ∧
      ((eretCtx s c x).ctx c x).ck = ((eretCtx s c x).ctx c x).r ∧ ((eretCtx s c x).ctx c x).handler = false ∧
      ((eretCtx s c x).ctx c x).phase = (s.ctx c x).going) ∧
    (wbits (s.ctx c x).eretCtl 0 2 = 0 → (s.ctx c x).held = none → (s.ctx c x).replayEntry = false → (s.ctx c x).badStore = true →
      ∃ t, eretCtx s c x = endBad t c x (s.ctx c x).ck.pc 0) ∧
    (wbits (s.ctx c x).eretCtl 0 2 = 0 → (s.ctx c x).held = none → (s.ctx c x).replayEntry = true →
      ((s.ctx c x).commitDue = true → (s.ctx c x).badStore = false) →
      ((s.ctx c x).paused.isSome = true → (s.ctx c x).asked.any (fun a => a.2.isSome) = false) →
      ((eretCtx s c x).ctx c x).r = { reload s c x with pc := (s.ctx c x).trapPc } ∧ ((eretCtx s c x).ctx c x).handler = false ∧
      ((eretCtx s c x).ctx c x).phase = (s.ctx c x).paused.getD (s.ctx c x).going ∧
      ((s.ctx c x).commitDue = false → ((eretCtx s c x).ctx c x).ck = (s.ctx c x).ck ∧ (eretCtx s c x).mem = s.mem) ∧
      ((s.ctx c x).commitDue = true → ((eretCtx s c x).ctx c x).ck = ((eretCtx s c x).ctx c x).r)) ∧
    (∀ f, wbits (s.ctx c x).eretCtl 0 2 = 0 → (s.ctx c x).held = some f → ∃ t, (t.ctx c x).handler = false ∧
      (t.ctx c x).ck = (s.ctx c x).ck ∧ t.mem = s.mem ∧
      (f.cause = .page → eretCtx s c x = waitHost t c x f) ∧
      (f.cause = .eccue → (s.ctx c x).eccRetried = false → f.info.getLsbD 0 = false → eretCtx s c x = retry t c x f) ∧
      (f.cause = .eccue → (s.ctx c x).eccRetried = true ∨ f.info.getLsbD 0 = true →
        eretCtx s c x = deliver t c x f.cause f.info f.pc f.words) ∧
      (f.cause ≠ .page → f.cause ≠ .eccue → eretCtx s c x = deliver t c x f.cause f.info f.pc f.words)) ∧
    (wbits (s.ctx c x).eretCtl 0 2 = 1 → (s.ctx c x).replayEntry = false → (s.ctx c x).eretPc.toNat % 4 = 0 → (s.ctx c x).badStore = false →
      ((eretCtx s c x).ctx c x).r = { reload s c x with pc := BitVec.ofNat 48 (s.ctx c x).eretPc.toNat } ∧
      ((eretCtx s c x).ctx c x).ck = ((eretCtx s c x).ctx c x).r ∧ ((eretCtx s c x).ctx c x).handler = false) ∧
    (wbits (s.ctx c x).eretCtl 0 2 = 1 → (s.ctx c x).replayEntry = false → (s.ctx c x).eretPc.toNat % 4 = 0 → (s.ctx c x).badStore = true →
      ∃ t, eretCtx s c x = endBad t c x (BitVec.ofNat 48 (s.ctx c x).eretPc.toNat) 0) ∧
    (wbits (s.ctx c x).eretCtl 0 2 = 1 → (s.ctx c x).replayEntry = false → (s.ctx c x).eretPc.toNat % 4 ≠ 0 →
      ∃ t, eretCtx s c x = endWith t c x (Cause.code .align) (s.ctx c x).eretPc true false) ∧
    (wbits (s.ctx c x).eretCtl 0 2 = 2 →
      (wbits (s.ctx c x).eretCtl 8 8 = 0 → ((eretCtx s c x).ctx c x).phase = .suspending .stop (s.ctx c x).trapPc ∧
        ((eretCtx s c x).ctx c x).handler = false ∧ (eretCtx s c x).mem = s.mem) ∧
      (wbits (s.ctx c x).eretCtl 8 8 ≠ 0 → ∃ t, (t.ctx c x).r = (s.ctx c x).ck ∧ t.mem = s.mem ∧
        eretCtx s c x = endWith t c x (BitVec.ofNat 8 (wbits (s.ctx c x).eretCtl 8 8)) (s.ctx c x).trapInfo false false)) ∧
    ((wbits (s.ctx c x).eretCtl 0 2 = 3 ∨ wbits (s.ctx c x).eretCtl 0 2 = 1 ∧ (s.ctx c x).replayEntry = true) →
      ∃ t, eretCtx s c x = endWith t c x (Cause.code .ill) 0 true false)

/-- A read after a write of memory gives the byte written inside the run and the byte from before outside it, and a write keeps the
canonical form: addresses strictly rising, no byte listed that an unlisted address reads as (R28, R29). The canonical form, and that a byte
nothing has written reads as zero, are the model's own (log 5). -/
def Obligations.MemoryReadsWrites : Prop :=
  (∀ (m : Memory) (k j : Nat) (bs : List Byte),
    (m.writeRun k bs).read j = if k ≤ j ∧ j < k + bs.length then bs.getD (j - k) 0 else m.read j) ∧
  (∀ (m : Memory) (k : Nat) (bs : List Byte), m.wf = true → (m.writeRun k bs).wf = true) ∧
  (∀ m n : Memory, m.wf = true → n.wf = true → (∀ j, m.read j = n.read j) → m = n)

/-- What the device reset leaves (R266, R388, R428): the machine waits for its boot, no context holds a continuation, every tile is FREE
with generation 0, no table, record, copy, lock or retrain is there, and memory lists nothing, so that it reads zero (the model's choice where the
spec gives no reset contents, log 5); what a context that has started nothing holds is its choice too (log 6). -/
def Obligations.ResetValues : Prop :=
  State.reset.boot = .powerOn ∧ State.reset.image = none ∧ State.reset.frozen = false ∧ State.reset.mem = [] ∧
  State.reset.mem.wf = true ∧ State.reset.teams = [] ∧ State.reset.gangs = [] ∧ State.reset.shelf = [] ∧ State.reset.retrains = [] ∧
  (∀ (c : CoreId) (x : CtxId), (State.reset.ctx c x).phase = .idle ∧ (State.reset.ctx c x).handler = false ∧
    (State.reset.ctx c x).gate = [] ∧ (State.reset.engine c x).copies = [] ∧ (State.reset.core c).queue = [] ∧
    (State.reset.core c).saveBase = 0) ∧
  (∀ (c : CoreId) (q : Fin 16) (i : Nat), ((State.reset.pool c q).tile i).state = .free ∧ ((State.reset.pool c q).tile i).gen = 0) ∧
  (∀ p : PartId, (State.reset.part p).table = [] ∧ (State.reset.part p).hbase = 0 ∧ (State.reset.part p).wsLocked = false)

/-- Words written out from the spec's encodings decode to what they stand for: one of each of the classes S, C, L, V, F, M, X and Q, and
three with literals or other fields (R32, R41, R49, R60). -/
def Obligations.DecodeWords : Prop :=
  decodeSlot 0x01406110 0 = .ok (.mul { g := 0, d := 3, a := 1, b := 2, ta := false, tb := false, h := false }) ∧
  decodeSlot 0x00A88300 0x3E8 = .ok (.addi { g := 2, d := 4, a := 3, imm := 0, lit := some 0x3E8 }) ∧
  decodeSlot 0x9053FFC0 0 = .ok (.br { g := 4, off := 0x3FFC0, lit := none }) ∧
  decodeSlot 0x1180600C 0 = .ok (.loop { g := 0, d := 3, imm := 12, lit := none }) ∧
  decodeSlot 0x21A0E200 0x1000 = .ok (.ldd { g := 0, d := 7, a := 2, imm := 0, lit := some 0x1000 }) ∧
  decodeSlot 0x2800C91C 0 = .ok (.amocas { g := 0, d := 6, a := 9, ord := 3, scope := 4 }) ∧
  decodeSlot 0x30007C23 0 = .ok (.vadd { g := 0, d := 3, a := 28, b := 4, ta := false, tb := true, h := true }) ∧
  decodeSlot 0x4100A158 0 = .ok (.vqmx { g := 0, d := 5, a := 1, fmt := 5, rnd := 2, sat := false, ta := false }) ∧
  decodeSlot 0x50800141 0 = .ok (.macc { g := 0, d := 0, a := 1, b := 8, ta := false, tb := false, z := true }) ∧
  decodeSlot 0x60424433 0 = .ok (.cpy { g := 0, kind := 2, sh := 2, a := 4, b := 6, tok := 3 }) ∧
  decodeSlot 0x7180E200 0 = .ok (.futwait { g := 0, d := 7, a := 2, ta := false, tb := false, h := false })

/-- A step runs the decoded instruction (R18, R19). The event at the head of the agenda runs by itself, before any issue slot (the model's
order, log 1, log 2), and the step is its meaning. With nothing on the agenda the core whose turn it is has its issue slot; when the bundle
there is one instruction followed by nops, the step is the instruction's meaning and the end of the bundle: the pc, the loop stack, the
checkpoint and the cycle go on; a cause that it raises is taken from the state before the bundle. The instructions of a bundle are what its
words decode to. -/
def Obligations.StepRuns : Prop :=
  (∀ (s u : State) (i : Instr) (rest : List Instr), s.agenda = i :: rest → isEvent i = true → s.frozen = false →
    exec i (dropEvent s) = .next u → u.issue.live = false → step s = .next u) ∧
  (∀ (s u v : State) (i : Instr) (n : Nat), s.agenda = [] → s.auto = false →
    issueSlot (dropEvent s) s.turn = u → u.issue.live = true → u.issue.slots = i :: List.replicate n .nop →
    exec i (u.atSlot 0) = .next v →
    (v.issue.verdict = .ok → step s = .next (endBundle (if n = 0 then v else v.atSlot n))) ∧
    (∀ cause info e, v.issue.verdict = .raised cause info e → step s = .next (raise u cause info e).pass) ∧
    (v.issue.verdict = .left → step s = .next v.pass)) ∧
  (∀ s : State, s.agenda = [] → s.auto = false → (issueSlot (dropEvent s) s.turn).issue.live = false →
    step s = .next (issueSlot (dropEvent s) s.turn)) ∧
  (∀ (s u : State) (c : CoreId) (x : CtxId), prepare s c x = .ready u → u.issue.core = c ∧ u.issue.ctx = x ∧ u.issue.live = true ∧
    ∃ slots words, nextBundle s c x = .good slots words ∧ u.issue.words = words ∧
      u.issue.slots = slots.filterMap (fun sl => sl.instr.toOption)) ∧
  (∀ (m : BundleMode) (get : CodeAddr → Except W64 W32) (pc : CodeAddr) (a b c d : W32), m.handler = false →
    get pc = .ok a → get (pc + 4) = .ok b → get (pc + 4 + 4) = .ok c → get (pc + 4 + 4 + 4) = .ok d →
    stopBit a = false → stopBit b = false → stopBit c = false → stopBit d = true →
    litBit a = false → litBit b = false → litBit c = false → litBit d = false →
    decodeBundle m get pc = match checkBundle m ([a, b, c, d].map (fun w => { word := w, instr := decodeSlot w 0 })) 4 with
      | some (cause, n) => .bad cause (BitVec.ofNat 64 n) 4
      | none => .good ([a, b, c, d].map (fun w => { word := w, instr := decodeSlot w 0 })) 4)

/-- Decoding undoes encoding: the words of a well-formed instruction decode to it, whatever its operands (R32 to R37, R41). -/
def Obligations.RoundTrip : Prop :=
  ∀ (i : Instr) (w : W32) (ws : List W32), i.wf = true → encode i = w :: ws → decodeSlot w (ws.headD 0) = .ok i

/-- No step leaves a bundle part done (R18): from every state, a step ends with no bundle in flight, and it ends in a next state. -/
def Obligations.StepInvariant : Prop :=
  ∀ s : State, ∃ t, step s = .next t ∧ t.issue.live = false

/-- No bundle is in flight after reset. -/
def Obligations.InvariantAtReset : Prop :=
  State.reset.issue.live = false
end

