-- ==== Sys2Proof/Laws/Arms.lean ====
section
/-! SUPPORT. The meaning that `exec` calls for each instruction: one equation per arm, so that no proof unfolds the dispatch. -/

namespace Sys2Proof.Machine

@[simp] theorem exec_add (f : RRR) (s : State) : exec (.add f) s = execAdd f s := rfl
@[simp] theorem exec_sub (f : RRR) (s : State) : exec (.sub f) s = execSub f s := rfl
@[simp] theorem exec_addi (f : RRI) (s : State) : exec (.addi f) s = execAddi f s := rfl
@[simp] theorem exec_li (f : RI) (s : State) : exec (.li f) s = execLi f s := rfl
@[simp] theorem exec_addpc (f : RI) (s : State) : exec (.addpc f) s = execAddpc f s := rfl
@[simp] theorem exec_mul (f : RRR) (s : State) : exec (.mul f) s = execMul f s := rfl
@[simp] theorem exec_mulh (f : RRR) (s : State) : exec (.mulh f) s = execMulh f s := rfl
@[simp] theorem exec_mulhu (f : RRR) (s : State) : exec (.mulhu f) s = execMulhu f s := rfl
@[simp] theorem exec_div (f : RRR) (s : State) : exec (.div f) s = execDiv f s := rfl
@[simp] theorem exec_divu (f : RRR) (s : State) : exec (.divu f) s = execDivu f s := rfl
@[simp] theorem exec_rem (f : RRR) (s : State) : exec (.rem f) s = execRem f s := rfl
@[simp] theorem exec_remu (f : RRR) (s : State) : exec (.remu f) s = execRemu f s := rfl
@[simp] theorem exec_and (f : RRR) (s : State) : exec (.and f) s = execAnd f s := rfl
@[simp] theorem exec_or (f : RRR) (s : State) : exec (.or f) s = execOr f s := rfl
@[simp] theorem exec_xor (f : RRR) (s : State) : exec (.xor f) s = execXor f s := rfl
@[simp] theorem exec_andn (f : RRR) (s : State) : exec (.andn f) s = execAndn f s := rfl
@[simp] theorem exec_andi (f : RRI) (s : State) : exec (.andi f) s = execAndi f s := rfl
@[simp] theorem exec_ori (f : RRI) (s : State) : exec (.ori f) s = execOri f s := rfl
@[simp] theorem exec_xori (f : RRI) (s : State) : exec (.xori f) s = execXori f s := rfl
@[simp] theorem exec_shl (f : RRR) (s : State) : exec (.shl f) s = execShl f s := rfl
@[simp] theorem exec_shr (f : RRR) (s : State) : exec (.shr f) s = execShr f s := rfl
@[simp] theorem exec_sar (f : RRR) (s : State) : exec (.sar f) s = execSar f s := rfl
@[simp] theorem exec_rol (f : RRR) (s : State) : exec (.rol f) s = execRol f s := rfl
@[simp] theorem exec_shli (f : RRI) (s : State) : exec (.shli f) s = execShli f s := rfl
@[simp] theorem exec_shri (f : RRI) (s : State) : exec (.shri f) s = execShri f s := rfl
@[simp] theorem exec_sari (f : RRI) (s : State) : exec (.sari f) s = execSari f s := rfl
@[simp] theorem exec_min (f : RRR) (s : State) : exec (.min f) s = execMin f s := rfl
@[simp] theorem exec_max (f : RRR) (s : State) : exec (.max f) s = execMax f s := rfl
@[simp] theorem exec_minu (f : RRR) (s : State) : exec (.minu f) s = execMinu f s := rfl
@[simp] theorem exec_maxu (f : RRR) (s : State) : exec (.maxu f) s = execMaxu f s := rfl
@[simp] theorem exec_clz (f : RR) (s : State) : exec (.clz f) s = execClz f s := rfl
@[simp] theorem exec_ctz (f : RR) (s : State) : exec (.ctz f) s = execCtz f s := rfl
@[simp] theorem exec_popc (f : RR) (s : State) : exec (.popc f) s = execPopc f s := rfl
@[simp] theorem exec_bfx (f : RRR) (s : State) : exec (.bfx f) s = execBfx f s := rfl
@[simp] theorem exec_bfi (f : RRR) (s : State) : exec (.bfi f) s = execBfi f s := rfl
@[simp] theorem exec_sext (f : RRI) (s : State) : exec (.sext f) s = execSext f s := rfl
@[simp] theorem exec_cmpeq (f : RRR) (s : State) : exec (.cmpeq f) s = execCmpeq f s := rfl
@[simp] theorem exec_cmpne (f : RRR) (s : State) : exec (.cmpne f) s = execCmpne f s := rfl
@[simp] theorem exec_cmplt (f : RRR) (s : State) : exec (.cmplt f) s = execCmplt f s := rfl
@[simp] theorem exec_cmpge (f : RRR) (s : State) : exec (.cmpge f) s = execCmpge f s := rfl
@[simp] theorem exec_cmpltu (f : RRR) (s : State) : exec (.cmpltu f) s = execCmpltu f s := rfl
@[simp] theorem exec_cmpgeu (f : RRR) (s : State) : exec (.cmpgeu f) s = execCmpgeu f s := rfl
@[simp] theorem exec_cmpeqi (f : RRI) (s : State) : exec (.cmpeqi f) s = execCmpeqi f s := rfl
@[simp] theorem exec_cmplti (f : RRI) (s : State) : exec (.cmplti f) s = execCmplti f s := rfl
@[simp] theorem exec_sel (f : RRR) (s : State) : exec (.sel f) s = execSel f s := rfl
@[simp] theorem exec_gand (f : RRR) (s : State) : exec (.gand f) s = execGand f s := rfl
@[simp] theorem exec_gor (f : RRR) (s : State) : exec (.gor f) s = execGor f s := rfl
@[simp] theorem exec_gxor (f : RRR) (s : State) : exec (.gxor f) s = execGxor f s := rfl
@[simp] theorem exec_gset (f : RR) (s : State) : exec (.gset f) s = execGset f s := rfl
@[simp] theorem exec_gget (f : RR) (s : State) : exec (.gget f) s = execGget f s := rfl
@[simp] theorem exec_nop (s : State) : exec (.nop) s = execNop s := rfl
@[simp] theorem exec_br (f : BR) (s : State) : exec (.br f) s = execBr f s := rfl
@[simp] theorem exec_call (f : BR) (s : State) : exec (.call f) s = execCall f s := rfl
@[simp] theorem exec_jr (f : RR) (s : State) : exec (.jr f) s = execJr f s := rfl
@[simp] theorem exec_callr (f : RR) (s : State) : exec (.callr f) s = execCallr f s := rfl
@[simp] theorem exec_ret (f : NF) (s : State) : exec (.ret f) s = execRet f s := rfl
@[simp] theorem exec_loop (f : RI) (s : State) : exec (.loop f) s = execLoop f s := rfl
@[simp] theorem exec_rep (f : RI) (s : State) : exec (.rep f) s = execRep f s := rfl
@[simp] theorem exec_wait (f : RI) (s : State) : exec (.wait f) s = execWait f s := rfl
@[simp] theorem exec_yield (f : NF) (s : State) : exec (.yield f) s = execYield f s := rfl
@[simp] theorem exec_stop (f : NF) (s : State) : exec (.stop f) s = execStop f s := rfl
@[simp] theorem exec_trap (f : RI) (s : State) : exec (.trap f) s = execTrap f s := rfl
@[simp] theorem exec_eret (f : NF) (s : State) : exec (.eret f) s = execEret f s := rfl
@[simp] theorem exec_mfs (f : SYS) (s : State) : exec (.mfs f) s = execMfs f s := rfl
@[simp] theorem exec_mts (f : SYS) (s : State) : exec (.mts f) s = execMts f s := rfl
@[simp] theorem exec_ckpt (f : NF) (s : State) : exec (.ckpt f) s = execCkpt f s := rfl
@[simp] theorem exec_brk (f : NF) (s : State) : exec (.brk f) s = execBrk f s := rfl
@[simp] theorem exec_ldb (f : RRI) (s : State) : exec (.ldb f) s = execLdb f s := rfl
@[simp] theorem exec_ldbu (f : RRI) (s : State) : exec (.ldbu f) s = execLdbu f s := rfl
@[simp] theorem exec_ldh (f : RRI) (s : State) : exec (.ldh f) s = execLdh f s := rfl
@[simp] theorem exec_ldhu (f : RRI) (s : State) : exec (.ldhu f) s = execLdhu f s := rfl
@[simp] theorem exec_ldw (f : RRI) (s : State) : exec (.ldw f) s = execLdw f s := rfl
@[simp] theorem exec_ldwu (f : RRI) (s : State) : exec (.ldwu f) s = execLdwu f s := rfl
@[simp] theorem exec_ldd (f : RRI) (s : State) : exec (.ldd f) s = execLdd f s := rfl
@[simp] theorem exec_stb (f : RRI) (s : State) : exec (.stb f) s = execStb f s := rfl
@[simp] theorem exec_sth (f : RRI) (s : State) : exec (.sth f) s = execSth f s := rfl
@[simp] theorem exec_stw (f : RRI) (s : State) : exec (.stw f) s = execStw f s := rfl
@[simp] theorem exec_std (f : RRI) (s : State) : exec (.std f) s = execStd f s := rfl
@[simp] theorem exec_ldx (f : RRR) (s : State) : exec (.ldx f) s = execLdx f s := rfl
@[simp] theorem exec_vld (f : RRI) (s : State) : exec (.vld f) s = execVld f s := rfl
@[simp] theorem exec_vst (f : RRI) (s : State) : exec (.vst f) s = execVst f s := rfl
@[simp] theorem exec_vldb (f : RRI) (s : State) : exec (.vldb f) s = execVldb f s := rfl
@[simp] theorem exec_vldx (f : RRR) (s : State) : exec (.vldx f) s = execVldx f s := rfl
@[simp] theorem exec_vstx (f : RRR) (s : State) : exec (.vstx f) s = execVstx f s := rfl
@[simp] theorem exec_lds (f : RR) (s : State) : exec (.lds f) s = execLds f s := rfl
@[simp] theorem exec_sts (f : RR) (s : State) : exec (.sts f) s = execSts f s := rfl
@[simp] theorem exec_stset (f : RRI) (s : State) : exec (.stset f) s = execStset f s := rfl
@[simp] theorem exec_stget (f : RRI) (s : State) : exec (.stget f) s = execStget f s := rfl
@[simp] theorem exec_stq (f : RRI) (s : State) : exec (.stq f) s = execStq f s := rfl
@[simp] theorem exec_wld (f : RRI) (s : State) : exec (.wld f) s = execWld f s := rfl
@[simp] theorem exec_vldt (f : RRI) (s : State) : exec (.vldt f) s = execVldt f s := rfl
@[simp] theorem exec_vldtc (f : RRI) (s : State) : exec (.vldtc f) s = execVldtc f s := rfl
@[simp] theorem exec_amoadd (f : AT) (s : State) : exec (.amoadd f) s = execAmoadd f s := rfl
@[simp] theorem exec_amomin (f : AT) (s : State) : exec (.amomin f) s = execAmomin f s := rfl
@[simp] theorem exec_amomax (f : AT) (s : State) : exec (.amomax f) s = execAmomax f s := rfl
@[simp] theorem exec_amoand (f : AT) (s : State) : exec (.amoand f) s = execAmoand f s := rfl
@[simp] theorem exec_amoor (f : AT) (s : State) : exec (.amoor f) s = execAmoor f s := rfl
@[simp] theorem exec_amoxor (f : AT) (s : State) : exec (.amoxor f) s = execAmoxor f s := rfl
@[simp] theorem exec_amoswp (f : AT) (s : State) : exec (.amoswp f) s = execAmoswp f s := rfl
@[simp] theorem exec_amocas (f : AT) (s : State) : exec (.amocas f) s = execAmocas f s := rfl
@[simp] theorem exec_fence (f : RI) (s : State) : exec (.fence f) s = execFence f s := rfl
@[simp] theorem exec_fwait (f : RR) (s : State) : exec (.fwait f) s = execFwait f s := rfl
@[simp] theorem exec_bind (f : RRR) (s : State) : exec (.bind f) s = execBind f s := rfl
@[simp] theorem exec_acq (f : RR) (s : State) : exec (.acq f) s = execAcq f s := rfl
@[simp] theorem exec_rel (f : RR) (s : State) : exec (.rel f) s = execRel f s := rfl
@[simp] theorem exec_prf (f : RRI) (s : State) : exec (.prf f) s = execPrf f s := rfl
@[simp] theorem exec_ninv (f : RRI) (s : State) : exec (.ninv f) s = execNinv f s := rfl
@[simp] theorem exec_vadd (f : RRR) (s : State) : exec (.vadd f) s = execVadd f s := rfl
@[simp] theorem exec_vsub (f : RRR) (s : State) : exec (.vsub f) s = execVsub f s := rfl
@[simp] theorem exec_vmul (f : RRR) (s : State) : exec (.vmul f) s = execVmul f s := rfl
@[simp] theorem exec_vfma (f : RRR) (s : State) : exec (.vfma f) s = execVfma f s := rfl
@[simp] theorem exec_vfms (f : RRR) (s : State) : exec (.vfms f) s = execVfms f s := rfl
@[simp] theorem exec_vmin (f : RRR) (s : State) : exec (.vmin f) s = execVmin f s := rfl
@[simp] theorem exec_vmax (f : RRR) (s : State) : exec (.vmax f) s = execVmax f s := rfl
@[simp] theorem exec_vabs (f : RR) (s : State) : exec (.vabs f) s = execVabs f s := rfl
@[simp] theorem exec_vneg (f : RR) (s : State) : exec (.vneg f) s = execVneg f s := rfl
@[simp] theorem exec_vcmpeq (f : RRR) (s : State) : exec (.vcmpeq f) s = execVcmpeq f s := rfl
@[simp] theorem exec_vcmplt (f : RRR) (s : State) : exec (.vcmplt f) s = execVcmplt f s := rfl
@[simp] theorem exec_vcmple (f : RRR) (s : State) : exec (.vcmple f) s = execVcmple f s := rfl
@[simp] theorem exec_vcmpun (f : RRR) (s : State) : exec (.vcmpun f) s = execVcmpun f s := rfl
@[simp] theorem exec_vsel (f : RRR) (s : State) : exec (.vsel f) s = execVsel f s := rfl
@[simp] theorem exec_vmov (f : RR) (s : State) : exec (.vmov f) s = execVmov f s := rfl
@[simp] theorem exec_vbcast (f : RR) (s : State) : exec (.vbcast f) s = execVbcast f s := rfl
@[simp] theorem exec_viota (f : RR) (s : State) : exec (.viota f) s = execViota f s := rfl
@[simp] theorem exec_viadd (f : RRR) (s : State) : exec (.viadd f) s = execViadd f s := rfl
@[simp] theorem exec_visub (f : RRR) (s : State) : exec (.visub f) s = execVisub f s := rfl
@[simp] theorem exec_vimul (f : RRR) (s : State) : exec (.vimul f) s = execVimul f s := rfl
@[simp] theorem exec_viand (f : RRR) (s : State) : exec (.viand f) s = execViand f s := rfl
@[simp] theorem exec_vior (f : RRR) (s : State) : exec (.vior f) s = execVior f s := rfl
@[simp] theorem exec_vixor (f : RRR) (s : State) : exec (.vixor f) s = execVixor f s := rfl
@[simp] theorem exec_vishl (f : RRR) (s : State) : exec (.vishl f) s = execVishl f s := rfl
@[simp] theorem exec_vishr (f : RRR) (s : State) : exec (.vishr f) s = execVishr f s := rfl
@[simp] theorem exec_visar (f : RRR) (s : State) : exec (.visar f) s = execVisar f s := rfl
@[simp] theorem exec_vimin (f : RRR) (s : State) : exec (.vimin f) s = execVimin f s := rfl
@[simp] theorem exec_vimax (f : RRR) (s : State) : exec (.vimax f) s = execVimax f s := rfl
@[simp] theorem exec_vicmpeq (f : RRR) (s : State) : exec (.vicmpeq f) s = execVicmpeq f s := rfl
@[simp] theorem exec_vicmplt (f : RRR) (s : State) : exec (.vicmplt f) s = execVicmplt f s := rfl
@[simp] theorem exec_vperm (f : RRR) (s : State) : exec (.vperm f) s = execVperm f s := rfl
@[simp] theorem exec_vrot (f : RRR) (s : State) : exec (.vrot f) s = execVrot f s := rfl
@[simp] theorem exec_vext (f : RRR) (s : State) : exec (.vext f) s = execVext f s := rfl
@[simp] theorem exec_vins (f : RRR) (s : State) : exec (.vins f) s = execVins f s := rfl
@[simp] theorem exec_vfmai (f : RRR) (s : State) : exec (.vfmai f) s = execVfmai f s := rfl
@[simp] theorem exec_vcvt (f : UF) (s : State) : exec (.vcvt f) s = execVcvt f s := rfl
@[simp] theorem exec_vcvtx (f : UF) (s : State) : exec (.vcvtx f) s = execVcvtx f s := rfl
@[simp] theorem exec_vpack (f : UF) (s : State) : exec (.vpack f) s = execVpack f s := rfl
@[simp] theorem exec_vunpk (f : UF) (s : State) : exec (.vunpk f) s = execVunpk f s := rfl
@[simp] theorem exec_vqmx (f : UF) (s : State) : exec (.vqmx f) s = execVqmx f s := rfl
@[simp] theorem exec_vdqmx (f : UF) (s : State) : exec (.vdqmx f) s = execVdqmx f s := rfl
@[simp] theorem exec_vq4n (f : UF) (s : State) : exec (.vq4n f) s = execVq4n f s := rfl
@[simp] theorem exec_vdq4n (f : UF) (s : State) : exec (.vdq4n f) s = execVdq4n f s := rfl
@[simp] theorem exec_vamax (f : RR) (s : State) : exec (.vamax f) s = execVamax f s := rfl
@[simp] theorem exec_vsum (f : RR) (s : State) : exec (.vsum f) s = execVsum f s := rfl
@[simp] theorem exec_vmaxi (f : RR) (s : State) : exec (.vmaxi f) s = execVmaxi f s := rfl
@[simp] theorem exec_vmini (f : RR) (s : State) : exec (.vmini f) s = execVmini f s := rfl
@[simp] theorem exec_vlog2 (f : UF) (s : State) : exec (.vlog2 f) s = execVlog2 f s := rfl
@[simp] theorem exec_vexp2 (f : UF) (s : State) : exec (.vexp2 f) s = execVexp2 f s := rfl
@[simp] theorem exec_vrcp (f : UF) (s : State) : exec (.vrcp f) s = execVrcp f s := rfl
@[simp] theorem exec_vrsqrt (f : UF) (s : State) : exec (.vrsqrt f) s = execVrsqrt f s := rfl
@[simp] theorem exec_vrng (f : RR) (s : State) : exec (.vrng f) s = execVrng f s := rfl
@[simp] theorem exec_vlsem (f : RRR) (s : State) : exec (.vlsem f) s = execVlsem f s := rfl
@[simp] theorem exec_vfxcvt (f : UF) (s : State) : exec (.vfxcvt f) s = execVfxcvt f s := rfl
@[simp] theorem exec_mpush (f : MF) (s : State) : exec (.mpush f) s = execMpush f s := rfl
@[simp] theorem exec_mswap (f : MF) (s : State) : exec (.mswap f) s = execMswap f s := rfl
@[simp] theorem exec_macc (f : MF) (s : State) : exec (.macc f) s = execMacc f s := rfl
@[simp] theorem exec_maccp (f : MF) (s : State) : exec (.maccp f) s = execMaccp f s := rfl
@[simp] theorem exec_mdrain (f : MF) (s : State) : exec (.mdrain f) s = execMdrain f s := rfl
@[simp] theorem exec_mdrainp (f : MF) (s : State) : exec (.mdrainp f) s = execMdrainp f s := rfl
@[simp] theorem exec_mclr (f : MF) (s : State) : exec (.mclr f) s = execMclr f s := rfl
@[simp] theorem exec_mownAcquire (f : MF) (s : State) : exec (.mownAcquire f) s = execMownAcquire f s := rfl
@[simp] theorem exec_mownRelease (f : MF) (s : State) : exec (.mownRelease f) s = execMownRelease f s := rfl
@[simp] theorem exec_shw (f : RRI) (s : State) : exec (.shw f) s = execShw f s := rfl
@[simp] theorem exec_cpy (f : CP) (s : State) : exec (.cpy f) s = execCpy f s := rfl
@[simp] theorem exec_cpyadd (f : CP) (s : State) : exec (.cpyadd f) s = execCpyadd f s := rfl
@[simp] theorem exec_cpymc (f : CP) (s : State) : exec (.cpymc f) s = execCpymc f s := rfl
@[simp] theorem exec_cpyt (f : CP) (s : State) : exec (.cpyt f) s = execCpyt f s := rfl
@[simp] theorem exec_cpyg (f : CP) (s : State) : exec (.cpyg f) s = execCpyg f s := rfl
@[simp] theorem exec_tlrd (f : RR) (s : State) : exec (.tlrd f) s = execTlrd f s := rfl
@[simp] theorem exec_tlwait (f : RR) (s : State) : exec (.tlwait f) s = execTlwait f s := rfl
@[simp] theorem exec_swset (f : RRR) (s : State) : exec (.swset f) s = execSwset f s := rfl
@[simp] theorem exec_swwait (f : RR) (s : State) : exec (.swwait f) s = execSwwait f s := rfl
@[simp] theorem exec_itstart (f : RR) (s : State) : exec (.itstart f) s = execItstart f s := rfl
@[simp] theorem exec_itstat (f : RR) (s : State) : exec (.itstat f) s = execItstat f s := rfl
@[simp] theorem exec_plan (f : RRR) (s : State) : exec (.plan f) s = execPlan f s := rfl
@[simp] theorem exec_lnscfgTemplate (f : RRI) (s : State) : exec (.lnscfgTemplate f) s = execLnscfgTemplate f s := rfl
@[simp] theorem exec_lnscfgDescriptor (f : RRI) (s : State) : exec (.lnscfgDescriptor f) s = execLnscfgDescriptor f s := rfl
@[simp] theorem exec_lnsgo (f : RR) (s : State) : exec (.lnsgo f) s = execLnsgo f s := rfl
@[simp] theorem exec_gcfg (f : RRR) (s : State) : exec (.gcfg f) s = execGcfg f s := rfl
@[simp] theorem exec_gsub (f : RRR) (s : State) : exec (.gsub f) s = execGsub f s := rfl
@[simp] theorem exec_cpyw (f : CP) (s : State) : exec (.cpyw f) s = execCpyw f s := rfl
@[simp] theorem exec_spawn (f : RR) (s : State) : exec (.spawn f) s = execSpawn f s := rfl
@[simp] theorem exec_qpush (f : RRR) (s : State) : exec (.qpush f) s = execQpush f s := rfl
@[simp] theorem exec_join (f : RR) (s : State) : exec (.join f) s = execJoin f s := rfl
@[simp] theorem exec_trig (f : NF) (s : State) : exec (.trig f) s = execTrig f s := rfl
@[simp] theorem exec_park (f : RR) (s : State) : exec (.park f) s = execPark f s := rfl
@[simp] theorem exec_wake (f : RR) (s : State) : exec (.wake f) s = execWake f s := rfl
@[simp] theorem exec_futwait (f : RR) (s : State) : exec (.futwait f) s = execFutwait f s := rfl
@[simp] theorem exec_futset (f : RRR) (s : State) : exec (.futset f) s = execFutset f s := rfl
@[simp] theorem exec_futpoison (f : RR) (s : State) : exec (.futpoison f) s = execFutpoison f s := rfl
@[simp] theorem exec_talloc (f : RRI) (s : State) : exec (.talloc f) s = execTalloc f s := rfl
@[simp] theorem exec_tfin (f : RR) (s : State) : exec (.tfin f) s = execTfin f s := rfl
@[simp] theorem exec_tdrop (f : RR) (s : State) : exec (.tdrop f) s = execTdrop f s := rfl
@[simp] theorem exec_bar (f : RI) (s : State) : exec (.bar f) s = execBar f s := rfl
@[simp] theorem exec_barr (f : RI) (s : State) : exec (.barr f) s = execBarr f s := rfl
@[simp] theorem exec_barw (f : RI) (s : State) : exec (.barw f) s = execBarw f s := rfl
@[simp] theorem exec_kvapp (f : RRR) (s : State) : exec (.kvapp f) s = execKvapp f s := rfl
@[simp] theorem exec_susp (f : NF) (s : State) : exec (.susp f) s = execSusp f s := rfl
@[simp] theorem exec_bundleIssue (c : CoreId) (s : State) : exec (.bundleIssue c) s = execBundleIssue c s := rfl
@[simp] theorem exec_continuationStart (c : CoreId) (x : CtxId) (s : State) : exec (.continuationStart c x) s = execContinuationStart c x s := rfl
@[simp] theorem exec_suspensionPoint (c : CoreId) (x : CtxId) (s : State) : exec (.suspensionPoint c x) s = execSuspensionPoint c x s := rfl
@[simp] theorem exec_heldPushRetry (c : CoreId) (s : State) : exec (.heldPushRetry c) s = execHeldPushRetry c s := rfl
@[simp] theorem exec_barrierEpisodeComplete (team scope dom : Nat) (s : State) : exec (.barrierEpisodeComplete team scope dom) s = execBarrierEpisodeComplete team scope dom s := rfl
@[simp] theorem exec_tileStep (c : CoreId) (x : CtxId) (s : State) : exec (.tileStep c x) s = execTileStep c x s := rfl
@[simp] theorem exec_tileStepDone (c : CoreId) (x : CtxId) (s : State) : exec (.tileStepDone c x) s = execTileStepDone c x s := rfl
@[simp] theorem exec_divisionResult (c : CoreId) (x : CtxId) (id : Nat) (s : State) : exec (.divisionResult c x id) s = execDivisionResult c x id s := rfl
@[simp] theorem exec_variableLoadResult (c : CoreId) (x : CtxId) (id : Nat) (s : State) : exec (.variableLoadResult c x id) s = execVariableLoadResult c x id s := rfl
@[simp] theorem exec_atomicResult (c : CoreId) (x : CtxId) (id : Nat) (s : State) : exec (.atomicResult c x id) s = execAtomicResult c x id s := rfl
@[simp] theorem exec_fenceComplete (c : CoreId) (x : CtxId) (s : State) : exec (.fenceComplete c x) s = execFenceComplete c x s := rfl
@[simp] theorem exec_tileGrant (c : CoreId) (pool : Fin 16) (s : State) : exec (.tileGrant c pool) s = execTileGrant c pool s := rfl
@[simp] theorem exec_planResult (c : CoreId) (x : CtxId) (id : Nat) (s : State) : exec (.planResult c x id) s = execPlanResult c x id s := rfl
@[simp] theorem exec_kvappResult (c : CoreId) (x : CtxId) (id : Nat) (s : State) : exec (.kvappResult c x id) s = execKvappResult c x id s := rfl
@[simp] theorem exec_rollback (c : CoreId) (x : CtxId) (s : State) : exec (.rollback c x) s = execRollback c x s := rfl
@[simp] theorem exec_page (c : CoreId) (x : CtxId) (id : Nat) (s : State) : exec (.page c x id) s = execPage c x id s := rfl
@[simp] theorem exec_heldFault (c : CoreId) (x : CtxId) (s : State) : exec (.heldFault c x) s = execHeldFault c x s := rfl
@[simp] theorem exec_int (c : CoreId) (x : CtxId) (s : State) : exec (.int c x) s = execInt c x s := rfl
@[simp] theorem exec_watchdog (c : CoreId) (x : CtxId) (s : State) : exec (.watchdog c x) s = execWatchdog c x s := rfl
@[simp] theorem exec_preempt (c : CoreId) (x : CtxId) (s : State) : exec (.preempt c x) s = execPreempt c x s := rfl
@[simp] theorem exec_preemptHandlerTimeout (c : CoreId) (x : CtxId) (s : State) : exec (.preemptHandlerTimeout c x) s = execPreemptHandlerTimeout c x s := rfl
@[simp] theorem exec_dispatch (p : PartId) (s : State) : exec (.dispatch p) s = execDispatch p s := rfl
@[simp] theorem exec_steal (p : PartId) (o c : CoreId) (s : State) : exec (.steal p o c) s = execSteal p o c s := rfl
@[simp] theorem exec_preemption (p : PartId) (s : State) : exec (.preemption p) s = execPreemption p s := rfl
@[simp] theorem exec_drainLimit (c : CoreId) (x : CtxId) (s : State) : exec (.drainLimit c x) s = execDrainLimit c x s := rfl
@[simp] theorem exec_save (c : CoreId) (x : CtxId) (s : State) : exec (.save c x) s = execSave c x s := rfl
@[simp] theorem exec_saveResume (c : CoreId) (x : CtxId) (s : State) : exec (.saveResume c x) s = execSaveResume c x s := rfl
@[simp] theorem exec_kill (c : CoreId) (x : CtxId) (s : State) : exec (.kill c x) s = execKill c x s := rfl
@[simp] theorem exec_teamAbort (team : Nat) (s : State) : exec (.teamAbort team) s = execTeamAbort team s := rfl
@[simp] theorem exec_killDrainDone (team : Nat) (s : State) : exec (.killDrainDone team) s = execKillDrainDone team s := rfl
@[simp] theorem exec_gangPlacement (p : PartId) (gang : Nat) (s : State) : exec (.gangPlacement p gang) s = execGangPlacement p gang s := rfl
@[simp] theorem exec_priorityTokenPeriod (p : PartId) (s : State) : exec (.priorityTokenPeriod p) s = execPriorityTokenPeriod p s := rfl
@[simp] theorem exec_budgetPeriod (p : PartId) (s : State) : exec (.budgetPeriod p) s = execBudgetPeriod p s := rfl
@[simp] theorem exec_tstall (c : CoreId) (x : CtxId) (s : State) : exec (.tstall c x) s = execTstall c x s := rfl
@[simp] theorem exec_engineAllocWatchdog (c : CoreId) (pool : Fin 16) (id : Nat) (s : State) : exec (.engineAllocWatchdog c pool id) s = execEngineAllocWatchdog c pool id s := rfl
@[simp] theorem exec_copyWalkStart (c : CoreId) (x : CtxId) (id : Nat) (s : State) : exec (.copyWalkStart c x id) s = execCopyWalkStart c x id s := rfl
@[simp] theorem exec_copyComplete (c : CoreId) (x : CtxId) (id : Nat) (s : State) : exec (.copyComplete c x id) s = execCopyComplete c x id s := rfl
@[simp] theorem exec_copyError (c : CoreId) (x : CtxId) (id : Nat) (f : EngineFault) (s : State) : exec (.copyError c x id f) s = execCopyError c x id f s := rfl
@[simp] theorem exec_syncWordArrival (c : CoreId) (x : CtxId) (id bytes : Nat) (s : State) : exec (.syncWordArrival c x id bytes) s = execSyncWordArrival c x id bytes s := rfl
@[simp] theorem exec_destinationAccumulate (c : CoreId) (x : CtxId) (id : Nat) (s : State) : exec (.destinationAccumulate c x id) s = execDestinationAccumulate c x id s := rfl
@[simp] theorem exec_gatherPageLanded (c : CoreId) (x : CtxId) (id : Nat) (s : State) : exec (.gatherPageLanded c x id) s = execGatherPageLanded c x id s := rfl
@[simp] theorem exec_slipStart (it : ItinId) (s : State) : exec (.slipStart it) s = execSlipStart it s := rfl
@[simp] theorem exec_slipComplete (it : ItinId) (num : Nat) (s : State) : exec (.slipComplete it num) s = execSlipComplete it num s := rfl
@[simp] theorem exec_slipFailure (it : ItinId) (num : Nat) (f : EngineFault) (s : State) : exec (.slipFailure it num f) s = execSlipFailure it num f s := rfl
@[simp] theorem exec_demotionTimer (e : Nat) (tier : Nat) (s : State) : exec (.demotionTimer e tier) s = execDemotionTimer e tier s := rfl
@[simp] theorem exec_demotionMoveDone (e : Nat) (s : State) : exec (.demotionMoveDone e) s = execDemotionMoveDone e s := rfl
@[simp] theorem exec_demotionRetry (e : Nat) (s : State) : exec (.demotionRetry e) s = execDemotionRetry e s := rfl
@[simp] theorem exec_wakeWrite (token value : BitVec 64) (s : State) : exec (.wakeWrite token value) s = execWakeWrite token value s := rfl
@[simp] theorem exec_promotionResume (e : Nat) (s : State) : exec (.promotionResume e) s = execPromotionResume e s := rfl
@[simp] theorem exec_promotionMoveDone (e : Nat) (s : State) : exec (.promotionMoveDone e) s = execPromotionMoveDone e s := rfl
@[simp] theorem exec_gathererDeadline (g : GathererId) (s : State) : exec (.gathererDeadline g) s = execGathererDeadline g s := rfl
@[simp] theorem exec_powerAlarm (c : CoreId) (s : State) : exec (.powerAlarm c) s = execPowerAlarm c s := rfl
@[simp] theorem exec_powerExcessNotify (s : State) : exec (.powerExcessNotify) s = execPowerExcessNotify s := rfl
@[simp] theorem exec_bankFailure (c : CoreId) (bank : Fin 34) (s : State) : exec (.bankFailure c bank) s = execBankFailure c bank s := rfl
@[simp] theorem exec_bankRebuildDone (c : CoreId) (s : State) : exec (.bankRebuildDone c) s = execBankRebuildDone c s := rfl
@[simp] theorem exec_refreshWindow (d : DieId) (s : State) : exec (.refreshWindow d) s = execRefreshWindow d s := rfl
@[simp] theorem exec_autonomousRefresh (d : DieId) (s : State) : exec (.autonomousRefresh d) s = execAutonomousRefresh d s := rfl
@[simp] theorem exec_refreshOwnershipReturn (d : DieId) (s : State) : exec (.refreshOwnershipReturn d) s = execRefreshOwnershipReturn d s := rfl
@[simp] theorem exec_refreshManagement (tier bank : Nat) (s : State) : exec (.refreshManagement tier bank) s = execRefreshManagement tier bank s := rfl
@[simp] theorem exec_atsTranslationCompletion (d : DieId) (t : TlbEntry) (s : State) : exec (.atsTranslationCompletion d t) s = execAtsTranslationCompletion d t s := rfl
@[simp] theorem exec_priPageResponse (c : CoreId) (x : CtxId) (r : PriAnswer) (s : State) : exec (.priPageResponse c x r) s = execPriPageResponse c x r s := rfl
@[simp] theorem exec_atsInvalidationRequest (d : DieId) (pasid : BitVec 20) (page count : Nat) (s : State) : exec (.atsInvalidationRequest d pasid page count) s = execAtsInvalidationRequest d pasid page count s := rfl
@[simp] theorem exec_writebackPoison (c : CoreId) (line : BitVec 64) (s : State) : exec (.writebackPoison c line) s = execWritebackPoison c line s := rfl
@[simp] theorem exec_interruptPageWrite (v : BitVec 64) (s : State) : exec (.interruptPageWrite v) s = execInterruptPageWrite v s := rfl
@[simp] theorem exec_intSend (v : BitVec 64) (s : State) : exec (.intSend v) s = execIntSend v s := rfl
@[simp] theorem exec_hostQueueDoorbell (q : QueueId) (tail : BitVec 16) (s : State) : exec (.hostQueueDoorbell q tail) s = execHostQueueDoorbell q tail s := rfl
@[simp] theorem exec_registerWrite (block number : Nat) (v : BitVec 64) (s : State) : exec (.registerWrite block number v) s = execRegisterWrite block number v s := rfl
@[simp] theorem exec_rcRegisterRead (block number : Nat) (s : State) : exec (.rcRegisterRead block number) s = execRcRegisterRead block number s := rfl
@[simp] theorem exec_spillConfigWrite (c : CoreId) (number : Nat) (v : BitVec 64) (s : State) : exec (.spillConfigWrite c number v) s = execSpillConfigWrite c number v s := rfl
@[simp] theorem exec_itOwnWrite (p : PartId) (v : BitVec 64) (s : State) : exec (.itOwnWrite p v) s = execItOwnWrite p v s := rfl
@[simp] theorem exec_freeListTailWrite (p : PartId) (tier : Fin 4) (v : BitVec 64) (s : State) : exec (.freeListTailWrite p tier v) s = execFreeListTailWrite p tier v s := rfl
@[simp] theorem exec_cfgTranslationTable (v : BitVec 64) (s : State) : exec (.cfgTranslationTable v) s = execCfgTranslationTable v s := rfl
@[simp] theorem exec_tableInstall (p : PartId) (s : State) : exec (.tableInstall p) s = execTableInstall p s := rfl
@[simp] theorem exec_cfgPoolDescriptor (v : BitVec 64) (s : State) : exec (.cfgPoolDescriptor v) s = execCfgPoolDescriptor v s := rfl
@[simp] theorem exec_cfgParkClass (v : BitVec 64) (s : State) : exec (.cfgParkClass v) s = execCfgParkClass v s := rfl
@[simp] theorem exec_wsLockSet (p : PartId) (s : State) : exec (.wsLockSet p) s = execWsLockSet p s := rfl
@[simp] theorem exec_wsLockClear (p : PartId) (s : State) : exec (.wsLockClear p) s = execWsLockClear p s := rfl
@[simp] theorem exec_wsLockEffect (p : PartId) (s : State) : exec (.wsLockEffect p) s = execWsLockEffect p s := rfl
@[simp] theorem exec_ldacl (s : State) : exec (.ldacl) s = execLdacl s := rfl
@[simp] theorem exec_ldgrp (s : State) : exec (.ldgrp) s = execLdgrp s := rfl
@[simp] theorem exec_groupTableInstall (s : State) : exec (.groupTableInstall) s = execGroupTableInstall s := rfl
@[simp] theorem exec_mcReq (v : BitVec 64) (s : State) : exec (.mcReq v) s = execMcReq v s := rfl
@[simp] theorem exec_retrainStart (s : State) : exec (.retrainStart) s = execRetrainStart s := rfl
@[simp] theorem exec_thermalRetrain (target : Nat) (s : State) : exec (.thermalRetrain target) s = execThermalRetrain target s := rfl
@[simp] theorem exec_retrainDone (target : Nat) (s : State) : exec (.retrainDone target) s = execRetrainDone target s := rfl
@[simp] theorem exec_multicastTransferStart (id : Nat) (s : State) : exec (.multicastTransferStart id) s = execMulticastTransferStart id s := rfl
@[simp] theorem exec_data (p : Packet) (s : State) : exec (.data p) s = execData p s := rfl
@[simp] theorem exec_ack (p : Packet) (s : State) : exec (.ack p) s = execAck p s := rfl
@[simp] theorem exec_nack (p : Packet) (s : State) : exec (.nack p) s = execNack p s := rfl
@[simp] theorem exec_launch (p : Packet) (s : State) : exec (.launch p) s = execLaunch p s := rfl
@[simp] theorem exec_wakePacket (p : Packet) (s : State) : exec (.wakePacket p) s = execWakePacket p s := rfl
@[simp] theorem exec_barrier (p : Packet) (s : State) : exec (.barrier p) s = execBarrier p s := rfl
@[simp] theorem exec_boot (b : BootInput) (s : State) : exec (.boot b) s = execBoot b s := rfl
@[simp] theorem exec_packageReset (s : State) : exec (.packageReset) s = execPackageReset s := rfl
@[simp] theorem exec_freezeSignal (s : State) : exec (.freezeSignal) s = execFreezeSignal s := rfl
@[simp] theorem exec_idcode (s : State) : exec (.idcode) s = execIdcode s := rfl
@[simp] theorem exec_freeze (s : State) : exec (.freeze) s = execFreeze s := rfl
@[simp] theorem exec_status (s : State) : exec (.status) s = execStatus s := rfl
@[simp] theorem exec_scanout (bits : Nat) (s : State) : exec (.scanout bits) s = execScanout bits s := rfl
@[simp] theorem exec_bypass (scan : BypassScan) (s : State) : exec (.bypass scan) s = execBypass scan s := rfl
@[simp] theorem exec_getVersion (s : State) : exec (.getVersion) s = execGetVersion s := rfl
@[simp] theorem exec_getCapabilities (s : State) : exec (.getCapabilities) s = execGetCapabilities s := rfl
@[simp] theorem exec_negotiateAlgorithms (s : State) : exec (.negotiateAlgorithms) s = execNegotiateAlgorithms s := rfl
@[simp] theorem exec_getDigests (s : State) : exec (.getDigests) s = execGetDigests s := rfl
@[simp] theorem exec_getCertificate (s : State) : exec (.getCertificate) s = execGetCertificate s := rfl
@[simp] theorem exec_challenge (nonce : BitVec 256) (s : State) : exec (.challenge nonce) s = execChallenge nonce s := rfl
@[simp] theorem exec_getMeasurements (s : State) : exec (.getMeasurements) s = execGetMeasurements s := rfl
@[simp] theorem exec_sessionRequest (code : BitVec 8) (s : State) : exec (.sessionRequest code) s = execSessionRequest code s := rfl
@[simp] theorem exec_powerAlarmEnd (c : CoreId) (s : State) : exec (.powerAlarmEnd c) s = execPowerAlarmEnd c s := rfl
@[simp] theorem exec_partitionReset (p : PartId) (s : State) : exec (.partitionReset p) s = execPartitionReset p s := rfl
@[simp] theorem exec_heartbeat (d : DieId) (s : State) : exec (.heartbeat d) s = execHeartbeat d s := rfl
@[simp] theorem exec_portTrained (p : PortId) (s : State) : exec (.portTrained p) s = execPortTrained p s := rfl
@[simp] theorem exec_portDown (p : PortId) (s : State) : exec (.portDown p) s = execPortDown p s := rfl
@[simp] theorem exec_flitCrcError (p : PortId) (seq : BitVec 12) (s : State) : exec (.flitCrcError p seq) s = execFlitCrcError p seq s := rfl
@[simp] theorem exec_replayRequest (p : PortId) (seq : BitVec 12) (s : State) : exec (.replayRequest p seq) s = execReplayRequest p seq s := rfl
@[simp] theorem exec_hostQueuePageWrite (q : QueueId) (word : Fin 5) (v : BitVec 64) (s : State) : exec (.hostQueuePageWrite q word v) s = execHostQueuePageWrite q word v s := rfl

end Sys2Proof.Machine
end

