-- ==== Sys2Proof/Laws/Code.lean ====
section
/-! SUPPORT. The words of each operand form: S clear, the L bit exactly when a literal follows, the opcode in its place; and the fields read
back from them. -/

namespace Sys2Proof

/-- Stop bit, L bit and opcode of a slot word (R30, R31). -/
theorem word_code (op : Nat) (l : Bool) (g : BitVec 3) (low : Nat) (h : op < 512) (hl : low < 2 ^ 18) :
    stopBit (word op l g low) = false ∧ litBit (word op l g low) = l ∧ opcode (word op l g low) = op := by
  have := g.isLt
  simp only [stopBit, litBit, opcode, bit, word, BitVec.toNat_ofNat]
  cases l <;> simp <;> omega

/-- Form RRR. -/
theorem putRRR_code (op : Nat) (f : RRR) (h : op < 512) :
    stopBit (putRRR op f) = false ∧ litBit (putRRR op f) = false ∧ opcode (putRRR op f) = op := by
  unfold putRRR
  refine word_code _ _ _ _ h ?_
  have := f.d.isLt
  have := f.a.isLt
  have := f.b.isLt
  have := Bool.toNat_le f.ta
  have := Bool.toNat_le f.tb
  have := Bool.toNat_le f.h
  omega

/-- Form RR. -/
theorem putRR_code (op : Nat) (f : RR) (h : op < 512) :
    stopBit (putRR op f) = false ∧ litBit (putRR op f) = false ∧ opcode (putRR op f) = op := by
  unfold putRR
  refine word_code _ _ _ _ h ?_
  have := f.d.isLt
  have := f.a.isLt
  have := Bool.toNat_le f.ta
  have := Bool.toNat_le f.tb
  have := Bool.toNat_le f.h
  omega

/-- Form RRI. -/
theorem putRRI_code (op : Nat) (f : RRI) (h : op < 512) :
    stopBit (putRRI op f) = false ∧ litBit (putRRI op f) = f.lit.isSome ∧ opcode (putRRI op f) = op := by
  unfold putRRI
  refine word_code _ _ _ _ h ?_
  have := f.d.isLt
  have := f.a.isLt
  have := f.imm.isLt
  omega

/-- Form RI. -/
theorem putRI_code (op : Nat) (f : RI) (h : op < 512) :
    stopBit (putRI op f) = false ∧ litBit (putRI op f) = f.lit.isSome ∧ opcode (putRI op f) = op := by
  unfold putRI
  refine word_code _ _ _ _ h ?_
  have := f.d.isLt
  have := f.imm.isLt
  omega

/-- Form SYS. -/
theorem putSYS_code (op : Nat) (f : SYS) (h : op < 512) :
    stopBit (putSYS op f) = false ∧ litBit (putSYS op f) = false ∧ opcode (putSYS op f) = op := by
  unfold putSYS
  refine word_code _ _ _ _ h ?_
  have := f.d.isLt
  have := f.num.isLt
  omega

/-- Form BR. -/
theorem putBR_code (op : Nat) (f : BR) (h : op < 512) :
    stopBit (putBR op f) = false ∧ litBit (putBR op f) = f.lit.isSome ∧ opcode (putBR op f) = op := by
  unfold putBR
  refine word_code _ _ _ _ h ?_
  have := f.off.isLt
  omega

/-- Form NF. -/
theorem putNF_code (op : Nat) (f : NF) (h : op < 512) :
    stopBit (putNF op f) = false ∧ litBit (putNF op f) = false ∧ opcode (putNF op f) = op := by
  exact word_code _ _ _ _ h (by decide)

/-- Form UF. -/
theorem putUF_code (op : Nat) (f : UF) (h : op < 512) :
    stopBit (putUF op f) = false ∧ litBit (putUF op f) = false ∧ opcode (putUF op f) = op := by
  unfold putUF
  refine word_code _ _ _ _ h ?_
  have := f.d.isLt
  have := f.a.isLt
  have := f.fmt.isLt
  have := f.rnd.isLt
  have := Bool.toNat_le f.sat
  have := Bool.toNat_le f.ta
  omega

/-- Form MF. -/
theorem putMF_code (op : Nat) (f : MF) (h : op < 512) :
    stopBit (putMF op f) = false ∧ litBit (putMF op f) = false ∧ opcode (putMF op f) = op := by
  unfold putMF
  refine word_code _ _ _ _ h ?_
  have := f.d.isLt
  have := f.a.isLt
  have := f.b.isLt
  have := Bool.toNat_le f.ta
  have := Bool.toNat_le f.tb
  have := Bool.toNat_le f.z
  omega

/-- Form CP. -/
theorem putCP_code (op : Nat) (f : CP) (h : op < 512) :
    stopBit (putCP op f) = false ∧ litBit (putCP op f) = false ∧ opcode (putCP op f) = op := by
  unfold putCP
  refine word_code _ _ _ _ h ?_
  have := f.kind.isLt
  have := f.sh.isLt
  have := f.a.isLt
  have := f.b.isLt
  have := f.tok.isLt
  omega

/-- Form AT. -/
theorem putAT_code (op : Nat) (f : AT) (h : op < 512) :
    stopBit (putAT op f) = false ∧ litBit (putAT op f) = false ∧ opcode (putAT op f) = op := by
  unfold putAT
  refine word_code _ _ _ _ h ?_
  have := f.d.isLt
  have := f.a.isLt
  have := f.ord.isLt
  have := f.scope.isLt
  omega

end Sys2Proof
end

