-- ==== Sys2Proof/Laws/Memory.lean ====
section
/-! SUPPORT. The list of bytes: a read after a write, and the canonical form that every memory operation keeps. -/

namespace Sys2Proof.Machine

/-- Cells of a run lie inside it. -/
theorem cells_bound : ∀ (bs : List Byte) (k : Nat) (c : Host.Cell), c ∈ cells k bs → k ≤ c.1 ∧ c.1 < k + bs.length
  | [], _, _, h => by simp [cells] at h
  | b :: t, k, c, h => by
    have ih := cells_bound t (k + 1) c
    simp only [cells] at h
    split at h
    · have := ih h; simp only [List.length_cons]; omega
    · rcases List.mem_cons.1 h with rfl | h
      · simp
      · have := ih h; simp only [List.length_cons]; omega

/-- No cell of a run holds zero. -/
theorem cells_nonzero : ∀ (bs : List Byte) (k : Nat) (c : Host.Cell), c ∈ cells k bs → c.2 ≠ 0
  | [], _, _, h => by simp [cells] at h
  | b :: t, k, c, h => by
    simp only [cells] at h
    split at h
    · exact cells_nonzero t (k + 1) c h
    · rcases List.mem_cons.1 h with rfl | h
      · assumption
      · exact cells_nonzero t (k + 1) c h

/-- Cells of a run rise. -/
theorem cells_rise : ∀ (bs : List Byte) (k : Nat), (cells k bs).Pairwise (fun a b => a.1 < b.1)
  | [], _ => by simp [cells]
  | b :: t, k => by
    simp only [cells]
    split
    · exact cells_rise t (k + 1)
    · exact List.pairwise_cons.2 ⟨fun c h => (cells_bound t (k + 1) c h).1, cells_rise t (k + 1)⟩

/-- The canonical form, as a proposition. -/
theorem Memory.wf_iff (m : Memory) : m.wf = true ↔ m.Pairwise (fun a b => a.1 < b.1) ∧ ∀ c ∈ m, c.2 ≠ 0 := by
  simp [Memory.wf]

/-- Leaving cells out keeps the canonical form. -/
theorem Memory.filter_wf (m : Memory) (p : Host.Cell → Bool) (h : m.wf = true) : Memory.wf (m.filter p) = true := by
  rw [Memory.wf_iff] at *
  exact ⟨h.1.filter p, fun c hc => h.2 c (List.mem_of_mem_filter hc)⟩

/-- A write keeps the canonical form. -/
theorem Memory.writeRun_wf (m : Memory) (k : Nat) (bs : List Byte) (h : m.wf = true) : (m.writeRun k bs).wf = true := by
  rw [Memory.wf_iff] at *
  refine ⟨?_, ?_⟩
  · unfold Memory.writeRun
    rw [List.pairwise_append, List.pairwise_append]
    refine ⟨h.1.filter _, ⟨cells_rise bs k, h.1.filter _, ?_⟩, ?_⟩
    · intro a ha b hb
      have := cells_bound bs k a ha
      have := (List.mem_filter.1 hb).2
      simp only [decide_eq_true_eq] at this
      omega
    · intro a ha b hb
      have ha := (List.mem_filter.1 ha).2
      simp only [decide_eq_true_eq] at ha
      rcases List.mem_append.1 hb with hb | hb
      · have := cells_bound bs k b hb; omega
      · have := (List.mem_filter.1 hb).2
        simp only [decide_eq_true_eq] at this
        omega
  · intro c hc
    unfold Memory.writeRun at hc
    rcases List.mem_append.1 hc with hc | hc
    · exact h.2 c (List.mem_of_mem_filter hc)
    · rcases List.mem_append.1 hc with hc | hc
      · exact cells_nonzero bs k c hc
      · exact h.2 c (List.mem_of_mem_filter hc)

/-- What a concatenation reads as: the first part where it lists the key, else the second. -/
theorem Memory.read_append (a b : Memory) (k : Nat) :
    Memory.read (a ++ b) k = if a.any (fun c => c.1 == k) then Memory.read a k else Memory.read b k := by
  induction a with
  | nil => simp
  | cons c t ih =>
    obtain ⟨x, y⟩ := c
    simp only [List.cons_append, Memory.read, List.any_cons]
    by_cases h : x = k <;> simp [h, ih]

/-- A key that is not listed reads as zero. -/
theorem Memory.read_absent (m : Memory) (k : Nat) (h : ∀ c ∈ m, c.1 ≠ k) : m.read k = 0 := by
  induction m with
  | nil => rfl
  | cons c t ih =>
    obtain ⟨x, y⟩ := c
    have hx : x ≠ k := h (x, y) (List.mem_cons_self ..)
    simp [Memory.read, hx, ih (fun c hc => h c (List.mem_cons_of_mem _ hc))]

/-- Filtering keys that keep k does not change what k reads as. -/
theorem Memory.read_filter (m : Memory) (p : Nat → Bool) (k : Nat) (h : p k = true) :
    Memory.read (m.filter (fun c => p c.1)) k = m.read k := by
  induction m with
  | nil => rfl
  | cons c t ih =>
    obtain ⟨x, y⟩ := c
    by_cases hx : x = k
    · subst hx; simp [h, Memory.read]
    · by_cases hp : p x = true <;> simp [hp, Memory.read, hx, ih]

/-- What a run of cells reads as: the byte written there, zero outside. -/
theorem cells_read : ∀ (bs : List Byte) (k i : Nat), Memory.read (cells k bs) (k + i) = bs.getD i 0
  | [], k, i => by simp [cells, Memory.read]
  | b :: t, k, i => by
    cases i with
    | zero =>
      by_cases hb : b = 0
      · have : Memory.read (cells (k + 1) t) k = 0 :=
          Memory.read_absent _ _ (fun c hc => by have := cells_bound t (k + 1) c hc; omega)
        simp [cells, hb, this]
      · rw [cells, if_neg hb]; simp [Memory.read]
    | succ i =>
      have h := cells_read t (k + 1) i
      have e : k + 1 + i = k + (i + 1) := by omega
      rw [e] at h
      by_cases hb : b = 0
      · simp [cells, hb, h]
      · have : k ≠ k + (i + 1) := by omega
        rw [cells, if_neg hb]; simp only [Memory.read, if_neg this, h, List.getD_cons_succ]

/-- A read after a write: the byte written inside the run, the byte from before outside it. -/
theorem Memory.read_writeRun (m : Memory) (k j : Nat) (bs : List Byte) :
    (m.writeRun k bs).read j = if k ≤ j ∧ j < k + bs.length then bs.getD (j - k) 0 else m.read j := by
  unfold Memory.writeRun
  rw [Memory.read_append, Memory.read_append]
  by_cases h1 : j < k
  · have hk : ¬ (k ≤ j ∧ j < k + bs.length) := by omega
    rw [if_neg hk]
    by_cases ha : (m.filter (fun c => decide (c.1 < k))).any (fun c => c.1 == j) = true
    · rw [if_pos ha]; exact Memory.read_filter m (fun x => decide (x < k)) j (by simpa using h1)
    · rw [if_neg ha]
      have hm : m.read j = 0 := by
        rw [← Memory.read_filter m (fun x => decide (x < k)) j (by simpa using h1)]
        refine Memory.read_absent _ _ (fun c hc hj => ha ?_)
        exact List.any_eq_true.2 ⟨c, hc, by simpa using hj⟩
      have hc : (cells k bs).any (fun c => c.1 == j) = false := by
        rw [Bool.eq_false_iff]; intro hh
        obtain ⟨c, hc, he⟩ := List.any_eq_true.1 hh
        have := cells_bound bs k c hc
        have : c.1 = j := by simpa using he
        omega
      rw [hc, hm]
      refine Memory.read_absent _ _ (fun c hc => ?_)
      have := (List.mem_filter.1 hc).2
      simp only [decide_eq_true_eq] at this
      omega
  · have ha : (m.filter (fun c => decide (c.1 < k))).any (fun c => c.1 == j) = false := by
      rw [Bool.eq_false_iff]; intro hh
      obtain ⟨c, hc, he⟩ := List.any_eq_true.1 hh
      have h2 := (List.mem_filter.1 hc).2
      have : c.1 = j := by simpa using he
      simp only [decide_eq_true_eq] at h2
      omega
    rw [ha]
    simp only [Bool.false_eq_true, if_false]
    by_cases h2 : j < k + bs.length
    · have hk : k ≤ j ∧ j < k + bs.length := ⟨by omega, h2⟩
      rw [if_pos hk]
      have hr := cells_read bs k (j - k)
      have e : k + (j - k) = j := by omega
      rw [e] at hr
      by_cases hc : (cells k bs).any (fun c => c.1 == j) = true
      · rw [if_pos hc]; exact hr
      · rw [if_neg hc]
        have hz : Memory.read (cells k bs) j = 0 := Memory.read_absent _ _ (fun c hm hj =>
          hc (List.any_eq_true.2 ⟨c, hm, by simpa using hj⟩))
        rw [← hr, hz]
        refine Memory.read_absent _ _ (fun c hc => ?_)
        have := (List.mem_filter.1 hc).2
        simp only [decide_eq_true_eq] at this
        omega
    · have hk : ¬ (k ≤ j ∧ j < k + bs.length) := by omega
      rw [if_neg hk]
      have hc : (cells k bs).any (fun c => c.1 == j) = false := by
        rw [Bool.eq_false_iff]; intro hh
        obtain ⟨c, hc, he⟩ := List.any_eq_true.1 hh
        have := cells_bound bs k c hc
        have : c.1 = j := by simpa using he
        omega
      rw [hc]
      simp only [Bool.false_eq_true, if_false]
      exact Memory.read_filter m (fun x => decide (k + bs.length ≤ x)) j (by simp; omega)

/-- Handing over the bytes that a line holds keeps the canonical form. -/
theorem Memory.merge_wf (m : Memory) (k : Nat) (bs : List (Option Byte)) (h : m.wf = true) : (m.merge k bs).wf = true :=
  Memory.writeRun_wf m k _ h

/-- The number of bytes of a value. -/
@[simp] theorem leBytes_length : ∀ (n v : Nat), (leBytes n v).length = n
  | 0, _ => rfl
  | n + 1, v => by simp [leBytes, leBytes_length n]

/-- A value read back from its bytes. -/
theorem leNat_leBytes : ∀ (n v : Nat), leNat (leBytes n v) = v % 256 ^ n
  | 0, v => by simp [leBytes, leNat]; omega
  | n + 1, v => by
    have e : 256 ^ (n + 1) = 256 * 256 ^ n := by ring
    rw [leBytes, leNat, leNat_leBytes n, BitVec.toNat_ofNat, e, Nat.mod_mul]

/-- The memory of the reset state is in its canonical form. -/
theorem reset_mem_wf : State.reset.mem.wf = true := by decide

end Sys2Proof.Machine
end

