-- ==== Sys2Proof/Laws/Operands.lean ====
section
/-! SUPPORT. What a slot's answer can be, and when its sources and destinations let it execute: the lemmas that claims about
instructions cite instead of unfolding `slot`. -/

namespace Sys2Proof.Machine

@[simp] theorem finish_ok (s t : State) : finish s (.ok t) = .next t := rfl
@[simp] theorem finish_trap (s : State) (c : Cause) (i : W64) : finish s (.error (.trap c i)) = .next (raise s c i false) := rfl
@[simp] theorem finish_engine (s : State) (c : Cause) (i : W64) : finish s (.error (.engine c i)) = .next (raise s c i true) := rfl
@[simp] theorem finish_hold (s : State) : finish s (.error .hold) = .next (s.verdict .held) := rfl
@[simp] theorem finish_asking (s t : State) : finish s (.error (.asking t)) = .next (t.verdict .held) := rfl
@[simp] theorem finish_left (s t : State) : finish s (.error (.left t)) = .next (t.verdict .left) := rfl

/-- A slot's answer is always a next state. -/
theorem finish_proceeds (s : State) (r : Except Stop State) : Proceeds (finish s r) := by
  match r with
  | .ok t => exact ⟨t, rfl⟩
  | .error (.trap c i) => exact ⟨_, rfl⟩
  | .error (.engine c i) => exact ⟨_, rfl⟩
  | .error .hold => exact ⟨_, rfl⟩
  | .error (.asking t) => exact ⟨_, rfl⟩
  | .error (.left t) => exact ⟨_, rfl⟩

@[simp] theorem need_ok (k : Except Stop State) : need (.ok ()) k = k := rfl
@[simp] theorem need_error (e : Stop) (k : Except Stop State) : need (.error e) k = .error e := rfl

/-- Full destinations let the slot go on. -/
theorem dests_full (s : State) (rs : List Ref) (h : AllFull s rs) : dests s rs = .ok () := by
  have e : rs.all s.src.full = true := List.all_eq_true.2 h
  simp [dests, e]

/-- An empty destination holds the bundle. -/
theorem dests_empty (s : State) (rs : List Ref) (r : Ref) (hr : r ∈ rs) (h : s.src.full r = false) :
    dests s rs = .error .hold := by
  have e : rs.all s.src.full = false := by
    rw [Bool.eq_false_iff]; intro hh; simp [List.all_eq_true.1 hh r hr] at h
  simp [dests, e]

/-- Full sources let the slot go on. -/
theorem sources_full (s : State) (rs : List (Ref × Bool)) (h : AllFull s (rs.map Prod.fst)) : sources s rs = .ok () := by
  have e1 : rs.any (fun p => !s.src.full p.1 && (!p.2 || s.me.handler)) = false := by
    rw [Bool.eq_false_iff]; intro hh
    obtain ⟨p, hp, he⟩ := List.any_eq_true.1 hh
    simp [h p.1 (List.mem_map_of_mem hp)] at he
  have e2 : rs.any (fun p => !s.src.full p.1) = false := by
    rw [Bool.eq_false_iff]; intro hh
    obtain ⟨p, hp, he⟩ := List.any_eq_true.1 hh
    simp [h p.1 (List.mem_map_of_mem hp)] at he
  simp [sources, e1, e2]

/-- An empty source that does not trap holds the bundle. -/
theorem sources_hold (s : State) (rs : List (Ref × Bool)) (r : Ref) (hr : (r, false) ∈ rs) (h : s.src.full r = false) :
    sources s rs = .error .hold := by
  have e : rs.any (fun p => !s.src.full p.1 && (!p.2 || s.me.handler)) = true :=
    List.any_eq_true.2 ⟨(r, false), hr, by simp [h]⟩
  simp [sources, e]

/-- A slot that is on, with full destinations, answers what its body gives. -/
theorem slot_on (s : State) (g : BitVec 3) (ds : List Ref) (body : Except Stop State) (hg : on s g = true) (hd : AllFull s ds) :
    slot s g ds body = finish s body := by
  simp [slot, dests_full s ds hd, hg]

/-- A guarded-off slot with full destinations changes nothing (R39). -/
theorem slot_off (s : State) (g : BitVec 3) (ds : List Ref) (body : Except Stop State) (hg : on s g = false)
    (hd : AllFull s ds) : slot s g ds body = .next s := by
  simp [slot, dests_full s ds hd, hg]

/-- A slot, on or off, with an empty destination holds its bundle (R26). -/
theorem slot_held (s : State) (g : BitVec 3) (ds : List Ref) (body : Except Stop State) (r : Ref) (hr : r ∈ ds)
    (h : s.src.full r = false) : slot s g ds body = .next (s.verdict .held) := by
  simp [slot, dests_empty s ds r hr h]

/-- A lane-masked slot with an active lane and full destinations answers what its body gives for the mask. -/
theorem slotV_on (s : State) (g : BitVec 3) (ds : List Ref) (body : W64 → Except Stop State) (hg : s.src.getG g ≠ 0)
    (hd : AllFull s ds) : slotV s g ds body = finish s (body (s.src.getG g)) := by
  simp only [slotV, dests_full s ds hd, if_neg hg]

/-- A lane-masked slot without an active lane changes nothing (R38, R39). -/
theorem slotV_off (s : State) (g : BitVec 3) (ds : List Ref) (body : W64 → Except Stop State) (hg : s.src.getG g = 0)
    (hd : AllFull s ds) : slotV s g ds body = .next s := by
  simp [slotV, dests_full s ds hd, hg]

/-- Ready read ports let the slot go on (R143, R155). -/
theorem ports_ready (s : State) (rs : List (BitVec 5)) (h : PortsReady s rs) : ports s rs = .ok () := by
  unfold ports
  simp only
  by_cases he : (rs.filterMap portOf).isEmpty = true
  · simp [he]
  · have hq : ∀ q ∈ rs.filterMap portOf, s.src.owns = true ∧ (headRow s.src q).isSome = true := fun q hq => by
      obtain ⟨r, hr, hp⟩ := List.mem_filterMap.1 hq
      exact h r hr q hp
    have ho : s.src.owns = true := by
      cases hl : rs.filterMap portOf with
      | nil => simp [hl] at he
      | cons q t => exact (hq q (by simp [hl])).1
    have hf : (rs.filterMap portOf).find? (fun q => (headRow s.src q).isNone) = none := by
      rw [List.find?_eq_none]; intro q hm; simp [Option.isSome_iff_ne_none.1 (hq q hm).2]
    simp [he, ho, hf]

/-- A result in flight changes the issuing context's landing latches and nothing else. -/
theorem result_eq (s : State) (d : Dest) (m : W64) (v : Row) (f : BitVec 5) (n : Nat) :
    result s d m v f n = s.setRegs (s.me.r.latch { dest := d, mask := m, value := v, flags := f, left := latency s n }) := rfl

/-- No register file, no stream, shape or binding slot of the issuing context changes when a result joins the latches. -/
theorem latch_keeps (r : Regs) (l : Latch) : r.latch l = { r with latches := r.latches ++ [l] } := rfl

@[simp] theorem result_mem (s : State) (d : Dest) (m : W64) (v : Row) (f : BitVec 5) (n : Nat) : (result s d m v f n).mem = s.mem := rfl
@[simp] theorem result_issue (s : State) (d : Dest) (m : W64) (v : Row) (f : BitVec 5) (n : Nat) :
    (result s d m v f n).issue = s.issue := rfl
@[simp] theorem result_src (s : State) (d : Dest) (m : W64) (v : Row) (f : BitVec 5) (n : Nat) :
    (result s d m v f n).src = s.src := rfl
@[simp] theorem result_me (s : State) (d : Dest) (m : W64) (v : Row) (f : BitVec 5) (n : Nat) :
    (result s d m v f n).me = { s.me with r := s.me.r.latch { dest := d, mask := m, value := v, flags := f, left := latency s n } } := by
  simp [result_eq, State.setRegs, State.me, State.setMe, State.ctx, State.setCtx, State.core, State.setCore, Core.setCtx]

end Sys2Proof.Machine
end

