-- ==== Sys2Proof/Laws/PerInstr.lean ====
section
/-! SUPPORT. What holds of the code of every instruction, one lemma for each: its slot word has S clear and is followed by a literal exactly
when its L bit is 1 (R30, R41). -/

namespace Sys2Proof.Laws.Code

/-- The slot word has S clear and owns a literal word exactly when its L bit is 1, when the fields that must be zero are; a row
without an encoding has no words. -/
def Statement (i : Instr) : Prop := ∀ w ws, i.fields = true → encode i = w :: ws → stopBit w = false ∧ ws.length = (litBit w).toNat

/-- An instruction of one word. -/
theorem one_word {i : Instr} {v : W32} (he : encode i = [v]) (h : stopBit v = false ∧ litBit v = false) : Statement i := by
  intro w ws _ e
  rw [he] at e
  injection e with e1 e2
  subst e1; subst e2
  exact ⟨h.1, by simp [h.2]⟩

/-- An instruction whose form allows a literal. -/
theorem with_literal {i : Instr} {v : W32} {l : Option (BitVec 32)} (he : encode i = v :: l.toList)
    (h : stopBit v = false ∧ litBit v = l.isSome) : Statement i := by
  intro w ws _ e
  rw [he] at e
  injection e with e1 e2
  subst e1; subst e2
  exact ⟨h.1, by cases l <;> simp [h.2]⟩

/-- An instruction whose form has a place for a literal that it must leave empty (R41). -/
theorem no_literal {i : Instr} {v : W32} {l : Option (BitVec 32)} (he : encode i = [v]) (h : stopBit v = false ∧ litBit v = l.isSome)
    (hf : i.fields = true → l.isNone = true) : Statement i := by
  intro w ws f e
  rw [he] at e
  injection e with e1 e2
  subst e1; subst e2
  refine ⟨h.1, ?_⟩
  have := hf f
  cases l <;> simp_all

/-- A row without an encoding. -/
theorem no_words {i : Instr} (he : encode i = []) : Statement i := by
  intro w ws _ e
  rw [he] at e
  cases e

theorem add (f : RRR) : Statement (.add f) := one_word rfl ⟨(putRRR_code 0x000 f (Nat.le_of_ble_eq_true rfl)).1, (putRRR_code 0x000 f (Nat.le_of_ble_eq_true rfl)).2.1⟩
theorem sub (f : RRR) : Statement (.sub f) := one_word rfl ⟨(putRRR_code 0x001 f (Nat.le_of_ble_eq_true rfl)).1, (putRRR_code 0x001 f (Nat.le_of_ble_eq_true rfl)).2.1⟩
theorem addi (f : RRI) : Statement (.addi f) := with_literal rfl ⟨(putRRI_code 0x002 f (Nat.le_of_ble_eq_true rfl)).1, (putRRI_code 0x002 f (Nat.le_of_ble_eq_true rfl)).2.1⟩
theorem li (f : RI) : Statement (.li f) := with_literal rfl ⟨(putRI_code 0x003 f (Nat.le_of_ble_eq_true rfl)).1, (putRI_code 0x003 f (Nat.le_of_ble_eq_true rfl)).2.1⟩
theorem addpc (f : RI) : Statement (.addpc f) := with_literal rfl ⟨(putRI_code 0x004 f (Nat.le_of_ble_eq_true rfl)).1, (putRI_code 0x004 f (Nat.le_of_ble_eq_true rfl)).2.1⟩
theorem mul (f : RRR) : Statement (.mul f) := one_word rfl ⟨(putRRR_code 0x005 f (Nat.le_of_ble_eq_true rfl)).1, (putRRR_code 0x005 f (Nat.le_of_ble_eq_true rfl)).2.1⟩
theorem mulh (f : RRR) : Statement (.mulh f) := one_word rfl ⟨(putRRR_code 0x006 f (Nat.le_of_ble_eq_true rfl)).1, (putRRR_code 0x006 f (Nat.le_of_ble_eq_true rfl)).2.1⟩
theorem mulhu (f : RRR) : Statement (.mulhu f) := one_word rfl ⟨(putRRR_code 0x007 f (Nat.le_of_ble_eq_true rfl)).1, (putRRR_code 0x007 f (Nat.le_of_ble_eq_true rfl)).2.1⟩
theorem div (f : RRR) : Statement (.div f) := one_word rfl ⟨(putRRR_code 0x008 f (Nat.le_of_ble_eq_true rfl)).1, (putRRR_code 0x008 f (Nat.le_of_ble_eq_true rfl)).2.1⟩
theorem divu (f : RRR) : Statement (.divu f) := one_word rfl ⟨(putRRR_code 0x009 f (Nat.le_of_ble_eq_true rfl)).1, (putRRR_code 0x009 f (Nat.le_of_ble_eq_true rfl)).2.1⟩
theorem rem (f : RRR) : Statement (.rem f) := one_word rfl ⟨(putRRR_code 0x00A f (Nat.le_of_ble_eq_true rfl)).1, (putRRR_code 0x00A f (Nat.le_of_ble_eq_true rfl)).2.1⟩
theorem remu (f : RRR) : Statement (.remu f) := one_word rfl ⟨(putRRR_code 0x00B f (Nat.le_of_ble_eq_true rfl)).1, (putRRR_code 0x00B f (Nat.le_of_ble_eq_true rfl)).2.1⟩
theorem and (f : RRR) : Statement (.and f) := one_word rfl ⟨(putRRR_code 0x00C f (Nat.le_of_ble_eq_true rfl)).1, (putRRR_code 0x00C f (Nat.le_of_ble_eq_true rfl)).2.1⟩
theorem or (f : RRR) : Statement (.or f) := one_word rfl ⟨(putRRR_code 0x00D f (Nat.le_of_ble_eq_true rfl)).1, (putRRR_code 0x00D f (Nat.le_of_ble_eq_true rfl)).2.1⟩
theorem xor (f : RRR) : Statement (.xor f) := one_word rfl ⟨(putRRR_code 0x00E f (Nat.le_of_ble_eq_true rfl)).1, (putRRR_code 0x00E f (Nat.le_of_ble_eq_true rfl)).2.1⟩
theorem andn (f : RRR) : Statement (.andn f) := one_word rfl ⟨(putRRR_code 0x00F f (Nat.le_of_ble_eq_true rfl)).1, (putRRR_code 0x00F f (Nat.le_of_ble_eq_true rfl)).2.1⟩
theorem andi (f : RRI) : Statement (.andi f) := with_literal rfl ⟨(putRRI_code 0x010 f (Nat.le_of_ble_eq_true rfl)).1, (putRRI_code 0x010 f (Nat.le_of_ble_eq_true rfl)).2.1⟩
theorem ori (f : RRI) : Statement (.ori f) := with_literal rfl ⟨(putRRI_code 0x011 f (Nat.le_of_ble_eq_true rfl)).1, (putRRI_code 0x011 f (Nat.le_of_ble_eq_true rfl)).2.1⟩
theorem xori (f : RRI) : Statement (.xori f) := with_literal rfl ⟨(putRRI_code 0x012 f (Nat.le_of_ble_eq_true rfl)).1, (putRRI_code 0x012 f (Nat.le_of_ble_eq_true rfl)).2.1⟩
theorem shl (f : RRR) : Statement (.shl f) := one_word rfl ⟨(putRRR_code 0x013 f (Nat.le_of_ble_eq_true rfl)).1, (putRRR_code 0x013 f (Nat.le_of_ble_eq_true rfl)).2.1⟩
theorem shr (f : RRR) : Statement (.shr f) := one_word rfl ⟨(putRRR_code 0x014 f (Nat.le_of_ble_eq_true rfl)).1, (putRRR_code 0x014 f (Nat.le_of_ble_eq_true rfl)).2.1⟩
theorem sar (f : RRR) : Statement (.sar f) := one_word rfl ⟨(putRRR_code 0x015 f (Nat.le_of_ble_eq_true rfl)).1, (putRRR_code 0x015 f (Nat.le_of_ble_eq_true rfl)).2.1⟩
theorem rol (f : RRR) : Statement (.rol f) := one_word rfl ⟨(putRRR_code 0x016 f (Nat.le_of_ble_eq_true rfl)).1, (putRRR_code 0x016 f (Nat.le_of_ble_eq_true rfl)).2.1⟩
theorem shli (f : RRI) : Statement (.shli f) := with_literal rfl ⟨(putRRI_code 0x017 f (Nat.le_of_ble_eq_true rfl)).1, (putRRI_code 0x017 f (Nat.le_of_ble_eq_true rfl)).2.1⟩
theorem shri (f : RRI) : Statement (.shri f) := with_literal rfl ⟨(putRRI_code 0x018 f (Nat.le_of_ble_eq_true rfl)).1, (putRRI_code 0x018 f (Nat.le_of_ble_eq_true rfl)).2.1⟩
theorem sari (f : RRI) : Statement (.sari f) := with_literal rfl ⟨(putRRI_code 0x019 f (Nat.le_of_ble_eq_true rfl)).1, (putRRI_code 0x019 f (Nat.le_of_ble_eq_true rfl)).2.1⟩
theorem min (f : RRR) : Statement (.min f) := one_word rfl ⟨(putRRR_code 0x01A f (Nat.le_of_ble_eq_true rfl)).1, (putRRR_code 0x01A f (Nat.le_of_ble_eq_true rfl)).2.1⟩
theorem max (f : RRR) : Statement (.max f) := one_word rfl ⟨(putRRR_code 0x01B f (Nat.le_of_ble_eq_true rfl)).1, (putRRR_code 0x01B f (Nat.le_of_ble_eq_true rfl)).2.1⟩
theorem minu (f : RRR) : Statement (.minu f) := one_word rfl ⟨(putRRR_code 0x01C f (Nat.le_of_ble_eq_true rfl)).1, (putRRR_code 0x01C f (Nat.le_of_ble_eq_true rfl)).2.1⟩
theorem maxu (f : RRR) : Statement (.maxu f) := one_word rfl ⟨(putRRR_code 0x01D f (Nat.le_of_ble_eq_true rfl)).1, (putRRR_code 0x01D f (Nat.le_of_ble_eq_true rfl)).2.1⟩
theorem clz (f : RR) : Statement (.clz f) := one_word rfl ⟨(putRR_code 0x01E f (Nat.le_of_ble_eq_true rfl)).1, (putRR_code 0x01E f (Nat.le_of_ble_eq_true rfl)).2.1⟩
theorem ctz (f : RR) : Statement (.ctz f) := one_word rfl ⟨(putRR_code 0x01F f (Nat.le_of_ble_eq_true rfl)).1, (putRR_code 0x01F f (Nat.le_of_ble_eq_true rfl)).2.1⟩
theorem popc (f : RR) : Statement (.popc f) := one_word rfl ⟨(putRR_code 0x020 f (Nat.le_of_ble_eq_true rfl)).1, (putRR_code 0x020 f (Nat.le_of_ble_eq_true rfl)).2.1⟩
theorem bfx (f : RRR) : Statement (.bfx f) := one_word rfl ⟨(putRRR_code 0x021 f (Nat.le_of_ble_eq_true rfl)).1, (putRRR_code 0x021 f (Nat.le_of_ble_eq_true rfl)).2.1⟩
theorem bfi (f : RRR) : Statement (.bfi f) := one_word rfl ⟨(putRRR_code 0x022 f (Nat.le_of_ble_eq_true rfl)).1, (putRRR_code 0x022 f (Nat.le_of_ble_eq_true rfl)).2.1⟩
theorem sext (f : RRI) : Statement (.sext f) := with_literal rfl ⟨(putRRI_code 0x023 f (Nat.le_of_ble_eq_true rfl)).1, (putRRI_code 0x023 f (Nat.le_of_ble_eq_true rfl)).2.1⟩
theorem cmpeq (f : RRR) : Statement (.cmpeq f) := one_word rfl ⟨(putRRR_code 0x024 f (Nat.le_of_ble_eq_true rfl)).1, (putRRR_code 0x024 f (Nat.le_of_ble_eq_true rfl)).2.1⟩
theorem cmpne (f : RRR) : Statement (.cmpne f) := one_word rfl ⟨(putRRR_code 0x025 f (Nat.le_of_ble_eq_true rfl)).1, (putRRR_code 0x025 f (Nat.le_of_ble_eq_true rfl)).2.1⟩
theorem cmplt (f : RRR) : Statement (.cmplt f) := one_word rfl ⟨(putRRR_code 0x026 f (Nat.le_of_ble_eq_true rfl)).1, (putRRR_code 0x026 f (Nat.le_of_ble_eq_true rfl)).2.1⟩
theorem cmpge (f : RRR) : Statement (.cmpge f) := one_word rfl ⟨(putRRR_code 0x027 f (Nat.le_of_ble_eq_true rfl)).1, (putRRR_code 0x027 f (Nat.le_of_ble_eq_true rfl)).2.1⟩
theorem cmpltu (f : RRR) : Statement (.cmpltu f) := one_word rfl ⟨(putRRR_code 0x028 f (Nat.le_of_ble_eq_true rfl)).1, (putRRR_code 0x028 f (Nat.le_of_ble_eq_true rfl)).2.1⟩
theorem cmpgeu (f : RRR) : Statement (.cmpgeu f) := one_word rfl ⟨(putRRR_code 0x029 f (Nat.le_of_ble_eq_true rfl)).1, (putRRR_code 0x029 f (Nat.le_of_ble_eq_true rfl)).2.1⟩
theorem cmpeqi (f : RRI) : Statement (.cmpeqi f) := with_literal rfl ⟨(putRRI_code 0x02A f (Nat.le_of_ble_eq_true rfl)).1, (putRRI_code 0x02A f (Nat.le_of_ble_eq_true rfl)).2.1⟩
theorem cmplti (f : RRI) : Statement (.cmplti f) := with_literal rfl ⟨(putRRI_code 0x02B f (Nat.le_of_ble_eq_true rfl)).1, (putRRI_code 0x02B f (Nat.le_of_ble_eq_true rfl)).2.1⟩
theorem sel (f : RRR) : Statement (.sel f) := one_word rfl ⟨(putRRR_code 0x02C f (Nat.le_of_ble_eq_true rfl)).1, (putRRR_code 0x02C f (Nat.le_of_ble_eq_true rfl)).2.1⟩
theorem gand (f : RRR) : Statement (.gand f) := one_word rfl ⟨(putRRR_code 0x02D f (Nat.le_of_ble_eq_true rfl)).1, (putRRR_code 0x02D f (Nat.le_of_ble_eq_true rfl)).2.1⟩
theorem gor (f : RRR) : Statement (.gor f) := one_word rfl ⟨(putRRR_code 0x02E f (Nat.le_of_ble_eq_true rfl)).1, (putRRR_code 0x02E f (Nat.le_of_ble_eq_true rfl)).2.1⟩
theorem gxor (f : RRR) : Statement (.gxor f) := one_word rfl ⟨(putRRR_code 0x02F f (Nat.le_of_ble_eq_true rfl)).1, (putRRR_code 0x02F f (Nat.le_of_ble_eq_true rfl)).2.1⟩
theorem gset (f : RR) : Statement (.gset f) := one_word rfl ⟨(putRR_code 0x030 f (Nat.le_of_ble_eq_true rfl)).1, (putRR_code 0x030 f (Nat.le_of_ble_eq_true rfl)).2.1⟩
theorem gget (f : RR) : Statement (.gget f) := one_word rfl ⟨(putRR_code 0x031 f (Nat.le_of_ble_eq_true rfl)).1, (putRR_code 0x031 f (Nat.le_of_ble_eq_true rfl)).2.1⟩
theorem nop : Statement .nop := one_word rfl ⟨rfl, rfl⟩
theorem br (f : BR) : Statement (.br f) := with_literal rfl ⟨(putBR_code 0x041 f (Nat.le_of_ble_eq_true rfl)).1, (putBR_code 0x041 f (Nat.le_of_ble_eq_true rfl)).2.1⟩
theorem call (f : BR) : Statement (.call f) := with_literal rfl ⟨(putBR_code 0x042 f (Nat.le_of_ble_eq_true rfl)).1, (putBR_code 0x042 f (Nat.le_of_ble_eq_true rfl)).2.1⟩
theorem jr (f : RR) : Statement (.jr f) := one_word rfl ⟨(putRR_code 0x043 f (Nat.le_of_ble_eq_true rfl)).1, (putRR_code 0x043 f (Nat.le_of_ble_eq_true rfl)).2.1⟩
theorem callr (f : RR) : Statement (.callr f) := one_word rfl ⟨(putRR_code 0x044 f (Nat.le_of_ble_eq_true rfl)).1, (putRR_code 0x044 f (Nat.le_of_ble_eq_true rfl)).2.1⟩
theorem ret (f : NF) : Statement (.ret f) := one_word rfl ⟨(putNF_code 0x045 f (Nat.le_of_ble_eq_true rfl)).1, (putNF_code 0x045 f (Nat.le_of_ble_eq_true rfl)).2.1⟩
theorem loop (f : RI) : Statement (.loop f) := with_literal rfl ⟨(putRI_code 0x046 f (Nat.le_of_ble_eq_true rfl)).1, (putRI_code 0x046 f (Nat.le_of_ble_eq_true rfl)).2.1⟩
theorem rep (f : RI) : Statement (.rep f) := with_literal rfl ⟨(putRI_code 0x047 f (Nat.le_of_ble_eq_true rfl)).1, (putRI_code 0x047 f (Nat.le_of_ble_eq_true rfl)).2.1⟩
theorem wait (f : RI) : Statement (.wait f) :=
  no_literal (l := f.lit) rfl ⟨(putRI_code 0x048 f (Nat.le_of_ble_eq_true rfl)).1, (putRI_code 0x048 f (Nat.le_of_ble_eq_true rfl)).2.1⟩ (fun h =>  (Bool.and_eq_true_iff.1 (Bool.and_eq_true_iff.1 h).1).1)
theorem yield (f : NF) : Statement (.yield f) := one_word rfl ⟨(putNF_code 0x049 f (Nat.le_of_ble_eq_true rfl)).1, (putNF_code 0x049 f (Nat.le_of_ble_eq_true rfl)).2.1⟩
theorem stop (f : NF) : Statement (.stop f) := one_word rfl ⟨(putNF_code 0x04A f (Nat.le_of_ble_eq_true rfl)).1, (putNF_code 0x04A f (Nat.le_of_ble_eq_true rfl)).2.1⟩
theorem trap (f : RI) : Statement (.trap f) := with_literal rfl ⟨(putRI_code 0x04B f (Nat.le_of_ble_eq_true rfl)).1, (putRI_code 0x04B f (Nat.le_of_ble_eq_true rfl)).2.1⟩
theorem eret (f : NF) : Statement (.eret f) := one_word rfl ⟨(putNF_code 0x04C f (Nat.le_of_ble_eq_true rfl)).1, (putNF_code 0x04C f (Nat.le_of_ble_eq_true rfl)).2.1⟩
theorem mfs (f : SYS) : Statement (.mfs f) := one_word rfl ⟨(putSYS_code 0x04D f (Nat.le_of_ble_eq_true rfl)).1, (putSYS_code 0x04D f (Nat.le_of_ble_eq_true rfl)).2.1⟩
theorem mts (f : SYS) : Statement (.mts f) := one_word rfl ⟨(putSYS_code 0x04E f (Nat.le_of_ble_eq_true rfl)).1, (putSYS_code 0x04E f (Nat.le_of_ble_eq_true rfl)).2.1⟩
theorem ckpt (f : NF) : Statement (.ckpt f) := one_word rfl ⟨(putNF_code 0x04F f (Nat.le_of_ble_eq_true rfl)).1, (putNF_code 0x04F f (Nat.le_of_ble_eq_true rfl)).2.1⟩
theorem brk (f : NF) : Statement (.brk f) := one_word rfl ⟨(putNF_code 0x050 f (Nat.le_of_ble_eq_true rfl)).1, (putNF_code 0x050 f (Nat.le_of_ble_eq_true rfl)).2.1⟩
theorem ldb (f : RRI) : Statement (.ldb f) := with_literal rfl ⟨(putRRI_code 0x080 f (Nat.le_of_ble_eq_true rfl)).1, (putRRI_code 0x080 f (Nat.le_of_ble_eq_true rfl)).2.1⟩
theorem ldbu (f : RRI) : Statement (.ldbu f) := with_literal rfl ⟨(putRRI_code 0x081 f (Nat.le_of_ble_eq_true rfl)).1, (putRRI_code 0x081 f (Nat.le_of_ble_eq_true rfl)).2.1⟩
theorem ldh (f : RRI) : Statement (.ldh f) := with_literal rfl ⟨(putRRI_code 0x082 f (Nat.le_of_ble_eq_true rfl)).1, (putRRI_code 0x082 f (Nat.le_of_ble_eq_true rfl)).2.1⟩
theorem ldhu (f : RRI) : Statement (.ldhu f) := with_literal rfl ⟨(putRRI_code 0x083 f (Nat.le_of_ble_eq_true rfl)).1, (putRRI_code 0x083 f (Nat.le_of_ble_eq_true rfl)).2.1⟩
theorem ldw (f : RRI) : Statement (.ldw f) := with_literal rfl ⟨(putRRI_code 0x084 f (Nat.le_of_ble_eq_true rfl)).1, (putRRI_code 0x084 f (Nat.le_of_ble_eq_true rfl)).2.1⟩
theorem ldwu (f : RRI) : Statement (.ldwu f) := with_literal rfl ⟨(putRRI_code 0x085 f (Nat.le_of_ble_eq_true rfl)).1, (putRRI_code 0x085 f (Nat.le_of_ble_eq_true rfl)).2.1⟩
theorem ldd (f : RRI) : Statement (.ldd f) := with_literal rfl ⟨(putRRI_code 0x086 f (Nat.le_of_ble_eq_true rfl)).1, (putRRI_code 0x086 f (Nat.le_of_ble_eq_true rfl)).2.1⟩
theorem stb (f : RRI) : Statement (.stb f) := with_literal rfl ⟨(putRRI_code 0x087 f (Nat.le_of_ble_eq_true rfl)).1, (putRRI_code 0x087 f (Nat.le_of_ble_eq_true rfl)).2.1⟩
theorem sth (f : RRI) : Statement (.sth f) := with_literal rfl ⟨(putRRI_code 0x088 f (Nat.le_of_ble_eq_true rfl)).1, (putRRI_code 0x088 f (Nat.le_of_ble_eq_true rfl)).2.1⟩
theorem stw (f : RRI) : Statement (.stw f) := with_literal rfl ⟨(putRRI_code 0x089 f (Nat.le_of_ble_eq_true rfl)).1, (putRRI_code 0x089 f (Nat.le_of_ble_eq_true rfl)).2.1⟩
theorem std (f : RRI) : Statement (.std f) := with_literal rfl ⟨(putRRI_code 0x08A f (Nat.le_of_ble_eq_true rfl)).1, (putRRI_code 0x08A f (Nat.le_of_ble_eq_true rfl)).2.1⟩
theorem ldx (f : RRR) : Statement (.ldx f) := one_word rfl ⟨(putRRR_code 0x08B f (Nat.le_of_ble_eq_true rfl)).1, (putRRR_code 0x08B f (Nat.le_of_ble_eq_true rfl)).2.1⟩
theorem vld (f : RRI) : Statement (.vld f) := with_literal rfl ⟨(putRRI_code 0x08C f (Nat.le_of_ble_eq_true rfl)).1, (putRRI_code 0x08C f (Nat.le_of_ble_eq_true rfl)).2.1⟩
theorem vst (f : RRI) : Statement (.vst f) := with_literal rfl ⟨(putRRI_code 0x08D f (Nat.le_of_ble_eq_true rfl)).1, (putRRI_code 0x08D f (Nat.le_of_ble_eq_true rfl)).2.1⟩
theorem vldb (f : RRI) : Statement (.vldb f) := with_literal rfl ⟨(putRRI_code 0x08E f (Nat.le_of_ble_eq_true rfl)).1, (putRRI_code 0x08E f (Nat.le_of_ble_eq_true rfl)).2.1⟩
theorem vldx (f : RRR) : Statement (.vldx f) := one_word rfl ⟨(putRRR_code 0x08F f (Nat.le_of_ble_eq_true rfl)).1, (putRRR_code 0x08F f (Nat.le_of_ble_eq_true rfl)).2.1⟩
theorem vstx (f : RRR) : Statement (.vstx f) := one_word rfl ⟨(putRRR_code 0x090 f (Nat.le_of_ble_eq_true rfl)).1, (putRRR_code 0x090 f (Nat.le_of_ble_eq_true rfl)).2.1⟩
theorem lds (f : RR) : Statement (.lds f) := one_word rfl ⟨(putRR_code 0x091 f (Nat.le_of_ble_eq_true rfl)).1, (putRR_code 0x091 f (Nat.le_of_ble_eq_true rfl)).2.1⟩
theorem sts (f : RR) : Statement (.sts f) := one_word rfl ⟨(putRR_code 0x092 f (Nat.le_of_ble_eq_true rfl)).1, (putRR_code 0x092 f (Nat.le_of_ble_eq_true rfl)).2.1⟩
theorem stset (f : RRI) : Statement (.stset f) :=
  no_literal (l := f.lit) rfl ⟨(putRRI_code 0x093 f (Nat.le_of_ble_eq_true rfl)).1, (putRRI_code 0x093 f (Nat.le_of_ble_eq_true rfl)).2.1⟩ (fun h => h)
theorem stget (f : RRI) : Statement (.stget f) :=
  no_literal (l := f.lit) rfl ⟨(putRRI_code 0x094 f (Nat.le_of_ble_eq_true rfl)).1, (putRRI_code 0x094 f (Nat.le_of_ble_eq_true rfl)).2.1⟩ (fun h => h)
theorem stq (f : RRI) : Statement (.stq f) :=
  no_literal (l := f.lit) rfl ⟨(putRRI_code 0x095 f (Nat.le_of_ble_eq_true rfl)).1, (putRRI_code 0x095 f (Nat.le_of_ble_eq_true rfl)).2.1⟩ (fun h => h)
theorem wld (f : RRI) : Statement (.wld f) := with_literal rfl ⟨(putRRI_code 0x096 f (Nat.le_of_ble_eq_true rfl)).1, (putRRI_code 0x096 f (Nat.le_of_ble_eq_true rfl)).2.1⟩
theorem vldt (f : RRI) : Statement (.vldt f) :=
  no_literal (l := f.lit) rfl ⟨(putRRI_code 0x097 f (Nat.le_of_ble_eq_true rfl)).1, (putRRI_code 0x097 f (Nat.le_of_ble_eq_true rfl)).2.1⟩ (fun h => h)
theorem vldtc (f : RRI) : Statement (.vldtc f) :=
  no_literal (l := f.lit) rfl ⟨(putRRI_code 0x098 f (Nat.le_of_ble_eq_true rfl)).1, (putRRI_code 0x098 f (Nat.le_of_ble_eq_true rfl)).2.1⟩ (fun h => h)
theorem amoadd (f : AT) : Statement (.amoadd f) := one_word rfl ⟨(putAT_code 0x099 f (Nat.le_of_ble_eq_true rfl)).1, (putAT_code 0x099 f (Nat.le_of_ble_eq_true rfl)).2.1⟩
theorem amomin (f : AT) : Statement (.amomin f) := one_word rfl ⟨(putAT_code 0x09A f (Nat.le_of_ble_eq_true rfl)).1, (putAT_code 0x09A f (Nat.le_of_ble_eq_true rfl)).2.1⟩
theorem amomax (f : AT) : Statement (.amomax f) := one_word rfl ⟨(putAT_code 0x09B f (Nat.le_of_ble_eq_true rfl)).1, (putAT_code 0x09B f (Nat.le_of_ble_eq_true rfl)).2.1⟩
theorem amoand (f : AT) : Statement (.amoand f) := one_word rfl ⟨(putAT_code 0x09C f (Nat.le_of_ble_eq_true rfl)).1, (putAT_code 0x09C f (Nat.le_of_ble_eq_true rfl)).2.1⟩
theorem amoor (f : AT) : Statement (.amoor f) := one_word rfl ⟨(putAT_code 0x09D f (Nat.le_of_ble_eq_true rfl)).1, (putAT_code 0x09D f (Nat.le_of_ble_eq_true rfl)).2.1⟩
theorem amoxor (f : AT) : Statement (.amoxor f) := one_word rfl ⟨(putAT_code 0x09E f (Nat.le_of_ble_eq_true rfl)).1, (putAT_code 0x09E f (Nat.le_of_ble_eq_true rfl)).2.1⟩
theorem amoswp (f : AT) : Statement (.amoswp f) := one_word rfl ⟨(putAT_code 0x09F f (Nat.le_of_ble_eq_true rfl)).1, (putAT_code 0x09F f (Nat.le_of_ble_eq_true rfl)).2.1⟩
theorem amocas (f : AT) : Statement (.amocas f) := one_word rfl ⟨(putAT_code 0x0A0 f (Nat.le_of_ble_eq_true rfl)).1, (putAT_code 0x0A0 f (Nat.le_of_ble_eq_true rfl)).2.1⟩
theorem fence (f : RI) : Statement (.fence f) :=
  no_literal (l := f.lit) rfl ⟨(putRI_code 0x0A1 f (Nat.le_of_ble_eq_true rfl)).1, (putRI_code 0x0A1 f (Nat.le_of_ble_eq_true rfl)).2.1⟩ (fun h =>  (Bool.and_eq_true_iff.1 h).1)
theorem fwait (f : RR) : Statement (.fwait f) := one_word rfl ⟨(putRR_code 0x0A2 f (Nat.le_of_ble_eq_true rfl)).1, (putRR_code 0x0A2 f (Nat.le_of_ble_eq_true rfl)).2.1⟩
theorem bind (f : RRR) : Statement (.bind f) := one_word rfl ⟨(putRRR_code 0x0A3 f (Nat.le_of_ble_eq_true rfl)).1, (putRRR_code 0x0A3 f (Nat.le_of_ble_eq_true rfl)).2.1⟩
theorem acq (f : RR) : Statement (.acq f) := one_word rfl ⟨(putRR_code 0x0A4 f (Nat.le_of_ble_eq_true rfl)).1, (putRR_code 0x0A4 f (Nat.le_of_ble_eq_true rfl)).2.1⟩
theorem rel (f : RR) : Statement (.rel f) := one_word rfl ⟨(putRR_code 0x0A5 f (Nat.le_of_ble_eq_true rfl)).1, (putRR_code 0x0A5 f (Nat.le_of_ble_eq_true rfl)).2.1⟩
theorem prf (f : RRI) : Statement (.prf f) := with_literal rfl ⟨(putRRI_code 0x0A6 f (Nat.le_of_ble_eq_true rfl)).1, (putRRI_code 0x0A6 f (Nat.le_of_ble_eq_true rfl)).2.1⟩
theorem ninv (f : RRI) : Statement (.ninv f) := with_literal rfl ⟨(putRRI_code 0x0A7 f (Nat.le_of_ble_eq_true rfl)).1, (putRRI_code 0x0A7 f (Nat.le_of_ble_eq_true rfl)).2.1⟩
theorem vadd (f : RRR) : Statement (.vadd f) := one_word rfl ⟨(putRRR_code 0x0C0 f (Nat.le_of_ble_eq_true rfl)).1, (putRRR_code 0x0C0 f (Nat.le_of_ble_eq_true rfl)).2.1⟩
theorem vsub (f : RRR) : Statement (.vsub f) := one_word rfl ⟨(putRRR_code 0x0C1 f (Nat.le_of_ble_eq_true rfl)).1, (putRRR_code 0x0C1 f (Nat.le_of_ble_eq_true rfl)).2.1⟩
theorem vmul (f : RRR) : Statement (.vmul f) := one_word rfl ⟨(putRRR_code 0x0C2 f (Nat.le_of_ble_eq_true rfl)).1, (putRRR_code 0x0C2 f (Nat.le_of_ble_eq_true rfl)).2.1⟩
theorem vfma (f : RRR) : Statement (.vfma f) := one_word rfl ⟨(putRRR_code 0x0C3 f (Nat.le_of_ble_eq_true rfl)).1, (putRRR_code 0x0C3 f (Nat.le_of_ble_eq_true rfl)).2.1⟩
theorem vfms (f : RRR) : Statement (.vfms f) := one_word rfl ⟨(putRRR_code 0x0C4 f (Nat.le_of_ble_eq_true rfl)).1, (putRRR_code 0x0C4 f (Nat.le_of_ble_eq_true rfl)).2.1⟩
theorem vmin (f : RRR) : Statement (.vmin f) := one_word rfl ⟨(putRRR_code 0x0C5 f (Nat.le_of_ble_eq_true rfl)).1, (putRRR_code 0x0C5 f (Nat.le_of_ble_eq_true rfl)).2.1⟩
theorem vmax (f : RRR) : Statement (.vmax f) := one_word rfl ⟨(putRRR_code 0x0C6 f (Nat.le_of_ble_eq_true rfl)).1, (putRRR_code 0x0C6 f (Nat.le_of_ble_eq_true rfl)).2.1⟩
theorem vabs (f : RR) : Statement (.vabs f) := one_word rfl ⟨(putRR_code 0x0C7 f (Nat.le_of_ble_eq_true rfl)).1, (putRR_code 0x0C7 f (Nat.le_of_ble_eq_true rfl)).2.1⟩
theorem vneg (f : RR) : Statement (.vneg f) := one_word rfl ⟨(putRR_code 0x0C8 f (Nat.le_of_ble_eq_true rfl)).1, (putRR_code 0x0C8 f (Nat.le_of_ble_eq_true rfl)).2.1⟩
theorem vcmpeq (f : RRR) : Statement (.vcmpeq f) := one_word rfl ⟨(putRRR_code 0x0C9 f (Nat.le_of_ble_eq_true rfl)).1, (putRRR_code 0x0C9 f (Nat.le_of_ble_eq_true rfl)).2.1⟩
theorem vcmplt (f : RRR) : Statement (.vcmplt f) := one_word rfl ⟨(putRRR_code 0x0CA f (Nat.le_of_ble_eq_true rfl)).1, (putRRR_code 0x0CA f (Nat.le_of_ble_eq_true rfl)).2.1⟩
theorem vcmple (f : RRR) : Statement (.vcmple f) := one_word rfl ⟨(putRRR_code 0x0CB f (Nat.le_of_ble_eq_true rfl)).1, (putRRR_code 0x0CB f (Nat.le_of_ble_eq_true rfl)).2.1⟩
theorem vcmpun (f : RRR) : Statement (.vcmpun f) := one_word rfl ⟨(putRRR_code 0x0CC f (Nat.le_of_ble_eq_true rfl)).1, (putRRR_code 0x0CC f (Nat.le_of_ble_eq_true rfl)).2.1⟩
theorem vsel (f : RRR) : Statement (.vsel f) := one_word rfl ⟨(putRRR_code 0x0CD f (Nat.le_of_ble_eq_true rfl)).1, (putRRR_code 0x0CD f (Nat.le_of_ble_eq_true rfl)).2.1⟩
theorem vmov (f : RR) : Statement (.vmov f) := one_word rfl ⟨(putRR_code 0x0CE f (Nat.le_of_ble_eq_true rfl)).1, (putRR_code 0x0CE f (Nat.le_of_ble_eq_true rfl)).2.1⟩
theorem vbcast (f : RR) : Statement (.vbcast f) := one_word rfl ⟨(putRR_code 0x0CF f (Nat.le_of_ble_eq_true rfl)).1, (putRR_code 0x0CF f (Nat.le_of_ble_eq_true rfl)).2.1⟩
theorem viota (f : RR) : Statement (.viota f) := one_word rfl ⟨(putRR_code 0x0D0 f (Nat.le_of_ble_eq_true rfl)).1, (putRR_code 0x0D0 f (Nat.le_of_ble_eq_true rfl)).2.1⟩
theorem viadd (f : RRR) : Statement (.viadd f) := one_word rfl ⟨(putRRR_code 0x0D1 f (Nat.le_of_ble_eq_true rfl)).1, (putRRR_code 0x0D1 f (Nat.le_of_ble_eq_true rfl)).2.1⟩
theorem visub (f : RRR) : Statement (.visub f) := one_word rfl ⟨(putRRR_code 0x0D2 f (Nat.le_of_ble_eq_true rfl)).1, (putRRR_code 0x0D2 f (Nat.le_of_ble_eq_true rfl)).2.1⟩
theorem vimul (f : RRR) : Statement (.vimul f) := one_word rfl ⟨(putRRR_code 0x0D3 f (Nat.le_of_ble_eq_true rfl)).1, (putRRR_code 0x0D3 f (Nat.le_of_ble_eq_true rfl)).2.1⟩
theorem viand (f : RRR) : Statement (.viand f) := one_word rfl ⟨(putRRR_code 0x0D4 f (Nat.le_of_ble_eq_true rfl)).1, (putRRR_code 0x0D4 f (Nat.le_of_ble_eq_true rfl)).2.1⟩
theorem vior (f : RRR) : Statement (.vior f) := one_word rfl ⟨(putRRR_code 0x0D5 f (Nat.le_of_ble_eq_true rfl)).1, (putRRR_code 0x0D5 f (Nat.le_of_ble_eq_true rfl)).2.1⟩
theorem vixor (f : RRR) : Statement (.vixor f) := one_word rfl ⟨(putRRR_code 0x0D6 f (Nat.le_of_ble_eq_true rfl)).1, (putRRR_code 0x0D6 f (Nat.le_of_ble_eq_true rfl)).2.1⟩
theorem vishl (f : RRR) : Statement (.vishl f) := one_word rfl ⟨(putRRR_code 0x0D7 f (Nat.le_of_ble_eq_true rfl)).1, (putRRR_code 0x0D7 f (Nat.le_of_ble_eq_true rfl)).2.1⟩
theorem vishr (f : RRR) : Statement (.vishr f) := one_word rfl ⟨(putRRR_code 0x0D8 f (Nat.le_of_ble_eq_true rfl)).1, (putRRR_code 0x0D8 f (Nat.le_of_ble_eq_true rfl)).2.1⟩
theorem visar (f : RRR) : Statement (.visar f) := one_word rfl ⟨(putRRR_code 0x0D9 f (Nat.le_of_ble_eq_true rfl)).1, (putRRR_code 0x0D9 f (Nat.le_of_ble_eq_true rfl)).2.1⟩
theorem vimin (f : RRR) : Statement (.vimin f) := one_word rfl ⟨(putRRR_code 0x0DA f (Nat.le_of_ble_eq_true rfl)).1, (putRRR_code 0x0DA f (Nat.le_of_ble_eq_true rfl)).2.1⟩
theorem vimax (f : RRR) : Statement (.vimax f) := one_word rfl ⟨(putRRR_code 0x0DB f (Nat.le_of_ble_eq_true rfl)).1, (putRRR_code 0x0DB f (Nat.le_of_ble_eq_true rfl)).2.1⟩
theorem vicmpeq (f : RRR) : Statement (.vicmpeq f) := one_word rfl ⟨(putRRR_code 0x0DC f (Nat.le_of_ble_eq_true rfl)).1, (putRRR_code 0x0DC f (Nat.le_of_ble_eq_true rfl)).2.1⟩
theorem vicmplt (f : RRR) : Statement (.vicmplt f) := one_word rfl ⟨(putRRR_code 0x0DD f (Nat.le_of_ble_eq_true rfl)).1, (putRRR_code 0x0DD f (Nat.le_of_ble_eq_true rfl)).2.1⟩
theorem vperm (f : RRR) : Statement (.vperm f) := one_word rfl ⟨(putRRR_code 0x0DE f (Nat.le_of_ble_eq_true rfl)).1, (putRRR_code 0x0DE f (Nat.le_of_ble_eq_true rfl)).2.1⟩
theorem vrot (f : RRR) : Statement (.vrot f) := one_word rfl ⟨(putRRR_code 0x0DF f (Nat.le_of_ble_eq_true rfl)).1, (putRRR_code 0x0DF f (Nat.le_of_ble_eq_true rfl)).2.1⟩
theorem vext (f : RRR) : Statement (.vext f) := one_word rfl ⟨(putRRR_code 0x0E0 f (Nat.le_of_ble_eq_true rfl)).1, (putRRR_code 0x0E0 f (Nat.le_of_ble_eq_true rfl)).2.1⟩
theorem vins (f : RRR) : Statement (.vins f) := one_word rfl ⟨(putRRR_code 0x0E1 f (Nat.le_of_ble_eq_true rfl)).1, (putRRR_code 0x0E1 f (Nat.le_of_ble_eq_true rfl)).2.1⟩
theorem vfmai (f : RRR) : Statement (.vfmai f) := one_word rfl ⟨(putRRR_code 0x0E2 f (Nat.le_of_ble_eq_true rfl)).1, (putRRR_code 0x0E2 f (Nat.le_of_ble_eq_true rfl)).2.1⟩
theorem vcvt (f : UF) : Statement (.vcvt f) := one_word rfl ⟨(putUF_code 0x100 f (Nat.le_of_ble_eq_true rfl)).1, (putUF_code 0x100 f (Nat.le_of_ble_eq_true rfl)).2.1⟩
theorem vcvtx (f : UF) : Statement (.vcvtx f) := one_word rfl ⟨(putUF_code 0x101 f (Nat.le_of_ble_eq_true rfl)).1, (putUF_code 0x101 f (Nat.le_of_ble_eq_true rfl)).2.1⟩
theorem vpack (f : UF) : Statement (.vpack f) := one_word rfl ⟨(putUF_code 0x102 f (Nat.le_of_ble_eq_true rfl)).1, (putUF_code 0x102 f (Nat.le_of_ble_eq_true rfl)).2.1⟩
theorem vunpk (f : UF) : Statement (.vunpk f) := one_word rfl ⟨(putUF_code 0x103 f (Nat.le_of_ble_eq_true rfl)).1, (putUF_code 0x103 f (Nat.le_of_ble_eq_true rfl)).2.1⟩
theorem vqmx (f : UF) : Statement (.vqmx f) := one_word rfl ⟨(putUF_code 0x104 f (Nat.le_of_ble_eq_true rfl)).1, (putUF_code 0x104 f (Nat.le_of_ble_eq_true rfl)).2.1⟩
theorem vdqmx (f : UF) : Statement (.vdqmx f) := one_word rfl ⟨(putUF_code 0x105 f (Nat.le_of_ble_eq_true rfl)).1, (putUF_code 0x105 f (Nat.le_of_ble_eq_true rfl)).2.1⟩
theorem vq4n (f : UF) : Statement (.vq4n f) := one_word rfl ⟨(putUF_code 0x106 f (Nat.le_of_ble_eq_true rfl)).1, (putUF_code 0x106 f (Nat.le_of_ble_eq_true rfl)).2.1⟩
theorem vdq4n (f : UF) : Statement (.vdq4n f) := one_word rfl ⟨(putUF_code 0x107 f (Nat.le_of_ble_eq_true rfl)).1, (putUF_code 0x107 f (Nat.le_of_ble_eq_true rfl)).2.1⟩
theorem vamax (f : RR) : Statement (.vamax f) := one_word rfl ⟨(putRR_code 0x108 f (Nat.le_of_ble_eq_true rfl)).1, (putRR_code 0x108 f (Nat.le_of_ble_eq_true rfl)).2.1⟩
theorem vsum (f : RR) : Statement (.vsum f) := one_word rfl ⟨(putRR_code 0x109 f (Nat.le_of_ble_eq_true rfl)).1, (putRR_code 0x109 f (Nat.le_of_ble_eq_true rfl)).2.1⟩
theorem vmaxi (f : RR) : Statement (.vmaxi f) := one_word rfl ⟨(putRR_code 0x10A f (Nat.le_of_ble_eq_true rfl)).1, (putRR_code 0x10A f (Nat.le_of_ble_eq_true rfl)).2.1⟩
theorem vmini (f : RR) : Statement (.vmini f) := one_word rfl ⟨(putRR_code 0x10B f (Nat.le_of_ble_eq_true rfl)).1, (putRR_code 0x10B f (Nat.le_of_ble_eq_true rfl)).2.1⟩
theorem vlog2 (f : UF) : Statement (.vlog2 f) := one_word rfl ⟨(putUF_code 0x10C f (Nat.le_of_ble_eq_true rfl)).1, (putUF_code 0x10C f (Nat.le_of_ble_eq_true rfl)).2.1⟩
theorem vexp2 (f : UF) : Statement (.vexp2 f) := one_word rfl ⟨(putUF_code 0x10D f (Nat.le_of_ble_eq_true rfl)).1, (putUF_code 0x10D f (Nat.le_of_ble_eq_true rfl)).2.1⟩
theorem vrcp (f : UF) : Statement (.vrcp f) := one_word rfl ⟨(putUF_code 0x10E f (Nat.le_of_ble_eq_true rfl)).1, (putUF_code 0x10E f (Nat.le_of_ble_eq_true rfl)).2.1⟩
theorem vrsqrt (f : UF) : Statement (.vrsqrt f) := one_word rfl ⟨(putUF_code 0x10F f (Nat.le_of_ble_eq_true rfl)).1, (putUF_code 0x10F f (Nat.le_of_ble_eq_true rfl)).2.1⟩
theorem vrng (f : RR) : Statement (.vrng f) := one_word rfl ⟨(putRR_code 0x110 f (Nat.le_of_ble_eq_true rfl)).1, (putRR_code 0x110 f (Nat.le_of_ble_eq_true rfl)).2.1⟩
theorem vlsem (f : RRR) : Statement (.vlsem f) := one_word rfl ⟨(putRRR_code 0x111 f (Nat.le_of_ble_eq_true rfl)).1, (putRRR_code 0x111 f (Nat.le_of_ble_eq_true rfl)).2.1⟩
theorem vfxcvt (f : UF) : Statement (.vfxcvt f) := one_word rfl ⟨(putUF_code 0x112 f (Nat.le_of_ble_eq_true rfl)).1, (putUF_code 0x112 f (Nat.le_of_ble_eq_true rfl)).2.1⟩
theorem mpush (f : MF) : Statement (.mpush f) := one_word rfl ⟨(putMF_code 0x140 f (Nat.le_of_ble_eq_true rfl)).1, (putMF_code 0x140 f (Nat.le_of_ble_eq_true rfl)).2.1⟩
theorem mswap (f : MF) : Statement (.mswap f) := one_word rfl ⟨(putMF_code 0x141 f (Nat.le_of_ble_eq_true rfl)).1, (putMF_code 0x141 f (Nat.le_of_ble_eq_true rfl)).2.1⟩
theorem macc (f : MF) : Statement (.macc f) := one_word rfl ⟨(putMF_code 0x142 f (Nat.le_of_ble_eq_true rfl)).1, (putMF_code 0x142 f (Nat.le_of_ble_eq_true rfl)).2.1⟩
theorem maccp (f : MF) : Statement (.maccp f) := one_word rfl ⟨(putMF_code 0x143 f (Nat.le_of_ble_eq_true rfl)).1, (putMF_code 0x143 f (Nat.le_of_ble_eq_true rfl)).2.1⟩
theorem mdrain (f : MF) : Statement (.mdrain f) := one_word rfl ⟨(putMF_code 0x144 f (Nat.le_of_ble_eq_true rfl)).1, (putMF_code 0x144 f (Nat.le_of_ble_eq_true rfl)).2.1⟩
theorem mdrainp (f : MF) : Statement (.mdrainp f) := one_word rfl ⟨(putMF_code 0x145 f (Nat.le_of_ble_eq_true rfl)).1, (putMF_code 0x145 f (Nat.le_of_ble_eq_true rfl)).2.1⟩
theorem mclr (f : MF) : Statement (.mclr f) := one_word rfl ⟨(putMF_code 0x146 f (Nat.le_of_ble_eq_true rfl)).1, (putMF_code 0x146 f (Nat.le_of_ble_eq_true rfl)).2.1⟩
theorem mownAcquire (f : MF) : Statement (.mownAcquire f) := one_word rfl ⟨(putMF_code 0x147 f (Nat.le_of_ble_eq_true rfl)).1, (putMF_code 0x147 f (Nat.le_of_ble_eq_true rfl)).2.1⟩
theorem mownRelease (f : MF) : Statement (.mownRelease f) := one_word rfl ⟨(putMF_code 0x147 f (Nat.le_of_ble_eq_true rfl)).1, (putMF_code 0x147 f (Nat.le_of_ble_eq_true rfl)).2.1⟩
theorem shw (f : RRI) : Statement (.shw f) :=
  no_literal (l := f.lit) rfl ⟨(putRRI_code 0x180 f (Nat.le_of_ble_eq_true rfl)).1, (putRRI_code 0x180 f (Nat.le_of_ble_eq_true rfl)).2.1⟩ (fun h => h)
theorem cpy (f : CP) : Statement (.cpy f) := one_word rfl ⟨(putCP_code 0x181 f (Nat.le_of_ble_eq_true rfl)).1, (putCP_code 0x181 f (Nat.le_of_ble_eq_true rfl)).2.1⟩
theorem cpyadd (f : CP) : Statement (.cpyadd f) := one_word rfl ⟨(putCP_code 0x182 f (Nat.le_of_ble_eq_true rfl)).1, (putCP_code 0x182 f (Nat.le_of_ble_eq_true rfl)).2.1⟩
theorem cpymc (f : CP) : Statement (.cpymc f) := one_word rfl ⟨(putCP_code 0x183 f (Nat.le_of_ble_eq_true rfl)).1, (putCP_code 0x183 f (Nat.le_of_ble_eq_true rfl)).2.1⟩
theorem cpyt (f : CP) : Statement (.cpyt f) := one_word rfl ⟨(putCP_code 0x184 f (Nat.le_of_ble_eq_true rfl)).1, (putCP_code 0x184 f (Nat.le_of_ble_eq_true rfl)).2.1⟩
theorem cpyg (f : CP) : Statement (.cpyg f) := one_word rfl ⟨(putCP_code 0x185 f (Nat.le_of_ble_eq_true rfl)).1, (putCP_code 0x185 f (Nat.le_of_ble_eq_true rfl)).2.1⟩
theorem tlrd (f : RR) : Statement (.tlrd f) := one_word rfl ⟨(putRR_code 0x186 f (Nat.le_of_ble_eq_true rfl)).1, (putRR_code 0x186 f (Nat.le_of_ble_eq_true rfl)).2.1⟩
theorem tlwait (f : RR) : Statement (.tlwait f) := one_word rfl ⟨(putRR_code 0x187 f (Nat.le_of_ble_eq_true rfl)).1, (putRR_code 0x187 f (Nat.le_of_ble_eq_true rfl)).2.1⟩
theorem swset (f : RRR) : Statement (.swset f) := one_word rfl ⟨(putRRR_code 0x188 f (Nat.le_of_ble_eq_true rfl)).1, (putRRR_code 0x188 f (Nat.le_of_ble_eq_true rfl)).2.1⟩
theorem swwait (f : RR) : Statement (.swwait f) := one_word rfl ⟨(putRR_code 0x189 f (Nat.le_of_ble_eq_true rfl)).1, (putRR_code 0x189 f (Nat.le_of_ble_eq_true rfl)).2.1⟩
theorem itstart (f : RR) : Statement (.itstart f) := one_word rfl ⟨(putRR_code 0x18A f (Nat.le_of_ble_eq_true rfl)).1, (putRR_code 0x18A f (Nat.le_of_ble_eq_true rfl)).2.1⟩
theorem itstat (f : RR) : Statement (.itstat f) := one_word rfl ⟨(putRR_code 0x18B f (Nat.le_of_ble_eq_true rfl)).1, (putRR_code 0x18B f (Nat.le_of_ble_eq_true rfl)).2.1⟩
theorem plan (f : RRR) : Statement (.plan f) := one_word rfl ⟨(putRRR_code 0x18C f (Nat.le_of_ble_eq_true rfl)).1, (putRRR_code 0x18C f (Nat.le_of_ble_eq_true rfl)).2.1⟩
theorem lnscfgTemplate (f : RRI) : Statement (.lnscfgTemplate f) :=
  no_literal (l := f.lit) rfl ⟨(putRRI_code 0x18D f (Nat.le_of_ble_eq_true rfl)).1, (putRRI_code 0x18D f (Nat.le_of_ble_eq_true rfl)).2.1⟩ (fun h =>  (Bool.and_eq_true_iff.1 (Bool.and_eq_true_iff.1 h).1).1)
theorem lnscfgDescriptor (f : RRI) : Statement (.lnscfgDescriptor f) :=
  no_literal (l := f.lit) rfl ⟨(putRRI_code 0x18D f (Nat.le_of_ble_eq_true rfl)).1, (putRRI_code 0x18D f (Nat.le_of_ble_eq_true rfl)).2.1⟩ (fun h =>  (Bool.and_eq_true_iff.1 (Bool.and_eq_true_iff.1 h).1).1)
theorem lnsgo (f : RR) : Statement (.lnsgo f) := one_word rfl ⟨(putRR_code 0x18E f (Nat.le_of_ble_eq_true rfl)).1, (putRR_code 0x18E f (Nat.le_of_ble_eq_true rfl)).2.1⟩
theorem gcfg (f : RRR) : Statement (.gcfg f) := one_word rfl ⟨(putRRR_code 0x18F f (Nat.le_of_ble_eq_true rfl)).1, (putRRR_code 0x18F f (Nat.le_of_ble_eq_true rfl)).2.1⟩
theorem gsub (f : RRR) : Statement (.gsub f) := one_word rfl ⟨(putRRR_code 0x190 f (Nat.le_of_ble_eq_true rfl)).1, (putRRR_code 0x190 f (Nat.le_of_ble_eq_true rfl)).2.1⟩
theorem cpyw (f : CP) : Statement (.cpyw f) := one_word rfl ⟨(putCP_code 0x191 f (Nat.le_of_ble_eq_true rfl)).1, (putCP_code 0x191 f (Nat.le_of_ble_eq_true rfl)).2.1⟩
theorem spawn (f : RR) : Statement (.spawn f) := one_word rfl ⟨(putRR_code 0x1C0 f (Nat.le_of_ble_eq_true rfl)).1, (putRR_code 0x1C0 f (Nat.le_of_ble_eq_true rfl)).2.1⟩
theorem qpush (f : RRR) : Statement (.qpush f) := one_word rfl ⟨(putRRR_code 0x1C1 f (Nat.le_of_ble_eq_true rfl)).1, (putRRR_code 0x1C1 f (Nat.le_of_ble_eq_true rfl)).2.1⟩
theorem join (f : RR) : Statement (.join f) := one_word rfl ⟨(putRR_code 0x1C2 f (Nat.le_of_ble_eq_true rfl)).1, (putRR_code 0x1C2 f (Nat.le_of_ble_eq_true rfl)).2.1⟩
theorem trig (f : NF) : Statement (.trig f) := one_word rfl ⟨(putNF_code 0x1C3 f (Nat.le_of_ble_eq_true rfl)).1, (putNF_code 0x1C3 f (Nat.le_of_ble_eq_true rfl)).2.1⟩
theorem park (f : RR) : Statement (.park f) := one_word rfl ⟨(putRR_code 0x1C4 f (Nat.le_of_ble_eq_true rfl)).1, (putRR_code 0x1C4 f (Nat.le_of_ble_eq_true rfl)).2.1⟩
theorem wake (f : RR) : Statement (.wake f) := one_word rfl ⟨(putRR_code 0x1C5 f (Nat.le_of_ble_eq_true rfl)).1, (putRR_code 0x1C5 f (Nat.le_of_ble_eq_true rfl)).2.1⟩
theorem futwait (f : RR) : Statement (.futwait f) := one_word rfl ⟨(putRR_code 0x1C6 f (Nat.le_of_ble_eq_true rfl)).1, (putRR_code 0x1C6 f (Nat.le_of_ble_eq_true rfl)).2.1⟩
theorem futset (f : RRR) : Statement (.futset f) := one_word rfl ⟨(putRRR_code 0x1C7 f (Nat.le_of_ble_eq_true rfl)).1, (putRRR_code 0x1C7 f (Nat.le_of_ble_eq_true rfl)).2.1⟩
theorem futpoison (f : RR) : Statement (.futpoison f) := one_word rfl ⟨(putRR_code 0x1C8 f (Nat.le_of_ble_eq_true rfl)).1, (putRR_code 0x1C8 f (Nat.le_of_ble_eq_true rfl)).2.1⟩
theorem talloc (f : RRI) : Statement (.talloc f) :=
  no_literal (l := f.lit) rfl ⟨(putRRI_code 0x1C9 f (Nat.le_of_ble_eq_true rfl)).1, (putRRI_code 0x1C9 f (Nat.le_of_ble_eq_true rfl)).2.1⟩ (fun h => h)
theorem tfin (f : RR) : Statement (.tfin f) := one_word rfl ⟨(putRR_code 0x1CA f (Nat.le_of_ble_eq_true rfl)).1, (putRR_code 0x1CA f (Nat.le_of_ble_eq_true rfl)).2.1⟩
theorem tdrop (f : RR) : Statement (.tdrop f) := one_word rfl ⟨(putRR_code 0x1CB f (Nat.le_of_ble_eq_true rfl)).1, (putRR_code 0x1CB f (Nat.le_of_ble_eq_true rfl)).2.1⟩
theorem bar (f : RI) : Statement (.bar f) :=
  no_literal (l := f.lit) rfl ⟨(putRI_code 0x1CC f (Nat.le_of_ble_eq_true rfl)).1, (putRI_code 0x1CC f (Nat.le_of_ble_eq_true rfl)).2.1⟩ (fun h =>  (Bool.and_eq_true_iff.1 (Bool.and_eq_true_iff.1 h).1).1)
theorem barr (f : RI) : Statement (.barr f) :=
  no_literal (l := f.lit) rfl ⟨(putRI_code 0x1CD f (Nat.le_of_ble_eq_true rfl)).1, (putRI_code 0x1CD f (Nat.le_of_ble_eq_true rfl)).2.1⟩ (fun h =>  (Bool.and_eq_true_iff.1 (Bool.and_eq_true_iff.1 h).1).1)
theorem barw (f : RI) : Statement (.barw f) :=
  no_literal (l := f.lit) rfl ⟨(putRI_code 0x1CE f (Nat.le_of_ble_eq_true rfl)).1, (putRI_code 0x1CE f (Nat.le_of_ble_eq_true rfl)).2.1⟩ (fun h =>  (Bool.and_eq_true_iff.1 (Bool.and_eq_true_iff.1 h).1).1)
theorem kvapp (f : RRR) : Statement (.kvapp f) := one_word rfl ⟨(putRRR_code 0x1CF f (Nat.le_of_ble_eq_true rfl)).1, (putRRR_code 0x1CF f (Nat.le_of_ble_eq_true rfl)).2.1⟩
theorem susp (f : NF) : Statement (.susp f) := one_word rfl ⟨(putNF_code 0x1D0 f (Nat.le_of_ble_eq_true rfl)).1, (putNF_code 0x1D0 f (Nat.le_of_ble_eq_true rfl)).2.1⟩
theorem bundleIssue (c : CoreId) : Statement (.bundleIssue c) := no_words rfl
theorem continuationStart (c : CoreId) (x : CtxId) : Statement (.continuationStart c x) := no_words rfl
theorem suspensionPoint (c : CoreId) (x : CtxId) : Statement (.suspensionPoint c x) := no_words rfl
theorem heldPushRetry (c : CoreId) : Statement (.heldPushRetry c) := no_words rfl
theorem barrierEpisodeComplete (team scope dom : Nat) : Statement (.barrierEpisodeComplete team scope dom) := no_words rfl
theorem tileStep (c : CoreId) (x : CtxId) : Statement (.tileStep c x) := no_words rfl
theorem tileStepDone (c : CoreId) (x : CtxId) : Statement (.tileStepDone c x) := no_words rfl
theorem divisionResult (c : CoreId) (x : CtxId) (id : Nat) : Statement (.divisionResult c x id) := no_words rfl
theorem variableLoadResult (c : CoreId) (x : CtxId) (id : Nat) : Statement (.variableLoadResult c x id) := no_words rfl
theorem atomicResult (c : CoreId) (x : CtxId) (id : Nat) : Statement (.atomicResult c x id) := no_words rfl
theorem fenceComplete (c : CoreId) (x : CtxId) : Statement (.fenceComplete c x) := no_words rfl
theorem tileGrant (c : CoreId) (pool : Fin 16) : Statement (.tileGrant c pool) := no_words rfl
theorem planResult (c : CoreId) (x : CtxId) (id : Nat) : Statement (.planResult c x id) := no_words rfl
theorem kvappResult (c : CoreId) (x : CtxId) (id : Nat) : Statement (.kvappResult c x id) := no_words rfl
theorem rollback (c : CoreId) (x : CtxId) : Statement (.rollback c x) := no_words rfl
theorem page (c : CoreId) (x : CtxId) (id : Nat) : Statement (.page c x id) := no_words rfl
theorem heldFault (c : CoreId) (x : CtxId) : Statement (.heldFault c x) := no_words rfl
theorem int (c : CoreId) (x : CtxId) : Statement (.int c x) := no_words rfl
theorem watchdog (c : CoreId) (x : CtxId) : Statement (.watchdog c x) := no_words rfl
theorem preempt (c : CoreId) (x : CtxId) : Statement (.preempt c x) := no_words rfl
theorem preemptHandlerTimeout (c : CoreId) (x : CtxId) : Statement (.preemptHandlerTimeout c x) := no_words rfl
theorem dispatch (p : PartId) : Statement (.dispatch p) := no_words rfl
theorem steal (p : PartId) (o c : CoreId) : Statement (.steal p o c) := no_words rfl
theorem preemption (p : PartId) : Statement (.preemption p) := no_words rfl
theorem drainLimit (c : CoreId) (x : CtxId) : Statement (.drainLimit c x) := no_words rfl
theorem save (c : CoreId) (x : CtxId) : Statement (.save c x) := no_words rfl
theorem saveResume (c : CoreId) (x : CtxId) : Statement (.saveResume c x) := no_words rfl
theorem kill (c : CoreId) (x : CtxId) : Statement (.kill c x) := no_words rfl
theorem teamAbort (team : Nat) : Statement (.teamAbort team) := no_words rfl
theorem killDrainDone (team : Nat) : Statement (.killDrainDone team) := no_words rfl
theorem gangPlacement (p : PartId) (gang : Nat) : Statement (.gangPlacement p gang) := no_words rfl
theorem priorityTokenPeriod (p : PartId) : Statement (.priorityTokenPeriod p) := no_words rfl
theorem budgetPeriod (p : PartId) : Statement (.budgetPeriod p) := no_words rfl
theorem tstall (c : CoreId) (x : CtxId) : Statement (.tstall c x) := no_words rfl
theorem engineAllocWatchdog (c : CoreId) (pool : Fin 16) (id : Nat) : Statement (.engineAllocWatchdog c pool id) := no_words rfl
theorem copyWalkStart (c : CoreId) (x : CtxId) (id : Nat) : Statement (.copyWalkStart c x id) := no_words rfl
theorem copyComplete (c : CoreId) (x : CtxId) (id : Nat) : Statement (.copyComplete c x id) := no_words rfl
theorem copyError (c : CoreId) (x : CtxId) (id : Nat) (f : EngineFault) : Statement (.copyError c x id f) := no_words rfl
theorem syncWordArrival (c : CoreId) (x : CtxId) (id bytes : Nat) : Statement (.syncWordArrival c x id bytes) := no_words rfl
theorem destinationAccumulate (c : CoreId) (x : CtxId) (id : Nat) : Statement (.destinationAccumulate c x id) := no_words rfl
theorem gatherPageLanded (c : CoreId) (x : CtxId) (id : Nat) : Statement (.gatherPageLanded c x id) := no_words rfl
theorem slipStart (it : ItinId) : Statement (.slipStart it) := no_words rfl
theorem slipComplete (it : ItinId) (num : Nat) : Statement (.slipComplete it num) := no_words rfl
theorem slipFailure (it : ItinId) (num : Nat) (f : EngineFault) : Statement (.slipFailure it num f) := no_words rfl
theorem demotionTimer (e : Nat) (tier : Nat) : Statement (.demotionTimer e tier) := no_words rfl
theorem demotionMoveDone (e : Nat) : Statement (.demotionMoveDone e) := no_words rfl
theorem demotionRetry (e : Nat) : Statement (.demotionRetry e) := no_words rfl
theorem wakeWrite (token value : BitVec 64) : Statement (.wakeWrite token value) := no_words rfl
theorem promotionResume (e : Nat) : Statement (.promotionResume e) := no_words rfl
theorem promotionMoveDone (e : Nat) : Statement (.promotionMoveDone e) := no_words rfl
theorem gathererDeadline (g : GathererId) : Statement (.gathererDeadline g) := no_words rfl
theorem powerAlarm (c : CoreId) : Statement (.powerAlarm c) := no_words rfl
theorem powerExcessNotify : Statement .powerExcessNotify := no_words rfl
theorem bankFailure (c : CoreId) (bank : Fin 34) : Statement (.bankFailure c bank) := no_words rfl
theorem bankRebuildDone (c : CoreId) : Statement (.bankRebuildDone c) := no_words rfl
theorem refreshWindow (d : DieId) : Statement (.refreshWindow d) := no_words rfl
theorem autonomousRefresh (d : DieId) : Statement (.autonomousRefresh d) := no_words rfl
theorem refreshOwnershipReturn (d : DieId) : Statement (.refreshOwnershipReturn d) := no_words rfl
theorem refreshManagement (tier bank : Nat) : Statement (.refreshManagement tier bank) := no_words rfl
theorem atsTranslationCompletion (d : DieId) (t : TlbEntry) : Statement (.atsTranslationCompletion d t) := no_words rfl
theorem priPageResponse (c : CoreId) (x : CtxId) (r : PriAnswer) : Statement (.priPageResponse c x r) := no_words rfl
theorem atsInvalidationRequest (d : DieId) (pasid : BitVec 20) (page count : Nat) : Statement (.atsInvalidationRequest d pasid page count) := no_words rfl
theorem writebackPoison (c : CoreId) (line : BitVec 64) : Statement (.writebackPoison c line) := no_words rfl
theorem interruptPageWrite (v : BitVec 64) : Statement (.interruptPageWrite v) := no_words rfl
theorem intSend (v : BitVec 64) : Statement (.intSend v) := no_words rfl
theorem hostQueueDoorbell (q : QueueId) (tail : BitVec 16) : Statement (.hostQueueDoorbell q tail) := no_words rfl
theorem registerWrite (block number : Nat) (v : BitVec 64) : Statement (.registerWrite block number v) := no_words rfl
theorem rcRegisterRead (block number : Nat) : Statement (.rcRegisterRead block number) := no_words rfl
theorem spillConfigWrite (c : CoreId) (number : Nat) (v : BitVec 64) : Statement (.spillConfigWrite c number v) := no_words rfl
theorem itOwnWrite (p : PartId) (v : BitVec 64) : Statement (.itOwnWrite p v) := no_words rfl
theorem freeListTailWrite (p : PartId) (tier : Fin 4) (v : BitVec 64) : Statement (.freeListTailWrite p tier v) := no_words rfl
theorem cfgTranslationTable (v : BitVec 64) : Statement (.cfgTranslationTable v) := no_words rfl
theorem tableInstall (p : PartId) : Statement (.tableInstall p) := no_words rfl
theorem cfgPoolDescriptor (v : BitVec 64) : Statement (.cfgPoolDescriptor v) := no_words rfl
theorem cfgParkClass (v : BitVec 64) : Statement (.cfgParkClass v) := no_words rfl
theorem wsLockSet (p : PartId) : Statement (.wsLockSet p) := no_words rfl
theorem wsLockClear (p : PartId) : Statement (.wsLockClear p) := no_words rfl
theorem wsLockEffect (p : PartId) : Statement (.wsLockEffect p) := no_words rfl
theorem ldacl : Statement .ldacl := no_words rfl
theorem ldgrp : Statement .ldgrp := no_words rfl
theorem groupTableInstall : Statement .groupTableInstall := no_words rfl
theorem mcReq (v : BitVec 64) : Statement (.mcReq v) := no_words rfl
theorem retrainStart : Statement .retrainStart := no_words rfl
theorem thermalRetrain (target : Nat) : Statement (.thermalRetrain target) := no_words rfl
theorem retrainDone (target : Nat) : Statement (.retrainDone target) := no_words rfl
theorem multicastTransferStart (id : Nat) : Statement (.multicastTransferStart id) := no_words rfl
theorem data (p : Packet) : Statement (.data p) := no_words rfl
theorem ack (p : Packet) : Statement (.ack p) := no_words rfl
theorem nack (p : Packet) : Statement (.nack p) := no_words rfl
theorem launch (p : Packet) : Statement (.launch p) := no_words rfl
theorem wakePacket (p : Packet) : Statement (.wakePacket p) := no_words rfl
theorem barrier (p : Packet) : Statement (.barrier p) := no_words rfl
theorem boot (b : BootInput) : Statement (.boot b) := no_words rfl
theorem packageReset : Statement .packageReset := no_words rfl
theorem freezeSignal : Statement .freezeSignal := no_words rfl
theorem idcode : Statement .idcode := no_words rfl
theorem freeze : Statement .freeze := no_words rfl
theorem status : Statement .status := no_words rfl
theorem scanout (bits : Nat) : Statement (.scanout bits) := no_words rfl
theorem bypass (scan : BypassScan) : Statement (.bypass scan) := no_words rfl
theorem getVersion : Statement .getVersion := no_words rfl
theorem getCapabilities : Statement .getCapabilities := no_words rfl
theorem negotiateAlgorithms : Statement .negotiateAlgorithms := no_words rfl
theorem getDigests : Statement .getDigests := no_words rfl
theorem getCertificate : Statement .getCertificate := no_words rfl
theorem challenge (nonce : BitVec 256) : Statement (.challenge nonce) := no_words rfl
theorem getMeasurements : Statement .getMeasurements := no_words rfl
theorem sessionRequest (code : BitVec 8) : Statement (.sessionRequest code) := no_words rfl
theorem powerAlarmEnd (c : CoreId) : Statement (.powerAlarmEnd c) := no_words rfl
theorem partitionReset (p : PartId) : Statement (.partitionReset p) := no_words rfl
theorem heartbeat (d : DieId) : Statement (.heartbeat d) := no_words rfl
theorem portTrained (p : PortId) : Statement (.portTrained p) := no_words rfl
theorem portDown (p : PortId) : Statement (.portDown p) := no_words rfl
theorem flitCrcError (p : PortId) (seq : BitVec 12) : Statement (.flitCrcError p seq) := no_words rfl
theorem replayRequest (p : PortId) (seq : BitVec 12) : Statement (.replayRequest p seq) := no_words rfl
theorem hostQueuePageWrite (q : QueueId) (word : Fin 5) (v : BitVec 64) : Statement (.hostQueuePageWrite q word v) := no_words rfl

end Sys2Proof.Laws.Code
end

