-- ==== Sys2Proof/Laws/State.lean ====
section
/-! SUPPORT. What each update of the state does to each field of it, and what a read gives after an update: the lemmas that later
proofs use instead of unfolding a record update. -/

namespace Sys2Proof.Machine

/-! setCore -/

@[simp] theorem State.setCore_cores (s : State) (c : CoreId) (k : Core) : (s.setCore c k).cores = s.cores.set c.val k c.isLt := rfl
@[simp] theorem State.setCore_parts (s : State) (c : CoreId) (k : Core) : (s.setCore c k).parts = s.parts := rfl
@[simp] theorem State.setCore_mem (s : State) (c : CoreId) (k : Core) : (s.setCore c k).mem = s.mem := rfl
@[simp] theorem State.setCore_poison (s : State) (c : CoreId) (k : Core) : (s.setCore c k).poison = s.poison := rfl
@[simp] theorem State.setCore_ecc (s : State) (c : CoreId) (k : Core) : (s.setCore c k).ecc = s.ecc := rfl
@[simp] theorem State.setCore_upsets (s : State) (c : CoreId) (k : Core) : (s.setCore c k).upsets = s.upsets := rfl
@[simp] theorem State.setCore_cycle (s : State) (c : CoreId) (k : Core) : (s.setCore c k).cycle = s.cycle := rfl
@[simp] theorem State.setCore_turn (s : State) (c : CoreId) (k : Core) : (s.setCore c k).turn = s.turn := rfl
@[simp] theorem State.setCore_slotDone (s : State) (c : CoreId) (k : Core) : (s.setCore c k).slotDone = s.slotDone := rfl
@[simp] theorem State.setCore_agenda (s : State) (c : CoreId) (k : Core) : (s.setCore c k).agenda = s.agenda := rfl
@[simp] theorem State.setCore_nextId (s : State) (c : CoreId) (k : Core) : (s.setCore c k).nextId = s.nextId := rfl
@[simp] theorem State.setCore_issue (s : State) (c : CoreId) (k : Core) : (s.setCore c k).issue = s.issue := rfl
@[simp] theorem State.setCore_out (s : State) (c : CoreId) (k : Core) : (s.setCore c k).out = s.out := rfl
@[simp] theorem State.setCore_pkg (s : State) (c : CoreId) (k : Core) : (s.setCore c k).pkg = s.pkg := rfl
@[simp] theorem State.setCore_acl (s : State) (c : CoreId) (k : Core) : (s.setCore c k).acl = s.acl := rfl
@[simp] theorem State.setCore_groups (s : State) (c : CoreId) (k : Core) : (s.setCore c k).groups = s.groups := rfl
@[simp] theorem State.setCore_groupLoad (s : State) (c : CoreId) (k : Core) : (s.setCore c k).groupLoad = s.groupLoad := rfl
@[simp] theorem State.setCore_queues (s : State) (c : CoreId) (k : Core) : (s.setCore c k).queues = s.queues := rfl
@[simp] theorem State.setCore_completions (s : State) (c : CoreId) (k : Core) : (s.setCore c k).completions = s.completions := rfl
@[simp] theorem State.setCore_replaced (s : State) (c : CoreId) (k : Core) : (s.setCore c k).replaced = s.replaced := rfl
@[simp] theorem State.setCore_suspended (s : State) (c : CoreId) (k : Core) : (s.setCore c k).suspended = s.suspended := rfl
@[simp] theorem State.setCore_shelf (s : State) (c : CoreId) (k : Core) : (s.setCore c k).shelf = s.shelf := rfl
@[simp] theorem State.setCore_itins (s : State) (c : CoreId) (k : Core) : (s.setCore c k).itins = s.itins := rfl
@[simp] theorem State.setCore_gatherers (s : State) (c : CoreId) (k : Core) : (s.setCore c k).gatherers = s.gatherers := rfl
@[simp] theorem State.setCore_tlb (s : State) (c : CoreId) (k : Core) : (s.setCore c k).tlb = s.tlb := rfl
@[simp] theorem State.setCore_asks (s : State) (c : CoreId) (k : Core) : (s.setCore c k).asks = s.asks := rfl
@[simp] theorem State.setCore_pages (s : State) (c : CoreId) (k : Core) : (s.setCore c k).pages = s.pages := rfl
@[simp] theorem State.setCore_crcs (s : State) (c : CoreId) (k : Core) : (s.setCore c k).crcs = s.crcs := rfl
@[simp] theorem State.setCore_landed (s : State) (c : CoreId) (k : Core) : (s.setCore c k).landed = s.landed := rfl
@[simp] theorem State.setCore_refresh (s : State) (c : CoreId) (k : Core) : (s.setCore c k).refresh = s.refresh := rfl
@[simp] theorem State.setCore_activations (s : State) (c : CoreId) (k : Core) : (s.setCore c k).activations = s.activations := rfl
@[simp] theorem State.setCore_retrains (s : State) (c : CoreId) (k : Core) : (s.setCore c k).retrains = s.retrains := rfl
@[simp] theorem State.setCore_rates (s : State) (c : CoreId) (k : Core) : (s.setCore c k).rates = s.rates := rfl
@[simp] theorem State.setCore_teams (s : State) (c : CoreId) (k : Core) : (s.setCore c k).teams = s.teams := rfl
@[simp] theorem State.setCore_gangs (s : State) (c : CoreId) (k : Core) : (s.setCore c k).gangs = s.gangs := rfl
@[simp] theorem State.setCore_transfers (s : State) (c : CoreId) (k : Core) : (s.setCore c k).transfers = s.transfers := rfl
@[simp] theorem State.setCore_outbox (s : State) (c : CoreId) (k : Core) : (s.setCore c k).outbox = s.outbox := rfl
@[simp] theorem State.setCore_inbox (s : State) (c : CoreId) (k : Core) : (s.setCore c k).inbox = s.inbox := rfl
@[simp] theorem State.setCore_receives (s : State) (c : CoreId) (k : Core) : (s.setCore c k).receives = s.receives := rfl
@[simp] theorem State.setCore_barriers (s : State) (c : CoreId) (k : Core) : (s.setCore c k).barriers = s.barriers := rfl
@[simp] theorem State.setCore_powerSince (s : State) (c : CoreId) (k : Core) : (s.setCore c k).powerSince = s.powerSince := rfl
@[simp] theorem State.setCore_boot (s : State) (c : CoreId) (k : Core) : (s.setCore c k).boot = s.boot := rfl
@[simp] theorem State.setCore_image (s : State) (c : CoreId) (k : Core) : (s.setCore c k).image = s.image := rfl
@[simp] theorem State.setCore_firmware (s : State) (c : CoreId) (k : Core) : (s.setCore c k).firmware = s.firmware := rfl
@[simp] theorem State.setCore_devices (s : State) (c : CoreId) (k : Core) : (s.setCore c k).devices = s.devices := rfl
@[simp] theorem State.setCore_frozen (s : State) (c : CoreId) (k : Core) : (s.setCore c k).frozen = s.frozen := rfl
@[simp] theorem State.setCore_ir (s : State) (c : CoreId) (k : Core) : (s.setCore c k).ir = s.ir := rfl
@[simp] theorem State.setCore_bypass (s : State) (c : CoreId) (k : Core) : (s.setCore c k).bypass = s.bypass := rfl
@[simp] theorem State.setCore_auto (s : State) (c : CoreId) (k : Core) : (s.setCore c k).auto = s.auto := rfl

/-! setCtx -/

@[simp] theorem State.setCtx_cores (s : State) (c : CoreId) (x : CtxId) (y : Ctx) : (s.setCtx c x y).cores = s.cores.set c.val ((s.core c).setCtx x y) c.isLt := rfl
@[simp] theorem State.setCtx_parts (s : State) (c : CoreId) (x : CtxId) (y : Ctx) : (s.setCtx c x y).parts = s.parts := rfl
@[simp] theorem State.setCtx_mem (s : State) (c : CoreId) (x : CtxId) (y : Ctx) : (s.setCtx c x y).mem = s.mem := rfl
@[simp] theorem State.setCtx_poison (s : State) (c : CoreId) (x : CtxId) (y : Ctx) : (s.setCtx c x y).poison = s.poison := rfl
@[simp] theorem State.setCtx_ecc (s : State) (c : CoreId) (x : CtxId) (y : Ctx) : (s.setCtx c x y).ecc = s.ecc := rfl
@[simp] theorem State.setCtx_upsets (s : State) (c : CoreId) (x : CtxId) (y : Ctx) : (s.setCtx c x y).upsets = s.upsets := rfl
@[simp] theorem State.setCtx_cycle (s : State) (c : CoreId) (x : CtxId) (y : Ctx) : (s.setCtx c x y).cycle = s.cycle := rfl
@[simp] theorem State.setCtx_turn (s : State) (c : CoreId) (x : CtxId) (y : Ctx) : (s.setCtx c x y).turn = s.turn := rfl
@[simp] theorem State.setCtx_slotDone (s : State) (c : CoreId) (x : CtxId) (y : Ctx) : (s.setCtx c x y).slotDone = s.slotDone := rfl
@[simp] theorem State.setCtx_agenda (s : State) (c : CoreId) (x : CtxId) (y : Ctx) : (s.setCtx c x y).agenda = s.agenda := rfl
@[simp] theorem State.setCtx_nextId (s : State) (c : CoreId) (x : CtxId) (y : Ctx) : (s.setCtx c x y).nextId = s.nextId := rfl
@[simp] theorem State.setCtx_issue (s : State) (c : CoreId) (x : CtxId) (y : Ctx) : (s.setCtx c x y).issue = s.issue := rfl
@[simp] theorem State.setCtx_out (s : State) (c : CoreId) (x : CtxId) (y : Ctx) : (s.setCtx c x y).out = s.out := rfl
@[simp] theorem State.setCtx_pkg (s : State) (c : CoreId) (x : CtxId) (y : Ctx) : (s.setCtx c x y).pkg = s.pkg := rfl
@[simp] theorem State.setCtx_acl (s : State) (c : CoreId) (x : CtxId) (y : Ctx) : (s.setCtx c x y).acl = s.acl := rfl
@[simp] theorem State.setCtx_groups (s : State) (c : CoreId) (x : CtxId) (y : Ctx) : (s.setCtx c x y).groups = s.groups := rfl
@[simp] theorem State.setCtx_groupLoad (s : State) (c : CoreId) (x : CtxId) (y : Ctx) : (s.setCtx c x y).groupLoad = s.groupLoad := rfl
@[simp] theorem State.setCtx_queues (s : State) (c : CoreId) (x : CtxId) (y : Ctx) : (s.setCtx c x y).queues = s.queues := rfl
@[simp] theorem State.setCtx_completions (s : State) (c : CoreId) (x : CtxId) (y : Ctx) : (s.setCtx c x y).completions = s.completions := rfl
@[simp] theorem State.setCtx_replaced (s : State) (c : CoreId) (x : CtxId) (y : Ctx) : (s.setCtx c x y).replaced = s.replaced := rfl
@[simp] theorem State.setCtx_suspended (s : State) (c : CoreId) (x : CtxId) (y : Ctx) : (s.setCtx c x y).suspended = s.suspended := rfl
@[simp] theorem State.setCtx_shelf (s : State) (c : CoreId) (x : CtxId) (y : Ctx) : (s.setCtx c x y).shelf = s.shelf := rfl
@[simp] theorem State.setCtx_itins (s : State) (c : CoreId) (x : CtxId) (y : Ctx) : (s.setCtx c x y).itins = s.itins := rfl
@[simp] theorem State.setCtx_gatherers (s : State) (c : CoreId) (x : CtxId) (y : Ctx) : (s.setCtx c x y).gatherers = s.gatherers := rfl
@[simp] theorem State.setCtx_tlb (s : State) (c : CoreId) (x : CtxId) (y : Ctx) : (s.setCtx c x y).tlb = s.tlb := rfl
@[simp] theorem State.setCtx_asks (s : State) (c : CoreId) (x : CtxId) (y : Ctx) : (s.setCtx c x y).asks = s.asks := rfl
@[simp] theorem State.setCtx_pages (s : State) (c : CoreId) (x : CtxId) (y : Ctx) : (s.setCtx c x y).pages = s.pages := rfl
@[simp] theorem State.setCtx_crcs (s : State) (c : CoreId) (x : CtxId) (y : Ctx) : (s.setCtx c x y).crcs = s.crcs := rfl
@[simp] theorem State.setCtx_landed (s : State) (c : CoreId) (x : CtxId) (y : Ctx) : (s.setCtx c x y).landed = s.landed := rfl
@[simp] theorem State.setCtx_refresh (s : State) (c : CoreId) (x : CtxId) (y : Ctx) : (s.setCtx c x y).refresh = s.refresh := rfl
@[simp] theorem State.setCtx_activations (s : State) (c : CoreId) (x : CtxId) (y : Ctx) : (s.setCtx c x y).activations = s.activations := rfl
@[simp] theorem State.setCtx_retrains (s : State) (c : CoreId) (x : CtxId) (y : Ctx) : (s.setCtx c x y).retrains = s.retrains := rfl
@[simp] theorem State.setCtx_rates (s : State) (c : CoreId) (x : CtxId) (y : Ctx) : (s.setCtx c x y).rates = s.rates := rfl
@[simp] theorem State.setCtx_teams (s : State) (c : CoreId) (x : CtxId) (y : Ctx) : (s.setCtx c x y).teams = s.teams := rfl
@[simp] theorem State.setCtx_gangs (s : State) (c : CoreId) (x : CtxId) (y : Ctx) : (s.setCtx c x y).gangs = s.gangs := rfl
@[simp] theorem State.setCtx_transfers (s : State) (c : CoreId) (x : CtxId) (y : Ctx) : (s.setCtx c x y).transfers = s.transfers := rfl
@[simp] theorem State.setCtx_outbox (s : State) (c : CoreId) (x : CtxId) (y : Ctx) : (s.setCtx c x y).outbox = s.outbox := rfl
@[simp] theorem State.setCtx_inbox (s : State) (c : CoreId) (x : CtxId) (y : Ctx) : (s.setCtx c x y).inbox = s.inbox := rfl
@[simp] theorem State.setCtx_receives (s : State) (c : CoreId) (x : CtxId) (y : Ctx) : (s.setCtx c x y).receives = s.receives := rfl
@[simp] theorem State.setCtx_barriers (s : State) (c : CoreId) (x : CtxId) (y : Ctx) : (s.setCtx c x y).barriers = s.barriers := rfl
@[simp] theorem State.setCtx_powerSince (s : State) (c : CoreId) (x : CtxId) (y : Ctx) : (s.setCtx c x y).powerSince = s.powerSince := rfl
@[simp] theorem State.setCtx_boot (s : State) (c : CoreId) (x : CtxId) (y : Ctx) : (s.setCtx c x y).boot = s.boot := rfl
@[simp] theorem State.setCtx_image (s : State) (c : CoreId) (x : CtxId) (y : Ctx) : (s.setCtx c x y).image = s.image := rfl
@[simp] theorem State.setCtx_firmware (s : State) (c : CoreId) (x : CtxId) (y : Ctx) : (s.setCtx c x y).firmware = s.firmware := rfl
@[simp] theorem State.setCtx_devices (s : State) (c : CoreId) (x : CtxId) (y : Ctx) : (s.setCtx c x y).devices = s.devices := rfl
@[simp] theorem State.setCtx_frozen (s : State) (c : CoreId) (x : CtxId) (y : Ctx) : (s.setCtx c x y).frozen = s.frozen := rfl
@[simp] theorem State.setCtx_ir (s : State) (c : CoreId) (x : CtxId) (y : Ctx) : (s.setCtx c x y).ir = s.ir := rfl
@[simp] theorem State.setCtx_bypass (s : State) (c : CoreId) (x : CtxId) (y : Ctx) : (s.setCtx c x y).bypass = s.bypass := rfl
@[simp] theorem State.setCtx_auto (s : State) (c : CoreId) (x : CtxId) (y : Ctx) : (s.setCtx c x y).auto = s.auto := rfl

/-! setEngine -/

@[simp] theorem State.setEngine_cores (s : State) (c : CoreId) (x : CtxId) (e : Engine) : (s.setEngine c x e).cores = s.cores.set c.val { s.core c with engine := (s.core c).engine.set x.val e x.isLt } c.isLt := rfl
@[simp] theorem State.setEngine_parts (s : State) (c : CoreId) (x : CtxId) (e : Engine) : (s.setEngine c x e).parts = s.parts := rfl
@[simp] theorem State.setEngine_mem (s : State) (c : CoreId) (x : CtxId) (e : Engine) : (s.setEngine c x e).mem = s.mem := rfl
@[simp] theorem State.setEngine_poison (s : State) (c : CoreId) (x : CtxId) (e : Engine) : (s.setEngine c x e).poison = s.poison := rfl
@[simp] theorem State.setEngine_ecc (s : State) (c : CoreId) (x : CtxId) (e : Engine) : (s.setEngine c x e).ecc = s.ecc := rfl
@[simp] theorem State.setEngine_upsets (s : State) (c : CoreId) (x : CtxId) (e : Engine) : (s.setEngine c x e).upsets = s.upsets := rfl
@[simp] theorem State.setEngine_cycle (s : State) (c : CoreId) (x : CtxId) (e : Engine) : (s.setEngine c x e).cycle = s.cycle := rfl
@[simp] theorem State.setEngine_turn (s : State) (c : CoreId) (x : CtxId) (e : Engine) : (s.setEngine c x e).turn = s.turn := rfl
@[simp] theorem State.setEngine_slotDone (s : State) (c : CoreId) (x : CtxId) (e : Engine) : (s.setEngine c x e).slotDone = s.slotDone := rfl
@[simp] theorem State.setEngine_agenda (s : State) (c : CoreId) (x : CtxId) (e : Engine) : (s.setEngine c x e).agenda = s.agenda := rfl
@[simp] theorem State.setEngine_nextId (s : State) (c : CoreId) (x : CtxId) (e : Engine) : (s.setEngine c x e).nextId = s.nextId := rfl
@[simp] theorem State.setEngine_issue (s : State) (c : CoreId) (x : CtxId) (e : Engine) : (s.setEngine c x e).issue = s.issue := rfl
@[simp] theorem State.setEngine_out (s : State) (c : CoreId) (x : CtxId) (e : Engine) : (s.setEngine c x e).out = s.out := rfl
@[simp] theorem State.setEngine_pkg (s : State) (c : CoreId) (x : CtxId) (e : Engine) : (s.setEngine c x e).pkg = s.pkg := rfl
@[simp] theorem State.setEngine_acl (s : State) (c : CoreId) (x : CtxId) (e : Engine) : (s.setEngine c x e).acl = s.acl := rfl
@[simp] theorem State.setEngine_groups (s : State) (c : CoreId) (x : CtxId) (e : Engine) : (s.setEngine c x e).groups = s.groups := rfl
@[simp] theorem State.setEngine_groupLoad (s : State) (c : CoreId) (x : CtxId) (e : Engine) : (s.setEngine c x e).groupLoad = s.groupLoad := rfl
@[simp] theorem State.setEngine_queues (s : State) (c : CoreId) (x : CtxId) (e : Engine) : (s.setEngine c x e).queues = s.queues := rfl
@[simp] theorem State.setEngine_completions (s : State) (c : CoreId) (x : CtxId) (e : Engine) : (s.setEngine c x e).completions = s.completions := rfl
@[simp] theorem State.setEngine_replaced (s : State) (c : CoreId) (x : CtxId) (e : Engine) : (s.setEngine c x e).replaced = s.replaced := rfl
@[simp] theorem State.setEngine_suspended (s : State) (c : CoreId) (x : CtxId) (e : Engine) : (s.setEngine c x e).suspended = s.suspended := rfl
@[simp] theorem State.setEngine_shelf (s : State) (c : CoreId) (x : CtxId) (e : Engine) : (s.setEngine c x e).shelf = s.shelf := rfl
@[simp] theorem State.setEngine_itins (s : State) (c : CoreId) (x : CtxId) (e : Engine) : (s.setEngine c x e).itins = s.itins := rfl
@[simp] theorem State.setEngine_gatherers (s : State) (c : CoreId) (x : CtxId) (e : Engine) : (s.setEngine c x e).gatherers = s.gatherers := rfl
@[simp] theorem State.setEngine_tlb (s : State) (c : CoreId) (x : CtxId) (e : Engine) : (s.setEngine c x e).tlb = s.tlb := rfl
@[simp] theorem State.setEngine_asks (s : State) (c : CoreId) (x : CtxId) (e : Engine) : (s.setEngine c x e).asks = s.asks := rfl
@[simp] theorem State.setEngine_pages (s : State) (c : CoreId) (x : CtxId) (e : Engine) : (s.setEngine c x e).pages = s.pages := rfl
@[simp] theorem State.setEngine_crcs (s : State) (c : CoreId) (x : CtxId) (e : Engine) : (s.setEngine c x e).crcs = s.crcs := rfl
@[simp] theorem State.setEngine_landed (s : State) (c : CoreId) (x : CtxId) (e : Engine) : (s.setEngine c x e).landed = s.landed := rfl
@[simp] theorem State.setEngine_refresh (s : State) (c : CoreId) (x : CtxId) (e : Engine) : (s.setEngine c x e).refresh = s.refresh := rfl
@[simp] theorem State.setEngine_activations (s : State) (c : CoreId) (x : CtxId) (e : Engine) : (s.setEngine c x e).activations = s.activations := rfl
@[simp] theorem State.setEngine_retrains (s : State) (c : CoreId) (x : CtxId) (e : Engine) : (s.setEngine c x e).retrains = s.retrains := rfl
@[simp] theorem State.setEngine_rates (s : State) (c : CoreId) (x : CtxId) (e : Engine) : (s.setEngine c x e).rates = s.rates := rfl
@[simp] theorem State.setEngine_teams (s : State) (c : CoreId) (x : CtxId) (e : Engine) : (s.setEngine c x e).teams = s.teams := rfl
@[simp] theorem State.setEngine_gangs (s : State) (c : CoreId) (x : CtxId) (e : Engine) : (s.setEngine c x e).gangs = s.gangs := rfl
@[simp] theorem State.setEngine_transfers (s : State) (c : CoreId) (x : CtxId) (e : Engine) : (s.setEngine c x e).transfers = s.transfers := rfl
@[simp] theorem State.setEngine_outbox (s : State) (c : CoreId) (x : CtxId) (e : Engine) : (s.setEngine c x e).outbox = s.outbox := rfl
@[simp] theorem State.setEngine_inbox (s : State) (c : CoreId) (x : CtxId) (e : Engine) : (s.setEngine c x e).inbox = s.inbox := rfl
@[simp] theorem State.setEngine_receives (s : State) (c : CoreId) (x : CtxId) (e : Engine) : (s.setEngine c x e).receives = s.receives := rfl
@[simp] theorem State.setEngine_barriers (s : State) (c : CoreId) (x : CtxId) (e : Engine) : (s.setEngine c x e).barriers = s.barriers := rfl
@[simp] theorem State.setEngine_powerSince (s : State) (c : CoreId) (x : CtxId) (e : Engine) : (s.setEngine c x e).powerSince = s.powerSince := rfl
@[simp] theorem State.setEngine_boot (s : State) (c : CoreId) (x : CtxId) (e : Engine) : (s.setEngine c x e).boot = s.boot := rfl
@[simp] theorem State.setEngine_image (s : State) (c : CoreId) (x : CtxId) (e : Engine) : (s.setEngine c x e).image = s.image := rfl
@[simp] theorem State.setEngine_firmware (s : State) (c : CoreId) (x : CtxId) (e : Engine) : (s.setEngine c x e).firmware = s.firmware := rfl
@[simp] theorem State.setEngine_devices (s : State) (c : CoreId) (x : CtxId) (e : Engine) : (s.setEngine c x e).devices = s.devices := rfl
@[simp] theorem State.setEngine_frozen (s : State) (c : CoreId) (x : CtxId) (e : Engine) : (s.setEngine c x e).frozen = s.frozen := rfl
@[simp] theorem State.setEngine_ir (s : State) (c : CoreId) (x : CtxId) (e : Engine) : (s.setEngine c x e).ir = s.ir := rfl
@[simp] theorem State.setEngine_bypass (s : State) (c : CoreId) (x : CtxId) (e : Engine) : (s.setEngine c x e).bypass = s.bypass := rfl
@[simp] theorem State.setEngine_auto (s : State) (c : CoreId) (x : CtxId) (e : Engine) : (s.setEngine c x e).auto = s.auto := rfl

/-! setPart -/

@[simp] theorem State.setPart_cores (s : State) (p : PartId) (x : Part) : (s.setPart p x).cores = s.cores := rfl
@[simp] theorem State.setPart_parts (s : State) (p : PartId) (x : Part) : (s.setPart p x).parts = s.parts.set p.val x p.isLt := rfl
@[simp] theorem State.setPart_mem (s : State) (p : PartId) (x : Part) : (s.setPart p x).mem = s.mem := rfl
@[simp] theorem State.setPart_poison (s : State) (p : PartId) (x : Part) : (s.setPart p x).poison = s.poison := rfl
@[simp] theorem State.setPart_ecc (s : State) (p : PartId) (x : Part) : (s.setPart p x).ecc = s.ecc := rfl
@[simp] theorem State.setPart_upsets (s : State) (p : PartId) (x : Part) : (s.setPart p x).upsets = s.upsets := rfl
@[simp] theorem State.setPart_cycle (s : State) (p : PartId) (x : Part) : (s.setPart p x).cycle = s.cycle := rfl
@[simp] theorem State.setPart_turn (s : State) (p : PartId) (x : Part) : (s.setPart p x).turn = s.turn := rfl
@[simp] theorem State.setPart_slotDone (s : State) (p : PartId) (x : Part) : (s.setPart p x).slotDone = s.slotDone := rfl
@[simp] theorem State.setPart_agenda (s : State) (p : PartId) (x : Part) : (s.setPart p x).agenda = s.agenda := rfl
@[simp] theorem State.setPart_nextId (s : State) (p : PartId) (x : Part) : (s.setPart p x).nextId = s.nextId := rfl
@[simp] theorem State.setPart_issue (s : State) (p : PartId) (x : Part) : (s.setPart p x).issue = s.issue := rfl
@[simp] theorem State.setPart_out (s : State) (p : PartId) (x : Part) : (s.setPart p x).out = s.out := rfl
@[simp] theorem State.setPart_pkg (s : State) (p : PartId) (x : Part) : (s.setPart p x).pkg = s.pkg := rfl
@[simp] theorem State.setPart_acl (s : State) (p : PartId) (x : Part) : (s.setPart p x).acl = s.acl := rfl
@[simp] theorem State.setPart_groups (s : State) (p : PartId) (x : Part) : (s.setPart p x).groups = s.groups := rfl
@[simp] theorem State.setPart_groupLoad (s : State) (p : PartId) (x : Part) : (s.setPart p x).groupLoad = s.groupLoad := rfl
@[simp] theorem State.setPart_queues (s : State) (p : PartId) (x : Part) : (s.setPart p x).queues = s.queues := rfl
@[simp] theorem State.setPart_completions (s : State) (p : PartId) (x : Part) : (s.setPart p x).completions = s.completions := rfl
@[simp] theorem State.setPart_replaced (s : State) (p : PartId) (x : Part) : (s.setPart p x).replaced = s.replaced := rfl
@[simp] theorem State.setPart_suspended (s : State) (p : PartId) (x : Part) : (s.setPart p x).suspended = s.suspended := rfl
@[simp] theorem State.setPart_shelf (s : State) (p : PartId) (x : Part) : (s.setPart p x).shelf = s.shelf := rfl
@[simp] theorem State.setPart_itins (s : State) (p : PartId) (x : Part) : (s.setPart p x).itins = s.itins := rfl
@[simp] theorem State.setPart_gatherers (s : State) (p : PartId) (x : Part) : (s.setPart p x).gatherers = s.gatherers := rfl
@[simp] theorem State.setPart_tlb (s : State) (p : PartId) (x : Part) : (s.setPart p x).tlb = s.tlb := rfl
@[simp] theorem State.setPart_asks (s : State) (p : PartId) (x : Part) : (s.setPart p x).asks = s.asks := rfl
@[simp] theorem State.setPart_pages (s : State) (p : PartId) (x : Part) : (s.setPart p x).pages = s.pages := rfl
@[simp] theorem State.setPart_crcs (s : State) (p : PartId) (x : Part) : (s.setPart p x).crcs = s.crcs := rfl
@[simp] theorem State.setPart_landed (s : State) (p : PartId) (x : Part) : (s.setPart p x).landed = s.landed := rfl
@[simp] theorem State.setPart_refresh (s : State) (p : PartId) (x : Part) : (s.setPart p x).refresh = s.refresh := rfl
@[simp] theorem State.setPart_activations (s : State) (p : PartId) (x : Part) : (s.setPart p x).activations = s.activations := rfl
@[simp] theorem State.setPart_retrains (s : State) (p : PartId) (x : Part) : (s.setPart p x).retrains = s.retrains := rfl
@[simp] theorem State.setPart_rates (s : State) (p : PartId) (x : Part) : (s.setPart p x).rates = s.rates := rfl
@[simp] theorem State.setPart_teams (s : State) (p : PartId) (x : Part) : (s.setPart p x).teams = s.teams := rfl
@[simp] theorem State.setPart_gangs (s : State) (p : PartId) (x : Part) : (s.setPart p x).gangs = s.gangs := rfl
@[simp] theorem State.setPart_transfers (s : State) (p : PartId) (x : Part) : (s.setPart p x).transfers = s.transfers := rfl
@[simp] theorem State.setPart_outbox (s : State) (p : PartId) (x : Part) : (s.setPart p x).outbox = s.outbox := rfl
@[simp] theorem State.setPart_inbox (s : State) (p : PartId) (x : Part) : (s.setPart p x).inbox = s.inbox := rfl
@[simp] theorem State.setPart_receives (s : State) (p : PartId) (x : Part) : (s.setPart p x).receives = s.receives := rfl
@[simp] theorem State.setPart_barriers (s : State) (p : PartId) (x : Part) : (s.setPart p x).barriers = s.barriers := rfl
@[simp] theorem State.setPart_powerSince (s : State) (p : PartId) (x : Part) : (s.setPart p x).powerSince = s.powerSince := rfl
@[simp] theorem State.setPart_boot (s : State) (p : PartId) (x : Part) : (s.setPart p x).boot = s.boot := rfl
@[simp] theorem State.setPart_image (s : State) (p : PartId) (x : Part) : (s.setPart p x).image = s.image := rfl
@[simp] theorem State.setPart_firmware (s : State) (p : PartId) (x : Part) : (s.setPart p x).firmware = s.firmware := rfl
@[simp] theorem State.setPart_devices (s : State) (p : PartId) (x : Part) : (s.setPart p x).devices = s.devices := rfl
@[simp] theorem State.setPart_frozen (s : State) (p : PartId) (x : Part) : (s.setPart p x).frozen = s.frozen := rfl
@[simp] theorem State.setPart_ir (s : State) (p : PartId) (x : Part) : (s.setPart p x).ir = s.ir := rfl
@[simp] theorem State.setPart_bypass (s : State) (p : PartId) (x : Part) : (s.setPart p x).bypass = s.bypass := rfl
@[simp] theorem State.setPart_auto (s : State) (p : PartId) (x : Part) : (s.setPart p x).auto = s.auto := rfl

/-! setMe -/

@[simp] theorem State.setMe_parts (s : State) (y : Ctx) : (s.setMe y).parts = s.parts := rfl
@[simp] theorem State.setMe_mem (s : State) (y : Ctx) : (s.setMe y).mem = s.mem := rfl
@[simp] theorem State.setMe_poison (s : State) (y : Ctx) : (s.setMe y).poison = s.poison := rfl
@[simp] theorem State.setMe_ecc (s : State) (y : Ctx) : (s.setMe y).ecc = s.ecc := rfl
@[simp] theorem State.setMe_upsets (s : State) (y : Ctx) : (s.setMe y).upsets = s.upsets := rfl
@[simp] theorem State.setMe_cycle (s : State) (y : Ctx) : (s.setMe y).cycle = s.cycle := rfl
@[simp] theorem State.setMe_turn (s : State) (y : Ctx) : (s.setMe y).turn = s.turn := rfl
@[simp] theorem State.setMe_slotDone (s : State) (y : Ctx) : (s.setMe y).slotDone = s.slotDone := rfl
@[simp] theorem State.setMe_agenda (s : State) (y : Ctx) : (s.setMe y).agenda = s.agenda := rfl
@[simp] theorem State.setMe_nextId (s : State) (y : Ctx) : (s.setMe y).nextId = s.nextId := rfl
@[simp] theorem State.setMe_issue (s : State) (y : Ctx) : (s.setMe y).issue = s.issue := rfl
@[simp] theorem State.setMe_out (s : State) (y : Ctx) : (s.setMe y).out = s.out := rfl
@[simp] theorem State.setMe_pkg (s : State) (y : Ctx) : (s.setMe y).pkg = s.pkg := rfl
@[simp] theorem State.setMe_acl (s : State) (y : Ctx) : (s.setMe y).acl = s.acl := rfl
@[simp] theorem State.setMe_groups (s : State) (y : Ctx) : (s.setMe y).groups = s.groups := rfl
@[simp] theorem State.setMe_groupLoad (s : State) (y : Ctx) : (s.setMe y).groupLoad = s.groupLoad := rfl
@[simp] theorem State.setMe_queues (s : State) (y : Ctx) : (s.setMe y).queues = s.queues := rfl
@[simp] theorem State.setMe_completions (s : State) (y : Ctx) : (s.setMe y).completions = s.completions := rfl
@[simp] theorem State.setMe_replaced (s : State) (y : Ctx) : (s.setMe y).replaced = s.replaced := rfl
@[simp] theorem State.setMe_suspended (s : State) (y : Ctx) : (s.setMe y).suspended = s.suspended := rfl
@[simp] theorem State.setMe_shelf (s : State) (y : Ctx) : (s.setMe y).shelf = s.shelf := rfl
@[simp] theorem State.setMe_itins (s : State) (y : Ctx) : (s.setMe y).itins = s.itins := rfl
@[simp] theorem State.setMe_gatherers (s : State) (y : Ctx) : (s.setMe y).gatherers = s.gatherers := rfl
@[simp] theorem State.setMe_tlb (s : State) (y : Ctx) : (s.setMe y).tlb = s.tlb := rfl
@[simp] theorem State.setMe_asks (s : State) (y : Ctx) : (s.setMe y).asks = s.asks := rfl
@[simp] theorem State.setMe_pages (s : State) (y : Ctx) : (s.setMe y).pages = s.pages := rfl
@[simp] theorem State.setMe_crcs (s : State) (y : Ctx) : (s.setMe y).crcs = s.crcs := rfl
@[simp] theorem State.setMe_landed (s : State) (y : Ctx) : (s.setMe y).landed = s.landed := rfl
@[simp] theorem State.setMe_refresh (s : State) (y : Ctx) : (s.setMe y).refresh = s.refresh := rfl
@[simp] theorem State.setMe_activations (s : State) (y : Ctx) : (s.setMe y).activations = s.activations := rfl
@[simp] theorem State.setMe_retrains (s : State) (y : Ctx) : (s.setMe y).retrains = s.retrains := rfl
@[simp] theorem State.setMe_rates (s : State) (y : Ctx) : (s.setMe y).rates = s.rates := rfl
@[simp] theorem State.setMe_teams (s : State) (y : Ctx) : (s.setMe y).teams = s.teams := rfl
@[simp] theorem State.setMe_gangs (s : State) (y : Ctx) : (s.setMe y).gangs = s.gangs := rfl
@[simp] theorem State.setMe_transfers (s : State) (y : Ctx) : (s.setMe y).transfers = s.transfers := rfl
@[simp] theorem State.setMe_outbox (s : State) (y : Ctx) : (s.setMe y).outbox = s.outbox := rfl
@[simp] theorem State.setMe_inbox (s : State) (y : Ctx) : (s.setMe y).inbox = s.inbox := rfl
@[simp] theorem State.setMe_receives (s : State) (y : Ctx) : (s.setMe y).receives = s.receives := rfl
@[simp] theorem State.setMe_barriers (s : State) (y : Ctx) : (s.setMe y).barriers = s.barriers := rfl
@[simp] theorem State.setMe_powerSince (s : State) (y : Ctx) : (s.setMe y).powerSince = s.powerSince := rfl
@[simp] theorem State.setMe_boot (s : State) (y : Ctx) : (s.setMe y).boot = s.boot := rfl
@[simp] theorem State.setMe_image (s : State) (y : Ctx) : (s.setMe y).image = s.image := rfl
@[simp] theorem State.setMe_firmware (s : State) (y : Ctx) : (s.setMe y).firmware = s.firmware := rfl
@[simp] theorem State.setMe_devices (s : State) (y : Ctx) : (s.setMe y).devices = s.devices := rfl
@[simp] theorem State.setMe_frozen (s : State) (y : Ctx) : (s.setMe y).frozen = s.frozen := rfl
@[simp] theorem State.setMe_ir (s : State) (y : Ctx) : (s.setMe y).ir = s.ir := rfl
@[simp] theorem State.setMe_bypass (s : State) (y : Ctx) : (s.setMe y).bypass = s.bypass := rfl
@[simp] theorem State.setMe_auto (s : State) (y : Ctx) : (s.setMe y).auto = s.auto := rfl

/-! setRegs -/

@[simp] theorem State.setRegs_parts (s : State) (r : Regs) : (s.setRegs r).parts = s.parts := rfl
@[simp] theorem State.setRegs_mem (s : State) (r : Regs) : (s.setRegs r).mem = s.mem := rfl
@[simp] theorem State.setRegs_poison (s : State) (r : Regs) : (s.setRegs r).poison = s.poison := rfl
@[simp] theorem State.setRegs_ecc (s : State) (r : Regs) : (s.setRegs r).ecc = s.ecc := rfl
@[simp] theorem State.setRegs_upsets (s : State) (r : Regs) : (s.setRegs r).upsets = s.upsets := rfl
@[simp] theorem State.setRegs_cycle (s : State) (r : Regs) : (s.setRegs r).cycle = s.cycle := rfl
@[simp] theorem State.setRegs_turn (s : State) (r : Regs) : (s.setRegs r).turn = s.turn := rfl
@[simp] theorem State.setRegs_slotDone (s : State) (r : Regs) : (s.setRegs r).slotDone = s.slotDone := rfl
@[simp] theorem State.setRegs_agenda (s : State) (r : Regs) : (s.setRegs r).agenda = s.agenda := rfl
@[simp] theorem State.setRegs_nextId (s : State) (r : Regs) : (s.setRegs r).nextId = s.nextId := rfl
@[simp] theorem State.setRegs_issue (s : State) (r : Regs) : (s.setRegs r).issue = s.issue := rfl
@[simp] theorem State.setRegs_out (s : State) (r : Regs) : (s.setRegs r).out = s.out := rfl
@[simp] theorem State.setRegs_pkg (s : State) (r : Regs) : (s.setRegs r).pkg = s.pkg := rfl
@[simp] theorem State.setRegs_acl (s : State) (r : Regs) : (s.setRegs r).acl = s.acl := rfl
@[simp] theorem State.setRegs_groups (s : State) (r : Regs) : (s.setRegs r).groups = s.groups := rfl
@[simp] theorem State.setRegs_groupLoad (s : State) (r : Regs) : (s.setRegs r).groupLoad = s.groupLoad := rfl
@[simp] theorem State.setRegs_queues (s : State) (r : Regs) : (s.setRegs r).queues = s.queues := rfl
@[simp] theorem State.setRegs_completions (s : State) (r : Regs) : (s.setRegs r).completions = s.completions := rfl
@[simp] theorem State.setRegs_replaced (s : State) (r : Regs) : (s.setRegs r).replaced = s.replaced := rfl
@[simp] theorem State.setRegs_suspended (s : State) (r : Regs) : (s.setRegs r).suspended = s.suspended := rfl
@[simp] theorem State.setRegs_shelf (s : State) (r : Regs) : (s.setRegs r).shelf = s.shelf := rfl
@[simp] theorem State.setRegs_itins (s : State) (r : Regs) : (s.setRegs r).itins = s.itins := rfl
@[simp] theorem State.setRegs_gatherers (s : State) (r : Regs) : (s.setRegs r).gatherers = s.gatherers := rfl
@[simp] theorem State.setRegs_tlb (s : State) (r : Regs) : (s.setRegs r).tlb = s.tlb := rfl
@[simp] theorem State.setRegs_asks (s : State) (r : Regs) : (s.setRegs r).asks = s.asks := rfl
@[simp] theorem State.setRegs_pages (s : State) (r : Regs) : (s.setRegs r).pages = s.pages := rfl
@[simp] theorem State.setRegs_crcs (s : State) (r : Regs) : (s.setRegs r).crcs = s.crcs := rfl
@[simp] theorem State.setRegs_landed (s : State) (r : Regs) : (s.setRegs r).landed = s.landed := rfl
@[simp] theorem State.setRegs_refresh (s : State) (r : Regs) : (s.setRegs r).refresh = s.refresh := rfl
@[simp] theorem State.setRegs_activations (s : State) (r : Regs) : (s.setRegs r).activations = s.activations := rfl
@[simp] theorem State.setRegs_retrains (s : State) (r : Regs) : (s.setRegs r).retrains = s.retrains := rfl
@[simp] theorem State.setRegs_rates (s : State) (r : Regs) : (s.setRegs r).rates = s.rates := rfl
@[simp] theorem State.setRegs_teams (s : State) (r : Regs) : (s.setRegs r).teams = s.teams := rfl
@[simp] theorem State.setRegs_gangs (s : State) (r : Regs) : (s.setRegs r).gangs = s.gangs := rfl
@[simp] theorem State.setRegs_transfers (s : State) (r : Regs) : (s.setRegs r).transfers = s.transfers := rfl
@[simp] theorem State.setRegs_outbox (s : State) (r : Regs) : (s.setRegs r).outbox = s.outbox := rfl
@[simp] theorem State.setRegs_inbox (s : State) (r : Regs) : (s.setRegs r).inbox = s.inbox := rfl
@[simp] theorem State.setRegs_receives (s : State) (r : Regs) : (s.setRegs r).receives = s.receives := rfl
@[simp] theorem State.setRegs_barriers (s : State) (r : Regs) : (s.setRegs r).barriers = s.barriers := rfl
@[simp] theorem State.setRegs_powerSince (s : State) (r : Regs) : (s.setRegs r).powerSince = s.powerSince := rfl
@[simp] theorem State.setRegs_boot (s : State) (r : Regs) : (s.setRegs r).boot = s.boot := rfl
@[simp] theorem State.setRegs_image (s : State) (r : Regs) : (s.setRegs r).image = s.image := rfl
@[simp] theorem State.setRegs_firmware (s : State) (r : Regs) : (s.setRegs r).firmware = s.firmware := rfl
@[simp] theorem State.setRegs_devices (s : State) (r : Regs) : (s.setRegs r).devices = s.devices := rfl
@[simp] theorem State.setRegs_frozen (s : State) (r : Regs) : (s.setRegs r).frozen = s.frozen := rfl
@[simp] theorem State.setRegs_ir (s : State) (r : Regs) : (s.setRegs r).ir = s.ir := rfl
@[simp] theorem State.setRegs_bypass (s : State) (r : Regs) : (s.setRegs r).bypass = s.bypass := rfl
@[simp] theorem State.setRegs_auto (s : State) (r : Regs) : (s.setRegs r).auto = s.auto := rfl

/-! setPool -/

@[simp] theorem State.setPool_parts (s : State) (c : CoreId) (q : Fin 16) (p : Pool) : (s.setPool c q p).parts = s.parts := rfl
@[simp] theorem State.setPool_mem (s : State) (c : CoreId) (q : Fin 16) (p : Pool) : (s.setPool c q p).mem = s.mem := rfl
@[simp] theorem State.setPool_poison (s : State) (c : CoreId) (q : Fin 16) (p : Pool) : (s.setPool c q p).poison = s.poison := rfl
@[simp] theorem State.setPool_ecc (s : State) (c : CoreId) (q : Fin 16) (p : Pool) : (s.setPool c q p).ecc = s.ecc := rfl
@[simp] theorem State.setPool_upsets (s : State) (c : CoreId) (q : Fin 16) (p : Pool) : (s.setPool c q p).upsets = s.upsets := rfl
@[simp] theorem State.setPool_cycle (s : State) (c : CoreId) (q : Fin 16) (p : Pool) : (s.setPool c q p).cycle = s.cycle := rfl
@[simp] theorem State.setPool_turn (s : State) (c : CoreId) (q : Fin 16) (p : Pool) : (s.setPool c q p).turn = s.turn := rfl
@[simp] theorem State.setPool_slotDone (s : State) (c : CoreId) (q : Fin 16) (p : Pool) : (s.setPool c q p).slotDone = s.slotDone := rfl
@[simp] theorem State.setPool_agenda (s : State) (c : CoreId) (q : Fin 16) (p : Pool) : (s.setPool c q p).agenda = s.agenda := rfl
@[simp] theorem State.setPool_nextId (s : State) (c : CoreId) (q : Fin 16) (p : Pool) : (s.setPool c q p).nextId = s.nextId := rfl
@[simp] theorem State.setPool_issue (s : State) (c : CoreId) (q : Fin 16) (p : Pool) : (s.setPool c q p).issue = s.issue := rfl
@[simp] theorem State.setPool_out (s : State) (c : CoreId) (q : Fin 16) (p : Pool) : (s.setPool c q p).out = s.out := rfl
@[simp] theorem State.setPool_pkg (s : State) (c : CoreId) (q : Fin 16) (p : Pool) : (s.setPool c q p).pkg = s.pkg := rfl
@[simp] theorem State.setPool_acl (s : State) (c : CoreId) (q : Fin 16) (p : Pool) : (s.setPool c q p).acl = s.acl := rfl
@[simp] theorem State.setPool_groups (s : State) (c : CoreId) (q : Fin 16) (p : Pool) : (s.setPool c q p).groups = s.groups := rfl
@[simp] theorem State.setPool_groupLoad (s : State) (c : CoreId) (q : Fin 16) (p : Pool) : (s.setPool c q p).groupLoad = s.groupLoad := rfl
@[simp] theorem State.setPool_queues (s : State) (c : CoreId) (q : Fin 16) (p : Pool) : (s.setPool c q p).queues = s.queues := rfl
@[simp] theorem State.setPool_completions (s : State) (c : CoreId) (q : Fin 16) (p : Pool) : (s.setPool c q p).completions = s.completions := rfl
@[simp] theorem State.setPool_replaced (s : State) (c : CoreId) (q : Fin 16) (p : Pool) : (s.setPool c q p).replaced = s.replaced := rfl
@[simp] theorem State.setPool_suspended (s : State) (c : CoreId) (q : Fin 16) (p : Pool) : (s.setPool c q p).suspended = s.suspended := rfl
@[simp] theorem State.setPool_shelf (s : State) (c : CoreId) (q : Fin 16) (p : Pool) : (s.setPool c q p).shelf = s.shelf := rfl
@[simp] theorem State.setPool_itins (s : State) (c : CoreId) (q : Fin 16) (p : Pool) : (s.setPool c q p).itins = s.itins := rfl
@[simp] theorem State.setPool_gatherers (s : State) (c : CoreId) (q : Fin 16) (p : Pool) : (s.setPool c q p).gatherers = s.gatherers := rfl
@[simp] theorem State.setPool_tlb (s : State) (c : CoreId) (q : Fin 16) (p : Pool) : (s.setPool c q p).tlb = s.tlb := rfl
@[simp] theorem State.setPool_asks (s : State) (c : CoreId) (q : Fin 16) (p : Pool) : (s.setPool c q p).asks = s.asks := rfl
@[simp] theorem State.setPool_pages (s : State) (c : CoreId) (q : Fin 16) (p : Pool) : (s.setPool c q p).pages = s.pages := rfl
@[simp] theorem State.setPool_crcs (s : State) (c : CoreId) (q : Fin 16) (p : Pool) : (s.setPool c q p).crcs = s.crcs := rfl
@[simp] theorem State.setPool_landed (s : State) (c : CoreId) (q : Fin 16) (p : Pool) : (s.setPool c q p).landed = s.landed := rfl
@[simp] theorem State.setPool_refresh (s : State) (c : CoreId) (q : Fin 16) (p : Pool) : (s.setPool c q p).refresh = s.refresh := rfl
@[simp] theorem State.setPool_activations (s : State) (c : CoreId) (q : Fin 16) (p : Pool) : (s.setPool c q p).activations = s.activations := rfl
@[simp] theorem State.setPool_retrains (s : State) (c : CoreId) (q : Fin 16) (p : Pool) : (s.setPool c q p).retrains = s.retrains := rfl
@[simp] theorem State.setPool_rates (s : State) (c : CoreId) (q : Fin 16) (p : Pool) : (s.setPool c q p).rates = s.rates := rfl
@[simp] theorem State.setPool_teams (s : State) (c : CoreId) (q : Fin 16) (p : Pool) : (s.setPool c q p).teams = s.teams := rfl
@[simp] theorem State.setPool_gangs (s : State) (c : CoreId) (q : Fin 16) (p : Pool) : (s.setPool c q p).gangs = s.gangs := rfl
@[simp] theorem State.setPool_transfers (s : State) (c : CoreId) (q : Fin 16) (p : Pool) : (s.setPool c q p).transfers = s.transfers := rfl
@[simp] theorem State.setPool_outbox (s : State) (c : CoreId) (q : Fin 16) (p : Pool) : (s.setPool c q p).outbox = s.outbox := rfl
@[simp] theorem State.setPool_inbox (s : State) (c : CoreId) (q : Fin 16) (p : Pool) : (s.setPool c q p).inbox = s.inbox := rfl
@[simp] theorem State.setPool_receives (s : State) (c : CoreId) (q : Fin 16) (p : Pool) : (s.setPool c q p).receives = s.receives := rfl
@[simp] theorem State.setPool_barriers (s : State) (c : CoreId) (q : Fin 16) (p : Pool) : (s.setPool c q p).barriers = s.barriers := rfl
@[simp] theorem State.setPool_powerSince (s : State) (c : CoreId) (q : Fin 16) (p : Pool) : (s.setPool c q p).powerSince = s.powerSince := rfl
@[simp] theorem State.setPool_boot (s : State) (c : CoreId) (q : Fin 16) (p : Pool) : (s.setPool c q p).boot = s.boot := rfl
@[simp] theorem State.setPool_image (s : State) (c : CoreId) (q : Fin 16) (p : Pool) : (s.setPool c q p).image = s.image := rfl
@[simp] theorem State.setPool_firmware (s : State) (c : CoreId) (q : Fin 16) (p : Pool) : (s.setPool c q p).firmware = s.firmware := rfl
@[simp] theorem State.setPool_devices (s : State) (c : CoreId) (q : Fin 16) (p : Pool) : (s.setPool c q p).devices = s.devices := rfl
@[simp] theorem State.setPool_frozen (s : State) (c : CoreId) (q : Fin 16) (p : Pool) : (s.setPool c q p).frozen = s.frozen := rfl
@[simp] theorem State.setPool_ir (s : State) (c : CoreId) (q : Fin 16) (p : Pool) : (s.setPool c q p).ir = s.ir := rfl
@[simp] theorem State.setPool_bypass (s : State) (c : CoreId) (q : Fin 16) (p : Pool) : (s.setPool c q p).bypass = s.bypass := rfl
@[simp] theorem State.setPool_auto (s : State) (c : CoreId) (q : Fin 16) (p : Pool) : (s.setPool c q p).auto = s.auto := rfl

/-! verdict -/

@[simp] theorem State.verdict_cores (s : State) (v : Verdict) : (s.verdict v).cores = s.cores := rfl
@[simp] theorem State.verdict_parts (s : State) (v : Verdict) : (s.verdict v).parts = s.parts := rfl
@[simp] theorem State.verdict_mem (s : State) (v : Verdict) : (s.verdict v).mem = s.mem := rfl
@[simp] theorem State.verdict_poison (s : State) (v : Verdict) : (s.verdict v).poison = s.poison := rfl
@[simp] theorem State.verdict_ecc (s : State) (v : Verdict) : (s.verdict v).ecc = s.ecc := rfl
@[simp] theorem State.verdict_upsets (s : State) (v : Verdict) : (s.verdict v).upsets = s.upsets := rfl
@[simp] theorem State.verdict_cycle (s : State) (v : Verdict) : (s.verdict v).cycle = s.cycle := rfl
@[simp] theorem State.verdict_turn (s : State) (v : Verdict) : (s.verdict v).turn = s.turn := rfl
@[simp] theorem State.verdict_slotDone (s : State) (v : Verdict) : (s.verdict v).slotDone = s.slotDone := rfl
@[simp] theorem State.verdict_agenda (s : State) (v : Verdict) : (s.verdict v).agenda = s.agenda := rfl
@[simp] theorem State.verdict_nextId (s : State) (v : Verdict) : (s.verdict v).nextId = s.nextId := rfl
@[simp] theorem State.verdict_issue (s : State) (v : Verdict) : (s.verdict v).issue = { s.issue with verdict := v } := rfl
@[simp] theorem State.verdict_out (s : State) (v : Verdict) : (s.verdict v).out = s.out := rfl
@[simp] theorem State.verdict_pkg (s : State) (v : Verdict) : (s.verdict v).pkg = s.pkg := rfl
@[simp] theorem State.verdict_acl (s : State) (v : Verdict) : (s.verdict v).acl = s.acl := rfl
@[simp] theorem State.verdict_groups (s : State) (v : Verdict) : (s.verdict v).groups = s.groups := rfl
@[simp] theorem State.verdict_groupLoad (s : State) (v : Verdict) : (s.verdict v).groupLoad = s.groupLoad := rfl
@[simp] theorem State.verdict_queues (s : State) (v : Verdict) : (s.verdict v).queues = s.queues := rfl
@[simp] theorem State.verdict_completions (s : State) (v : Verdict) : (s.verdict v).completions = s.completions := rfl
@[simp] theorem State.verdict_replaced (s : State) (v : Verdict) : (s.verdict v).replaced = s.replaced := rfl
@[simp] theorem State.verdict_suspended (s : State) (v : Verdict) : (s.verdict v).suspended = s.suspended := rfl
@[simp] theorem State.verdict_shelf (s : State) (v : Verdict) : (s.verdict v).shelf = s.shelf := rfl
@[simp] theorem State.verdict_itins (s : State) (v : Verdict) : (s.verdict v).itins = s.itins := rfl
@[simp] theorem State.verdict_gatherers (s : State) (v : Verdict) : (s.verdict v).gatherers = s.gatherers := rfl
@[simp] theorem State.verdict_tlb (s : State) (v : Verdict) : (s.verdict v).tlb = s.tlb := rfl
@[simp] theorem State.verdict_asks (s : State) (v : Verdict) : (s.verdict v).asks = s.asks := rfl
@[simp] theorem State.verdict_pages (s : State) (v : Verdict) : (s.verdict v).pages = s.pages := rfl
@[simp] theorem State.verdict_crcs (s : State) (v : Verdict) : (s.verdict v).crcs = s.crcs := rfl
@[simp] theorem State.verdict_landed (s : State) (v : Verdict) : (s.verdict v).landed = s.landed := rfl
@[simp] theorem State.verdict_refresh (s : State) (v : Verdict) : (s.verdict v).refresh = s.refresh := rfl
@[simp] theorem State.verdict_activations (s : State) (v : Verdict) : (s.verdict v).activations = s.activations := rfl
@[simp] theorem State.verdict_retrains (s : State) (v : Verdict) : (s.verdict v).retrains = s.retrains := rfl
@[simp] theorem State.verdict_rates (s : State) (v : Verdict) : (s.verdict v).rates = s.rates := rfl
@[simp] theorem State.verdict_teams (s : State) (v : Verdict) : (s.verdict v).teams = s.teams := rfl
@[simp] theorem State.verdict_gangs (s : State) (v : Verdict) : (s.verdict v).gangs = s.gangs := rfl
@[simp] theorem State.verdict_transfers (s : State) (v : Verdict) : (s.verdict v).transfers = s.transfers := rfl
@[simp] theorem State.verdict_outbox (s : State) (v : Verdict) : (s.verdict v).outbox = s.outbox := rfl
@[simp] theorem State.verdict_inbox (s : State) (v : Verdict) : (s.verdict v).inbox = s.inbox := rfl
@[simp] theorem State.verdict_receives (s : State) (v : Verdict) : (s.verdict v).receives = s.receives := rfl
@[simp] theorem State.verdict_barriers (s : State) (v : Verdict) : (s.verdict v).barriers = s.barriers := rfl
@[simp] theorem State.verdict_powerSince (s : State) (v : Verdict) : (s.verdict v).powerSince = s.powerSince := rfl
@[simp] theorem State.verdict_boot (s : State) (v : Verdict) : (s.verdict v).boot = s.boot := rfl
@[simp] theorem State.verdict_image (s : State) (v : Verdict) : (s.verdict v).image = s.image := rfl
@[simp] theorem State.verdict_firmware (s : State) (v : Verdict) : (s.verdict v).firmware = s.firmware := rfl
@[simp] theorem State.verdict_devices (s : State) (v : Verdict) : (s.verdict v).devices = s.devices := rfl
@[simp] theorem State.verdict_frozen (s : State) (v : Verdict) : (s.verdict v).frozen = s.frozen := rfl
@[simp] theorem State.verdict_ir (s : State) (v : Verdict) : (s.verdict v).ir = s.ir := rfl
@[simp] theorem State.verdict_bypass (s : State) (v : Verdict) : (s.verdict v).bypass = s.bypass := rfl
@[simp] theorem State.verdict_auto (s : State) (v : Verdict) : (s.verdict v).auto = s.auto := rfl

/-! transfer -/

@[simp] theorem State.transfer_cores (s : State) (t : Transfer1) : (s.transfer t).cores = s.cores := rfl
@[simp] theorem State.transfer_parts (s : State) (t : Transfer1) : (s.transfer t).parts = s.parts := rfl
@[simp] theorem State.transfer_mem (s : State) (t : Transfer1) : (s.transfer t).mem = s.mem := rfl
@[simp] theorem State.transfer_poison (s : State) (t : Transfer1) : (s.transfer t).poison = s.poison := rfl
@[simp] theorem State.transfer_ecc (s : State) (t : Transfer1) : (s.transfer t).ecc = s.ecc := rfl
@[simp] theorem State.transfer_upsets (s : State) (t : Transfer1) : (s.transfer t).upsets = s.upsets := rfl
@[simp] theorem State.transfer_cycle (s : State) (t : Transfer1) : (s.transfer t).cycle = s.cycle := rfl
@[simp] theorem State.transfer_turn (s : State) (t : Transfer1) : (s.transfer t).turn = s.turn := rfl
@[simp] theorem State.transfer_slotDone (s : State) (t : Transfer1) : (s.transfer t).slotDone = s.slotDone := rfl
@[simp] theorem State.transfer_agenda (s : State) (t : Transfer1) : (s.transfer t).agenda = s.agenda := rfl
@[simp] theorem State.transfer_nextId (s : State) (t : Transfer1) : (s.transfer t).nextId = s.nextId := rfl
@[simp] theorem State.transfer_issue (s : State) (t : Transfer1) : (s.transfer t).issue = { s.issue with transfer := t } := rfl
@[simp] theorem State.transfer_out (s : State) (t : Transfer1) : (s.transfer t).out = s.out := rfl
@[simp] theorem State.transfer_pkg (s : State) (t : Transfer1) : (s.transfer t).pkg = s.pkg := rfl
@[simp] theorem State.transfer_acl (s : State) (t : Transfer1) : (s.transfer t).acl = s.acl := rfl
@[simp] theorem State.transfer_groups (s : State) (t : Transfer1) : (s.transfer t).groups = s.groups := rfl
@[simp] theorem State.transfer_groupLoad (s : State) (t : Transfer1) : (s.transfer t).groupLoad = s.groupLoad := rfl
@[simp] theorem State.transfer_queues (s : State) (t : Transfer1) : (s.transfer t).queues = s.queues := rfl
@[simp] theorem State.transfer_completions (s : State) (t : Transfer1) : (s.transfer t).completions = s.completions := rfl
@[simp] theorem State.transfer_replaced (s : State) (t : Transfer1) : (s.transfer t).replaced = s.replaced := rfl
@[simp] theorem State.transfer_suspended (s : State) (t : Transfer1) : (s.transfer t).suspended = s.suspended := rfl
@[simp] theorem State.transfer_shelf (s : State) (t : Transfer1) : (s.transfer t).shelf = s.shelf := rfl
@[simp] theorem State.transfer_itins (s : State) (t : Transfer1) : (s.transfer t).itins = s.itins := rfl
@[simp] theorem State.transfer_gatherers (s : State) (t : Transfer1) : (s.transfer t).gatherers = s.gatherers := rfl
@[simp] theorem State.transfer_tlb (s : State) (t : Transfer1) : (s.transfer t).tlb = s.tlb := rfl
@[simp] theorem State.transfer_asks (s : State) (t : Transfer1) : (s.transfer t).asks = s.asks := rfl
@[simp] theorem State.transfer_pages (s : State) (t : Transfer1) : (s.transfer t).pages = s.pages := rfl
@[simp] theorem State.transfer_crcs (s : State) (t : Transfer1) : (s.transfer t).crcs = s.crcs := rfl
@[simp] theorem State.transfer_landed (s : State) (t : Transfer1) : (s.transfer t).landed = s.landed := rfl
@[simp] theorem State.transfer_refresh (s : State) (t : Transfer1) : (s.transfer t).refresh = s.refresh := rfl
@[simp] theorem State.transfer_activations (s : State) (t : Transfer1) : (s.transfer t).activations = s.activations := rfl
@[simp] theorem State.transfer_retrains (s : State) (t : Transfer1) : (s.transfer t).retrains = s.retrains := rfl
@[simp] theorem State.transfer_rates (s : State) (t : Transfer1) : (s.transfer t).rates = s.rates := rfl
@[simp] theorem State.transfer_teams (s : State) (t : Transfer1) : (s.transfer t).teams = s.teams := rfl
@[simp] theorem State.transfer_gangs (s : State) (t : Transfer1) : (s.transfer t).gangs = s.gangs := rfl
@[simp] theorem State.transfer_transfers (s : State) (t : Transfer1) : (s.transfer t).transfers = s.transfers := rfl
@[simp] theorem State.transfer_outbox (s : State) (t : Transfer1) : (s.transfer t).outbox = s.outbox := rfl
@[simp] theorem State.transfer_inbox (s : State) (t : Transfer1) : (s.transfer t).inbox = s.inbox := rfl
@[simp] theorem State.transfer_receives (s : State) (t : Transfer1) : (s.transfer t).receives = s.receives := rfl
@[simp] theorem State.transfer_barriers (s : State) (t : Transfer1) : (s.transfer t).barriers = s.barriers := rfl
@[simp] theorem State.transfer_powerSince (s : State) (t : Transfer1) : (s.transfer t).powerSince = s.powerSince := rfl
@[simp] theorem State.transfer_boot (s : State) (t : Transfer1) : (s.transfer t).boot = s.boot := rfl
@[simp] theorem State.transfer_image (s : State) (t : Transfer1) : (s.transfer t).image = s.image := rfl
@[simp] theorem State.transfer_firmware (s : State) (t : Transfer1) : (s.transfer t).firmware = s.firmware := rfl
@[simp] theorem State.transfer_devices (s : State) (t : Transfer1) : (s.transfer t).devices = s.devices := rfl
@[simp] theorem State.transfer_frozen (s : State) (t : Transfer1) : (s.transfer t).frozen = s.frozen := rfl
@[simp] theorem State.transfer_ir (s : State) (t : Transfer1) : (s.transfer t).ir = s.ir := rfl
@[simp] theorem State.transfer_bypass (s : State) (t : Transfer1) : (s.transfer t).bypass = s.bypass := rfl
@[simp] theorem State.transfer_auto (s : State) (t : Transfer1) : (s.transfer t).auto = s.auto := rfl

/-! calm -/

@[simp] theorem State.calm_cores (s : State) : (s.calm).cores = s.cores := rfl
@[simp] theorem State.calm_parts (s : State) : (s.calm).parts = s.parts := rfl
@[simp] theorem State.calm_mem (s : State) : (s.calm).mem = s.mem := rfl
@[simp] theorem State.calm_poison (s : State) : (s.calm).poison = s.poison := rfl
@[simp] theorem State.calm_ecc (s : State) : (s.calm).ecc = s.ecc := rfl
@[simp] theorem State.calm_upsets (s : State) : (s.calm).upsets = s.upsets := rfl
@[simp] theorem State.calm_cycle (s : State) : (s.calm).cycle = s.cycle := rfl
@[simp] theorem State.calm_turn (s : State) : (s.calm).turn = s.turn := rfl
@[simp] theorem State.calm_slotDone (s : State) : (s.calm).slotDone = s.slotDone := rfl
@[simp] theorem State.calm_agenda (s : State) : (s.calm).agenda = s.agenda := rfl
@[simp] theorem State.calm_nextId (s : State) : (s.calm).nextId = s.nextId := rfl
@[simp] theorem State.calm_issue (s : State) : (s.calm).issue = { s.issue with live := false, verdict := .ok } := rfl
@[simp] theorem State.calm_out (s : State) : (s.calm).out = s.out := rfl
@[simp] theorem State.calm_pkg (s : State) : (s.calm).pkg = s.pkg := rfl
@[simp] theorem State.calm_acl (s : State) : (s.calm).acl = s.acl := rfl
@[simp] theorem State.calm_groups (s : State) : (s.calm).groups = s.groups := rfl
@[simp] theorem State.calm_groupLoad (s : State) : (s.calm).groupLoad = s.groupLoad := rfl
@[simp] theorem State.calm_queues (s : State) : (s.calm).queues = s.queues := rfl
@[simp] theorem State.calm_completions (s : State) : (s.calm).completions = s.completions := rfl
@[simp] theorem State.calm_replaced (s : State) : (s.calm).replaced = s.replaced := rfl
@[simp] theorem State.calm_suspended (s : State) : (s.calm).suspended = s.suspended := rfl
@[simp] theorem State.calm_shelf (s : State) : (s.calm).shelf = s.shelf := rfl
@[simp] theorem State.calm_itins (s : State) : (s.calm).itins = s.itins := rfl
@[simp] theorem State.calm_gatherers (s : State) : (s.calm).gatherers = s.gatherers := rfl
@[simp] theorem State.calm_tlb (s : State) : (s.calm).tlb = s.tlb := rfl
@[simp] theorem State.calm_asks (s : State) : (s.calm).asks = s.asks := rfl
@[simp] theorem State.calm_pages (s : State) : (s.calm).pages = s.pages := rfl
@[simp] theorem State.calm_crcs (s : State) : (s.calm).crcs = s.crcs := rfl
@[simp] theorem State.calm_landed (s : State) : (s.calm).landed = s.landed := rfl
@[simp] theorem State.calm_refresh (s : State) : (s.calm).refresh = s.refresh := rfl
@[simp] theorem State.calm_activations (s : State) : (s.calm).activations = s.activations := rfl
@[simp] theorem State.calm_retrains (s : State) : (s.calm).retrains = s.retrains := rfl
@[simp] theorem State.calm_rates (s : State) : (s.calm).rates = s.rates := rfl
@[simp] theorem State.calm_teams (s : State) : (s.calm).teams = s.teams := rfl
@[simp] theorem State.calm_gangs (s : State) : (s.calm).gangs = s.gangs := rfl
@[simp] theorem State.calm_transfers (s : State) : (s.calm).transfers = s.transfers := rfl
@[simp] theorem State.calm_outbox (s : State) : (s.calm).outbox = s.outbox := rfl
@[simp] theorem State.calm_inbox (s : State) : (s.calm).inbox = s.inbox := rfl
@[simp] theorem State.calm_receives (s : State) : (s.calm).receives = s.receives := rfl
@[simp] theorem State.calm_barriers (s : State) : (s.calm).barriers = s.barriers := rfl
@[simp] theorem State.calm_powerSince (s : State) : (s.calm).powerSince = s.powerSince := rfl
@[simp] theorem State.calm_boot (s : State) : (s.calm).boot = s.boot := rfl
@[simp] theorem State.calm_image (s : State) : (s.calm).image = s.image := rfl
@[simp] theorem State.calm_firmware (s : State) : (s.calm).firmware = s.firmware := rfl
@[simp] theorem State.calm_devices (s : State) : (s.calm).devices = s.devices := rfl
@[simp] theorem State.calm_frozen (s : State) : (s.calm).frozen = s.frozen := rfl
@[simp] theorem State.calm_ir (s : State) : (s.calm).ir = s.ir := rfl
@[simp] theorem State.calm_bypass (s : State) : (s.calm).bypass = s.bypass := rfl
@[simp] theorem State.calm_auto (s : State) : (s.calm).auto = s.auto := rfl

/-! atSlot -/

@[simp] theorem State.atSlot_cores (s : State) (n : Nat) : (s.atSlot n).cores = s.cores := rfl
@[simp] theorem State.atSlot_parts (s : State) (n : Nat) : (s.atSlot n).parts = s.parts := rfl
@[simp] theorem State.atSlot_mem (s : State) (n : Nat) : (s.atSlot n).mem = s.mem := rfl
@[simp] theorem State.atSlot_poison (s : State) (n : Nat) : (s.atSlot n).poison = s.poison := rfl
@[simp] theorem State.atSlot_ecc (s : State) (n : Nat) : (s.atSlot n).ecc = s.ecc := rfl
@[simp] theorem State.atSlot_upsets (s : State) (n : Nat) : (s.atSlot n).upsets = s.upsets := rfl
@[simp] theorem State.atSlot_cycle (s : State) (n : Nat) : (s.atSlot n).cycle = s.cycle := rfl
@[simp] theorem State.atSlot_turn (s : State) (n : Nat) : (s.atSlot n).turn = s.turn := rfl
@[simp] theorem State.atSlot_slotDone (s : State) (n : Nat) : (s.atSlot n).slotDone = s.slotDone := rfl
@[simp] theorem State.atSlot_agenda (s : State) (n : Nat) : (s.atSlot n).agenda = s.agenda := rfl
@[simp] theorem State.atSlot_nextId (s : State) (n : Nat) : (s.atSlot n).nextId = s.nextId := rfl
@[simp] theorem State.atSlot_issue (s : State) (n : Nat) : (s.atSlot n).issue = { s.issue with slot := n, verdict := .ok } := rfl
@[simp] theorem State.atSlot_out (s : State) (n : Nat) : (s.atSlot n).out = s.out := rfl
@[simp] theorem State.atSlot_pkg (s : State) (n : Nat) : (s.atSlot n).pkg = s.pkg := rfl
@[simp] theorem State.atSlot_acl (s : State) (n : Nat) : (s.atSlot n).acl = s.acl := rfl
@[simp] theorem State.atSlot_groups (s : State) (n : Nat) : (s.atSlot n).groups = s.groups := rfl
@[simp] theorem State.atSlot_groupLoad (s : State) (n : Nat) : (s.atSlot n).groupLoad = s.groupLoad := rfl
@[simp] theorem State.atSlot_queues (s : State) (n : Nat) : (s.atSlot n).queues = s.queues := rfl
@[simp] theorem State.atSlot_completions (s : State) (n : Nat) : (s.atSlot n).completions = s.completions := rfl
@[simp] theorem State.atSlot_replaced (s : State) (n : Nat) : (s.atSlot n).replaced = s.replaced := rfl
@[simp] theorem State.atSlot_suspended (s : State) (n : Nat) : (s.atSlot n).suspended = s.suspended := rfl
@[simp] theorem State.atSlot_shelf (s : State) (n : Nat) : (s.atSlot n).shelf = s.shelf := rfl
@[simp] theorem State.atSlot_itins (s : State) (n : Nat) : (s.atSlot n).itins = s.itins := rfl
@[simp] theorem State.atSlot_gatherers (s : State) (n : Nat) : (s.atSlot n).gatherers = s.gatherers := rfl
@[simp] theorem State.atSlot_tlb (s : State) (n : Nat) : (s.atSlot n).tlb = s.tlb := rfl
@[simp] theorem State.atSlot_asks (s : State) (n : Nat) : (s.atSlot n).asks = s.asks := rfl
@[simp] theorem State.atSlot_pages (s : State) (n : Nat) : (s.atSlot n).pages = s.pages := rfl
@[simp] theorem State.atSlot_crcs (s : State) (n : Nat) : (s.atSlot n).crcs = s.crcs := rfl
@[simp] theorem State.atSlot_landed (s : State) (n : Nat) : (s.atSlot n).landed = s.landed := rfl
@[simp] theorem State.atSlot_refresh (s : State) (n : Nat) : (s.atSlot n).refresh = s.refresh := rfl
@[simp] theorem State.atSlot_activations (s : State) (n : Nat) : (s.atSlot n).activations = s.activations := rfl
@[simp] theorem State.atSlot_retrains (s : State) (n : Nat) : (s.atSlot n).retrains = s.retrains := rfl
@[simp] theorem State.atSlot_rates (s : State) (n : Nat) : (s.atSlot n).rates = s.rates := rfl
@[simp] theorem State.atSlot_teams (s : State) (n : Nat) : (s.atSlot n).teams = s.teams := rfl
@[simp] theorem State.atSlot_gangs (s : State) (n : Nat) : (s.atSlot n).gangs = s.gangs := rfl
@[simp] theorem State.atSlot_transfers (s : State) (n : Nat) : (s.atSlot n).transfers = s.transfers := rfl
@[simp] theorem State.atSlot_outbox (s : State) (n : Nat) : (s.atSlot n).outbox = s.outbox := rfl
@[simp] theorem State.atSlot_inbox (s : State) (n : Nat) : (s.atSlot n).inbox = s.inbox := rfl
@[simp] theorem State.atSlot_receives (s : State) (n : Nat) : (s.atSlot n).receives = s.receives := rfl
@[simp] theorem State.atSlot_barriers (s : State) (n : Nat) : (s.atSlot n).barriers = s.barriers := rfl
@[simp] theorem State.atSlot_powerSince (s : State) (n : Nat) : (s.atSlot n).powerSince = s.powerSince := rfl
@[simp] theorem State.atSlot_boot (s : State) (n : Nat) : (s.atSlot n).boot = s.boot := rfl
@[simp] theorem State.atSlot_image (s : State) (n : Nat) : (s.atSlot n).image = s.image := rfl
@[simp] theorem State.atSlot_firmware (s : State) (n : Nat) : (s.atSlot n).firmware = s.firmware := rfl
@[simp] theorem State.atSlot_devices (s : State) (n : Nat) : (s.atSlot n).devices = s.devices := rfl
@[simp] theorem State.atSlot_frozen (s : State) (n : Nat) : (s.atSlot n).frozen = s.frozen := rfl
@[simp] theorem State.atSlot_ir (s : State) (n : Nat) : (s.atSlot n).ir = s.ir := rfl
@[simp] theorem State.atSlot_bypass (s : State) (n : Nat) : (s.atSlot n).bypass = s.bypass := rfl
@[simp] theorem State.atSlot_auto (s : State) (n : Nat) : (s.atSlot n).auto = s.auto := rfl

/-! emit -/

@[simp] theorem State.emit_cores (s : State) (o : Out) : (s.emit o).cores = s.cores := rfl
@[simp] theorem State.emit_parts (s : State) (o : Out) : (s.emit o).parts = s.parts := rfl
@[simp] theorem State.emit_mem (s : State) (o : Out) : (s.emit o).mem = s.mem := rfl
@[simp] theorem State.emit_poison (s : State) (o : Out) : (s.emit o).poison = s.poison := rfl
@[simp] theorem State.emit_ecc (s : State) (o : Out) : (s.emit o).ecc = s.ecc := rfl
@[simp] theorem State.emit_upsets (s : State) (o : Out) : (s.emit o).upsets = s.upsets := rfl
@[simp] theorem State.emit_cycle (s : State) (o : Out) : (s.emit o).cycle = s.cycle := rfl
@[simp] theorem State.emit_turn (s : State) (o : Out) : (s.emit o).turn = s.turn := rfl
@[simp] theorem State.emit_slotDone (s : State) (o : Out) : (s.emit o).slotDone = s.slotDone := rfl
@[simp] theorem State.emit_agenda (s : State) (o : Out) : (s.emit o).agenda = s.agenda := rfl
@[simp] theorem State.emit_nextId (s : State) (o : Out) : (s.emit o).nextId = s.nextId := rfl
@[simp] theorem State.emit_issue (s : State) (o : Out) : (s.emit o).issue = s.issue := rfl
@[simp] theorem State.emit_out (s : State) (o : Out) : (s.emit o).out = s.out ++ [o] := rfl
@[simp] theorem State.emit_pkg (s : State) (o : Out) : (s.emit o).pkg = s.pkg := rfl
@[simp] theorem State.emit_acl (s : State) (o : Out) : (s.emit o).acl = s.acl := rfl
@[simp] theorem State.emit_groups (s : State) (o : Out) : (s.emit o).groups = s.groups := rfl
@[simp] theorem State.emit_groupLoad (s : State) (o : Out) : (s.emit o).groupLoad = s.groupLoad := rfl
@[simp] theorem State.emit_queues (s : State) (o : Out) : (s.emit o).queues = s.queues := rfl
@[simp] theorem State.emit_completions (s : State) (o : Out) : (s.emit o).completions = s.completions := rfl
@[simp] theorem State.emit_replaced (s : State) (o : Out) : (s.emit o).replaced = s.replaced := rfl
@[simp] theorem State.emit_suspended (s : State) (o : Out) : (s.emit o).suspended = s.suspended := rfl
@[simp] theorem State.emit_shelf (s : State) (o : Out) : (s.emit o).shelf = s.shelf := rfl
@[simp] theorem State.emit_itins (s : State) (o : Out) : (s.emit o).itins = s.itins := rfl
@[simp] theorem State.emit_gatherers (s : State) (o : Out) : (s.emit o).gatherers = s.gatherers := rfl
@[simp] theorem State.emit_tlb (s : State) (o : Out) : (s.emit o).tlb = s.tlb := rfl
@[simp] theorem State.emit_asks (s : State) (o : Out) : (s.emit o).asks = s.asks := rfl
@[simp] theorem State.emit_pages (s : State) (o : Out) : (s.emit o).pages = s.pages := rfl
@[simp] theorem State.emit_crcs (s : State) (o : Out) : (s.emit o).crcs = s.crcs := rfl
@[simp] theorem State.emit_landed (s : State) (o : Out) : (s.emit o).landed = s.landed := rfl
@[simp] theorem State.emit_refresh (s : State) (o : Out) : (s.emit o).refresh = s.refresh := rfl
@[simp] theorem State.emit_activations (s : State) (o : Out) : (s.emit o).activations = s.activations := rfl
@[simp] theorem State.emit_retrains (s : State) (o : Out) : (s.emit o).retrains = s.retrains := rfl
@[simp] theorem State.emit_rates (s : State) (o : Out) : (s.emit o).rates = s.rates := rfl
@[simp] theorem State.emit_teams (s : State) (o : Out) : (s.emit o).teams = s.teams := rfl
@[simp] theorem State.emit_gangs (s : State) (o : Out) : (s.emit o).gangs = s.gangs := rfl
@[simp] theorem State.emit_transfers (s : State) (o : Out) : (s.emit o).transfers = s.transfers := rfl
@[simp] theorem State.emit_outbox (s : State) (o : Out) : (s.emit o).outbox = s.outbox := rfl
@[simp] theorem State.emit_inbox (s : State) (o : Out) : (s.emit o).inbox = s.inbox := rfl
@[simp] theorem State.emit_receives (s : State) (o : Out) : (s.emit o).receives = s.receives := rfl
@[simp] theorem State.emit_barriers (s : State) (o : Out) : (s.emit o).barriers = s.barriers := rfl
@[simp] theorem State.emit_powerSince (s : State) (o : Out) : (s.emit o).powerSince = s.powerSince := rfl
@[simp] theorem State.emit_boot (s : State) (o : Out) : (s.emit o).boot = s.boot := rfl
@[simp] theorem State.emit_image (s : State) (o : Out) : (s.emit o).image = s.image := rfl
@[simp] theorem State.emit_firmware (s : State) (o : Out) : (s.emit o).firmware = s.firmware := rfl
@[simp] theorem State.emit_devices (s : State) (o : Out) : (s.emit o).devices = s.devices := rfl
@[simp] theorem State.emit_frozen (s : State) (o : Out) : (s.emit o).frozen = s.frozen := rfl
@[simp] theorem State.emit_ir (s : State) (o : Out) : (s.emit o).ir = s.ir := rfl
@[simp] theorem State.emit_bypass (s : State) (o : Out) : (s.emit o).bypass = s.bypass := rfl
@[simp] theorem State.emit_auto (s : State) (o : Out) : (s.emit o).auto = s.auto := rfl

/-! setQueue -/

@[simp] theorem State.setQueue_cores (s : State) (q : QueueId) (h : HostQueue) : (s.setQueue q h).cores = s.cores := rfl
@[simp] theorem State.setQueue_parts (s : State) (q : QueueId) (h : HostQueue) : (s.setQueue q h).parts = s.parts := rfl
@[simp] theorem State.setQueue_mem (s : State) (q : QueueId) (h : HostQueue) : (s.setQueue q h).mem = s.mem := rfl
@[simp] theorem State.setQueue_poison (s : State) (q : QueueId) (h : HostQueue) : (s.setQueue q h).poison = s.poison := rfl
@[simp] theorem State.setQueue_ecc (s : State) (q : QueueId) (h : HostQueue) : (s.setQueue q h).ecc = s.ecc := rfl
@[simp] theorem State.setQueue_upsets (s : State) (q : QueueId) (h : HostQueue) : (s.setQueue q h).upsets = s.upsets := rfl
@[simp] theorem State.setQueue_cycle (s : State) (q : QueueId) (h : HostQueue) : (s.setQueue q h).cycle = s.cycle := rfl
@[simp] theorem State.setQueue_turn (s : State) (q : QueueId) (h : HostQueue) : (s.setQueue q h).turn = s.turn := rfl
@[simp] theorem State.setQueue_slotDone (s : State) (q : QueueId) (h : HostQueue) : (s.setQueue q h).slotDone = s.slotDone := rfl
@[simp] theorem State.setQueue_agenda (s : State) (q : QueueId) (h : HostQueue) : (s.setQueue q h).agenda = s.agenda := rfl
@[simp] theorem State.setQueue_nextId (s : State) (q : QueueId) (h : HostQueue) : (s.setQueue q h).nextId = s.nextId := rfl
@[simp] theorem State.setQueue_issue (s : State) (q : QueueId) (h : HostQueue) : (s.setQueue q h).issue = s.issue := rfl
@[simp] theorem State.setQueue_out (s : State) (q : QueueId) (h : HostQueue) : (s.setQueue q h).out = s.out := rfl
@[simp] theorem State.setQueue_pkg (s : State) (q : QueueId) (h : HostQueue) : (s.setQueue q h).pkg = s.pkg := rfl
@[simp] theorem State.setQueue_acl (s : State) (q : QueueId) (h : HostQueue) : (s.setQueue q h).acl = s.acl := rfl
@[simp] theorem State.setQueue_groups (s : State) (q : QueueId) (h : HostQueue) : (s.setQueue q h).groups = s.groups := rfl
@[simp] theorem State.setQueue_groupLoad (s : State) (q : QueueId) (h : HostQueue) : (s.setQueue q h).groupLoad = s.groupLoad := rfl
@[simp] theorem State.setQueue_queues (s : State) (q : QueueId) (h : HostQueue) : (s.setQueue q h).queues = s.queues.set q.val h q.isLt := rfl
@[simp] theorem State.setQueue_completions (s : State) (q : QueueId) (h : HostQueue) : (s.setQueue q h).completions = s.completions := rfl
@[simp] theorem State.setQueue_replaced (s : State) (q : QueueId) (h : HostQueue) : (s.setQueue q h).replaced = s.replaced := rfl
@[simp] theorem State.setQueue_suspended (s : State) (q : QueueId) (h : HostQueue) : (s.setQueue q h).suspended = s.suspended := rfl
@[simp] theorem State.setQueue_shelf (s : State) (q : QueueId) (h : HostQueue) : (s.setQueue q h).shelf = s.shelf := rfl
@[simp] theorem State.setQueue_itins (s : State) (q : QueueId) (h : HostQueue) : (s.setQueue q h).itins = s.itins := rfl
@[simp] theorem State.setQueue_gatherers (s : State) (q : QueueId) (h : HostQueue) : (s.setQueue q h).gatherers = s.gatherers := rfl
@[simp] theorem State.setQueue_tlb (s : State) (q : QueueId) (h : HostQueue) : (s.setQueue q h).tlb = s.tlb := rfl
@[simp] theorem State.setQueue_asks (s : State) (q : QueueId) (h : HostQueue) : (s.setQueue q h).asks = s.asks := rfl
@[simp] theorem State.setQueue_pages (s : State) (q : QueueId) (h : HostQueue) : (s.setQueue q h).pages = s.pages := rfl
@[simp] theorem State.setQueue_crcs (s : State) (q : QueueId) (h : HostQueue) : (s.setQueue q h).crcs = s.crcs := rfl
@[simp] theorem State.setQueue_landed (s : State) (q : QueueId) (h : HostQueue) : (s.setQueue q h).landed = s.landed := rfl
@[simp] theorem State.setQueue_refresh (s : State) (q : QueueId) (h : HostQueue) : (s.setQueue q h).refresh = s.refresh := rfl
@[simp] theorem State.setQueue_activations (s : State) (q : QueueId) (h : HostQueue) : (s.setQueue q h).activations = s.activations := rfl
@[simp] theorem State.setQueue_retrains (s : State) (q : QueueId) (h : HostQueue) : (s.setQueue q h).retrains = s.retrains := rfl
@[simp] theorem State.setQueue_rates (s : State) (q : QueueId) (h : HostQueue) : (s.setQueue q h).rates = s.rates := rfl
@[simp] theorem State.setQueue_teams (s : State) (q : QueueId) (h : HostQueue) : (s.setQueue q h).teams = s.teams := rfl
@[simp] theorem State.setQueue_gangs (s : State) (q : QueueId) (h : HostQueue) : (s.setQueue q h).gangs = s.gangs := rfl
@[simp] theorem State.setQueue_transfers (s : State) (q : QueueId) (h : HostQueue) : (s.setQueue q h).transfers = s.transfers := rfl
@[simp] theorem State.setQueue_outbox (s : State) (q : QueueId) (h : HostQueue) : (s.setQueue q h).outbox = s.outbox := rfl
@[simp] theorem State.setQueue_inbox (s : State) (q : QueueId) (h : HostQueue) : (s.setQueue q h).inbox = s.inbox := rfl
@[simp] theorem State.setQueue_receives (s : State) (q : QueueId) (h : HostQueue) : (s.setQueue q h).receives = s.receives := rfl
@[simp] theorem State.setQueue_barriers (s : State) (q : QueueId) (h : HostQueue) : (s.setQueue q h).barriers = s.barriers := rfl
@[simp] theorem State.setQueue_powerSince (s : State) (q : QueueId) (h : HostQueue) : (s.setQueue q h).powerSince = s.powerSince := rfl
@[simp] theorem State.setQueue_boot (s : State) (q : QueueId) (h : HostQueue) : (s.setQueue q h).boot = s.boot := rfl
@[simp] theorem State.setQueue_image (s : State) (q : QueueId) (h : HostQueue) : (s.setQueue q h).image = s.image := rfl
@[simp] theorem State.setQueue_firmware (s : State) (q : QueueId) (h : HostQueue) : (s.setQueue q h).firmware = s.firmware := rfl
@[simp] theorem State.setQueue_devices (s : State) (q : QueueId) (h : HostQueue) : (s.setQueue q h).devices = s.devices := rfl
@[simp] theorem State.setQueue_frozen (s : State) (q : QueueId) (h : HostQueue) : (s.setQueue q h).frozen = s.frozen := rfl
@[simp] theorem State.setQueue_ir (s : State) (q : QueueId) (h : HostQueue) : (s.setQueue q h).ir = s.ir := rfl
@[simp] theorem State.setQueue_bypass (s : State) (q : QueueId) (h : HostQueue) : (s.setQueue q h).bypass = s.bypass := rfl
@[simp] theorem State.setQueue_auto (s : State) (q : QueueId) (h : HostQueue) : (s.setQueue q h).auto = s.auto := rfl

/-! setTeam -/

@[simp] theorem State.setTeam_cores (s : State) (t : Team) : (s.setTeam t).cores = s.cores := rfl
@[simp] theorem State.setTeam_parts (s : State) (t : Team) : (s.setTeam t).parts = s.parts := rfl
@[simp] theorem State.setTeam_mem (s : State) (t : Team) : (s.setTeam t).mem = s.mem := rfl
@[simp] theorem State.setTeam_poison (s : State) (t : Team) : (s.setTeam t).poison = s.poison := rfl
@[simp] theorem State.setTeam_ecc (s : State) (t : Team) : (s.setTeam t).ecc = s.ecc := rfl
@[simp] theorem State.setTeam_upsets (s : State) (t : Team) : (s.setTeam t).upsets = s.upsets := rfl
@[simp] theorem State.setTeam_cycle (s : State) (t : Team) : (s.setTeam t).cycle = s.cycle := rfl
@[simp] theorem State.setTeam_turn (s : State) (t : Team) : (s.setTeam t).turn = s.turn := rfl
@[simp] theorem State.setTeam_slotDone (s : State) (t : Team) : (s.setTeam t).slotDone = s.slotDone := rfl
@[simp] theorem State.setTeam_agenda (s : State) (t : Team) : (s.setTeam t).agenda = s.agenda := rfl
@[simp] theorem State.setTeam_nextId (s : State) (t : Team) : (s.setTeam t).nextId = s.nextId := rfl
@[simp] theorem State.setTeam_issue (s : State) (t : Team) : (s.setTeam t).issue = s.issue := rfl
@[simp] theorem State.setTeam_out (s : State) (t : Team) : (s.setTeam t).out = s.out := rfl
@[simp] theorem State.setTeam_pkg (s : State) (t : Team) : (s.setTeam t).pkg = s.pkg := rfl
@[simp] theorem State.setTeam_acl (s : State) (t : Team) : (s.setTeam t).acl = s.acl := rfl
@[simp] theorem State.setTeam_groups (s : State) (t : Team) : (s.setTeam t).groups = s.groups := rfl
@[simp] theorem State.setTeam_groupLoad (s : State) (t : Team) : (s.setTeam t).groupLoad = s.groupLoad := rfl
@[simp] theorem State.setTeam_queues (s : State) (t : Team) : (s.setTeam t).queues = s.queues := rfl
@[simp] theorem State.setTeam_completions (s : State) (t : Team) : (s.setTeam t).completions = s.completions := rfl
@[simp] theorem State.setTeam_replaced (s : State) (t : Team) : (s.setTeam t).replaced = s.replaced := rfl
@[simp] theorem State.setTeam_suspended (s : State) (t : Team) : (s.setTeam t).suspended = s.suspended := rfl
@[simp] theorem State.setTeam_shelf (s : State) (t : Team) : (s.setTeam t).shelf = s.shelf := rfl
@[simp] theorem State.setTeam_itins (s : State) (t : Team) : (s.setTeam t).itins = s.itins := rfl
@[simp] theorem State.setTeam_gatherers (s : State) (t : Team) : (s.setTeam t).gatherers = s.gatherers := rfl
@[simp] theorem State.setTeam_tlb (s : State) (t : Team) : (s.setTeam t).tlb = s.tlb := rfl
@[simp] theorem State.setTeam_asks (s : State) (t : Team) : (s.setTeam t).asks = s.asks := rfl
@[simp] theorem State.setTeam_pages (s : State) (t : Team) : (s.setTeam t).pages = s.pages := rfl
@[simp] theorem State.setTeam_crcs (s : State) (t : Team) : (s.setTeam t).crcs = s.crcs := rfl
@[simp] theorem State.setTeam_landed (s : State) (t : Team) : (s.setTeam t).landed = s.landed := rfl
@[simp] theorem State.setTeam_refresh (s : State) (t : Team) : (s.setTeam t).refresh = s.refresh := rfl
@[simp] theorem State.setTeam_activations (s : State) (t : Team) : (s.setTeam t).activations = s.activations := rfl
@[simp] theorem State.setTeam_retrains (s : State) (t : Team) : (s.setTeam t).retrains = s.retrains := rfl
@[simp] theorem State.setTeam_rates (s : State) (t : Team) : (s.setTeam t).rates = s.rates := rfl
@[simp] theorem State.setTeam_teams (s : State) (t : Team) : (s.setTeam t).teams = s.teams.map (fun u => if u.id = t.id then t else u) := rfl
@[simp] theorem State.setTeam_gangs (s : State) (t : Team) : (s.setTeam t).gangs = s.gangs := rfl
@[simp] theorem State.setTeam_transfers (s : State) (t : Team) : (s.setTeam t).transfers = s.transfers := rfl
@[simp] theorem State.setTeam_outbox (s : State) (t : Team) : (s.setTeam t).outbox = s.outbox := rfl
@[simp] theorem State.setTeam_inbox (s : State) (t : Team) : (s.setTeam t).inbox = s.inbox := rfl
@[simp] theorem State.setTeam_receives (s : State) (t : Team) : (s.setTeam t).receives = s.receives := rfl
@[simp] theorem State.setTeam_barriers (s : State) (t : Team) : (s.setTeam t).barriers = s.barriers := rfl
@[simp] theorem State.setTeam_powerSince (s : State) (t : Team) : (s.setTeam t).powerSince = s.powerSince := rfl
@[simp] theorem State.setTeam_boot (s : State) (t : Team) : (s.setTeam t).boot = s.boot := rfl
@[simp] theorem State.setTeam_image (s : State) (t : Team) : (s.setTeam t).image = s.image := rfl
@[simp] theorem State.setTeam_firmware (s : State) (t : Team) : (s.setTeam t).firmware = s.firmware := rfl
@[simp] theorem State.setTeam_devices (s : State) (t : Team) : (s.setTeam t).devices = s.devices := rfl
@[simp] theorem State.setTeam_frozen (s : State) (t : Team) : (s.setTeam t).frozen = s.frozen := rfl
@[simp] theorem State.setTeam_ir (s : State) (t : Team) : (s.setTeam t).ir = s.ir := rfl
@[simp] theorem State.setTeam_bypass (s : State) (t : Team) : (s.setTeam t).bypass = s.bypass := rfl
@[simp] theorem State.setTeam_auto (s : State) (t : Team) : (s.setTeam t).auto = s.auto := rfl

/-! setShelf -/

@[simp] theorem State.setShelf_cores (s : State) (e : Nat) (h : Shelf) : (s.setShelf e h).cores = s.cores := rfl
@[simp] theorem State.setShelf_parts (s : State) (e : Nat) (h : Shelf) : (s.setShelf e h).parts = s.parts := rfl
@[simp] theorem State.setShelf_mem (s : State) (e : Nat) (h : Shelf) : (s.setShelf e h).mem = s.mem := rfl
@[simp] theorem State.setShelf_poison (s : State) (e : Nat) (h : Shelf) : (s.setShelf e h).poison = s.poison := rfl
@[simp] theorem State.setShelf_ecc (s : State) (e : Nat) (h : Shelf) : (s.setShelf e h).ecc = s.ecc := rfl
@[simp] theorem State.setShelf_upsets (s : State) (e : Nat) (h : Shelf) : (s.setShelf e h).upsets = s.upsets := rfl
@[simp] theorem State.setShelf_cycle (s : State) (e : Nat) (h : Shelf) : (s.setShelf e h).cycle = s.cycle := rfl
@[simp] theorem State.setShelf_turn (s : State) (e : Nat) (h : Shelf) : (s.setShelf e h).turn = s.turn := rfl
@[simp] theorem State.setShelf_slotDone (s : State) (e : Nat) (h : Shelf) : (s.setShelf e h).slotDone = s.slotDone := rfl
@[simp] theorem State.setShelf_agenda (s : State) (e : Nat) (h : Shelf) : (s.setShelf e h).agenda = s.agenda := rfl
@[simp] theorem State.setShelf_nextId (s : State) (e : Nat) (h : Shelf) : (s.setShelf e h).nextId = s.nextId := rfl
@[simp] theorem State.setShelf_issue (s : State) (e : Nat) (h : Shelf) : (s.setShelf e h).issue = s.issue := rfl
@[simp] theorem State.setShelf_out (s : State) (e : Nat) (h : Shelf) : (s.setShelf e h).out = s.out := rfl
@[simp] theorem State.setShelf_pkg (s : State) (e : Nat) (h : Shelf) : (s.setShelf e h).pkg = s.pkg := rfl
@[simp] theorem State.setShelf_acl (s : State) (e : Nat) (h : Shelf) : (s.setShelf e h).acl = s.acl := rfl
@[simp] theorem State.setShelf_groups (s : State) (e : Nat) (h : Shelf) : (s.setShelf e h).groups = s.groups := rfl
@[simp] theorem State.setShelf_groupLoad (s : State) (e : Nat) (h : Shelf) : (s.setShelf e h).groupLoad = s.groupLoad := rfl
@[simp] theorem State.setShelf_queues (s : State) (e : Nat) (h : Shelf) : (s.setShelf e h).queues = s.queues := rfl
@[simp] theorem State.setShelf_completions (s : State) (e : Nat) (h : Shelf) : (s.setShelf e h).completions = s.completions := rfl
@[simp] theorem State.setShelf_replaced (s : State) (e : Nat) (h : Shelf) : (s.setShelf e h).replaced = s.replaced := rfl
@[simp] theorem State.setShelf_suspended (s : State) (e : Nat) (h : Shelf) : (s.setShelf e h).suspended = s.suspended := rfl
@[simp] theorem State.setShelf_shelf (s : State) (e : Nat) (h : Shelf) : (s.setShelf e h).shelf = aset s.shelf e h := rfl
@[simp] theorem State.setShelf_itins (s : State) (e : Nat) (h : Shelf) : (s.setShelf e h).itins = s.itins := rfl
@[simp] theorem State.setShelf_gatherers (s : State) (e : Nat) (h : Shelf) : (s.setShelf e h).gatherers = s.gatherers := rfl
@[simp] theorem State.setShelf_tlb (s : State) (e : Nat) (h : Shelf) : (s.setShelf e h).tlb = s.tlb := rfl
@[simp] theorem State.setShelf_asks (s : State) (e : Nat) (h : Shelf) : (s.setShelf e h).asks = s.asks := rfl
@[simp] theorem State.setShelf_pages (s : State) (e : Nat) (h : Shelf) : (s.setShelf e h).pages = s.pages := rfl
@[simp] theorem State.setShelf_crcs (s : State) (e : Nat) (h : Shelf) : (s.setShelf e h).crcs = s.crcs := rfl
@[simp] theorem State.setShelf_landed (s : State) (e : Nat) (h : Shelf) : (s.setShelf e h).landed = s.landed := rfl
@[simp] theorem State.setShelf_refresh (s : State) (e : Nat) (h : Shelf) : (s.setShelf e h).refresh = s.refresh := rfl
@[simp] theorem State.setShelf_activations (s : State) (e : Nat) (h : Shelf) : (s.setShelf e h).activations = s.activations := rfl
@[simp] theorem State.setShelf_retrains (s : State) (e : Nat) (h : Shelf) : (s.setShelf e h).retrains = s.retrains := rfl
@[simp] theorem State.setShelf_rates (s : State) (e : Nat) (h : Shelf) : (s.setShelf e h).rates = s.rates := rfl
@[simp] theorem State.setShelf_teams (s : State) (e : Nat) (h : Shelf) : (s.setShelf e h).teams = s.teams := rfl
@[simp] theorem State.setShelf_gangs (s : State) (e : Nat) (h : Shelf) : (s.setShelf e h).gangs = s.gangs := rfl
@[simp] theorem State.setShelf_transfers (s : State) (e : Nat) (h : Shelf) : (s.setShelf e h).transfers = s.transfers := rfl
@[simp] theorem State.setShelf_outbox (s : State) (e : Nat) (h : Shelf) : (s.setShelf e h).outbox = s.outbox := rfl
@[simp] theorem State.setShelf_inbox (s : State) (e : Nat) (h : Shelf) : (s.setShelf e h).inbox = s.inbox := rfl
@[simp] theorem State.setShelf_receives (s : State) (e : Nat) (h : Shelf) : (s.setShelf e h).receives = s.receives := rfl
@[simp] theorem State.setShelf_barriers (s : State) (e : Nat) (h : Shelf) : (s.setShelf e h).barriers = s.barriers := rfl
@[simp] theorem State.setShelf_powerSince (s : State) (e : Nat) (h : Shelf) : (s.setShelf e h).powerSince = s.powerSince := rfl
@[simp] theorem State.setShelf_boot (s : State) (e : Nat) (h : Shelf) : (s.setShelf e h).boot = s.boot := rfl
@[simp] theorem State.setShelf_image (s : State) (e : Nat) (h : Shelf) : (s.setShelf e h).image = s.image := rfl
@[simp] theorem State.setShelf_firmware (s : State) (e : Nat) (h : Shelf) : (s.setShelf e h).firmware = s.firmware := rfl
@[simp] theorem State.setShelf_devices (s : State) (e : Nat) (h : Shelf) : (s.setShelf e h).devices = s.devices := rfl
@[simp] theorem State.setShelf_frozen (s : State) (e : Nat) (h : Shelf) : (s.setShelf e h).frozen = s.frozen := rfl
@[simp] theorem State.setShelf_ir (s : State) (e : Nat) (h : Shelf) : (s.setShelf e h).ir = s.ir := rfl
@[simp] theorem State.setShelf_bypass (s : State) (e : Nat) (h : Shelf) : (s.setShelf e h).bypass = s.bypass := rfl
@[simp] theorem State.setShelf_auto (s : State) (e : Nat) (h : Shelf) : (s.setShelf e h).auto = s.auto := rfl

/-! setItin -/

@[simp] theorem State.setItin_cores (s : State) (i : ItinId) (x : Itin) : (s.setItin i x).cores = s.cores := rfl
@[simp] theorem State.setItin_parts (s : State) (i : ItinId) (x : Itin) : (s.setItin i x).parts = s.parts := rfl
@[simp] theorem State.setItin_mem (s : State) (i : ItinId) (x : Itin) : (s.setItin i x).mem = s.mem := rfl
@[simp] theorem State.setItin_poison (s : State) (i : ItinId) (x : Itin) : (s.setItin i x).poison = s.poison := rfl
@[simp] theorem State.setItin_ecc (s : State) (i : ItinId) (x : Itin) : (s.setItin i x).ecc = s.ecc := rfl
@[simp] theorem State.setItin_upsets (s : State) (i : ItinId) (x : Itin) : (s.setItin i x).upsets = s.upsets := rfl
@[simp] theorem State.setItin_cycle (s : State) (i : ItinId) (x : Itin) : (s.setItin i x).cycle = s.cycle := rfl
@[simp] theorem State.setItin_turn (s : State) (i : ItinId) (x : Itin) : (s.setItin i x).turn = s.turn := rfl
@[simp] theorem State.setItin_slotDone (s : State) (i : ItinId) (x : Itin) : (s.setItin i x).slotDone = s.slotDone := rfl
@[simp] theorem State.setItin_agenda (s : State) (i : ItinId) (x : Itin) : (s.setItin i x).agenda = s.agenda := rfl
@[simp] theorem State.setItin_nextId (s : State) (i : ItinId) (x : Itin) : (s.setItin i x).nextId = s.nextId := rfl
@[simp] theorem State.setItin_issue (s : State) (i : ItinId) (x : Itin) : (s.setItin i x).issue = s.issue := rfl
@[simp] theorem State.setItin_out (s : State) (i : ItinId) (x : Itin) : (s.setItin i x).out = s.out := rfl
@[simp] theorem State.setItin_pkg (s : State) (i : ItinId) (x : Itin) : (s.setItin i x).pkg = s.pkg := rfl
@[simp] theorem State.setItin_acl (s : State) (i : ItinId) (x : Itin) : (s.setItin i x).acl = s.acl := rfl
@[simp] theorem State.setItin_groups (s : State) (i : ItinId) (x : Itin) : (s.setItin i x).groups = s.groups := rfl
@[simp] theorem State.setItin_groupLoad (s : State) (i : ItinId) (x : Itin) : (s.setItin i x).groupLoad = s.groupLoad := rfl
@[simp] theorem State.setItin_queues (s : State) (i : ItinId) (x : Itin) : (s.setItin i x).queues = s.queues := rfl
@[simp] theorem State.setItin_completions (s : State) (i : ItinId) (x : Itin) : (s.setItin i x).completions = s.completions := rfl
@[simp] theorem State.setItin_replaced (s : State) (i : ItinId) (x : Itin) : (s.setItin i x).replaced = s.replaced := rfl
@[simp] theorem State.setItin_suspended (s : State) (i : ItinId) (x : Itin) : (s.setItin i x).suspended = s.suspended := rfl
@[simp] theorem State.setItin_shelf (s : State) (i : ItinId) (x : Itin) : (s.setItin i x).shelf = s.shelf := rfl
@[simp] theorem State.setItin_itins (s : State) (i : ItinId) (x : Itin) : (s.setItin i x).itins = s.itins.set i.val x i.isLt := rfl
@[simp] theorem State.setItin_gatherers (s : State) (i : ItinId) (x : Itin) : (s.setItin i x).gatherers = s.gatherers := rfl
@[simp] theorem State.setItin_tlb (s : State) (i : ItinId) (x : Itin) : (s.setItin i x).tlb = s.tlb := rfl
@[simp] theorem State.setItin_asks (s : State) (i : ItinId) (x : Itin) : (s.setItin i x).asks = s.asks := rfl
@[simp] theorem State.setItin_pages (s : State) (i : ItinId) (x : Itin) : (s.setItin i x).pages = s.pages := rfl
@[simp] theorem State.setItin_crcs (s : State) (i : ItinId) (x : Itin) : (s.setItin i x).crcs = s.crcs := rfl
@[simp] theorem State.setItin_landed (s : State) (i : ItinId) (x : Itin) : (s.setItin i x).landed = s.landed := rfl
@[simp] theorem State.setItin_refresh (s : State) (i : ItinId) (x : Itin) : (s.setItin i x).refresh = s.refresh := rfl
@[simp] theorem State.setItin_activations (s : State) (i : ItinId) (x : Itin) : (s.setItin i x).activations = s.activations := rfl
@[simp] theorem State.setItin_retrains (s : State) (i : ItinId) (x : Itin) : (s.setItin i x).retrains = s.retrains := rfl
@[simp] theorem State.setItin_rates (s : State) (i : ItinId) (x : Itin) : (s.setItin i x).rates = s.rates := rfl
@[simp] theorem State.setItin_teams (s : State) (i : ItinId) (x : Itin) : (s.setItin i x).teams = s.teams := rfl
@[simp] theorem State.setItin_gangs (s : State) (i : ItinId) (x : Itin) : (s.setItin i x).gangs = s.gangs := rfl
@[simp] theorem State.setItin_transfers (s : State) (i : ItinId) (x : Itin) : (s.setItin i x).transfers = s.transfers := rfl
@[simp] theorem State.setItin_outbox (s : State) (i : ItinId) (x : Itin) : (s.setItin i x).outbox = s.outbox := rfl
@[simp] theorem State.setItin_inbox (s : State) (i : ItinId) (x : Itin) : (s.setItin i x).inbox = s.inbox := rfl
@[simp] theorem State.setItin_receives (s : State) (i : ItinId) (x : Itin) : (s.setItin i x).receives = s.receives := rfl
@[simp] theorem State.setItin_barriers (s : State) (i : ItinId) (x : Itin) : (s.setItin i x).barriers = s.barriers := rfl
@[simp] theorem State.setItin_powerSince (s : State) (i : ItinId) (x : Itin) : (s.setItin i x).powerSince = s.powerSince := rfl
@[simp] theorem State.setItin_boot (s : State) (i : ItinId) (x : Itin) : (s.setItin i x).boot = s.boot := rfl
@[simp] theorem State.setItin_image (s : State) (i : ItinId) (x : Itin) : (s.setItin i x).image = s.image := rfl
@[simp] theorem State.setItin_firmware (s : State) (i : ItinId) (x : Itin) : (s.setItin i x).firmware = s.firmware := rfl
@[simp] theorem State.setItin_devices (s : State) (i : ItinId) (x : Itin) : (s.setItin i x).devices = s.devices := rfl
@[simp] theorem State.setItin_frozen (s : State) (i : ItinId) (x : Itin) : (s.setItin i x).frozen = s.frozen := rfl
@[simp] theorem State.setItin_ir (s : State) (i : ItinId) (x : Itin) : (s.setItin i x).ir = s.ir := rfl
@[simp] theorem State.setItin_bypass (s : State) (i : ItinId) (x : Itin) : (s.setItin i x).bypass = s.bypass := rfl
@[simp] theorem State.setItin_auto (s : State) (i : ItinId) (x : Itin) : (s.setItin i x).auto = s.auto := rfl

/-! setGatherer -/

@[simp] theorem State.setGatherer_cores (s : State) (g : GathererId) (x : Gatherer) : (s.setGatherer g x).cores = s.cores := rfl
@[simp] theorem State.setGatherer_parts (s : State) (g : GathererId) (x : Gatherer) : (s.setGatherer g x).parts = s.parts := rfl
@[simp] theorem State.setGatherer_mem (s : State) (g : GathererId) (x : Gatherer) : (s.setGatherer g x).mem = s.mem := rfl
@[simp] theorem State.setGatherer_poison (s : State) (g : GathererId) (x : Gatherer) : (s.setGatherer g x).poison = s.poison := rfl
@[simp] theorem State.setGatherer_ecc (s : State) (g : GathererId) (x : Gatherer) : (s.setGatherer g x).ecc = s.ecc := rfl
@[simp] theorem State.setGatherer_upsets (s : State) (g : GathererId) (x : Gatherer) : (s.setGatherer g x).upsets = s.upsets := rfl
@[simp] theorem State.setGatherer_cycle (s : State) (g : GathererId) (x : Gatherer) : (s.setGatherer g x).cycle = s.cycle := rfl
@[simp] theorem State.setGatherer_turn (s : State) (g : GathererId) (x : Gatherer) : (s.setGatherer g x).turn = s.turn := rfl
@[simp] theorem State.setGatherer_slotDone (s : State) (g : GathererId) (x : Gatherer) : (s.setGatherer g x).slotDone = s.slotDone := rfl
@[simp] theorem State.setGatherer_agenda (s : State) (g : GathererId) (x : Gatherer) : (s.setGatherer g x).agenda = s.agenda := rfl
@[simp] theorem State.setGatherer_nextId (s : State) (g : GathererId) (x : Gatherer) : (s.setGatherer g x).nextId = s.nextId := rfl
@[simp] theorem State.setGatherer_issue (s : State) (g : GathererId) (x : Gatherer) : (s.setGatherer g x).issue = s.issue := rfl
@[simp] theorem State.setGatherer_out (s : State) (g : GathererId) (x : Gatherer) : (s.setGatherer g x).out = s.out := rfl
@[simp] theorem State.setGatherer_pkg (s : State) (g : GathererId) (x : Gatherer) : (s.setGatherer g x).pkg = s.pkg := rfl
@[simp] theorem State.setGatherer_acl (s : State) (g : GathererId) (x : Gatherer) : (s.setGatherer g x).acl = s.acl := rfl
@[simp] theorem State.setGatherer_groups (s : State) (g : GathererId) (x : Gatherer) : (s.setGatherer g x).groups = s.groups := rfl
@[simp] theorem State.setGatherer_groupLoad (s : State) (g : GathererId) (x : Gatherer) : (s.setGatherer g x).groupLoad = s.groupLoad := rfl
@[simp] theorem State.setGatherer_queues (s : State) (g : GathererId) (x : Gatherer) : (s.setGatherer g x).queues = s.queues := rfl
@[simp] theorem State.setGatherer_completions (s : State) (g : GathererId) (x : Gatherer) : (s.setGatherer g x).completions = s.completions := rfl
@[simp] theorem State.setGatherer_replaced (s : State) (g : GathererId) (x : Gatherer) : (s.setGatherer g x).replaced = s.replaced := rfl
@[simp] theorem State.setGatherer_suspended (s : State) (g : GathererId) (x : Gatherer) : (s.setGatherer g x).suspended = s.suspended := rfl
@[simp] theorem State.setGatherer_shelf (s : State) (g : GathererId) (x : Gatherer) : (s.setGatherer g x).shelf = s.shelf := rfl
@[simp] theorem State.setGatherer_itins (s : State) (g : GathererId) (x : Gatherer) : (s.setGatherer g x).itins = s.itins := rfl
@[simp] theorem State.setGatherer_gatherers (s : State) (g : GathererId) (x : Gatherer) : (s.setGatherer g x).gatherers = s.gatherers.set g.val x g.isLt := rfl
@[simp] theorem State.setGatherer_tlb (s : State) (g : GathererId) (x : Gatherer) : (s.setGatherer g x).tlb = s.tlb := rfl
@[simp] theorem State.setGatherer_asks (s : State) (g : GathererId) (x : Gatherer) : (s.setGatherer g x).asks = s.asks := rfl
@[simp] theorem State.setGatherer_pages (s : State) (g : GathererId) (x : Gatherer) : (s.setGatherer g x).pages = s.pages := rfl
@[simp] theorem State.setGatherer_crcs (s : State) (g : GathererId) (x : Gatherer) : (s.setGatherer g x).crcs = s.crcs := rfl
@[simp] theorem State.setGatherer_landed (s : State) (g : GathererId) (x : Gatherer) : (s.setGatherer g x).landed = s.landed := rfl
@[simp] theorem State.setGatherer_refresh (s : State) (g : GathererId) (x : Gatherer) : (s.setGatherer g x).refresh = s.refresh := rfl
@[simp] theorem State.setGatherer_activations (s : State) (g : GathererId) (x : Gatherer) : (s.setGatherer g x).activations = s.activations := rfl
@[simp] theorem State.setGatherer_retrains (s : State) (g : GathererId) (x : Gatherer) : (s.setGatherer g x).retrains = s.retrains := rfl
@[simp] theorem State.setGatherer_rates (s : State) (g : GathererId) (x : Gatherer) : (s.setGatherer g x).rates = s.rates := rfl
@[simp] theorem State.setGatherer_teams (s : State) (g : GathererId) (x : Gatherer) : (s.setGatherer g x).teams = s.teams := rfl
@[simp] theorem State.setGatherer_gangs (s : State) (g : GathererId) (x : Gatherer) : (s.setGatherer g x).gangs = s.gangs := rfl
@[simp] theorem State.setGatherer_transfers (s : State) (g : GathererId) (x : Gatherer) : (s.setGatherer g x).transfers = s.transfers := rfl
@[simp] theorem State.setGatherer_outbox (s : State) (g : GathererId) (x : Gatherer) : (s.setGatherer g x).outbox = s.outbox := rfl
@[simp] theorem State.setGatherer_inbox (s : State) (g : GathererId) (x : Gatherer) : (s.setGatherer g x).inbox = s.inbox := rfl
@[simp] theorem State.setGatherer_receives (s : State) (g : GathererId) (x : Gatherer) : (s.setGatherer g x).receives = s.receives := rfl
@[simp] theorem State.setGatherer_barriers (s : State) (g : GathererId) (x : Gatherer) : (s.setGatherer g x).barriers = s.barriers := rfl
@[simp] theorem State.setGatherer_powerSince (s : State) (g : GathererId) (x : Gatherer) : (s.setGatherer g x).powerSince = s.powerSince := rfl
@[simp] theorem State.setGatherer_boot (s : State) (g : GathererId) (x : Gatherer) : (s.setGatherer g x).boot = s.boot := rfl
@[simp] theorem State.setGatherer_image (s : State) (g : GathererId) (x : Gatherer) : (s.setGatherer g x).image = s.image := rfl
@[simp] theorem State.setGatherer_firmware (s : State) (g : GathererId) (x : Gatherer) : (s.setGatherer g x).firmware = s.firmware := rfl
@[simp] theorem State.setGatherer_devices (s : State) (g : GathererId) (x : Gatherer) : (s.setGatherer g x).devices = s.devices := rfl
@[simp] theorem State.setGatherer_frozen (s : State) (g : GathererId) (x : Gatherer) : (s.setGatherer g x).frozen = s.frozen := rfl
@[simp] theorem State.setGatherer_ir (s : State) (g : GathererId) (x : Gatherer) : (s.setGatherer g x).ir = s.ir := rfl
@[simp] theorem State.setGatherer_bypass (s : State) (g : GathererId) (x : Gatherer) : (s.setGatherer g x).bypass = s.bypass := rfl
@[simp] theorem State.setGatherer_auto (s : State) (g : GathererId) (x : Gatherer) : (s.setGatherer g x).auto = s.auto := rfl

/-! setRefresh -/

@[simp] theorem State.setRefresh_cores (s : State) (d : DieId) (r : Refresh) : (s.setRefresh d r).cores = s.cores := rfl
@[simp] theorem State.setRefresh_parts (s : State) (d : DieId) (r : Refresh) : (s.setRefresh d r).parts = s.parts := rfl
@[simp] theorem State.setRefresh_mem (s : State) (d : DieId) (r : Refresh) : (s.setRefresh d r).mem = s.mem := rfl
@[simp] theorem State.setRefresh_poison (s : State) (d : DieId) (r : Refresh) : (s.setRefresh d r).poison = s.poison := rfl
@[simp] theorem State.setRefresh_ecc (s : State) (d : DieId) (r : Refresh) : (s.setRefresh d r).ecc = s.ecc := rfl
@[simp] theorem State.setRefresh_upsets (s : State) (d : DieId) (r : Refresh) : (s.setRefresh d r).upsets = s.upsets := rfl
@[simp] theorem State.setRefresh_cycle (s : State) (d : DieId) (r : Refresh) : (s.setRefresh d r).cycle = s.cycle := rfl
@[simp] theorem State.setRefresh_turn (s : State) (d : DieId) (r : Refresh) : (s.setRefresh d r).turn = s.turn := rfl
@[simp] theorem State.setRefresh_slotDone (s : State) (d : DieId) (r : Refresh) : (s.setRefresh d r).slotDone = s.slotDone := rfl
@[simp] theorem State.setRefresh_agenda (s : State) (d : DieId) (r : Refresh) : (s.setRefresh d r).agenda = s.agenda := rfl
@[simp] theorem State.setRefresh_nextId (s : State) (d : DieId) (r : Refresh) : (s.setRefresh d r).nextId = s.nextId := rfl
@[simp] theorem State.setRefresh_issue (s : State) (d : DieId) (r : Refresh) : (s.setRefresh d r).issue = s.issue := rfl
@[simp] theorem State.setRefresh_out (s : State) (d : DieId) (r : Refresh) : (s.setRefresh d r).out = s.out := rfl
@[simp] theorem State.setRefresh_pkg (s : State) (d : DieId) (r : Refresh) : (s.setRefresh d r).pkg = s.pkg := rfl
@[simp] theorem State.setRefresh_acl (s : State) (d : DieId) (r : Refresh) : (s.setRefresh d r).acl = s.acl := rfl
@[simp] theorem State.setRefresh_groups (s : State) (d : DieId) (r : Refresh) : (s.setRefresh d r).groups = s.groups := rfl
@[simp] theorem State.setRefresh_groupLoad (s : State) (d : DieId) (r : Refresh) : (s.setRefresh d r).groupLoad = s.groupLoad := rfl
@[simp] theorem State.setRefresh_queues (s : State) (d : DieId) (r : Refresh) : (s.setRefresh d r).queues = s.queues := rfl
@[simp] theorem State.setRefresh_completions (s : State) (d : DieId) (r : Refresh) : (s.setRefresh d r).completions = s.completions := rfl
@[simp] theorem State.setRefresh_replaced (s : State) (d : DieId) (r : Refresh) : (s.setRefresh d r).replaced = s.replaced := rfl
@[simp] theorem State.setRefresh_suspended (s : State) (d : DieId) (r : Refresh) : (s.setRefresh d r).suspended = s.suspended := rfl
@[simp] theorem State.setRefresh_shelf (s : State) (d : DieId) (r : Refresh) : (s.setRefresh d r).shelf = s.shelf := rfl
@[simp] theorem State.setRefresh_itins (s : State) (d : DieId) (r : Refresh) : (s.setRefresh d r).itins = s.itins := rfl
@[simp] theorem State.setRefresh_gatherers (s : State) (d : DieId) (r : Refresh) : (s.setRefresh d r).gatherers = s.gatherers := rfl
@[simp] theorem State.setRefresh_tlb (s : State) (d : DieId) (r : Refresh) : (s.setRefresh d r).tlb = s.tlb := rfl
@[simp] theorem State.setRefresh_asks (s : State) (d : DieId) (r : Refresh) : (s.setRefresh d r).asks = s.asks := rfl
@[simp] theorem State.setRefresh_pages (s : State) (d : DieId) (r : Refresh) : (s.setRefresh d r).pages = s.pages := rfl
@[simp] theorem State.setRefresh_crcs (s : State) (d : DieId) (r : Refresh) : (s.setRefresh d r).crcs = s.crcs := rfl
@[simp] theorem State.setRefresh_landed (s : State) (d : DieId) (r : Refresh) : (s.setRefresh d r).landed = s.landed := rfl
@[simp] theorem State.setRefresh_refresh (s : State) (d : DieId) (r : Refresh) : (s.setRefresh d r).refresh = rset s.refresh (BitVec.ofNat 3 d.val) r := rfl
@[simp] theorem State.setRefresh_activations (s : State) (d : DieId) (r : Refresh) : (s.setRefresh d r).activations = s.activations := rfl
@[simp] theorem State.setRefresh_retrains (s : State) (d : DieId) (r : Refresh) : (s.setRefresh d r).retrains = s.retrains := rfl
@[simp] theorem State.setRefresh_rates (s : State) (d : DieId) (r : Refresh) : (s.setRefresh d r).rates = s.rates := rfl
@[simp] theorem State.setRefresh_teams (s : State) (d : DieId) (r : Refresh) : (s.setRefresh d r).teams = s.teams := rfl
@[simp] theorem State.setRefresh_gangs (s : State) (d : DieId) (r : Refresh) : (s.setRefresh d r).gangs = s.gangs := rfl
@[simp] theorem State.setRefresh_transfers (s : State) (d : DieId) (r : Refresh) : (s.setRefresh d r).transfers = s.transfers := rfl
@[simp] theorem State.setRefresh_outbox (s : State) (d : DieId) (r : Refresh) : (s.setRefresh d r).outbox = s.outbox := rfl
@[simp] theorem State.setRefresh_inbox (s : State) (d : DieId) (r : Refresh) : (s.setRefresh d r).inbox = s.inbox := rfl
@[simp] theorem State.setRefresh_receives (s : State) (d : DieId) (r : Refresh) : (s.setRefresh d r).receives = s.receives := rfl
@[simp] theorem State.setRefresh_barriers (s : State) (d : DieId) (r : Refresh) : (s.setRefresh d r).barriers = s.barriers := rfl
@[simp] theorem State.setRefresh_powerSince (s : State) (d : DieId) (r : Refresh) : (s.setRefresh d r).powerSince = s.powerSince := rfl
@[simp] theorem State.setRefresh_boot (s : State) (d : DieId) (r : Refresh) : (s.setRefresh d r).boot = s.boot := rfl
@[simp] theorem State.setRefresh_image (s : State) (d : DieId) (r : Refresh) : (s.setRefresh d r).image = s.image := rfl
@[simp] theorem State.setRefresh_firmware (s : State) (d : DieId) (r : Refresh) : (s.setRefresh d r).firmware = s.firmware := rfl
@[simp] theorem State.setRefresh_devices (s : State) (d : DieId) (r : Refresh) : (s.setRefresh d r).devices = s.devices := rfl
@[simp] theorem State.setRefresh_frozen (s : State) (d : DieId) (r : Refresh) : (s.setRefresh d r).frozen = s.frozen := rfl
@[simp] theorem State.setRefresh_ir (s : State) (d : DieId) (r : Refresh) : (s.setRefresh d r).ir = s.ir := rfl
@[simp] theorem State.setRefresh_bypass (s : State) (d : DieId) (r : Refresh) : (s.setRefresh d r).bypass = s.bypass := rfl
@[simp] theorem State.setRefresh_auto (s : State) (d : DieId) (r : Refresh) : (s.setRefresh d r).auto = s.auto := rfl

/-! Reads after writes. -/

@[simp] theorem rget_rset_same {w : Nat} {α : Type} (f : File w α) (r : BitVec w) (x : α) : rget (rset f r x) r = x := by
  simp [rget, rset]

theorem rget_rset_ne {w : Nat} {α : Type} (f : File w α) (r q : BitVec w) (x : α) (h : q ≠ r) : rget (rset f r x) q = rget f q := by
  have h' : r.toNat ≠ q.toNat := fun e => h (BitVec.eq_of_toNat_eq e.symm)
  simp [rget, rset, h']

@[simp] theorem State.core_setCore_same (s : State) (c : CoreId) (k : Core) : (s.setCore c k).core c = k := by
  simp [State.core]

theorem State.core_setCore_ne (s : State) (c d : CoreId) (k : Core) (h : d ≠ c) : (s.setCore c k).core d = s.core d := by
  have h' : c.val ≠ d.val := fun e => h (Fin.ext e.symm)
  simp [State.core, h']

@[simp] theorem State.ctx_setCtx_same (s : State) (c : CoreId) (x : CtxId) (y : Ctx) : (s.setCtx c x y).ctx c x = y := by
  simp [State.ctx, State.setCtx, Core.setCtx]

theorem State.ctx_setCtx_ctx_ne (s : State) (c : CoreId) (x z : CtxId) (y : Ctx) (h : z ≠ x) :
    (s.setCtx c x y).ctx c z = s.ctx c z := by
  have h' : x.val ≠ z.val := fun e => h (Fin.ext e.symm)
  simp [State.ctx, State.setCtx, Core.setCtx, h']

theorem State.ctx_setCtx_core_ne (s : State) (c d : CoreId) (x z : CtxId) (y : Ctx) (h : d ≠ c) :
    (s.setCtx c x y).ctx d z = s.ctx d z := by
  simp [State.ctx, State.setCtx, State.core_setCore_ne _ _ _ _ h]

@[simp] theorem State.engine_setEngine_same (s : State) (c : CoreId) (x : CtxId) (e : Engine) :
    (s.setEngine c x e).engine c x = e := by
  simp [State.engine, State.setEngine]

@[simp] theorem State.engine_setCtx (s : State) (c : CoreId) (x : CtxId) (y : Ctx) (d : CoreId) (z : CtxId) :
    (s.setCtx c x y).engine d z = s.engine d z := by
  by_cases h : d = c
  · subst h; simp [State.engine, State.setCtx, Core.setCtx]
  · simp [State.engine, State.setCtx, State.core_setCore_ne _ _ _ _ h]

@[simp] theorem State.ctx_setEngine (s : State) (c : CoreId) (x : CtxId) (e : Engine) (d : CoreId) (z : CtxId) :
    (s.setEngine c x e).ctx d z = s.ctx d z := by
  by_cases h : d = c
  · subst h; simp [State.ctx, State.setEngine]
  · simp [State.ctx, State.setEngine, State.core_setCore_ne _ _ _ _ h]

@[simp] theorem State.part_setPart_same (s : State) (p : PartId) (x : Part) : (s.setPart p x).part p = x := by
  simp [State.part]

theorem State.part_setPart_ne (s : State) (p q : PartId) (x : Part) (h : q ≠ p) : (s.setPart p x).part q = s.part q := by
  have h' : p.val ≠ q.val := fun e => h (Fin.ext e.symm)
  simp [State.part, h']

@[simp] theorem State.queue_setQueue_same (s : State) (q : QueueId) (h : HostQueue) : (s.setQueue q h).queue q = h := by
  simp [State.queue]

@[simp] theorem State.itin_setItin_same (s : State) (i : ItinId) (x : Itin) : (s.setItin i x).itin i = x := by
  simp [State.itin]

@[simp] theorem State.gatherer_setGatherer_same (s : State) (g : GathererId) (x : Gatherer) :
    (s.setGatherer g x).gatherer g = x := by
  simp [State.gatherer]

/-- The issuing context after its own update. -/
@[simp] theorem State.me_setMe (s : State) (y : Ctx) : (s.setMe y).me = y := by
  simp [State.me, State.setMe]

/-- The snapshot is not changed by an update of the issuing context. -/
@[simp] theorem State.src_setMe (s : State) (y : Ctx) : (s.setMe y).src = s.src := rfl

@[simp] theorem State.me_setRegs (s : State) (r : Regs) : (s.setRegs r).me = { s.me with r := r } := by
  simp [State.setRegs]

@[simp] theorem State.src_setRegs (s : State) (r : Regs) : (s.setRegs r).src = s.src := rfl

end Sys2Proof.Machine
end

