-- ==== Sys2Proof/Laws/Vector.lean ====
section
/-! SUPPORT. The lanes of a row that is built lane by lane, and what `lanewise` and `lanebits` give. -/

namespace Sys2Proof.Machine

theorem lanesNat_lt : ∀ xs : List W32, lanesNat xs < 2 ^ (32 * xs.length)
  | [] => by simp [lanesNat]
  | a :: t => by
    have ih := lanesNat_lt t
    have ha := a.isLt
    have e : 2 ^ (32 * (a :: t).length) = 2 ^ 32 * 2 ^ (32 * t.length) := by rw [← Nat.pow_add, List.length_cons]; congr 1; ring
    rw [e, lanesNat]
    nlinarith

theorem lanesNat_get : ∀ (xs : List W32) (l : Nat) (h : l < xs.length), lanesNat xs / 2 ^ (32 * l) % 2 ^ 32 = xs[l].toNat
  | a :: t, 0, _ => by
    have ha := a.isLt
    simp only [lanesNat, Nat.mul_zero, Nat.pow_zero, Nat.div_one, List.getElem_cons_zero]
    rw [Nat.add_mul_mod_self_left, Nat.mod_eq_of_lt ha]
  | a :: t, l + 1, h => by
    have ha := a.isLt
    have e : 2 ^ (32 * (l + 1)) = 2 ^ 32 * 2 ^ (32 * l) := by rw [← Nat.pow_add]; congr 1; ring
    rw [e, ← Nat.div_div_eq_div_mul]
    have hd : lanesNat (a :: t) / 2 ^ 32 = lanesNat t := by
      rw [lanesNat, Nat.add_mul_div_left _ _ (by positivity), Nat.div_eq_of_lt ha, Nat.zero_add]
    rw [hd, lanesNat_get t l (by simpa using h)]
    simp

/-- Lane l of a row built from 64 lanes. -/
theorem lane_ofList (xs : List W32) (hx : xs.length = 64) (l : Nat) (h : l < 64) :
    lane (BitVec.ofNat 2048 (lanesNat xs)) l = xs[l]'(by omega) := by
  apply BitVec.eq_of_toNat_eq
  have hlt : lanesNat xs < 2 ^ 2048 := by have := lanesNat_lt xs; rwa [hx] at this
  rw [lane, BitVec.toNat_ofNat, BitVec.toNat_ofNat, Nat.mod_eq_of_lt hlt]
  exact lanesNat_get xs l (by omega)

/-- Lane l of `ofLanes f` is f l. -/
theorem lane_ofLanes (f : Nat → W32) (l : Nat) (h : l < 64) : lane (ofLanes f) l = f l := by
  rw [ofLanes, lane_ofList _ (by simp) l h]
  simp

/-- An active lane, in the words of R38. -/
theorem active_eq (m : W64) (l : Nat) : active m l = m.getLsbD l := by
  simp only [active, wbit, BitVec.getLsbD, Nat.testBit, Nat.shiftRight_eq_div_pow]
  rcases Nat.mod_two_eq_zero_or_one (m.toNat / 2 ^ l) with h | h <;> simp [Nat.and_comm 1, Nat.and_one_is_mod, h]

/-- Flags of a list, ORed. -/
theorem orFlags (xs : List (BitVec 5)) (a : BitVec 5) (k : Nat) :
    (xs.foldl (fun a x => a ||| x) a).getLsbD k = true ↔ a.getLsbD k = true ∨ ∃ x ∈ xs, x.getLsbD k = true := by
  induction xs generalizing a with
  | nil => simp
  | cons x t ih => simp [ih, or_assoc]

/-- The flags of the active lanes, ORed. -/
theorem lane_flags {α : Type} (m : W64) (f : Nat → α × BitVec 5) (z : α) (k : Nat) :
    (((List.range 64).map (fun l => if active m l then f l else (z, (0 : BitVec 5)))).foldl (fun a (x : α × BitVec 5) => a ||| x.2) 0).getLsbD k = true ↔
      ∃ l, l < 64 ∧ m.getLsbD l = true ∧ (f l).2.getLsbD k = true := by
  have e : ∀ (ys : List (α × BitVec 5)) (a : BitVec 5),
      ys.foldl (fun a x => a ||| x.2) a = (ys.map Prod.snd).foldl (fun a x => a ||| x) a := fun ys => by
    induction ys with
    | nil => intro a; rfl
    | cons y t ih => intro a; simpa using ih _
  rw [e, orFlags]
  have z0 : ((0 : BitVec 5).getLsbD k = true) ↔ False := by
    constructor
    · intro h; simp at h
    · exact False.elim
  rw [z0, false_or]
  simp only [List.map_map, List.mem_map, List.mem_range, Function.comp]
  constructor
  · rintro ⟨x, ⟨l, hl, rfl⟩, hx⟩
    by_cases ha : active m l = true
    · exact ⟨l, hl, by rw [← active_eq]; exact ha, by simpa [ha] using hx⟩
    · simp [ha] at hx
  · rintro ⟨l, hl, ha, hx⟩
    exact ⟨(f l).2, ⟨l, hl, by simp [active_eq, ha]⟩, hx⟩

/-- What `lanewise` gives: each active lane's value, and the flags of the active lanes ORed. -/
theorem lanewise_gives (m : W64) (f : Nat → W32 × BitVec 5) : LanesGive m f (lanewise m f).1 (lanewise m f).2 := by
  refine ⟨fun l hl ha => ?_, fun k _ => lane_flags m f 0 k⟩
  unfold lanewise
  simp only
  rw [lane_ofList _ (by simp) l hl]
  simp [active_eq, ha]

theorem bitsNat_get : ∀ (xs : List (Bool × BitVec 5)) (l : Nat),
    (xs.foldr (fun (x : Bool × BitVec 5) n => x.1.toNat + 2 * n) 0).testBit l = (xs[l]?.map Prod.fst).getD false
  | [], l => by simp
  | x :: t, 0 => by
    simp only [List.foldr_cons, Nat.testBit_zero, List.getElem?_cons_zero, Option.map_some, Option.getD_some]
    cases x.1 <;> simp
  | x :: t, l + 1 => by
    have h : (x.1.toNat + 2 * List.foldr (fun (x : Bool × BitVec 5) n => x.1.toNat + 2 * n) 0 t) / 2
        = List.foldr (fun (x : Bool × BitVec 5) n => x.1.toNat + 2 * n) 0 t := by
      cases x.1 <;> simp <;> omega
    rw [List.foldr_cons, Nat.testBit_succ, h, bitsNat_get t l]
    simp

/-- What `lanebits` gives. -/
theorem lanebits_gives (m : W64) (f : Nat → Bool × BitVec 5) : BitsGive m f (lanebits m f).1 (lanebits m f).2 := by
  refine ⟨fun l hl ha => ?_, fun k _ => lane_flags m f false k⟩
  unfold lanebits
  simp only
  rw [BitVec.getLsbD_ofNat, bitsNat_get]
  simp [hl, active_eq, ha]

end Sys2Proof.Machine
end

