-- ==== Sys2Proof/Tests/Slice0.lean ====
section
/-! SUPPORT. Tests: what well-formedness refuses, every constructor's word, single steps, and for every statement of the obligations a state
that meets its premises. -/

set_option Elab.async false

namespace Sys2Proof.Tests.Slice0

open Sys2Proof Sys2Proof.Machine

/-! Well-formedness: for each check of WellFormed.lean a term that breaks it alone, beside one that meets it at the edge of its range. -/

def f3 : RRR := .mk 0 0 0 0 false false false
def f2 : RR := .mk 0 0 0 false false false
def fi : RRI := .mk 0 0 0 0 none
def fr : RI := .mk 0 0 0 none
def fu : UF := .mk 0 0 0 0 0 false false
def fm : MF := .mk 0 0 0 0 false false false
def fc : CP := .mk 0 0 0 0 0 0
def fa : AT := .mk 0 0 0 0 0

/-- Each of the list is refused, and each of the second list accepted. -/
def refuses (bad good : List Instr) : Bool := bad.all (fun i => !i.wf) && good.all Instr.wf

/-- Guard pairs and guard numbers (R33, R40). -/
theorem test_wf_guards : refuses
    [.cmpeq f3, .cmplt { f3 with d := 3 }, .cmpeqi { fi with d := 8 }, .vcmpun { f3 with d := 1 }, .vicmplt { f3 with d := 22 },
     .gand { f3 with d := 1 }, .gor { f3 with d := 2, a := 8 }, .gxor { f3 with d := 2, b := 8 }, .gset { f2 with d := 8 },
     .gget { f2 with a := 8 }]
    [.cmpeq { f3 with d := 6 }, .gand { f3 with d := 2, a := 7, b := 7 }, .gset { f2 with d := 7 }, .gget { f2 with a := 7 }] = true := by
  decide

/-- Vector destinations and stream registers (R33). -/
theorem test_wf_registers : refuses
    [.vadd { f3 with d := 28 }, .vld { fi with d := 31 }, .vsum { f2 with d := 28 }, .lds { f2 with a := 16 }, .sts { f2 with a := 16 },
     .stset { fi with d := 16 }, .stget { fi with a := 16 }, .stq { fi with d := 4 }, .mpush { fm with a := 16 }, .macc { fm with a := 16 },
     .maccp fm, .mdrain { fm with d := 4 }, .mdrainp { fm with b := 16 }, .shw { fi with d := 8 }, .cpyg { fc with a := 28 }]
    [.vadd { f3 with d := 27, a := 31, b := 28 }, .sts { f2 with d := 31, a := 15 }, .stq { fi with d := 3 },
     .maccp { fm with d := 15 }, .mdrain { fm with d := 3 }, .shw { fi with d := 7 }, .cpyg { fc with a := 27 }] = true := by decide

/-- Immediates and field numbers (R95, R110, R202, R273, R282, R296, R344). -/
theorem test_wf_immediates : refuses
    [.shli { fi with imm := 64 }, .shri { fi with lit := some 64 }, .sari { fi with imm := 255 }, .sext fi, .sext { fi with imm := 65 },
     .rep { fr with d := 1, imm := 1 }, .stset { fi with imm := 14 }, .stget { fi with imm := 24 }, .shw { fi with imm := 30 },
     .shw { fi with imm := 48 }, .fence { fr with imm := 6 }, .bar { fr with imm := 6 }, .talloc { fi with imm := 64 },
     .wait { fr with imm := 256 }]
    [.shli { fi with imm := 63 }, .sext { fi with imm := 64 }, .sext { fi with imm := 1 }, .rep { fr with imm := 0x1FFF }, .rep { fr with d := 31 },
     .stset { fi with imm := 13 }, .stget { fi with imm := 23 }, .shw { fi with imm := 47 }, .fence { fr with imm := 5 },
     .talloc { fi with imm := 63 }, .wait { fr with imm := 255 }] = true := by decide

/-- Scopes and registers that have a second one after them (R33, R36, R37). -/
theorem test_wf_scopes_pairs : refuses
    [.amoadd { fa with scope := 6 }, .amocas { fa with scope := 7 }, .amocas { fa with d := 31 }, .acq { f2 with d := 6 }, .rel { f2 with d := 31 },
     .cpy { fc with kind := 2, b := 31 }, .cpyw { fc with kind := 3, b := 31 }]
    [.amoadd { fa with scope := 5 }, .amocas { fa with d := 30 }, .acq { f2 with d := 5 }, .cpy { fc with kind := 1, b := 31 },
     .cpy { fc with kind := 3, b := 30 }] = true := by decide

/-- Selectors of the U form (R35, R170). -/
theorem test_wf_selectors : refuses
    [.vcvt { fu with fmt := 9 }, .vpack { fu with fmt := 15 }, .vunpk { fu with rnd := 1 }, .vunpk { fu with sat := true },
     .vcvtx { fu with fmt := 1 }, .vcvtx { fu with sat := true }, .vqmx { fu with fmt := 10 }, .vqmx { fu with sat := true },
     .vdqmx { fu with fmt := 10 }, .vq4n { fu with fmt := 1 }, .vdq4n { fu with fmt := 1 }, .vlog2 { fu with rnd := 1 },
     .vexp2 { fu with sat := true }, .vrcp { fu with fmt := 1 }, .vfxcvt { fu with rnd := 3 }]
    [.vcvt { fu with fmt := 8, rnd := 3, sat := true }, .vcvtx { fu with fmt := 5, rnd := 2 }, .vdqmx { fu with fmt := 9, sat := true },
     .vrsqrt { fu with ta := true }] = true := by decide

/-- Fields that must be zero, and literals where none may stand (R32, R33, R41). -/
theorem test_wf_zero_fields : refuses
    [.jr { f2 with d := 1 }, .callr { f2 with d := 1 }, .wait { fr with d := 1 }, .trap { fr with d := 1 }, .fwait { f2 with d := 1 },
     .prf { fi with d := 1 }, .ninv { fi with d := 1 }, .vrng { f2 with a := 1 }, .mpush { fm with b := 1 }, .mswap { fm with z := true },
     .macc { fm with d := 1 }, .mdrain { fm with b := 1 }, .mclr { fm with z := true }, .mownAcquire { fm with d := 1 }, .mownRelease fm,
     .plan { f3 with b := 1 }, .lnscfgTemplate { fi with imm := 1 }, .lnscfgDescriptor fi, .lnsgo { f2 with a := 1 }, .gcfg { f3 with d := 1 },
     .spawn { f2 with d := 1 }, .qpush { f3 with d := 1 }, .futset { f3 with d := 1 }, .barw { fr with d := 1 },
     .stset { fi with lit := some 0 }, .wait { fr with lit := some 0 }, .vldt { fi with lit := some 0 }, .addi { fi with imm := 1, lit := some 0 },
     .li { fr with imm := 1, lit := some 0 }, .br (.mk 0 1 (some 0))]
    [.jr f2, .mownRelease { fm with d := 1 }, .lnscfgDescriptor { fi with imm := 1 }, .addi { fi with lit := some 0 }, .br (.mk 0 0x3FFFF none),
     .nop, .vrng f2] = true := by decide

/-! Words. Each list gives the number of bits, the word (a literal in the upper half) and the instruction. -/

def decodesAll (ws : List (Nat × Nat × Instr)) : Bool := ws.all (fun w => decide (decodeTableWord w.1 w.2.1 = some w.2.2))

/-- Words that the spec works out itself (R32, R48 and the worked encodings of its chapters). -/
def wordsWorked : List (Nat × Nat × Instr) :=
  [(32, 0x01406110, .mul { f3 with d := 3, a := 1, b := 2 }),
   (32, 0x9053FFC0, .br (.mk 4 0x3FFC0 none)),
   (32, 0x1180600C, .loop { fr with d := 3, imm := 12 }),
   (32, 0x00C06003, .li { fr with d := 3, imm := 3 }),
   (32, 0x11C00002, .rep { fr with imm := 2 }),
   (64, 0x0000100021A0E200, .ldd { fi with d := 7, a := 2, lit := some 0x1000 }),
   (32, 0x2640860B, .amoadd { fa with d := 4, a := 6, ord := 1, scope := 3 }),
   (32, 0x2800C91C, .amocas { fa with d := 6, a := 9, ord := 3, scope := 4 }),
   (32, 0x30007C23, .vadd { f3 with d := 3, a := 28, b := 4, tb := true, h := true }),
   (32, 0x38806138, .vfmai { f3 with d := 3, a := 1, b := 7 }),
   (32, 0x33803C00, .vmov { f2 with d := 1, a := 28 }),
   (32, 0x4100A158, .vqmx { fu with d := 5, a := 1, fmt := 5, rnd := 2 }),
   (32, 0x44004000, .vrng { f2 with d := 2 }),
   (32, 0x40408300, .vcvtx { fu with d := 4, a := 3 }),
   (32, 0x50800141, .macc { fm with a := 1, b := 8, z := true }),
   (32, 0x51C00000, .mownAcquire fm),
   (32, 0x51C02000, .mownRelease { fm with d := 1 }),
   (32, 0x51000800, .mdrain { fm with a := 8 }),
   (32, 0x60424433, .cpy { fc with kind := 2, sh := 2, a := 4, b := 6, tok := 3 }),
   (32, 0x60004900, .shw { fi with d := 2, a := 9 }),
   (32, 0x60430A58, .cpy { fc with kind := 3, sh := 0, a := 10, b := 11 }),
   (32, 0x70000B00, .spawn { f2 with a := 11 }),
   (32, 0x7180E200, .futwait { f2 with d := 7, a := 2 })]

theorem test_decode_worked : decodesAll wordsWorked = true := by decide +kernel

/-- Unassigned opcodes, a literal where the form has none and a field that must be zero are refused (R33, R41, R45). -/
theorem test_decode_refuses : (decodeTableWord 32 0x0C800000, decodeTableWord 32 0x7C400000, decodeTableWord 32 0x00200000,
    decodeTableWord 32 0x10C02000) = (none, none, none, none) := by decide +kernel


/-- Words of class 0 with the operands in the places of R32 (R30, R31, R48), and what they stand for. -/
def wordsScalar0 : List (Nat × Nat × Instr) :=
  [(32, 0x000B7FA9, .add (.mk 2 27 31 21 false false true)),
   (32, 0x004CA9F4, .sub (.mk 3 5 9 30 true false false)),
   (32, 0x00925485, .addi (.mk 4 18 20 133 none)),
   (64, 0xFFFFF00300F6C000, .li (.mk 5 22 0 (some 0xFFFFF003))),
   (32, 0x011B7F01, .addpc (.mk 6 27 7937 none)),
   (32, 0x015CA9F4, .mul (.mk 7 5 9 30 true false false)),
   (32, 0x018A540B, .mulh (.mk 2 18 20 1 false true true)),
   (32, 0x01CEC366, .mulhu (.mk 3 22 3 12 true true false)),
   (32, 0x02137FA9, .div (.mk 4 27 31 21 false false true)),
   (32, 0x0254A9F4, .divu (.mk 5 5 9 30 true false false)),
   (32, 0x029A540B, .rem (.mk 6 18 20 1 false true true)),
   (32, 0x02DEC366, .remu (.mk 7 22 3 12 true true false)),
   (32, 0x030B7FA9, .and (.mk 2 27 31 21 false false true)),
   (32, 0x034CA9F4, .or (.mk 3 5 9 30 true false false)),
   (32, 0x0392540B, .xor (.mk 4 18 20 1 false true true)),
   (32, 0x03D6C366, .andn (.mk 5 22 3 12 true true false)),
   (32, 0x041B7F85, .andi (.mk 6 27 31 133 none)),
   (64, 0xFFFFF011047CA900, .ori (.mk 7 5 9 0 (some 0xFFFFF011)))]

/-- Words of class 0 with the operands in the places of R32 (R30, R31, R48), and what they stand for. -/
def wordsScalar1 : List (Nat × Nat × Instr) :=
  [(32, 0x048A5485, .xori (.mk 2 18 20 133 none)),
   (32, 0x04CEC366, .shl (.mk 3 22 3 12 true true false)),
   (32, 0x05137FA9, .shr (.mk 4 27 31 21 false false true)),
   (32, 0x0554A9F4, .sar (.mk 5 5 9 30 true false false)),
   (32, 0x059A540B, .rol (.mk 6 18 20 1 false true true)),
   (64, 0x1705FEC300, .shli (.mk 7 22 3 0 (some 0x17))),
   (32, 0x060B7F3F, .shri (.mk 2 27 31 63 none)),
   (64, 0x19066CA900, .sari (.mk 3 5 9 0 (some 0x19))),
   (32, 0x0692540B, .min (.mk 4 18 20 1 false true true)),
   (32, 0x06D6C366, .max (.mk 5 22 3 12 true true false)),
   (32, 0x071B7FA9, .minu (.mk 6 27 31 21 false false true)),
   (32, 0x075CA9F4, .maxu (.mk 7 5 9 30 true false false)),
   (32, 0x078A5403, .clz (.mk 2 18 20 false true true)),
   (32, 0x07CEC306, .ctz (.mk 3 22 3 true true false)),
   (32, 0x08137F01, .popc (.mk 4 27 31 false false true)),
   (32, 0x0854A9F4, .bfx (.mk 5 5 9 30 true false false)),
   (32, 0x089A540B, .bfi (.mk 6 18 20 1 false true true)),
   (64, 0x2308FEC300, .sext (.mk 7 22 3 0 (some 0x23)))]

/-- Words of class 0 with the operands in the places of R32 (R30, R31, R48), and what they stand for. -/
def wordsScalar2 : List (Nat × Nat × Instr) :=
  [(32, 0x0908DFA9, .cmpeq (.mk 2 6 31 21 false false true)),
   (32, 0x094CC9F4, .cmpne (.mk 3 6 9 30 true false false)),
   (32, 0x0990D40B, .cmplt (.mk 4 6 20 1 false true true)),
   (32, 0x09D4C366, .cmpge (.mk 5 6 3 12 true true false)),
   (32, 0x0A18DFA9, .cmpltu (.mk 6 6 31 21 false false true)),
   (32, 0x0A5CC9F4, .cmpgeu (.mk 7 6 9 30 true false false)),
   (32, 0x0A88D485, .cmpeqi (.mk 2 6 20 133 none)),
   (64, 0xFFFFF02B0AECC300, .cmplti (.mk 3 6 3 0 (some 0xFFFFF02B))),
   (32, 0x0B137FA9, .sel (.mk 4 27 31 21 false false true)),
   (32, 0x0B54A70C, .gand (.mk 5 5 7 1 true false false)),
   (32, 0x0B98A70B, .gor (.mk 6 5 7 1 false true true)),
   (32, 0x0BDCA70E, .gxor (.mk 7 5 7 1 true true false)),
   (32, 0x0C08FF01, .gset (.mk 2 7 31 false false true)),
   (32, 0x0C4CA604, .gget (.mk 3 5 6 true false false))]

theorem test_decode_scalar0 : decodesAll wordsScalar0 = true := by decide +kernel
theorem test_decode_scalar1 : decodesAll wordsScalar1 = true := by decide +kernel
theorem test_decode_scalar2 : decodesAll wordsScalar2 = true := by decide +kernel

/-- Words of class 1 with the operands in the places of R32 (R30, R31, R48), and what they stand for. -/
def wordsControl : List (Nat × Nat × Instr) :=
  [(32, 0x10000000, .nop),
   (64, 0xFFFFF03310740000, .br (.mk 5 0x0 (some 0xFFFFF033))),
   (32, 0x109BFF01, .call (.mk 6 0x3FF01 none)),
   (32, 0x10DC0904, .jr (.mk 7 0 9 true false false)),
   (32, 0x11081403, .callr (.mk 2 0 20 false true true)),
   (32, 0x114C0000, .ret (.mk 3)),
   (32, 0x11937F01, .loop (.mk 4 27 7937 none)),
   (64, 0xFFFFF03911F40000, .rep (.mk 5 0 0 (some 0xFFFFF039))),
   (32, 0x121800A5, .wait (.mk 6 0 165 none)),
   (32, 0x125C0000, .yield (.mk 7)),
   (32, 0x12880000, .stop (.mk 2)),
   (64, 0xFFFFF03D12EC0000, .trap (.mk 3 0 0 (some 0xFFFFF03D))),
   (32, 0x13100000, .eret (.mk 4)),
   (32, 0x1356C10D, .mfs (.mk 5 22 0x10D)),
   (32, 0x139B610E, .mts (.mk 6 27 0x10E)),
   (32, 0x13DC0000, .ckpt (.mk 7)),
   (32, 0x14080000, .brk (.mk 2))]

theorem test_decode_control : decodesAll wordsControl = true := by decide +kernel

/-- Words of class 2 with the operands in the places of R32 (R30, R31, R48), and what they stand for. -/
def wordsMemory0 : List (Nat × Nat × Instr) :=
  [(64, 0xFFFFF043202EC300, .ldb (.mk 3 22 3 0 (some 0xFFFFF043))),
   (32, 0x20537F85, .ldbu (.mk 4 27 31 133 none)),
   (64, 0xFFFFF04520B4A900, .ldh (.mk 5 5 9 0 (some 0xFFFFF045))),
   (32, 0x20DA5485, .ldhu (.mk 6 18 20 133 none)),
   (64, 0xFFFFF047213EC300, .ldw (.mk 7 22 3 0 (some 0xFFFFF047))),
   (32, 0x214B7F85, .ldwu (.mk 2 27 31 133 none)),
   (64, 0xFFFFF04921ACA900, .ldd (.mk 3 5 9 0 (some 0xFFFFF049))),
   (32, 0x21D25485, .stb (.mk 4 18 20 133 none)),
   (64, 0xFFFFF04B2236C300, .sth (.mk 5 22 3 0 (some 0xFFFFF04B))),
   (32, 0x225B7F85, .stw (.mk 6 27 31 133 none)),
   (64, 0xFFFFF04D22BCA900, .std (.mk 7 5 9 0 (some 0xFFFFF04D))),
   (32, 0x22CA540B, .ldx (.mk 2 18 20 1 false true true)),
   (64, 0xFFFFF04F232EC300, .vld (.mk 3 22 3 0 (some 0xFFFFF04F))),
   (32, 0x23537F85, .vst (.mk 4 27 31 133 none)),
   (64, 0xFFFFF05123B4A900, .vldb (.mk 5 5 9 0 (some 0xFFFFF051))),
   (32, 0x23DA540B, .vldx (.mk 6 18 20 1 false true true)),
   (32, 0x241EC366, .vstx (.mk 7 22 3 12 true true false)),
   (32, 0x244B6D01, .lds (.mk 2 27 13 false false true))]

/-- Words of class 2 with the operands in the places of R32 (R30, R31, R48), and what they stand for. -/
def wordsMemory1 : List (Nat × Nat × Instr) :=
  [(32, 0x248CAD04, .sts (.mk 3 5 13 true false false)),
   (32, 0x24D1F417, .stset (.mk 4 15 20 23 none)),
   (32, 0x2516CF0D, .stget (.mk 5 22 15 13 none)),
   (32, 0x25587F85, .stq (.mk 6 3 31 133 none)),
   (64, 0xFFFFF05925BCA900, .wld (.mk 7 5 9 0 (some 0xFFFFF059))),
   (32, 0x25CA5485, .vldt (.mk 2 18 20 133 none)),
   (32, 0x260EC385, .vldtc (.mk 3 22 3 133 none)),
   (32, 0x26537F1B, .amoadd (.mk 4 27 31 3 3)),
   (32, 0x2694A912, .amomin (.mk 5 5 9 2 2)),
   (32, 0x26DA5409, .amomax (.mk 6 18 20 1 1)),
   (32, 0x271EC300, .amoand (.mk 7 22 3 0 0)),
   (32, 0x274B7F1D, .amoor (.mk 2 27 31 3 5)),
   (32, 0x278CA914, .amoxor (.mk 3 5 9 2 4)),
   (32, 0x27D2540B, .amoswp (.mk 4 18 20 1 3)),
   (32, 0x2816C302, .amocas (.mk 5 22 3 0 2)),
   (32, 0x285B6005, .fence (.mk 6 27 5 none)),
   (32, 0x289C0904, .fwait (.mk 7 0 9 true false false)),
   (32, 0x28CA540B, .bind (.mk 2 18 20 1 false true true))]

/-- Words of class 2 with the operands in the places of R32 (R30, R31, R48), and what they stand for. -/
def wordsMemory2 : List (Nat × Nat × Instr) :=
  [(32, 0x290CA306, .acq (.mk 3 5 3 true true false)),
   (32, 0x2950BF01, .rel (.mk 4 5 31 false false true)),
   (64, 0xFFFFF06929B40900, .prf (.mk 5 0 9 0 (some 0xFFFFF069))),
   (32, 0x29D81485, .ninv (.mk 6 0 20 133 none))]

theorem test_decode_memory0 : decodesAll wordsMemory0 = true := by decide +kernel
theorem test_decode_memory1 : decodesAll wordsMemory1 = true := by decide +kernel
theorem test_decode_memory2 : decodesAll wordsMemory2 = true := by decide +kernel

/-- Words of class 3 with the operands in the places of R32 (R30, R31, R48), and what they stand for. -/
def wordsVector0 : List (Nat × Nat × Instr) :=
  [(32, 0x301EC366, .vadd (.mk 7 22 3 12 true true false)),
   (32, 0x304B7FA9, .vsub (.mk 2 27 31 21 false false true)),
   (32, 0x308CA9F4, .vmul (.mk 3 5 9 30 true false false)),
   (32, 0x30D2540B, .vfma (.mk 4 18 20 1 false true true)),
   (32, 0x3116C366, .vfms (.mk 5 22 3 12 true true false)),
   (32, 0x315B7FA9, .vmin (.mk 6 27 31 21 false false true)),
   (32, 0x319CA9F4, .vmax (.mk 7 5 9 30 true false false)),
   (32, 0x31CA5403, .vabs (.mk 2 18 20 false true true)),
   (32, 0x320EC306, .vneg (.mk 3 22 3 true true false)),
   (32, 0x3250DFA9, .vcmpeq (.mk 4 6 31 21 false false true)),
   (32, 0x3294C9F4, .vcmplt (.mk 5 6 9 30 true false false)),
   (32, 0x32D8D40B, .vcmple (.mk 6 6 20 1 false true true)),
   (32, 0x331CC366, .vcmpun (.mk 7 6 3 12 true true false)),
   (32, 0x334B7FA9, .vsel (.mk 2 27 31 21 false false true)),
   (32, 0x338CA904, .vmov (.mk 3 5 9 true false false)),
   (32, 0x33D25403, .vbcast (.mk 4 18 20 false true true)),
   (32, 0x3416C306, .viota (.mk 5 22 3 true true false)),
   (32, 0x345B7FA9, .viadd (.mk 6 27 31 21 false false true))]

/-- Words of class 3 with the operands in the places of R32 (R30, R31, R48), and what they stand for. -/
def wordsVector1 : List (Nat × Nat × Instr) :=
  [(32, 0x349CA9F4, .visub (.mk 7 5 9 30 true false false)),
   (32, 0x34CA540B, .vimul (.mk 2 18 20 1 false true true)),
   (32, 0x350EC366, .viand (.mk 3 22 3 12 true true false)),
   (32, 0x35537FA9, .vior (.mk 4 27 31 21 false false true)),
   (32, 0x3594A9F4, .vixor (.mk 5 5 9 30 true false false)),
   (32, 0x35DA540B, .vishl (.mk 6 18 20 1 false true true)),
   (32, 0x361EC366, .vishr (.mk 7 22 3 12 true true false)),
   (32, 0x364B7FA9, .visar (.mk 2 27 31 21 false false true)),
   (32, 0x368CA9F4, .vimin (.mk 3 5 9 30 true false false)),
   (32, 0x36D2540B, .vimax (.mk 4 18 20 1 false true true)),
   (32, 0x3714C366, .vicmpeq (.mk 5 6 3 12 true true false)),
   (32, 0x3758DFA9, .vicmplt (.mk 6 6 31 21 false false true)),
   (32, 0x379CA9F4, .vperm (.mk 7 5 9 30 true false false)),
   (32, 0x37CA540B, .vrot (.mk 2 18 20 1 false true true)),
   (32, 0x380EC366, .vext (.mk 3 22 3 12 true true false)),
   (32, 0x38537FA9, .vins (.mk 4 27 31 21 false false true)),
   (32, 0x3894A9F4, .vfmai (.mk 5 5 9 30 true false false))]

theorem test_decode_vector0 : decodesAll wordsVector0 = true := by decide +kernel
theorem test_decode_vector1 : decodesAll wordsVector1 = true := by decide +kernel

/-- Words of class 4 with the operands in the places of R32 (R30, R31, R48), and what they stand for. -/
def wordsConvert0 : List (Nat × Nat × Instr) :=
  [(32, 0x401A545B, .vcvt (.mk 6 18 20 5 3 true false)),
   (32, 0x405EC35E, .vcvtx (.mk 7 22 3 5 3 false true)),
   (32, 0x408B7F5A, .vpack (.mk 2 27 31 5 3 false false)),
   (32, 0x40CCA954, .vunpk (.mk 3 5 9 5 0 false true)),
   (32, 0x4112545A, .vqmx (.mk 4 18 20 5 3 false false)),
   (32, 0x4156C35F, .vdqmx (.mk 5 22 3 5 3 true true)),
   (32, 0x419B7F0A, .vq4n (.mk 6 27 31 0 3 false false)),
   (32, 0x41DCA90E, .vdq4n (.mk 7 5 9 0 3 false true)),
   (32, 0x420A5403, .vamax (.mk 2 18 20 false true true)),
   (32, 0x424EC306, .vsum (.mk 3 22 3 true true false)),
   (32, 0x42937F01, .vmaxi (.mk 4 27 31 false false true)),
   (32, 0x42D4A904, .vmini (.mk 5 5 9 true false false)),
   (32, 0x431A5400, .vlog2 (.mk 6 18 20 0 0 false false)),
   (32, 0x435EC304, .vexp2 (.mk 7 22 3 0 0 false true)),
   (32, 0x438B7F00, .vrcp (.mk 2 27 31 0 0 false false)),
   (32, 0x43CCA904, .vrsqrt (.mk 3 5 9 0 0 false true)),
   (32, 0x44124003, .vrng (.mk 4 18 0 false true true)),
   (32, 0x4456C366, .vlsem (.mk 5 22 3 12 true true false))]

/-- Words of class 4 with the operands in the places of R32 (R30, R31, R48), and what they stand for. -/
def wordsConvert1 : List (Nat × Nat × Instr) :=
  [(32, 0x449B7F00, .vfxcvt (.mk 6 27 31 0 0 false false))]

theorem test_decode_convert0 : decodesAll wordsConvert0 = true := by decide +kernel
theorem test_decode_convert1 : decodesAll wordsConvert1 = true := by decide +kernel

/-- Words of class 5 with the operands in the places of R32 (R30, R31, R48), and what they stand for. -/
def wordsMatrix : List (Nat × Nat × Instr) :=
  [(32, 0x501C0A04, .mpush (.mk 7 0 10 0 true false false)),
   (32, 0x50480002, .mswap (.mk 2 0 0 0 false true false)),
   (32, 0x508C0A67, .macc (.mk 3 0 10 12 true true true)),
   (32, 0x50D1EAA8, .maccp (.mk 4 15 10 21 false false false)),
   (32, 0x51146904, .mdrain (.mk 5 3 9 0 true false false)),
   (32, 0x5158747B, .mdrainp (.mk 6 3 20 15 false true true)),
   (32, 0x519C0366, .mclr (.mk 7 0 3 12 true true false)),
   (32, 0x51C80000, .mownAcquire (.mk 2 0 0 0 false false false)),
   (32, 0x51CC2004, .mownRelease (.mk 3 1 0 0 true false false))]

theorem test_decode_matrix : decodesAll wordsMatrix = true := by decide +kernel

/-- Words of class 6 with the operands in the places of R32 (R30, R31, R48), and what they stand for. -/
def wordsAsync0 : List (Nat × Nat × Instr) :=
  [(32, 0x6010F42F, .shw (.mk 4 7 20 47 none)),
   (32, 0x60572364, .cpy (.mk 5 3 1 3 12 4)),
   (32, 0x60989FAB, .cpyadd (.mk 6 0 4 31 21 3)),
   (32, 0x60DDE9F2, .cpymc (.mk 7 1 7 9 30 2)),
   (32, 0x610A5409, .cpyt (.mk 2 2 2 20 1 1)),
   (32, 0x614FB460, .cpyg (.mk 3 3 5 20 12 0)),
   (32, 0x61937F01, .tlrd (.mk 4 27 31 false false true)),
   (32, 0x61D4A904, .tlwait (.mk 5 5 9 true false false)),
   (32, 0x621A540B, .swset (.mk 6 18 20 1 false true true)),
   (32, 0x625EC306, .swwait (.mk 7 22 3 true true false)),
   (32, 0x628B7F01, .itstart (.mk 2 27 31 false false true)),
   (32, 0x62CCA904, .itstat (.mk 3 5 9 true false false)),
   (32, 0x63125403, .plan (.mk 4 18 20 0 false true true)),
   (32, 0x63540300, .lnscfgTemplate (.mk 5 0 3 0 none)),
   (32, 0x63581F01, .lnscfgDescriptor (.mk 6 0 31 1 none)),
   (32, 0x639C0004, .lnsgo (.mk 7 0 0 true false false)),
   (32, 0x63C8140B, .gcfg (.mk 2 0 20 1 false true true)),
   (32, 0x640EC366, .gsub (.mk 3 22 3 12 true true false))]

/-- Words of class 6 with the operands in the places of R32 (R30, R31, R48), and what they stand for. -/
def wordsAsync1 : List (Nat × Nat × Instr) :=
  [(32, 0x64509FAB, .cpyw (.mk 4 0 4 31 21 3))]

theorem test_decode_async0 : decodesAll wordsAsync0 = true := by decide +kernel
theorem test_decode_async1 : decodesAll wordsAsync1 = true := by decide +kernel

/-- Words of class 7 with the operands in the places of R32 (R30, R31, R48), and what they stand for. -/
def wordsTask : List (Nat × Nat × Instr) :=
  [(32, 0x70140904, .spawn (.mk 5 0 9 true false false)),
   (32, 0x7058140B, .qpush (.mk 6 0 20 1 false true true)),
   (32, 0x709C0306, .join (.mk 7 0 3 true true false)),
   (32, 0x70C80000, .trig (.mk 2)),
   (32, 0x710C0904, .park (.mk 3 0 9 true false false)),
   (32, 0x71525403, .wake (.mk 4 18 20 false true true)),
   (32, 0x7196C306, .futwait (.mk 5 22 3 true true false)),
   (32, 0x71D81FA9, .futset (.mk 6 0 31 21 false false true)),
   (32, 0x721CA904, .futpoison (.mk 7 5 9 true false false)),
   (32, 0x724A542B, .talloc (.mk 2 18 20 43 none)),
   (32, 0x728C0306, .tfin (.mk 3 0 3 true true false)),
   (32, 0x72D01F01, .tdrop (.mk 4 0 31 false false true)),
   (32, 0x73140004, .bar (.mk 5 0 4 none)),
   (32, 0x73580004, .barr (.mk 6 0 4 none)),
   (32, 0x739C0004, .barw (.mk 7 0 4 none)),
   (32, 0x73CB7FA9, .kvapp (.mk 2 27 31 21 false false true)),
   (32, 0x740C0000, .susp (.mk 3))]

theorem test_decode_task : decodesAll wordsTask = true := by decide +kernel


/-! Witnesses. For each statement of the obligations that has premises: a state and operands that meet them, clause by clause, at the edges of
their ranges. -/

/-- A machine whose context 0 of core 0 is k and has a bundle in flight. -/
def sceneOf (k : Ctx) : State := { State.reset.setCtx 0 0 k with issue := { Issue.none with pre := k } }

/-- As `sceneOf`, with registers r. -/
def scene (r : Regs) : State := sceneOf { Ctx.zero with r := r }

/-- Scalar registers with the values listed, the others zero. -/
def regs (xs : List (BitVec 5 × W64)) : Regs := { Regs.zero with s := xs.foldl (fun f x => rset f x.1 x.2) Regs.zero.s }

/-- The result of a checked computation is there. -/
def given {ε α : Type} (e : Except ε α) : Bool := e.toOption.isSome

/-- Every register is full and g0 is all ones. -/
def ready (s : State) : Bool :=
  s.src.sFull == BitVec.allOnes 32 && s.src.vFull == BitVec.allOnes 28 && s.src.getG 0 == BitVec.allOnes 64

/-- In a ready state a slot under g0 executes, whatever registers it names (R26, R38). -/
theorem ready_executes {s : State} (h : ready s = true) (rs : List Ref) : Executes s 0 rs ∧ ExecutesV s 0 rs ∧ AllFull s rs := by
  simp only [ready, Bool.and_eq_true, beq_iff_eq] at h
  have all : AllFull s rs := by
    intro r _
    cases r with
    | s r =>
      simp only [Regs.full, Regs.fullS, h.1.1, Bool.or_eq_true, BitVec.getLsbD_allOnes, decide_eq_true_eq]
      exact .inr r.isLt
    | v r =>
      simp only [Regs.full, Regs.fullV, h.1.2, Bool.or_eq_true, decide_eq_true_eq, BitVec.getLsbD_allOnes]
      omega
  have on0 : on s 0 = true := by
    unfold on
    rw [h.2]
    decide
  refine ⟨⟨on0, all⟩, ⟨?_, all⟩, all⟩
  rw [h.2]
  decide

/-- `PortsReady` as a test. -/
def portsHold (s : State) (rs : List (BitVec 5)) : Bool :=
  rs.all (fun r => match portOf r with
    | some q => s.src.owns && (headRow s.src q).isSome
    | none => true)

theorem ports_hold {s : State} {rs : List (BitVec 5)} (h : portsHold s rs = true) : PortsReady s rs := by
  intro r hr q hq
  have := List.all_eq_true.mp h r hr
  simpa [hq] using this

theorem ok_of {ε α : Type} {e : Except ε α} (h : given e = true) : ∃ p, e = .ok p := by
  cases e with
  | ok p => exact ⟨p, rfl⟩
  | error x => simp [given, Except.toOption] at h

/-- `LanesPlaced` as a test: every unit lies in the zone z. -/
def lanesHold (s : State) (acc : Access) (z : Nat × Nat) (ls : List (Nat × W64)) : Bool :=
  ls.all (fun q => decide (q.2.toNat % 4 = 0) && given (place s s.issue.core acc q.2 4) && decide (zone s (s.partIdOf s.issue.core) q.2 = z))

theorem lanes_placed {s : State} {acc : Access} {z : Nat × Nat} {ls : List (Nat × W64)} (h : lanesHold s acc z ls = true) :
    LanesPlaced s acc ls := by
  simp only [lanesHold, List.all_eq_true, Bool.and_eq_true, decide_eq_true_eq] at h
  exact ⟨fun q hq => ⟨(h q hq).1.1, ok_of (h q hq).1.2⟩, fun q hq r hr => (h q hq).2.trans (h r hr).2.symm⟩

def r31 : RRR := .mk 0 31 31 31 true true true
def r6 : RRR := .mk 0 6 31 31 true true true
def u31 : RR := .mk 0 31 31 true true true
def i31 : RRI := .mk 0 31 31 255 none
def l31 : RRI := .mk 0 31 31 0 (some 0xFFFFFFFF)
def n31 : RI := .mk 0 31 0x1FFF none

/-- s1 = 4, s2 = 2^64 - 1, s31 = 2^64 - 4. -/
def plainScene : State := scene (regs [(1, 4), (2, BitVec.allOnes 64), (31, 0xFFFFFFFFFFFFFFFC)])

theorem witness_ScalarResults : ready plainScene = true ∧ (aluRule (.mulhu r31)).map (fun x => (x.1, x.2.1)) = some (r31, 3) ∧
    (aluRule (.rol f3)).isSome = true ∧ (aluImmRule (.addi l31)).map (·.1) = some l31 ∧ (aluImmRule (.sext i31)).isSome = true := by
  decide +kernel

theorem witness_FieldAndCountResults : ready plainScene = true := by decide +kernel

theorem witness_GuardResults : ready plainScene = true ∧ (compareRule (.cmpgeu r6)).map (·.1) = some r6 ∧
    (compareImmRule (.cmplti { i31 with d := 6 })).isSome = true ∧ (guardRule (.gxor { f3 with d := 7, a := 7, b := 7 })).isSome = true := by
  decide +kernel

/-- An operation of kind k for register s31. -/
def opFor (k : OpKind) : Op := { id := 7, dest := .scalar 31, kind := k, epoch := 0, pc := 0, words := 4 }

/-- Context 0 of core 0 waits for that operation. -/
def opScene (k : OpKind) : State := sceneOf { Ctx.zero with ops := [opFor k] }

theorem witness_Divisions : ready plainScene = true ∧ (divisionRule (.remu r31)).map (·.1) = some r31 ∧ on plainScene 1 = false ∧
    opOf (opScene (.div 5)) 0 0 7 = some (opFor (.div 5)) ∧ ((opScene (.div 5)).ctx 0 0).handler = false := by decide +kernel

theorem witness_Transfers : ready plainScene = true ∧ (plainScene.src.getS 31).toNat % 4 = 0 ∧ (plainScene.src.getS 2).toNat % 4 ≠ 0 := by
  decide +kernel

/-- The loop stack is full, and the continuation has triggered. -/
def deepScene : State := scene { Regs.zero with loops := List.replicate 4 (.mk 0 0 1), triggered := true }

/-- A copy that is not started. -/
def copyOf (form : CopyForm) : Copy :=
  { id := 7, form := form, shape := shPut (Vector.replicate _ 0) 0 64, src := 0x100, dst := 0x200, kind := 1, caddr := 0, tok := 7,
    num := some 1, started := false, waiting := false, moved := 0, data := none, entries := [], tile := none, xfer := none,
    since := 0, fault := none, page := none, retried := false, aborted := false, bind := Vector.replicate _ (Vector.replicate _ 0) }

/-- The engine of context 0 holds a copy of token 7. -/
def tokenScene : State := plainScene.setEngine 0 0 { Engine.zero with copies := [copyOf .plain] }

/-- Context 0 of core 0 runs, with the bundle of those words at its pc. -/
def codeScene (ws : List W64) : State := scene Regs.zero |> fun s => { s.setCtx 0 0 { s.ctx 0 0 with
    phase := .running, code := Memory.writeRun [] (keyTier 1 0 0) (ws.flatMap (fun w => leBytes 8 w.toNat)) } with
  image := some { seq := 0, qmap := (Vector.replicate _ 0xFF).set 0 0, hrate := 0, lrate := 0, ports := 1, debug := false, plim := 0, bytes := [] }
  parts := State.reset.parts.set 0 { Part.zero with table := [.mk 0xE70 0] } }

/-- The bundle that context 0 of core 0 issues next is good, has four words and holds an instruction. -/
def bundleHas (s : State) (i : Instr) : Bool := match nextBundle s 0 0 with
  | .good slots words => words == 4 && slots.any (fun sl => sl.instr.toOption == some i)
  | .bad _ _ _ => false

theorem witness_Sequencing : ready plainScene = true ∧ ready deepScene = true ∧ deepScene.src.loops.length = 4 ∧
    plainScene.src.loops.length ≠ 4 ∧ (∃ k ∈ tokenScene.eng.copies, (255 : Nat).testBit k.tok.toNat = true) ∧
    (∀ k ∈ tokenScene.eng.copies, (127 : Nat).testBit k.tok.toNat = false) ∧ tokenScene.eng.err = none ∧
    reported tokenScene tokenScene.issue.core (tokenBytes tokenScene 127) = none ∧
    deepScene.src.triggered = true ∧ plainScene.src.triggered = false ∧
    ((plainScene.core 0).queue.length < 32 ∧ (plainScene.core 0).spillCount = 0 ∧ (plainScene.core 0).heldPushes = []) ∧
    (let s := codeScene [0x1000000013C00000, 0x9000000010000000]
     ctxReady s 0 0 = true ∧ bundleHas s (.ckpt (.mk 0)) = true ∧ wbit ((s.ctx 0 0).r.landAll.getG 0) 0 = true ∧
       (s.ctx 0 0).handler = false ∧ (s.ctx 0 0).ops = [] ∧ (s.ctx 0 0).badStore = false ∧ (s.ctx 0 0).r.rep = none ∧
       (s.ctx 0 0).barWait = none) := by decide +kernel

/-- A handler runs; with b, one of its stores waits for its translation. -/
def handlerScene (b : Bool) : State :=
  sceneOf { Ctx.zero with handler := true, ops := if b then [{ opFor (.store 8 8) with dest := .none, epoch := 1 }] else [] }

theorem witness_SoftwareTraps : ready plainScene = true ∧ ready (handlerScene false) = true ∧ (handlerScene true).me.handler = true ∧
    handlerStores (handlerScene false).me = false ∧ handlerStores (handlerScene true).me = true ∧ ready (handlerScene true) = true ∧
    plainScene.me.handler = false := by decide +kernel

/-- Cores 0 and 4 of one partition each, s1 and s2 interrupt words of them, s3 of a core of no partition. -/
def twoParts : State := { scene (regs [(1, 0x500000000), (2, 4), (3, 0x1FF)]) with
  image := some { seq := 0, qmap := ((Vector.replicate _ 0xFF).set 0 0).set 1 1, hrate := 0, lrate := 0, ports := 1, debug := false, plim := 0, bytes := [] } }

theorem witness_SystemRegisters : ready plainScene = true ∧ 2 < (3 : BitVec 12).toNat ∧ (2 : BitVec 12).toNat ≤ 2 ∧
    (0x110 : BitVec 12).toNat = 0x110 + (0 : BitVec 4).toNat ∧ (0x11F : BitVec 12).toNat = 0x110 + (15 : BitVec 4).toNat ∧
    ready twoParts = true ∧ twoParts.partOf (intCore (twoParts.src.getS 1)) = twoParts.partOf twoParts.issue.core ∧
    twoParts.partOf (intCore (twoParts.src.getS 2)) ≠ twoParts.partOf twoParts.issue.core ∧
    twoParts.partOf (intCore (twoParts.src.getS 3)) ≠ twoParts.partOf twoParts.issue.core ∧
    ((0x125 : BitVec 12) = 0x125 ∧ (0x120 : BitVec 12).toNat ∉ [0, 1, 2, 0x104, 0x105, 0x125] ∧
      ¬ (0x110 ≤ (0x120 : BitVec 12).toNat ∧ (0x120 : BitVec 12).toNat ≤ 0x11F)) := by decide +kernel

/-- The context owns the array, and every result queue has a row. -/
def portScene : State := scene { Regs.zero with owns := true, rq := Vector.replicate _ [some 1] }

theorem witness_VectorResults : ready portScene = true ∧ portsHold portScene [28, 31] = true ∧ portsHold plainScene [0, 27] = true ∧
    (vectorRule (.vfms { r31 with d := 27 })).map (fun x => (x.2.1, x.2.2.1)) = some (4, true) ∧ (vectorRule (.vimax f3)).isSome = true ∧
    (vectorCompareRule (.vcmpun r6)).map (·.1) = some r6 := by decide +kernel

theorem witness_VectorMoves : ready portScene = true ∧ portsHold portScene [28, 31] = true ∧ (vectorRule1 (.vneg u31)).isSome = true ∧
    (portScene.src.getG 0).getLsbD ((plainScene.src.getS 2).toNat % 64) = true := by decide +kernel

/-- Rounding mode 7 of fpctl is none. -/
def badRound : State := scene { Regs.zero with fpctl := 7 }

theorem witness_UnaryResults : ready portScene = true ∧ portsHold portScene [31] = true ∧
    (unaryRule portScene (.vdq4n { fu with a := 31 })).map (fun x => (x.2.1, x.2.2.1)) = some (3, [.s 0]) ∧
    (unaryRule portScene (.vrsqrt fu)).isSome = true ∧
    roundMode portScene 2 = some .sr ∧ ready badRound = true ∧ roundMode badRound 3 = none := by decide +kernel

theorem witness_PackingResults : ready portScene = true ∧ portsHold portScene [31] = true ∧ roundMode portScene 3 = some .rne := by
  decide +kernel

/-- Lane 0 holds 1.0 with index 5 beside it. -/
def bestRow : Row := BitVec.ofNat 2048 (0x3F800000 + 5 * 2 ^ 32)

theorem witness_ReductionResults : ready portScene = true ∧ portsHold portScene [31, 28] = true ∧
    winner true (BitVec.allOnes 64) bestRow bestRow = some (0x3F800000, 5) := by decide +kernel


/-- Streams st0 and st1 read E4M3 rows, st2 Q4N rows with the super-scale at 1000H, from the start of the own scratchpad; the active
buffer holds E4M3; s1 = 63. -/
def beatScene : State :=
  sceneOf { Ctx.zero with
    acc := 1
    r := { regs [(1, 63)] with
      owns := true, arr := { ArrayState.clear with bfmt0 := some 0x10, bfmt1 := some 0x10 }
      st := rset (rset (rset Regs.zero.st 0 (stPut (Vector.replicate _ 0) 1 0x10)) 1 (stPut (Vector.replicate _ 0) 1 0x10))
        2 (stPut (stPut (Vector.replicate _ 0) 1 0x40) 12 0x1000) } }

/-- `BeatReady` as a test. -/
def beatHolds (s : State) (r : BitVec 5) : Bool :=
  (beatDepth (stField (streamOf s r) 1)).isSome && (match rowAddr (streamOf s r) with
    | some ra => inOwn s ra (beatBytes (stField (streamOf s r) 1)) && (stField (streamOf s r) 1 != 0x40 || (List.range 2).all (fun i =>
        recordAddr (streamOf s r) ra i % 33 == 0 && inOwn s (superAddr (streamOf s r) ra i) 4))
    | none => false)

theorem beat_ready {s : State} {r : BitVec 5} (h : beatHolds s r = true) : BeatReady s r := by
  unfold beatHolds at h
  rw [Bool.and_eq_true] at h
  refine ⟨h.1, ?_⟩
  cases e : rowAddr (streamOf s r) with
  | none => rw [e] at h; exact absurd h.2 Bool.false_ne_true
  | some ra =>
    rw [e] at h
    simp only [Bool.and_eq_true, Bool.or_eq_true, List.all_eq_true, List.mem_range, beq_iff_eq, bne_iff_ne, ne_eq] at h
    exact ⟨ra, rfl, h.2.1, fun f i hi => (h.2.2.resolve_left (fun n => n f)) i hi⟩

/-- The array belongs to context 1. -/
def lentScene : State := (scene Regs.zero).setCtx 0 1 { Ctx.zero with r := { Regs.zero with owns := true } }

theorem witness_ArrayBeats : ready beatScene = true ∧ beatScene.src.owns = true ∧ CodesGood beatScene ∧ beatHolds beatScene 0 = true ∧
    beatHolds beatScene 1 = true ∧ beatHolds beatScene 2 = true ∧ stField (streamOf beatScene 2) 1 = 0x40 ∧ beatScene.src.arr.fill = 0 ∧
    beatScene.src.arr.active.2 = some 0x10 ∧ beatDepth (0x10 : BitVec 8).toNat = beatDepth (stField (streamOf beatScene 0) 1) ∧
    ((beatScene.src.getS 1).toNat % 256 < 64 * beatScene.me.acc ∧ beatScene.me.badRows = []) ∧
    (beatScene.src.getS 1).toNat % 256 + 1 % 512 ≤ 64 * beatScene.me.acc ∧ 1 % 512 ≠ 0 ∧
    (rget beatScene.src.rq 3).length < 16 ∧ arrayOwner (plainScene.core 0) = none ∧
    (∀ x, x ≠ plainScene.issue.ctx → arrayCandidate plainScene 0 plainScene.issue.ctx x = false) ∧
    arrayOwner (beatScene.core 0) = some 0 ∧ arrayOwner (lentScene.core 0) = some 1 ∧ plainScene.me.r.owns = false := by
  unfold CodesGood
  decide +kernel

/-- 64 KiB of T1 at the bottom of the upper half, with every permission (R220). -/
def tierExtent : Extent := .mk 0xE70 0

/-- Quad 0 belongs to partition 0, which has that extent, every weight-store bank and one itinerary. -/
def machineOf (k : Ctx) : State :=
  { sceneOf k with
    image := some { seq := 0, qmap := (Vector.replicate _ 0xFF).set 0 0, hrate := 0, lrate := 0, ports := 1, debug := false, plim := 0, bytes := [] }
    parts := State.reset.parts.set 0 { Part.zero with table := [tierExtent], wsBanks := BitVec.allOnes 128, itOwn := 1 } }

/-- As `machineOf`, with scalar registers. -/
def machine (xs : List (BitVec 5 × W64)) : State := machineOf { Ctx.zero with r := regs xs }

/-- Words placed at a physical key. -/
def withWords (key : Nat) (ws : List W64) (s : State) : State :=
  { s with mem := s.mem.writeRun key (ws.flatMap (fun w => leBytes 8 w.toNat)) }

/-- s1 in the own scratchpad, s2 in T1, s3 outside the table, s4 in a peer's scratchpad, s5 odd, s6 in the lower half. -/
def memScene : State := machine [(1, 8), (2, 0x8000000000000000), (3, 0x8001000000000000), (4, 0x400008), (5, 1), (6, 0x1000000)]

theorem witness_ScalarLoads : ready memScene = true ∧ CodesGood memScene ∧ (loadRule (.ldd { fi with d := 31, a := 1 })).isSome = true ∧
    (effective memScene { fi with a := 5 }).toNat % 2 ≠ 0 ∧ (effective memScene { fi with a := 1, imm := 0xF8 }).toNat % 8 = 0 ∧
    place memScene 0 .load (effective memScene { fi with a := 1, imm := 0xF8 }) 8 = .ok (.scratch 0 0) ∧
    place memScene 0 .load (effective memScene { fi with a := 4 }) 8 = .ok (.scratch 1 8) ∧
    place memScene 0 .load (effective memScene { fi with a := 2 }) 8 = .ok (.tier tierExtent 0) ∧
    (Place.tier tierExtent 0).scratchOf = none ∧ place memScene 0 .load (effective memScene { fi with a := 3 }) 8 = .error 2 ∧
    place memScene 0 .load (memScene.src.getS 6 + memScene.src.getS 0) 8 = .ok (.host 0 0x1000000) ∧
    (Place.host 0 0x1000000).scratchOf = none ∧ memScene.issue.drained = false := by
  unfold CodesGood
  decide +kernel

/-- A gate of 512 lines, the most it holds (R368). -/
def fullGate : State :=
  machineOf { Ctx.zero with
    gate := (List.range 512).map (fun i => .mk (BitVec.ofNat 64 (64 * (i + 4))) (Vector.replicate _ none))
    r := regs [(1, 8), (3, 0x8001000000000000), (5, 1), (6, 0x1000000)] }

theorem witness_ScalarStores : ready fullGate = true ∧ ready memScene = true ∧ (storeRule (.std { fi with d := 31, a := 1 })).isSome = true ∧
    (effective fullGate { fi with a := 5 }).toNat % 2 ≠ 0 ∧ (effective fullGate { fi with a := 1 }).toNat % 8 = 0 ∧
    place fullGate 0 .store (effective fullGate { fi with a := 1 }) 8 = .ok (.scratch 0 8) ∧ storable fullGate (.scratch 0 8) = true ∧
    512 < (stored fullGate.me [(effective fullGate { fi with a := 1 }, leBytes 8 0)]).view.length ∧
    (stored fullGate.me [(effective fullGate { fi with a := 1, lit := some 0x80B8 }, leBytes 8 0)]).view.length ≤ 512 ∧
    place fullGate 0 .store (effective fullGate { fi with a := 1, lit := some 0x80B8 }) 8 = .ok (.scratch 0 0x80C0) ∧
    place fullGate 0 .store (effective fullGate { fi with a := 3 }) 8 = .error 2 ∧ (List.replicate 256 (0 : Byte)).length ≤ 256 ∧
    place memScene 0 .store (effective memScene { fi with a := 6 }) 8 = .ok (.host 0 0x1000000) ∧
    storable memScene (.host 0 0x1000000) = false ∧ memScene.issue.ckpt = false ∧
    (stored memScene.me [(effective memScene { fi with a := 6 }, leBytes 8 0)]).view.length ≤ 512 := by
  decide +kernel

/-- The lanes of g0 from an address. -/
def runOf (s : State) (f : RRI) : List (Nat × W64) := runLanes (s.src.getG 0) (effective s f)

/-- `WithinBase` as a test, for a base in the own scratchpad. -/
def nearBase (b : W64) (ls : List (Nat × W64)) : Bool :=
  classOf b == 0 && ls.all (fun q => classOf q.2 == 0 && wbits q.2 22 2 == wbits b 22 2)

theorem near_base {s : State} {b : W64} {ls : List (Nat × W64)} (h : nearBase b ls = true) : WithinBase s b ls := by
  simp only [nearBase, Bool.and_eq_true, List.all_eq_true, beq_iff_eq] at h
  exact .inl ⟨h.1, fun q hq => h.2 q hq⟩

theorem witness_VectorLoads : ready memScene = true ∧ portsHold memScene [27] = true ∧ CodesGood memScene ∧
    lanesHold memScene .load (0, 0) (runOf memScene { fi with a := 1 }) = true ∧
    lanesHold memScene .load (2, tierExtent.vbase + 1) (runOf memScene { fi with a := 2 }) = true ∧
    (effective memScene { fi with a := 5 }).toNat % 4 ≠ 0 ∧
    lanesHold memScene .load (0, 0) (gatherLanes (memScene.src.getG 0) (vsrc memScene 27) (memScene.src.getS 1)) = true ∧
    nearBase (memScene.src.getS 1) (gatherLanes (memScene.src.getG 0) (vsrc memScene 27) (memScene.src.getS 1)) = true ∧
    rowAddr (streamOf memScene 15) = some 0 ∧ lanesHold memScene .load (0, 0) (runLanes (memScene.src.getG 0) 0) = true ∧
    (effective memScene { fi with a := 1 }).toNat % 4 = 0 ∧
    place memScene 0 .load (effective memScene { fi with a := 1 }) 4 = .ok (.scratch 0 8) ∧
    place memScene 0 .load (effective memScene { fi with a := 2 }) 4 = .ok (.tier tierExtent 0) ∧
    (Place.tier tierExtent 0).scratchOf = none := by
  unfold CodesGood
  decide +kernel

/-- As `portScene`, in `machineOf`. -/
def portMachine : State := machineOf { Ctx.zero with r := { regs [(1, 8)] with owns := true, rq := Vector.replicate _ [some 1] } }

/-- The stores of the lanes of g0 of a row. -/
def laneStores (ls : List (Nat × W64)) (x : Row) : List (W64 × List Byte) := ls.map (fun q => (q.2, leBytes 4 (lane x q.1).toNat))

theorem witness_VectorStores : ready portMachine = true ∧ portsHold portMachine [28, 31] = true ∧ portsHold portMachine [3 ||| 28] = true ∧
    lanesHold portMachine .store (0, 0) (runOf portMachine { fi with a := 1 }) = true ∧
    (stored portMachine.me (laneStores (runOf portMachine { fi with a := 1 }) (vsrc portMachine 31))).view.length ≤ 512 ∧
    lanesHold portMachine .store (0, 0) (gatherLanes (portMachine.src.getG 0) (vsrc portMachine 28) 8) = true ∧
    nearBase 8 (gatherLanes (portMachine.src.getG 0) (vsrc portMachine 28) 8) = true ∧
    (stored portMachine.me (laneStores (gatherLanes (portMachine.src.getG 0) (vsrc portMachine 28) 8) (vsrc portMachine 31))).view.length ≤ 512 ∧
    rowAddr (streamOf portMachine 15) = some 0 ∧ lanesHold portMachine .store (0, 0) (runLanes (portMachine.src.getG 0) 0) = true ∧
    (stored portMachine.me (laneStores (runLanes (portMachine.src.getG 0) 0) (vsrc portMachine 31))).view.length ≤ 512 ∧
    portMachine.issue.ckpt = false := by
  decide +kernel

/-- s1 is the last 64 bytes of the address space, s2 binds slot 15 as kind 1 with length 64, s3 in T1, s4 outside the table. -/
def bindScene : State := machine [(1, 0xFFFFFFFFFFFFFFC0), (2, 0x400000001F), (3, 0x8000000000000000), (4, 0x8001000000000000), (5, 0xFF)]

theorem witness_StreamsBindingsHints_fields : StsetFits (streamOf bindScene 15) 1 (0x10 : W64) ∧
    StsetFits (streamOf bindScene 15) 23 (0 : W64) := by
  unfold StsetFits
  exact ⟨by decide +kernel, by decide +kernel⟩

theorem witness_StreamsBindingsHints : ready bindScene = true ∧
    ((bindScene.src.getS 5).toNat < 256 ∧ formatOf (bindScene.src.getS 5).toNat = none) ∧
    2 ^ (streamFieldAt 13).width ≤ (bindScene.src.getS 1).toNat ∧
    wbits (bindScene.src.getS 0) 4 3 = 0 ∧ wbits (bindScene.src.getS 2) 4 3 = 1 ∧ (bindScene.src.getS 1).toNat % 64 = 0 ∧
    (bindScene.src.getS 2).toNat % 64 ≠ 0 ∧
    wbits (bindScene.src.getS 2) 32 32 = 64 ∧ (bindScene.src.getS 1).toNat + 64 ≤ 2 ^ 64 ∧
    classOf (bindScene.src.getS 1) = classOf (bindScene.src.getS 1 + BitVec.ofNat 64 63) ∧
    placeByte bindScene 0 .load (effective bindScene { fi with a := 3 }) = .ok (.tier tierExtent 0) ∧
    placeByte bindScene 0 .load (effective bindScene { fi with a := 4 }) = .error 2 ∧
    place bindScene 0 .peek (effective bindScene { fi with a := 3 }) 1 = .ok (.tier tierExtent 0) ∧
    place bindScene 0 .peek (effective bindScene { fi with a := 4 }) 1 = .error 2 := by decide +kernel

/-- s1 is the last row of the weight store, s2 the row after it; the lock is as b says. -/
def weightScene (b : Bool) (cycle : Nat) : State :=
  let s := machine [(1, 0x5FFFFF00), (2, 0x5FFFFF04)]
  { s.setPart 0 { s.part 0 with wsLocked := b } with cycle := cycle }

theorem witness_WeightLoads : ready (weightScene true 0) = true ∧ ready (weightScene false 0) = true ∧ CodesGood (weightScene true 0) ∧
    (effective (weightScene true 0) { fi with a := 1 }).toNat % 4 = 0 ∧ (effective (weightScene true 0) { fi with a := 1 }).toNat + 255 ≤ 0x5FFFFFFF ∧
    (effective (weightScene true 0) { fi with a := 2 }).toNat % 4 = 0 ∧ 0x5FFFFFFF < (effective (weightScene true 0) { fi with a := 2 }).toNat + 255 ∧
    ownsBank (weightScene true 0) 0 0x5FFFFF00 = true ∧ ownsBank (weightScene true 0) 0 0x5FFFFFFF = true ∧
    ((weightScene false 0).part 0).wsLocked = false ∧ (activeLanes ((weightScene false 0).src.getG 0)).head? = some 0 ∧
    ((weightScene true 0).part 0).wsLocked = true ∧
    inWindow (weightScene true 0) 0 (weightBank 0x5FFFFF00) = false ∧ inWindow (weightScene true 0) 0 (weightBank 0x5FFFFFFF) = false ∧
    (ready (weightScene true 96000) = true ∧ inWindow (weightScene true 96000) 0 (weightBank 0x5FFFFF00) = true) := by
  unfold CodesGood
  decide +kernel

/-- A pool of two tiles of 4 KiB: tile 0 OPEN at generation 1 with two reads, tile 1 PUBLISHED at the last generation with one. -/
def poolScene : State :=
  let s := machine [(1, handleOf 0 0 0 1), (2, handleOf 0 0 1 0xFFFF), (3, handleOf 4 0 0 1), (4, handleOf 0 0 0 2), (5, 0x1FFF)]
  s.setPool 0 0 {
    desc := #v[0x202000000, 0, 2, 0], waiting := []
    tiles := [(0, .mk .open 1 2 0 0), (1, .mk .published 0xFFFF 1 0 0)] }

theorem witness_TileLoads : ready poolScene = true ∧ CodesGood poolScene ∧ ¬ Usable poolScene (poolScene.src.getS 3) ∧
    Usable poolScene (poolScene.src.getS 4) ∧ handleMatches poolScene (poolScene.src.getS 4) = false ∧
    Matches poolScene (poolScene.src.getS 1) ∧ Matches poolScene (poolScene.src.getS 2) ∧
    256 * (15 : BitVec 8).toNat + 256 ≤ (poolOf poolScene (poolScene.src.getS 1)).tsize ∧
    256 * (15 : BitVec 8).toNat + 256 ≤ (poolOf poolScene (poolScene.src.getS 2)).tsize ∧
    (poolOf poolScene (poolScene.src.getS 1)).tsize < 256 * (16 : BitVec 8).toNat + 256 ∧
    (tileOf poolScene (poolScene.src.getS 1)).state = .open ∧ (tileOf poolScene (poolScene.src.getS 2)).state = .published ∧
    reported poolScene 0 (bound poolScene.me.r.bind 3 (poolScene.src.getS 2)) = none := by
  unfold Matches Usable CodesGood
  decide +kernel

/-- An IOTLB entry of die 0 for the page of s6. -/
def hostScene : State := { memScene with tlb := rset memScene.tlb 0 [.mk 0 0x1000 1 true true] }

theorem witness_Atomics : ready memScene = true ∧ (atomicRule (.amocas { fa with d := 30, a := 1 })).map (·.2) = some .cas ∧
    (atomicRule (.amomax { fa with d := 31, a := 6 })).map (·.2) = some .max ∧ (memScene.src.getS 5).toNat % 8 ≠ 0 ∧
    (memScene.src.getS 3).toNat % 8 = 0 ∧
    place memScene 0 .atomic (memScene.src.getS 3) 8 = .error 2 ∧ place memScene 0 .atomic (memScene.src.getS 6) 8 = .ok (.host 0 0x1000000) ∧
    classOf (memScene.src.getS 6) = 1 ∧ place memScene 0 .atomic (memScene.src.getS 1) 8 = .ok (.scratch 0 8) ∧
    classOf (memScene.src.getS 1) ≠ 1 ∧ ready hostScene = true ∧ place hostScene 0 .atomic (memScene.src.getS 6) 8 = .ok (.host 0 0x1000000) ∧
    tlbFind hostScene 0 0 0x1000000 = some (.mk 0 0x1000 1 true true) ∧ CodesGood memScene ∧ CodesGood hostScene ∧
    memScene.poison = [] ∧ hostScene.poison = [] ∧ MemTaken memScene (.scratch 0 8) 8 ∧ MemTaken hostScene (.host 0 0x1000000) 8 ∧
    FabricDone memScene 5 ∧
    opOf (opScene (.atomic 8 5)) 0 0 7 = some (opFor (.atomic 8 5)) ∧ ((opScene (.atomic 8 5)).ctx 0 0).handler = false := by
  unfold CodesGood MemTaken FabricDone
  decide +kernel

/-- n fences are outstanding, with tokens from 1, and a copy of the engine that has left with a transfer if x. -/
def fenceScene (n : Nat) (x : Bool) : State :=
  let fs : List Fence := (List.range n).map (fun i => .mk (i + 1) 5 0 0 4 0 false)
  let k := { Ctx.zero with fences := fs, r := regs [(1, 8), (2, 16), (5, 1)] }
  (sceneOf k).setEngine 0 0 { Engine.zero with copies := if x then [{ copyOf .mcast with xfer := some 9 }] else [] }

theorem witness_FencesAndLocks : ready (fenceScene 16 false) = true ∧ 16 ≤ (fenceScene 16 false).me.fences.length ∧
    (fenceScene 15 false).me.fences.length < 16 ∧ ready (fenceScene 15 false) = true ∧
    (∃ q ∈ (fenceScene 16 false).issue.pre.fences, q.token ≤ ((fenceScene 16 false).src.getS 5).toNat) ∧
    (∀ q ∈ (fenceScene 16 false).issue.pre.fences, ((fenceScene 16 false).src.getS 0).toNat < q.token) ∧
    ((fenceScene 16 false).src.getS 5).toNat % 8 ≠ 0 ∧ ((fenceScene 16 false).src.getS 1).toNat % 8 = 0 ∧
    FabricDone (fenceScene 16 false) 5 ∧ (∃ k ∈ (fenceScene 0 true).eng.copies, k.xfer ≠ none) ∧
    ready (fenceScene 0 true) = true ∧
    reported (fenceScene 16 false) 0 (bound (fenceScene 16 false).me.r.bind 1 ((fenceScene 16 false).src.getS 1)) = none := by
  unfold FabricDone
  decide +kernel

/-- sh0 describes one run of 64 bytes for group 255, sh1 the same read from a tile and spent. -/
def shapes : File 3 (File 4 W64) :=
  rset (rset Regs.zero.sh 0 (shPut (shPut (Vector.replicate _ 0) 0 64) 7 255)) 1 (shPut (shPut (Vector.replicate _ 0) 0 64) 6 1)

/-- The engine of context 0 of core 0 holds n copies; the weight store is locked as b says; s5 is odd. -/
def engineScene (n : Nat) (b : Bool) : State :=
  let s := { machineOf { Ctx.zero with r := { regs [(1, 0x100), (2, 0x200), (3, handleOf 0 0 0 1), (5, 1)] with sh := shapes } } with
    groups := [(255, #v[2, 0x10010])] }
  let s := s.setPool 0 0 { desc := #v[0x202000000, 0, 2, 0], waiting := [], tiles := [(0, .mk .published 1 2 0 0)] }
  (s.setPart 0 { s.part 0 with wsLocked := b }).setEngine 0 0 { Engine.zero with copies := List.replicate n (copyOf .plain) }

/-- sh0 reads result queue 0, which has a row (R314). -/
def queueScene : State :=
  machineOf { Ctx.zero with r := { regs [(2, 0x200)] with
    owns := true, rq := Vector.replicate _ [some 1], sh := rset Regs.zero.sh 0 (shPut (shPut (Vector.replicate _ 0) 0 64) 28 1) } }

theorem witness_Copies : ready (engineScene 64 false) = true ∧ 64 ≤ (engineScene 64 false).eng.copies.length ∧
    ready (engineScene 63 false) = true ∧ (engineScene 63 false).eng.copies.length < 64 ∧
    (copyRule (engineScene 63 false) (.cpyw { fc with a := 1, b := 2 })).isSome = true ∧
    (copyRule (engineScene 63 false) (.cpyg { fc with a := 27, b := 2 })).isSome = true ∧
    shField (rget (engineScene 63 false).src.sh 0) 28 = 0 ∧ 2 ≤ (2 : BitVec 2).toNat ∧ ((engineScene 63 false).src.getS 5).toNat % 16 ≠ 0 ∧
    ready (engineScene 63 true) = true ∧ classOf (0x40 : W64) = 0 ∧
    banksOk (engineScene 63 true) 0 (rget shapes 0) 0x200 = true ∧ ((engineScene 63 true).part 0).wsLocked = true ∧
    walkRuns (rget (engineScene 63 false).src.sh 0) ≠ 0 := by decide +kernel

theorem witness_Copies_fit : CopyFits (engineScene 63 false) .plain (rget shapes 0) 0x100 0x200 0x40 2 ∧
    CopyFits (engineScene 63 false) .plain (rget shapes 1) (handleOf 0 0 0 1) 0x200 0 1 ∧
    CopyFits (engineScene 63 false) .add (rget shapes 0) 0x100 0x200 0x40 3 ∧
    CopyFits (engineScene 63 false) .mcast (rget shapes 0) 0x100 0x200 0 1 ∧
    CopyFits (engineScene 63 false) .tile (rget shapes 1) 0x100 0x200 0 1 ∧
    CopyFits (engineScene 63 false) .gather (rget shapes 0) 0 0x200 0 1 ∧
    CopyFits (engineScene 63 false) .wstore (rget shapes 0) 0x100 0x200 0 0 ∧
    CopyFits queueScene .plain (rget queueScene.src.sh 0) 0 0x200 0 1 := by
  refine ⟨?_, ?_, ?_, ?_, ?_, ?_, ?_, ?_⟩ <;>
    (unfold CopyFits CopyInBounds QueueFits CopyAligned InQuad RowFits SourceFits FormFits; dsimp only; decide +kernel)

/-- A shape register of one run of n bytes from a result queue. -/
def queueShape (n : Nat) : File 4 W64 := shPut (shPut (Vector.replicate _ 0) 0 n) 28 1

/-- sh0 reads result queue 0; the array belongs to the context as b says, and the queue holds those rows. -/
def rowScene (b : Bool) (rows : List (Option Row)) : State :=
  machineOf { Ctx.zero with r := { regs [(2, 0x200)] with
    owns := b, rq := Vector.replicate _ rows, sh := rset Regs.zero.sh 0 (queueShape 64) } }

theorem witness_Copies_queue : ready (rowScene false []) = true ∧ ready (rowScene true []) = true ∧ ready (rowScene true [some 1]) = true ∧
    shField (rget (rowScene false []).src.sh 0) 28 = 1 ∧ (rowScene false []).src.owns = false ∧ (rowScene true []).src.owns = true ∧
    headRow (rowScene true []).src 0 = none ∧ (rowScene true [some 1]).eng.copies.length < 64 ∧
    QueueFits (rowScene true [some 1]) (queueShape 64) ∧ CopyAligned .gather (queueShape 64) 0x200 0 0 ∧
    InQuad .plain 0x200 0 2 ∧ CopyAligned .plain (queueShape 512) 0x200 0 2 ∧ QueueFits (rowScene true [some 1]) (queueShape 512) ∧
    ¬ RowFits .plain (queueShape 512) ∧ RowFits .plain (queueShape 256) := by
  unfold QueueFits CopyAligned InQuad RowFits
  decide +kernel

/-- One run of n bytes of a source tile. -/
def tileShape (n : Nat) : File 4 W64 := shPut (shPut (Vector.replicate _ 0) 0 n) 6 1

theorem witness_Copies_refused : QueueFits (engineScene 63 false) (rget shapes 0) ∧ 2 ≤ (3 : BitVec 2).toNat ∧
    ¬ CopyAligned .tile (rget shapes 0) 0x201 0 1 ∧ CopyAligned .plain (rget shapes 0) 0x200 0x8000000000000000 2 ∧
    classOf (0x8000000000000000 : W64) ≠ 0 ∧ CopyAligned .tile (rget shapes 1) 0x8000000000000000 0 1 ∧
    QueueFits (engineScene 63 false) (tileShape 4160) ∧ CopyAligned .plain (tileShape 4160) 0x200 0 1 ∧ InQuad .plain 0x200 0 1 ∧
    RowFits .plain (tileShape 4160) ∧ ¬ SourceFits (engineScene 63 false) .plain (tileShape 4160) (handleOf 0 0 0 1) ∧
    SourceFits (engineScene 63 false) .plain (tileShape 4096) (handleOf 0 0 0 1) := by
  refine ⟨?_, ?_, ?_, ?_, ?_, ?_, ?_, ?_, ?_, ?_, ?_, ?_⟩ <;> (try unfold QueueFits) <;> (try unfold CopyAligned) <;> (try unfold InQuad) <;>
    (try unfold RowFits) <;> (try unfold SourceFits) <;> decide +kernel

theorem witness_Copies_misfit : RowFits .tile (rget shapes 0) ∧ InQuad .tile 0x200 0 1 ∧ CopyAligned .tile (rget shapes 0) 0x200 0 1 ∧
    SourceFits (engineScene 63 false) .tile (rget shapes 0) 0 ∧ ¬ FormFits (engineScene 63 false) .tile (rget shapes 0) 0x200 := by
  unfold CopyAligned InQuad RowFits SourceFits FormFits
  dsimp only
  decide +kernel

theorem witness_Copies_checked : CopyInBounds (engineScene 63 true) .wstore (rget shapes 0) 0x100 0x200 0 0 ∧
    ((engineScene 63 true).part ((engineScene 63 true).partIdOf 0)).wsLocked = true ∧
    CopyInBounds (engineScene 63 false) .plain (rget shapes 1) (handleOf 4 0 0 1) 0x200 0 1 ∧
    (poolOf (engineScene 63 false) (handleOf 4 0 0 1)).valid = false ∧
    CopyInBounds (engineScene 63 false) .plain (rget shapes 1) (handleOf 0 0 0 2) 0x200 0 1 ∧
    ((engineScene 63 false).core (handleCore (handleOf 0 0 0 2))).out = false ∧
    (poolOf (engineScene 63 false) (handleOf 0 0 0 2)).valid = true ∧
    handleMatches (engineScene 63 false) (handleOf 0 0 0 2) = false := by
  refine ⟨?_, ?_, ?_, ?_, ?_, ?_, ?_, ?_⟩ <;>
    first
    | decide +kernel
    | (unfold CopyInBounds QueueFits CopyAligned InQuad RowFits SourceFits FormFits; dsimp only; decide +kernel)

theorem witness_Copies_empty : walkRuns (rget plainScene.src.sh 0) = 0 ∧ (CopyForm.plain ≠ .tile ∧ (1 : BitVec 2) ≠ 3) ∧
    (∀ k ∈ plainScene.eng.copies, k.id ≠ plainScene.nextId) ∧ (plainScene.core 0).near = [] := by decide +kernel

/-- s1 a sync word's address, s2 the generation after the word's, s3 the word's generation; the timeline stands at 5, itinerary 0's at 0;
s8 names that itinerary, s9 nothing. The sync word at 20H holds an error. -/
def syncScene : State :=
  (machine [(1, 0x10), (2, 0xFFFFFFFF), (3, 0), (4, 0x40), (5, 0x80), (6, 6), (7, 5), (8, 16), (9, 63), (10, 0x20), (11, 0xC0), (12, 0xFF)]
    |>.setEngine 0 0 { Engine.zero with counter := 5 })
    |> fun s => writeSync s (quadKey 0 0x20) { readSync s (quadKey 0 0x20) with err := true }

/-- A timeline operand names copy engine context 0 (R320). -/
def namesCopy (s : State) (a : W64) : Bool := match named s a with
  | some (.copy x) => x == 0
  | _ => false

/-- A timeline operand names itinerary 0. -/
def namesItin (s : State) (a : W64) : Bool := match named s a with
  | some (.itin i) => i == 0
  | _ => false

theorem witness_TimelinesAndSync : ready syncScene = true ∧ 2 ^ (shapeFieldAt 1).width ≤ (syncScene.src.getS 10).toNat ∧
    ((syncScene.src.getS 12).toNat < 256 ∧ formatOf (syncScene.src.getS 12).toNat = none) ∧
    namesCopy syncScene (syncScene.src.getS 3) = true ∧ wbits (syncScene.src.getS 3) 6 2 = 0 ∧
    namesCopy syncScene (syncScene.src.getS 4) = true ∧ wbits (syncScene.src.getS 4) 6 2 = 1 ∧
    namesCopy syncScene (syncScene.src.getS 5) = true ∧ wbits (syncScene.src.getS 5) 6 2 = 2 ∧
    namesCopy syncScene (syncScene.src.getS 11) = true ∧ wbits (syncScene.src.getS 11) 6 2 = 3 ∧
    namesItin syncScene (syncScene.src.getS 8) = true ∧ wbits (syncScene.src.getS 8) 6 2 = 0 ∧
    (named syncScene (syncScene.src.getS 9)).isNone = true := by decide +kernel

theorem witness_TimelinesAndSync_waits :
    (syncScene.engine 0 0).counter < (syncScene.src.getS 6).toNat ∧ (syncScene.src.getS 7).toNat ≤ (syncScene.engine 0 0).counter ∧
    (syncScene.engine 0 0).err = none ∧ reported syncScene 0 (counterBytes syncScene 0 (.copy 0) 5) = none ∧
    (syncScene.itin 0).counter < (syncScene.src.getS 7).toNat ∧ (syncScene.src.getS 0).toNat ≤ (syncScene.itin 0).counter ∧
    (syncScene.itin 0).state ≠ .error ∧ reported syncScene 0 (counterBytes syncScene 0 (.itin 0) 0) = none ∧
    (syncScene.src.getS 1).toNat % 16 = 0 ∧ classOf (syncScene.src.getS 1) = 0 ∧
    (readSync syncScene (quadKey 0 (syncScene.src.getS 1))).err = false ∧
    0 = ((readSync syncScene (quadKey 0 (syncScene.src.getS 1))).gen + 2 ^ 32 - wbits (syncScene.src.getS 3) 0 32) % 2 ^ 32 ∧
    1 = ((readSync syncScene (quadKey 0 (syncScene.src.getS 1))).gen + 2 ^ 32 - wbits (syncScene.src.getS 2) 0 32) % 2 ^ 32 ∧
    reported syncScene 0 (syncBytes syncScene (quadKey 0 (syncScene.src.getS 1)) (syncScene.src.getS 1)) = none ∧ syncScene.eng.err = none ∧
    (syncScene.src.getS 10).toNat % 16 = 0 ∧ classOf (syncScene.src.getS 10) = 0 ∧
    (readSync syncScene (quadKey 0 (syncScene.src.getS 10))).err = true := by decide +kernel

theorem witness_TimelinesAndSync_fields : ShwFits 1 (5 : W64) ∧ ShwFits 3 (0x10 : W64) ∧ ShwFits 47 (0 : W64) := by
  refine ⟨?_, ?_, ?_⟩ <;> (unfold ShwFits; decide +kernel)

/-- An itinerary descriptor of one slip at 40H, template 255 at 80H with its bundle at C0H, a sequencer descriptor of zeros at 100H and one
that is too long at 280H; itinerary 0 is as st says. -/
def enginesScene (st : ItinState) : State :=
  (((machineOf { Ctx.zero with seqDesc := some [], r := regs [(1, 0x40), (2, 0), (3, 0x80), (4, 0x100), (5, 0x280), (6, 15), (7, 1)] })
    |> withWords 0x40 [0x8000000000000000, 0x100000001, 0, 0x1111, 0, 0, 0, 0, 255, 0xC0, 0, 0, 0, 0, 0, 0, 0x90000000])
    |> withWords 0x280 [0xFFFF, 0]).setItin 0 { Itin.zero with state := st }

theorem witness_EnginesStarted : ready (enginesScene .idle) = true ∧ ((enginesScene .idle).src.getS 1).toNat % 64 = 0 ∧
    itOwned (enginesScene .idle) 0 (wbits ((enginesScene .idle).src.getS 2) 0 4) = true ∧
    itOwned (enginesScene .idle) 0 (wbits ((enginesScene .idle).src.getS 6) 0 4) = false ∧
    place (handedOver (enginesScene .idle)) 0 .load ((enginesScene .idle).src.getS 1) 64 = .ok (.scratch 0 0x40) ∧
    itValid (words8 (deviceRead (handedOver (enginesScene .idle)) 0 ((enginesScene .idle).src.getS 1) 64)) = true ∧
    ((handedOver (enginesScene .idle)).itin (itinOf 0 0)).state = .idle ∧
    ((handedOver (enginesScene .running)).itin (itinOf 0 0)).state = .running ∧
    ((enginesScene .idle).src.getS 7).toNat % 8 ≠ 0 ∧ ((enginesScene .idle).src.getS 3).toNat % 16 = 0 ∧
    place (enginesScene .idle) 0 .load ((enginesScene .idle).src.getS 3) 16 = .ok (.scratch 0 0x80) ∧
    wbits (wordAt (deviceRead (enginesScene .idle) 0 ((enginesScene .idle).src.getS 3) 16) 0) 0 8
      + (wbits (wordAt (deviceRead (enginesScene .idle) 0 ((enginesScene .idle).src.getS 3) 16) 0) 8 8 + 1) = 256 ∧
    (∀ x, x ≠ 0 → replaying ((enginesScene .idle).ctx 0 x) 255 1 = false) ∧ ((enginesScene .idle).core 0).saved = [] := by decide +kernel

theorem witness_EnginesStarted_nests : ((enginesScene .idle).src.getS 4).toNat % 16 = 0 ∧
    place (enginesScene .idle) 0 .load ((enginesScene .idle).src.getS 4) 304 = .ok (.scratch 0 0x100) ∧
    badDescriptor ((List.range 38).map (wordAt (deviceRead (enginesScene .idle) 0 ((enginesScene .idle).src.getS 4) 304))) = false ∧
    ((enginesScene .idle).src.getS 5).toNat % 16 = 0 ∧
    256 < wbits (wordAt (deviceRead (enginesScene .idle) 0 ((enginesScene .idle).src.getS 5) 16) 0) 0 8
      + (wbits (wordAt (deviceRead (enginesScene .idle) 0 ((enginesScene .idle).src.getS 5) 16) 0) 8 8 + 1) ∧
    place (enginesScene .idle) 0 .load ((enginesScene .idle).src.getS 5) 304 = .ok (.scratch 0 0x280) ∧
    badDescriptor ((List.range 38).map (wordAt (deviceRead (enginesScene .idle) 0 ((enginesScene .idle).src.getS 5) 304))) = true ∧
    (enginesScene .idle).me.seqDesc = some [] ∧ (enginesScene .idle).poison = [] ∧ plainScene.me.seqDesc = none := by decide +kernel

theorem witness_EnginesStarted_blocks : BlockReady (handedOver (enginesScene .idle)) 0x40 64 (.scratch 0 0x40) ∧
    BlockReady (handedOver (enginesScene .running)) 0x40 64 (.scratch 0 0x40) ∧ BlockReady (enginesScene .idle) 0x80 16 (.scratch 0 0x80) ∧
    BlockReady (enginesScene .idle) 0x100 304 (.scratch 0 0x100) ∧ BlockReady (enginesScene .idle) 0x280 304 (.scratch 0 0x280) := by
  unfold BlockReady MemTaken CodesGood
  decide +kernel

theorem witness_EnginesStarted_bundles :
    BundlesAt (blockTaken (enginesScene .idle) 0x80 16 (.scratch 0 0x80)) [[0x90000000]] 0xC0 :=
  ⟨⟨0, by decide, by decide⟩, by decide, fun i hi => by
    obtain rfl : i = 0 := Nat.lt_one_iff.mp hi
    decide +kernel, ⟨.scratch 0 0xC0, by unfold BlockReady MemTaken CodesGood; decide +kernel⟩, trivial⟩

theorem witness_EnginesStarted_trips : TripsReadable (enginesScene .idle) [] ∧ CodesGood (enginesScene .idle) := by
  refine ⟨?_, by unfold CodesGood; decide +kernel⟩
  intro l va h
  unfold tripAddr descWord at h
  simp [wbit] at h

/-- An lnsgo has issued for a nest of one level of one trip. -/
def nestScene : State :=
  let s := sceneOf { Ctx.zero with seqDesc := some [0, 0, 1] }
  { s with issue := { s.issue with replay := true } }

theorem witness_EnginesStarted_replay : nestScene.issue.replay = true ∧ nestScene.me.r.replay = none ∧
    nestScene.me.seqDesc = some [0, 0, 1] ∧ seqLevels [0, 0, 1] = 1 ∧
    (tripAddr [0, 0, 1] 0 = none ∧ wbits (descWord [0, 0, 1] (2 + 2 * 0)) 0 32 ≠ 0) := by decide +kernel

/-- A batch of n requests. -/
def batchOf (n : Nat) : Batch :=
  { num := 1, first := 0, words := List.replicate n 0, tile := none, reason := none, config := Vector.replicate _ 0 }

/-- Gatherer 63 configured for a partition with those batches; s2 at a block for at most 256 requests, s3 at one of zeros, s4 at one for 257;
pool 0 valid. -/
def gatherScene (part : PartId) (bs : List Batch) : State :=
  let s := (machine [(1, 63), (2, 0x40), (3, 0x80), (4, 0xC0)]) |> withWords 0x40 [256, 0, 0, 0, 0, 0, 0, 0, 0, 0, 0, 0, 0, 0, 0, 0, 257]
  let s := s.setPool 0 0 { desc := #v[0x202000000, 0, 2, 0], waiting := [], tiles := [] }
  { s with gatherers := s.gatherers.set 63 { Gatherer.zero with config := some (Vector.replicate _ 0), part := part, batches := bs } }

/-- A closed batch that waits for its tile. -/
def closedBatch : Batch := { batchOf 1 with reason := some 1 }

theorem witness_Gatherers : ready (gatherScene 0 []) = true ∧ ready (gatherScene 0 [batchOf 255]) = true ∧
    ((gatherScene 0 []).src.getS 2).toNat % 64 = 0 ∧ gathererOf 0 ((gatherScene 0 []).src.getS 1) = 63 ∧
    ((gatherScene 1 []).gatherer 63).part ≠ (gatherScene 1 []).partIdOf 0 ∧ ((gatherScene 1 []).gatherer 63).config.isSome = true ∧
    ((gatherScene 0 []).gatherer 63).part = (gatherScene 0 []).partIdOf 0 ∧
    place (handedOver (gatherScene 0 [])) 0 .load 0x40 64 = .ok (.scratch 0 0x40) ∧
    gTarget (words8 (deviceRead (handedOver (gatherScene 0 [])) 0 0x80 64)) = 0 ∧
    gTarget (words8 (deviceRead (handedOver (gatherScene 0 [])) 0 0x40 64)) ≠ 0 ∧
    gValid (handedOver (gatherScene 0 [])) 0 (words8 (deviceRead (handedOver (gatherScene 0 [])) 0 0x40 64)) = true ∧
    gTarget (words8 (deviceRead (handedOver (gatherScene 0 [])) 0 0xC0 64)) ≠ 0 ∧
    gValid (handedOver (gatherScene 0 [])) 0 (words8 (deviceRead (handedOver (gatherScene 0 [])) 0 0xC0 64)) = false ∧
    (plainScene.gatherer (gathererOf 0 63)).config = none := by decide +kernel

theorem witness_Gatherers_blocks : BlockReady (handedOver (gatherScene 0 [])) 0x40 64 (.scratch 0 0x40) ∧
    BlockReady (handedOver (gatherScene 0 [])) 0x80 64 (.scratch 0 0x80) ∧
    BlockReady (handedOver (gatherScene 0 [])) 0xC0 64 (.scratch 0 0xC0) := by
  unfold BlockReady MemTaken CodesGood
  decide +kernel

theorem witness_Gatherers_batches : ((gatherScene 0 [batchOf 255]).gatherer 63).config = some (Vector.replicate _ 0) ∧
    ((gatherScene 0 [batchOf 255]).gatherer 63).batches.find? Batch.open? = some (batchOf 255) ∧
    (∀ q ∈ ((gatherScene 0 [batchOf 255]).gatherer 63).batches, q.expired ((gatherScene 0 [batchOf 255]).cycle - 1) = false) ∧
    (batchOf 0).words.length + 1 < 2 ∧ ((gatherScene 0 [batchOf 255]).gatherer 63).batches.map (fun q => q.num) = [1] ∧
    ((gatherScene 0 [closedBatch, closedBatch]).gatherer 63).batches.find? Batch.open? = none ∧
    2 ≤ ((gatherScene 0 [closedBatch, closedBatch]).gatherer 63).batches.length ∧
    ((gatherScene 0 [closedBatch]).gatherer 63).batches.find? Batch.open? = none ∧
    ((gatherScene 0 [closedBatch]).gatherer 63).batches.length < 2 ∧
    ((gatherScene 0 [closedBatch]).pool (gCore (Vector.replicate _ 0)) (gPool (Vector.replicate _ 0))).valid = true := by decide +kernel

/-- A park descriptor at 40H for the largest table, one entry of kvapp at 80H and a malformed one at C0H; s5 a token of partition 15, s6 no
token; b: the continuation has triggered. -/
def parkScene (b : Bool) : State :=
  (machineOf { Ctx.zero with r := { regs [(1, 0x40), (2, 0x80), (3, 1), (4, 0xFFFFFFFF), (5, 0xF00000000), (6, 0x1000000000), (7, 0x1001),
    (8, 0xC0), (9, 0xE0)] with triggered := b } })
    |> withWords 0x40 [8, 0x10000, 0, 0, 0, 0, 0, 0, 0, 0x1000000001000000, 0, 0, 0, 0, 0, 0, 4]

theorem witness_ParkingAndPages : ready (parkScene false) = true ∧ ready (parkScene true) = true ∧ ((parkScene false).src.getS 1).toNat % 32 = 0 ∧
    ((parkScene false).src.getS 3).toNat % 32 ≠ 0 ∧
    place (drainMe (parkScene false)) 0 .load ((parkScene false).src.getS 1) 32 = .ok (.scratch 0 0x40) ∧
    parkValid (words8 (deviceRead (drainMe (parkScene false)) 0 ((parkScene false).src.getS 1) 32)) = true ∧
    place (drainMe (parkScene false)) 0 .load ((parkScene false).src.getS 9) 32 = .ok (.scratch 0 0xE0) ∧
    parkValid (words8 (deviceRead (drainMe (parkScene false)) 0 ((parkScene false).src.getS 9) 32)) = false ∧
    (shelfSlot (parkScene false)).isSome = true ∧ (parkScene false).src.triggered = false ∧ (parkScene true).src.triggered = true ∧
    wbits ((parkScene false).src.getS 6) 36 28 ≠ 0 ∧ wbits ((parkScene false).src.getS 4) 36 28 = 0 ∧
    wbits ((parkScene false).src.getS 4) 32 4 = ((parkScene false).partIdOf 0).val ∧ wbits ((parkScene false).src.getS 5) 36 28 = 0 ∧
    wbits ((parkScene false).src.getS 5) 32 4 ≠ ((parkScene false).partIdOf 0).val := by decide +kernel

theorem witness_ParkingAndPages_appends : ((parkScene false).src.getS 2).toNat % 16 = 0 ∧ (parkScene false).src.getS 0 = 0 ∧
    4096 < ((parkScene false).src.getS 7).toNat ∧ (parkScene false).src.getS 3 ≠ 0 ∧ ((parkScene false).src.getS 3).toNat ≤ 4096 ∧
    place (handedOver (parkScene false)) 0 .load ((parkScene false).src.getS 2) (16 * 1) = .ok (.scratch 0 0x80) ∧
    (let bs := deviceRead (handedOver (parkScene false)) 0 ((parkScene false).src.getS 2) (16 * 1)
     badKv (wordAt bs (2 * 0)) (wordAt bs (2 * 0 + 1)) = false) ∧
    ((parkScene false).src.getS 8).toNat % 16 = 0 ∧
    place (handedOver (parkScene false)) 0 .load ((parkScene false).src.getS 8) (16 * 1) = .ok (.scratch 0 0xC0) ∧
    (let bs := deviceRead (handedOver (parkScene false)) 0 ((parkScene false).src.getS 8) (16 * 1)
     badKv (wordAt bs (2 * 0)) (wordAt bs (2 * 0 + 1)) = true) := by decide +kernel

theorem witness_ParkingAndPages_blocks : BlockReady (drainMe (parkScene false)) 0x40 32 (.scratch 0 0x40) ∧
    BlockReady (drainMe (parkScene true)) 0x40 32 (.scratch 0 0x40) ∧ BlockReady (drainMe (parkScene false)) 0xE0 32 (.scratch 0 0xE0) ∧
    BlockReady (handedOver (parkScene false)) 0x80 (16 * 1) (.scratch 0 0x80) ∧
    BlockReady (handedOver (parkScene false)) 0xC0 (16 * 1) (.scratch 0 0xC0) ∧
    kvBar (blockTaken (handedOver (parkScene false)) 0x80 (16 * 1) (.scratch 0 0x80)) 0 0x80
      (deviceRead (handedOver (parkScene false)) 0 0x80 (16 * 1)) 1 = none := by
  unfold BlockReady MemTaken CodesGood
  decide +kernel

/-- Entry 65535 of the shelf, its table of one page at 40H of core 0's scratchpad: the page stands in T3. -/
def shelfOf (st : ShelfState) : Shelf :=
  { state := st, gen := 0xFFFF, words := Vector.replicate _ 0, core := 0, part := 0, table := 0x40, pages := 1, cls := #v[0x1000001, 1],
    parkedAt := 0, crcs := [], timers := 0, demote := none, move := none, sources := [], pushed := false, poison := 0, stalled := [] }

/-- That entry on a shelf. -/
def shelved (h : Shelf) : State := plainScene.setShelf 65535 h

theorem witness_ParkingAndPages_tokens : wbits (0xFFFFFFFF : W64) 0 16 = 65535 ∧ wbits (0xFFFFFFFF : W64) 16 16 = 0xFFFF ∧
    (∀ h, h = shelfOf .parked → ((shelved h).shelfAt 65535).state = .parked ∧ ((shelved h).shelfAt 65535).gen.toNat = 0xFFFF ∧
      ((shelved h).shelfAt 65535).part = 0) ∧
    ((shelved { shelfOf .parked with move := some (.mk 0 1 4) }).shelfAt 65535).move.isSome = true ∧
    ((shelved (shelfOf .waking)).shelfAt 65535).state ≠ .parked := by
  refine ⟨by decide, by decide, ?_, by decide +kernel, by decide +kernel⟩
  rintro h rfl
  decide +kernel

/-- A queue of n entries with no ring; a record at 40H with a join counter at 100H; the job is a stolen one's, widened to 5, and a gang's as
b says, which has then triggered. -/
def taskScene (n : Nat) (b : Bool) : State :=
  let s := machineOf { Ctx.zero with
    r := { regs [(1, 0x40), (2, 3), (3, 4), (4, 0x200)] with triggered := b }
    job := { Record.none with scope := 5, widening := 5, words := Record.none.words.set 0 (if b then 0x2000000000000000 else 0) } }
  s.setCore 0 { s.core 0 with queue := List.replicate n 4 } |> withWords 0x40 [0, 0x100]

/-- `RecordFits` of the words that stand at va, as a test. -/
def recordHolds (s : State) (va : W64) (p : Place) : Bool :=
  va.toNat % 64 == 0 && wbits va 48 15 == 0
    && !badRecord (recordWords (blockTaken s va 64 p) s.issue.core (nameOf s.issue.core va)) va
    && !gangBit (recordWords (blockTaken s va 64 p) s.issue.core (nameOf s.issue.core va))

theorem record_fits {s : State} {va : W64} {p : Place} (h : recordHolds s va p = true) (b : BlockReady s va 64 p) :
    RecordFits s va p (recordWords (blockTaken s va 64 p) s.issue.core (nameOf s.issue.core va)) := by
  simp only [recordHolds, Bool.and_eq_true, beq_iff_eq, Bool.not_eq_true'] at h
  exact ⟨h.1.1.1, h.1.1.2, b, rfl, h.1.2, h.2⟩

/-- The word w1 of the record that stands at va. -/
def counterAt (s : State) (va : W64) : W64 := recWord (recordWords s s.issue.core (nameOf s.issue.core va)) 1

theorem witness_RecordsPushed : ready (taskScene 31 false) = true ∧ ready (taskScene 31 true) = true ∧ ready (taskScene 32 false) = true ∧
    recordHolds (drainMe (taskScene 31 false)) 0x40 (.scratch 0 0x40) = true ∧ recordHolds (drainMe (taskScene 32 false)) 0x40 (.scratch 0 0x40) = true ∧
    counterAt (drainMe (taskScene 31 false)) 0x40 = 0x100 ∧
    OwnerReady (blockTaken (drainMe (taskScene 31 false)) 0x40 64 (.scratch 0 0x40)) 0x100 (.scratch 0 0x100) ∧
    counterAt (drainMe (taskScene 31 false)) 0x200 = 0 ∧
    recordHolds (drainMe (taskScene 31 false)) 0x200 (.scratch 0 0x200) = true ∧ QueueRoom (taskScene 31 false) 0 ∧
    QueueFull (taskScene 32 false) 0 ∧ BlockReady (drainMe (taskScene 31 false)) 0x40 64 (.scratch 0 0x40) ∧
    BlockReady (drainMe (taskScene 31 false)) 0x200 64 (.scratch 0 0x200) ∧
    BlockReady (drainMe (taskScene 32 false)) 0x40 64 (.scratch 0 0x40) ∧
    FabricDone (taskScene 31 false) (max 1 (taskScene 31 false).me.job.widening.toNat) := by
  unfold QueueRoom QueueFull OwnerReady BlockReady MemTaken CodesGood FabricDone
  decide +kernel

theorem witness_RecordsPushed_cores : qpushCore ((taskScene 31 false).src.getS 2) = 3 ∧ wbits ((taskScene 31 false).src.getS 2) 9 55 = 0 ∧
    ((taskScene 31 false).core 3).out = false ∧ ((taskScene 31 false).partOf 3).isSome = true ∧
    (taskScene 31 false).partOf 3 = (taskScene 31 false).partOf 0 ∧ QueueRoom (taskScene 31 false) 3 ∧
    wbits ((taskScene 31 false).src.getS 3) 9 55 = 0 ∧ (taskScene 31 false).partOf (qpushCore ((taskScene 31 false).src.getS 3)) = none ∧
    wbits ((taskScene 31 false).src.getS 4) 9 55 ≠ 0 ∧ wbits ((taskScene 32 false).src.getS 0) 9 55 = 0 ∧
    ((taskScene 32 false).core 0).out = false ∧ ((taskScene 32 false).partOf 0).isSome = true := by
  unfold QueueRoom
  decide +kernel

theorem witness_RecordsPushed_trig : (taskScene 31 false).src.triggered = false ∧ (taskScene 31 false).me.job.scope = 5 ∧
    FabricDone (taskScene 31 false) 5 ∧ CodesGood (drainMe (taskScene 31 false)) ∧ (drainMe (taskScene 31 false)).poison = [] ∧
    gangBit (taskScene 31 true).me.job.words = true ∧ (taskScene 31 true).src.triggered = true ∧
    gangBit deepScene.me.job.words = false ∧ deepScene.src.triggered = true ∧ gangBit (taskScene 31 false).me.job.words = false ∧
    ((deepScene.ctx 0 0).r.triggered = true ∧ (deepScene.ctx 0 0).gate = [] ∧ (deepScene.ctx 0 0).job.host = none) := by
  unfold FabricDone CodesGood
  decide +kernel

/-- A join counter of zero at 40H, a future of value 9 at 50H, a poisoned one at 60H, an empty one at 70H, at 80H a counter of 2, at 90H one
that a record waits on, at A0H a future with every waiter; the record of name 200H; with those operations outstanding. -/
def futureScene (ops : List Op) (b : Bool) : State :=
  (machineOf { Ctx.zero with ops := ops, job := { Record.none with name := 0x200 }, r := { Regs.zero with triggered := b } })
    |> withWords 0x40 [0, 0, 2, 9, 3, 7, 0, 0, 2, 0, 2, 0x140, 0xFFFC, 0x140]

/-- As `futureScene`, with a division outstanding. -/
def busyFuture : State := futureScene [opFor (.div 5)] false

/-- The pair at an address of the own scratchpad. -/
def pairOf (a : W64) : W64 × W64 := foundPair busyFuture a

/-- The state in which that pair is read. -/
def takenOf (a : W64) : State := ownerTaken busyFuture a (.scratch 0 a.toNat)

/-- `OwnerReady` as a test, for an address of the own scratchpad. -/
def ownerHolds (s : State) (a : W64) : Bool :=
  a.toNat % 16 == 0 && classOf a != 1 && decide (place s s.issue.core .atomic a 16 = .ok (.scratch 0 a.toNat))
    && memReady s (s.partIdOf s.issue.core) ((Place.scratch 0 a.toNat).blocks 16) && s.ecc.isEmpty && s.poison.isEmpty

theorem owner_ready {s : State} {a : W64} (h : ownerHolds s a = true) : a.toNat % 16 = 0 ∧ OwnerReady s a (.scratch 0 a.toNat) := by
  simp only [ownerHolds, Bool.and_eq_true, beq_iff_eq, bne_iff_ne, decide_eq_true_eq, List.isEmpty_iff] at h
  exact ⟨h.1.1.1.1.1, h.1.1.1.1.2, h.1.1.1.2, h.1.1.2, h.1.2, h.2⟩

theorem witness_JoinsAndFutures : ready busyFuture = true ∧ ready (futureScene [] true) = true ∧
    ([0x40, 0x50, 0x60, 0x70, 0x80, 0x90, 0xA0] : List W64).all (fun a => ownerHolds busyFuture a && ownerHolds (futureScene [] true) a) = true ∧
    reported (takenOf 0x40) 0 everyByte = none ∧
    pairOf 0x40 = (0, 0) ∧ pairOf 0x80 = (2, 0) ∧ (pairOf 0x90).1 ≠ 0 ∧ (pairOf 0x90).2 ≠ 0 ∧
    (futureScene [] true).src.triggered = true ∧ busyFuture.src.triggered = false ∧ busyFuture.issue.drained = false := by decide +kernel

theorem witness_JoinsAndFutures_futures :
    2 ≤ futState (pairOf 0x50).1 ∧ 2 ≤ futState (pairOf 0x60).1 ∧ futState (pairOf 0x70).1 < 2 ∧ futWaiters (pairOf 0x70).1 = 0 ∧
    futState (pairOf 0xA0).1 < 2 ∧ futWaiters (pairOf 0xA0).1 = 16383 ∧
    reported (takenOf 0x50) 0 (futBytes (takenOf 0x50) (Place.scratch 0 0x50).key 0x50) = none := by decide +kernel

/-- The state in which a futset of that address finds its future. -/
def releasedOf (a : W64) : State := release (drainMe busyFuture) 0 4 (bound busyFuture.me.r.bind 2 a)

theorem witness_JoinsAndFutures_resolved : ([0x60, 0x70, 0xA0] : List W64).all (fun a => ownerHolds (releasedOf a) a) = true ∧
    2 ≤ futState (pairAt (ownerTaken (releasedOf 0x60) 0x60 (.scratch 0 0x60)) (Place.scratch 0 0x60).key).1 ∧
    futState (pairAt (ownerTaken (releasedOf 0x70) 0x70 (.scratch 0 0x70)) (Place.scratch 0 0x70).key).1 < 2 ∧
    futWaiters (pairAt (ownerTaken (releasedOf 0x70) 0x70 (.scratch 0 0x70)) (Place.scratch 0 0x70).key).1 = 0 ∧
    futState (pairAt (ownerTaken (releasedOf 0xA0) 0xA0 (.scratch 0 0xA0)) (Place.scratch 0 0xA0).key).1 < 2 := by
  decide +kernel

/-- `RecordApart` as a test. -/
def apartHolds (s : State) (name : W64) (k n : Nat) : Bool := (List.range 8).all (fun i =>
  match place s (nameCore s.issue.core name) .peek (nameAddr name + BitVec.ofNat 64 (8 * i)) 8 with
  | .ok p => decide (p.key + 8 ≤ k ∨ k + n ≤ p.key)
  | .error _ => true)

theorem record_apart {s : State} {name : W64} {k n : Nat} (h : apartHolds s name k n = true) : RecordApart s name k n := by
  intro i p hi hp
  have := List.all_eq_true.mp h i (List.mem_range.mpr hi)
  simpa [hp] using this

theorem witness_JoinsAndFutures_leaves : apartHolds (takenOf 0x70) 0x200 (Place.scratch 0 0x70).key 16 = true ∧
    apartHolds (futureScene [] false) 0x200 (Place.scratch 0 0x80).key 16 = true ∧
    quiet busyFuture 0 0 = false ∧ quiet (futureScene [] false) 0 0 = true ∧ (futureScene [] false).me.badStore = false ∧
    (futureScene [] false).me.gate = [] ∧ ((futureScene [] false).core 0).near = [] ∧ (0 : Nat) < 16384 ∧ (16383 : Nat) < 16384 := by
  decide +kernel

/-- A team of two contexts; both have arrived at scope .core, and context 0 at scope .quad too. -/
def teamOf (killed : Bool) : Team :=
  { id := 1, gang := none, part := 0, members := [(0, 0), (0, 1)], departed := [], arrivals := [(0, 1, 1), (1, 1, 1), (0, 2, 1)], complete := [],
    sent := 0, killed := killed, abort := false, quarantine := [], exits := [] }

/-- Context 0 of core 0 is a member of it, with open arrivals at every scope. -/
def teamScene : State :=
  { machineOf { Ctx.zero with r := { Regs.zero with arrived := 63 }, phase := .running, action := some 2, job := { Record.none with team := 1 } }
      with teams := [teamOf false] }

/-- No team, with an open arrival at scope .pod. -/
def loneScene : State := machineOf { Ctx.zero with r := { Regs.zero with arrived := 32 } }

theorem witness_Barriers : ready teamScene = true ∧ ready loneScene = true ∧ (2 : BitVec 3) = (2 : BitVec 13).setWidth 3 ∧
    arrivalDone teamScene (2 : BitVec 3).toNat = false ∧ arrivalDone loneScene (5 : BitVec 3).toNat = true ∧ FabricDone loneScene 5 ∧
    teamScene.team teamScene.me.job.team = some (teamOf false) ∧ loneScene.src.arrived.getLsbD (4 : BitVec 3).toNat = false ∧
    teamScene.src.arrived.getLsbD (2 : BitVec 3).toNat = true ∧ loneScene.src.arrived.getLsbD (5 : BitVec 3).toNat = true ∧
    reported loneScene 0 (bound loneScene.me.r.bind 4 (BitVec.ofNat 64 5)) = none := by
  unfold FabricDone
  decide +kernel

theorem witness_Tiles : ready poolScene = true ∧ wbits (poolScene.src.getS 0) 0 12 = 0 ∧
    (poolScene.pool 0 (tallocPool { fi with imm := 63 })).valid = false ∧ wbits (poolScene.src.getS 5) 0 12 = 0xFFF ∧
    (poolScene.pool 0 (tallocPool { fi with imm := 48 })).valid = true ∧ ¬ Usable poolScene (poolScene.src.getS 3) ∧
    Usable poolScene (poolScene.src.getS 4) ∧
    handleMatches poolScene (poolScene.src.getS 4) = false ∧ Matches poolScene (poolScene.src.getS 2) ∧
    (tileOf poolScene (poolScene.src.getS 2)).state = .published ∧ Matches poolScene (poolScene.src.getS 1) ∧
    (tileOf poolScene (poolScene.src.getS 1)).state = .open ∧ 2 ≤ (tileOf poolScene (poolScene.src.getS 1)).reads.toNat ∧
    (tileOf poolScene (poolScene.src.getS 2)).reads.toNat ≤ 1 ∧
    quarantined poolScene (tileOf poolScene (poolScene.src.getS 1)).team = false := by
  unfold Matches Usable
  decide +kernel

/-- A context whose bundle is a branch's bubble. -/
def bubbleScene : State := machineOf { Ctx.zero with phase := .running, bubble := 1 }

/-- The package is frozen. -/
def frozenScene : State := { State.reset with frozen := true }

theorem witness_BundleIssues :
    (let s := codeScene [0x1000000010000000, 0x9000000010000000]
     s.frozen = false ∧ (s.core 0).out = false ∧ (s.core 0).current = 0 ∧ ctxReady s 0 0 = true ∧ stretchAllows s (s.core 0) = true ∧
       (s.ctx 0 0).barWait = none ∧ barError s 0 0 = none ∧ bundleHas s .nop = true ∧
       (match nextBundle s 0 0 with
         | .good slots _ => slots.all (fun sl => match sl.instr with
             | .ok i => !irrevocable i && !ckptSlot (s.ctx 0 0).r.landAll i
             | .error _ => true)
         | .bad _ _ _ => false) = true ∧
       (s.ctx 0 0).r.rep ≠ some 0) ∧
    bubbleScene.frozen = false ∧ (bubbleScene.core 0).out = false ∧ (bubbleScene.ctx 0 (bubbleScene.core 0).current).phase = .running ∧
    (bubbleScene.ctx 0 (bubbleScene.core 0).current).bubble ≠ 0 ∧ bubbleScene.upsets = [] ∧ frozenScene.frozen = true := by decide +kernel

/-- A fence is next, in handler mode as h says, with a division outstanding and an error in the gate as b says. -/
def fenceBundle (h b : Bool) : State :=
  let s := codeScene (if h then [0x10000000A8436005] else [0x1000000028436005, 0x9000000010000000])
  s.setCtx 0 0 { s.ctx 0 0 with handler := h, badStore := b, ops := [opFor (.div 5)] }

theorem witness_BundleIssues_commits : ∀ h b : Bool, let s := fenceBundle h b
    s.frozen = false ∧ (s.core 0).out = false ∧ (s.core 0).current = 0 ∧ ctxReady s 0 0 = true ∧ stretchAllows s (s.core 0) = true ∧
      barError s 0 0 = none ∧ (match nextBundle s 0 0 with
        | .good slots words => slots.any (fun sl => sl.instr.toOption == some (.fence (.mk 0 27 5 none))) && words == (if h then 1 else 4)
        | .bad _ _ _ => false) = true ∧ irrevocable (.fence (.mk 0 27 5 none)) = true ∧
      (s.ctx 0 0).r.rep ≠ some 0 ∧ (s.ctx 0 0).handler = h ∧ (s.ctx 0 0).badStore = b ∧ ckptBlocked (s.ctx 0 0) = false ∧
      handlerStores (s.ctx 0 0) = false ∧ drainReady s 0 0 = true := by decide +kernel

/-- An operation for a destination on a machine where the host page of 1000000H may be written and not read; a planner descriptor at 40H. -/
def waitScene (d : OpDest) (k : OpKind) (fs : List Fence) : State :=
  let s := machineOf { Ctx.zero with ops := [{ opFor k with dest := d }], phase := .running, fences := fs, epoch := 1 }
  { withWords 0x40 [0x80, 0x10001, 0x100, 0, 0, 0, 0, 0, 1] s with tlb := rset s.tlb 0 [.mk 0 0x1000 1 false true] }

/-- A loaded address of s31's operation. -/
def loadScene : State := waitScene (.scalar 31) (.load 8 8 true [none, none, none, none, none, none, none, none]) []

/-- A vector load of lanes 0 and 63. -/
def vloadScene : State := waitScene (.vector 27 (BitVec.allOnes 64)) (.vload [(0, 8), (63, 12)] [none, none, none, none, none, none, none, none]) []

/-- A weight-store load of the last lane of the store. -/
def wloadScene : State := waitScene (.vector 27 (BitVec.allOnes 64)) (.wload [(63, 0x5FFFFFFC)]) []

/-- A byte at a place that is not the host's is readable. -/
theorem readable_of {s : State} {c : CoreId} {p : Place} (h : ∀ pid a, p ≠ .host pid a) : Readable s c p :=
  fun pid a e => absurd e (h pid a)

/-- A load of the same width from T1. -/
def tierLoad : State := waitScene (.scalar 31) (.load 0x8000000000000008 8 true [none, none, none, none, none, none, none, none]) []

/-- `Contiguous` as a test. -/
def lineHolds (s : State) (c : CoreId) (va : W64) (p : Place) (n : Nat) : Bool :=
  decide (va.toNat % 64 + n ≤ 64) && (List.range n).all (fun i => match placeByte s c .peek (va + BitVec.ofNat 64 i) with
    | .ok q => q.key == p.key + i && q.cached == p.cached
    | .error _ => false)

theorem contiguous_of {s : State} {c : CoreId} {va : W64} {p : Place} {n : Nat} (h : lineHolds s c va p n = true) :
    Contiguous s c va p n := by
  simp only [lineHolds, Bool.and_eq_true, decide_eq_true_eq, List.all_eq_true, List.mem_range] at h
  refine ⟨h.1, fun i hi => ?_⟩
  have := h.2 i hi
  cases e : placeByte s c .peek (va + BitVec.ofNat 64 i) with
  | ok q =>
    rw [e] at this
    simp only [Bool.and_eq_true, beq_iff_eq] at this
    exact ⟨q, rfl, this⟩
  | error x => simp [e] at this

theorem witness_OperationResults_lines : lineHolds loadScene 0 8 (.scratch 0 8) 8 = true ∧ lineHolds vloadScene 0 8 (.scratch 0 8) 4 = true ∧
    lineHolds vloadScene 0 12 (.scratch 0 12) 4 = true ∧ lineHolds tierLoad 0 0x8000000000000008 (.tier tierExtent 8) 8 = true ∧
    place tierLoad 0 .peek 0x8000000000000008 8 = .ok (.tier tierExtent 8) ∧ (Place.tier tierExtent 8).cached = true ∧
    nearFind (tierLoad.core 0) 0x8000000000000008 = none ∧
    (∃ k, ownerKey tierLoad 0 (lineOf 0x8000000000000008) = some k ∧ (Place.tier tierExtent 8).key = k + (0x8000000000000008 : W64).toNat % 64) := by
  refine ⟨?_, ?_, ?_, ?_, ?_, ?_, ?_, (Place.tier tierExtent 0).key, ?_⟩ <;> decide +kernel

theorem witness_OperationResults_bload :
    let s := waitScene (.vector 27 (BitVec.allOnes 64)) (.bload 8 [none, none, none, none]) []
    (s.ctx 0 0).ops.all (fun o => decide (opOf s 0 0 o.id = some o && memReady s (s.partIdOf 0) (o.blocks s 0) = true)) ∧
      place s 0 .peek 8 4 = .ok (.scratch 0 8) ∧ lineHolds s 0 8 (.scratch 0 8) 4 = true ∧ (s.ctx 0 0).handler = false ∧ CodesGood s := by
  unfold CodesGood
  decide +kernel

theorem witness_OperationResults :
    (loadScene.ctx 0 0).ops.all (fun o => decide (opOf loadScene 0 0 o.id = some o && memReady loadScene (loadScene.partIdOf 0)
      (o.blocks loadScene 0) = true)) ∧ (loadScene.ctx 0 0).handler = false ∧
    place loadScene 0 .peek 8 8 = .ok (.scratch 0 8) ∧ CodesGood loadScene ∧ loadScene.poison = [] ∧
    (Place.scratch 0 8).cached = false ∧
    (vloadScene.ctx 0 0).ops.all (fun o => decide (opOf vloadScene 0 0 o.id = some o && memReady vloadScene (vloadScene.partIdOf 0)
      (o.blocks vloadScene 0) = true)) ∧ place vloadScene 0 .peek 8 4 = .ok (.scratch 0 8) ∧
    place vloadScene 0 .peek 12 4 = .ok (.scratch 0 12) ∧ (vloadScene.ctx 0 0).handler = false ∧ CodesGood vloadScene ∧
    (∀ b ∈ wldBanks [(63, 0x5FFFFFFC)], inWindow wloadScene (dieOf 0) b = false) := by
  unfold CodesGood
  decide +kernel

theorem witness_OperationResults_readable : Readable loadScene 0 (.scratch 0 8) ∧ Readable vloadScene 0 (.scratch 0 12) :=
  ⟨readable_of (by simp), readable_of (by simp)⟩

theorem witness_OperationResults_others :
    (let s := waitScene .none (.store 0x1000000 8) []
     opOf s 0 0 7 = some { opFor (.store 0x1000000 8) with dest := .none } ∧ place s 0 .peek 0x1000000 8 = .ok (.host 0 0x1000000) ∧
       tlbFind s (dieOf 0) 0 0x1000000 = some (.mk 0 0x1000 1 false true) ∧ (s.ctx 0 0).handler = false) ∧
    (let s := waitScene (.scalar 31) (.plan 0x40) []
     opOf s 0 0 7 = some (opFor (.plan 0x40)) ∧ given (planRun s 0 0x40) = true) ∧
    (let s := waitScene (.scalar 31) (.plan 0x80) []
     opOf s 0 0 7 = some (opFor (.plan 0x80)) ∧ (match planRun s 0 0x80 with
       | .error (.status n) => n == 3
       | _ => false) = true) ∧
    (let s := waitScene (.scalar 31) (.plan 0x2000000) []
     opOf s 0 0 7 = some (opFor (.plan 0x2000000)) ∧ (match planRun s 0 0x2000000 with
       | .error (.wait _) => true
       | _ => false) = true) ∧
    (let s := waitScene (.scalar 31) (.kvapp 0x40 1) []
     opOf s 0 0 7 = some (opFor (.kvapp 0x40 1)) ∧ (s.ctx 0 0).handler = false ∧
       kvBar s 0 0x40 (deviceRead s 0 0x40 (16 * 1)) 1 = none) ∧
    (let s := waitScene (.scalar 31) (.load 0x1000000 8 true [none]) []
     opOf s 0 0 7 = some (opFor (.load 0x1000000 8 true [none])) ∧ place s 0 .peek 0x1000000 8 = .ok (.host 0 0x1000000) ∧
       (s.ctx 0 0).pendFault = none ∧ (s.ctx 0 0).asked = none ∧ rget s.pages (BitVec.ofNat 3 (dieOf 0).val) = []) ∧
    (let s := waitScene (.scalar 31) (.plan 0x40) [.mk 1 5 8 0 4 0 false]
     (s.ctx 0 0).fences = [.mk 1 5 8 0 4 0 false] ∧ 0 < (s.ctx 0 0).epoch ∧ unanswered s 0 0 = false ∧ (∀ o ∈ (s.ctx 0 0).ops, o.kind.access = true → 8 ≤ o.id) ∧ (s.engine 0 0).copies = [] ∧
       (s.core 0).poisoned = [] ∧ ((release s 0 5 everyByte).core 0).poisoned = []) := by decide +kernel

/-- As `poolScene`, with a tile free and a request of context 0 waiting for it since cycle 0. -/
def grantScene : State :=
  let s := machineOf { Ctx.zero with ops := [opFor (.talloc 0 0 1)] }
  let s := s.setPool 0 0 { desc := #v[0x202000000, 0, 2, 0], waiting := [.mk (.ctx 0) 0 1 0 0], tiles := [(0, .mk .open 1 2 0 0)] }
  { s.setPart 0 { s.part 0 with allocWdog := 1 } with cycle := 2001 }

theorem witness_OperationResults_tiles :
    (grantScene.pool 0 0).waiting.find? (fun r => (grantScene.pool 0 0).grantable r.share.toNat) = some (.mk (.ctx 0) 0 1 0 0) ∧
    (grantScene.pool 0 0).firstFree = some 1 ∧ (grantScene.ctx 0 0).ops = [opFor (.talloc 0 0 1)] ∧
    (grantScene.ctx 0 0).handler = false ∧ (grantScene.ctx 0 0).badStore = false := by decide +kernel

/-- A record of name 40H at the head of core 0's queue, started as b says, with w0; it declares all the accumulators and scratch. -/
def queuedScene (b : Bool) (w0 : W64) : State :=
  let s := (machineOf Ctx.zero) |> withWords 0x40 [w0, 0, 0x400400000000]
  s.setCore 0 { s.core 0 with queue := [queueEntry (nameOf 0 0x40) b 1 0 false] }

/-- The entry that stands there. -/
def queuedEntry (b : Bool) : W64 := queueEntry (nameOf 0 0x40) b 1 0 false

/-- As `queuedScene`, with that record the newcomer of context 1. -/
def newcomerScene : State :=
  let s := queuedScene false 0
  s.setCtx 0 1 { s.ctx 0 1 with newcomer := some (.mk 0x40 none) }

theorem witness_RecordsStart : (∀ b : Bool, let s := queuedScene b 0
      (s.part (s.partIdOf 0)).reserving = none ∧ startable s 0 = true ∧ (s.ctx 0 0).phase = .idle ∧ (s.ctx 0 0).newcomer = none ∧
      (s.core 0).saved = [] ∧ (s.core 0).queue = [queuedEntry b] ∧ leaving (s.core 0) (entryName (queuedEntry b)) = false ∧
      recAcc (startWords s 0 (entryName (queuedEntry b))) ≤ accFree (s.core 0) ∧
      recScratch (startWords s 0 (entryName (queuedEntry b))) ≤ scratchFree s 0 ∧ wbit (queuedEntry b) 2 = b ∧
      gangBit (startWords s 0 (entryName (queuedEntry b))) = false) ∧
    gangBit (startWords (queuedScene false 0x2000000000000000) 0 (entryName (queuedEntry false))) = true ∧
    ((newcomerScene.part (newcomerScene.partIdOf 0)).reserving = none ∧ startable newcomerScene 0 = true ∧
      (newcomerScene.ctx 0 1).phase = .idle ∧ (newcomerScene.ctx 0 1).newcomer = some (.mk 0x40 none) ∧
      recAcc (startWords newcomerScene 0 0x40) ≤ accFree (newcomerScene.core 0) ∧
      recScratch (startWords newcomerScene 0 0x40) ≤ scratchFree newcomerScene 0) ∧
    5 < (6 : BitVec 5).toNat ∧ 5 < (31 : BitVec 5).toNat ∧ 2 ≤ (2 : BitVec 3).toNat ∧ 2 ≤ (7 : BitVec 3).toNat ∧
    ((queuedScene false 0).core 0).near = [] := by decide +kernel

/-- Context 0 of core 0 in a phase, and an entry held; a GEMM of one output at 40H, where the context's pc stands. -/
def phaseScene (p : Phase) : State :=
  let s := (machineOf { Ctx.zero with phase := p, acc := 1, r := { Regs.zero with pc := 0x40 } })
    |> withWords 0x40 [0x1000101001, 0x100000001, 1, 0x200, 0x300, 0x400, 0, 0]
  s.setCore 0 { s.core 0 with heldPushes := [4], queue := List.replicate 31 4 }

/-- A template operator whose nest has one level of one trip. -/
def templateScene : State :=
  (machineOf { Ctx.zero with phase := .waitArray 0, seqDesc := some [0, 0, 1], r := { Regs.zero with pc := 0x40 } }) |> withWords 0x40 [0x80]

/-- The parameter block of `phaseScene`. -/
def gemmBlock : File 3 W64 := #v[0x1000101001, 0x100000001, 1, 0x200, 0x300, 0x400, 0, 0]

theorem witness_SuspensionsAndEpisodes : ((phaseScene (.suspending .stop 0)).ctx 0 0).phase = .suspending .stop 0 ∧
    quiet (phaseScene (.suspending .stop 0)) 0 0 = true ∧
    ((phaseScene (.suspending .stop 0)).ctx 0 0).pendFault = none ∧ ((phaseScene .idle).core 0).heldPushes = [4] ∧
    ((phaseScene .idle).core 0).spillCount = 0 ∧ ((phaseScene .idle).core 0).queue.length < 32 ∧
    teamScene.team (teamOf false).id = some (teamOf false) ∧ (teamOf false).someArrived 1 ((teamOf false).completed 1 0 + 1) = true ∧
    (teamOf false).allArrived 1 0 ((teamOf false).completed 1 0 + 1) = true ∧
    (let s := (phaseScene (.tileStep 0)).setCtx 0 0 { (phaseScene (.tileStep 0)).ctx 0 0 with job := { Record.none with name := 0x200 } }
     0 + 1 < 2 ∧ (s.ctx 0 0).action ≠ some 0 ∧ (s.ctx 0 0).badStore = false ∧ (s.ctx 0 0).gate = [] ∧
       nameShelf (s.ctx 0 0).job.name = none ∧ nameIn s 0 (s.ctx 0 0).job.name = true ∧
       place s (nameCore 0 (s.ctx 0 0).job.name) .peek (nameAddr (s.ctx 0 0).job.name + 24) 8 = .ok (.scratch 0 0x218)) := by decide +kernel

theorem witness_SuspensionsAndEpisodes_steps :
    (let s := phaseScene (.waitArray 0)
     (s.ctx 0 0).phase = .waitArray 0 ∧ arrayOwner (s.core 0) = none ∧ arrayHeir s 0 0 = 0 ∧ operHeld (s.ctx 0 0) = false ∧
       (s.ctx 0 0).pendFault = none ∧ s.frozen = false ∧ (s.core 0).out = false ∧ (s.ctx 0 0).gate = [] ∧ (s.ctx 0 0).badStore = false ∧
       (paramBlock s 0 (s.ctx 0 0).r.pc).toOption = some gemmBlock ∧ isTemplate gemmBlock = false ∧ gemmValid gemmBlock (s.ctx 0 0).acc = true ∧
       0 < gemmSteps gemmBlock ∧ gemmSteps gemmBlock ≤ 1) ∧
    (let s := templateScene
     (s.ctx 0 0).phase = .waitArray 0 ∧ arrayOwner (s.core 0) = none ∧ arrayHeir s 0 0 = 0 ∧ operHeld (s.ctx 0 0) = false ∧
       (paramBlock s 0 (s.ctx 0 0).r.pc).toOption.any isTemplate = true ∧ (s.ctx 0 0).seqDesc = some [0, 0, 1] ∧
       0 < wbits (descWord [0, 0, 1] (2 * seqLevels [0, 0, 1])) 0 32) ∧
    (let s := phaseScene (.tileStep 0)
     (s.ctx 0 0).phase = .tileStep 0 ∧ (s.ctx 0 0).r.replay = none ∧ (s.ctx 0 0).ops = [] ∧
       (gemmStep s 0 gemmBlock 0).toOption.any (fun os =>
         memReady s (s.partIdOf 0) (stepBlocks s 0 gemmBlock 0 ++ os.flatMap (fun o => operBlocks s 0 o.1 o.2.length)) &&
         os.all (fun o => (operPlace (spendMem (stepCorrect s 0 gemmBlock 0) (s.partIdOf 0) (stepBlocks s 0 gemmBlock 0)) 0 .store o.1
           o.2.length).toOption.isSome)) = true) := by decide +kernel

theorem witness_SuspensionsAndEpisodes_readable : StepReadable (phaseScene (.tileStep 0)) 0 gemmBlock 0 := by
  have rows : gemmRows gemmBlock 0 = [0] := by decide
  have cols : gemmCols gemmBlock 0 = [0] := by decide
  unfold StepReadable
  rw [rows, cols]
  simp only [List.mem_singleton, forall_eq]
  exact ⟨⟨ok_of (by decide +kernel), fun h => absurd h (by decide)⟩, ok_of (by decide +kernel)⟩

/-- A cause found late. -/
def lateOf (c : Cause) : Late := .mk c 8 0 4

/-- The addresses 1000H, 2000H and 3000H as the handlers of the causes 20H, 21H and 22H where h says so. -/
def causeScene (h : Bool) (k : Ctx) : State := machineOf k |> withWords 0x100 (if h then [0x1000, 0x2000, 0x3000] else [])

/-- A cause of that kind waits at a boundary, tried once before as b says. -/
def lateScene (c : Cause) (b : Bool) : State :=
  machineOf { Ctx.zero with pendFault := some (lateOf c), phase := .running, eccRetried := b }

theorem witness_LateCauses :
    ([(.kvpoison, false), (.eccue, true), (.eccue, false), (.page, false)] : List (Cause × Bool)).all (fun q =>
      let k := (lateScene q.1 q.2).ctx 0 0
      decide (k.pendFault = some (lateOf q.1) && k.ownFault = none && k.handler = false && atBoundary k = true && k.badStore = false && k.asked = none
        && k.eccRetried = q.2)) ∧
    (lateOf .kvpoison).cause ≠ .page ∧ (lateOf .kvpoison).cause ≠ .eccue ∧ (lateOf .eccue).info.getLsbD 0 = false ∧
    (let k := (causeScene true { Ctx.zero with pendFault := some (lateOf .page), handler := true, replayEntry := true }).ctx 0 0
     k.pendFault = some (lateOf .page) ∧ k.handler = true ∧ k.replayEntry = true ∧ k.held = none) ∧
    (grantScene.ctx 0 0).ops = [opFor (.talloc 0 0 1)] ∧ (grantScene.pool 0 ⟨(0 : BitVec 4).toNat, by decide⟩).waiting = [.mk (.ctx 0) 0 1 0 0] ∧
    (grantScene.part (grantScene.partIdOf 0)).allocWdog ≠ 0 ∧
    2000 * (grantScene.part (grantScene.partIdOf 0)).allocWdog.toNat < grantScene.cycle - 0 ∧ (grantScene.ctx 0 0).pendFault = none := by
  decide +kernel

theorem witness_LateCauses_entries :
    (∀ h : Bool, let s := causeScene h { Ctx.zero with pendInt := some 0xFFFFFFFF, phase := .running }
     (s.ctx 0 0).pendInt = some 0xFFFFFFFF ∧ (s.ctx 0 0).pendPreempt = none ∧ replayable (s.ctx 0 0) = true ∧ (s.ctx 0 0).badStore = false ∧
       decide (handlerAt (s.setCtx 0 0 { s.ctx 0 0 with pendInt := none }) 0 0x20 ≠ 0) = h) ∧
    (∀ h : Bool, let s := causeScene h { Ctx.zero with pendWatchdog := some 5, phase := .running }
     (s.ctx 0 0).pendWatchdog = some 5 ∧ (s.ctx 0 0).pendInt = none ∧ (s.ctx 0 0).pendPreempt = none ∧ replayable (s.ctx 0 0) = true ∧
       (s.ctx 0 0).badStore = false ∧
       decide (handlerAt (s.setCtx 0 0 { s.ctx 0 0 with pendWatchdog := none, lastIssue := s.cycle }) 0 0x22 ≠ 0) = h) ∧
    (let s := causeScene true { Ctx.zero with phase := .running }
     let s := { s.setPart 0 { s.part 0 with blkWdog := 1 } with cycle := 2001 }
     (s.ctx 0 0).pendWatchdog = none ∧ (s.part (s.partIdOf 0)).blkWdog ≠ 0 ∧
       2000 * (s.part (s.partIdOf 0)).blkWdog.toNat < s.cycle - (s.ctx 0 0).lastIssue ∧ replayable (s.ctx 0 0) = true) ∧
    (∀ h : Bool, let s := causeScene h { Ctx.zero with pendPreempt := some (2, 9), phase := .running }
     (s.ctx 0 0).pendPreempt = some (2, 9) ∧ replayable (s.ctx 0 0) = true ∧ (s.ctx 0 0).phase = .running ∧ decide (handlerAt (s.setCtx 0 0
       { s.ctx 0 0 with pendPreempt := none, action := some 2, drainFrom := some s.cycle }) 0 0x21 ≠ 0) = h) ∧
    (let s := { causeScene true { Ctx.zero with
        action := some 2, drainFrom := some 0, handler := true, replayEntry := true, trapCause := 0x421, trapInfo := 0x100000002 } with cycle := 2001 }
     (s.ctx 0 0).action = some 2 ∧ (s.ctx 0 0).drainFrom = some 0 ∧ (s.ctx 0 0).handler = true ∧ (s.ctx 0 0).replayEntry = true ∧
       wbits (s.ctx 0 0).trapCause 0 8 = 0x21 ∧ 2000 * wbits (s.ctx 0 0).trapInfo 32 32 < s.cycle - 0 ∧ (s.ctx 0 0).paused = none) := by
  decide +kernel

/-- No host queue is served while none is enabled. -/
theorem none_served {s : State} (h : s.queues = Vector.replicate _ HostQueue.zero) (p : PartId) : servedQueues s p = [] := by
  have e : ∀ q, s.queue q = HostQueue.zero := by
    intro q
    simp [State.queue, h]
  have z : HostQueue.zero.en = false := by decide
  simp [servedQueues, e, z]

/-- A record at 40H that the dispatcher is to place again, with w0. -/
def dispatchScene (w0 : W64) : State := { machineOf Ctx.zero |> withWords 0x40 [w0] with replaced := [(0, .mk 0x40 none)] }

/-- That record as the dispatcher sees it. -/
def hostHead (w0 : W64) : HostHead := .mk (.mk 0x40 none) 0x40 #v[w0, 0, 0, 0, 0, 0, 0, 0] none

/-- The w0 of a record of priority 1. -/
def plainWord : W64 := 0x10000000000000

/-- A core whose four contexts run, with a record in its queue since cycle 0. -/
def busyCore : Core :=
  { Core.zero with ctx := Vector.replicate _ { Ctx.zero with phase := .running }, queue := [0x40], fullSince := some 0 }

/-- As `dispatchScene`, with the four cores of the partition busy. -/
def crowdedScene : State := ([0, 1, 2, 3] : List CoreId).foldl (fun s c => s.setCore c busyCore) (dispatchScene plainWord)

/-- Core 3 is busy long enough for core 0 to steal from it. -/
def stealScene : State :=
  let s := machineOf Ctx.zero
  { s.setPart 0 { s.part 0 with stealDly := 1, tokens := 1, budSlip := 1, budMem := 1, budLugil := 1 } with cycle := 2001 }.setCore 3 busyCore

theorem witness_Dispatching_heads : deadQueue (dispatchScene plainWord) 0 = none ∧
    nextHost (dispatchScene plainWord) 0 = some (hostHead plainWord) ∧
    nextHost (dispatchScene 0x2000000000000000) 0 = some (hostHead 0x2000000000000000) ∧
    nextHost (dispatchScene 0x8000000000000000) 0 = some (hostHead 0x8000000000000000) ∧
    nextHost crowdedScene 0 = some (hostHead plainWord) ∧ nextHost stealScene 0 = none ∧
    (∀ q ∈ servedQueues (dispatchScene plainWord) 0, ringReach (dispatchScene plainWord) q ≠ .missing) := by
  refine ⟨?_, ?_, ?_, ?_, ?_, ?_, ?_⟩
  · rw [deadQueue, none_served rfl]
    rfl
  · rw [nextHost, none_served rfl]
    decide +kernel
  · rw [nextHost, none_served rfl]
    decide +kernel
  · rw [nextHost, none_served rfl]
    decide +kernel
  · rw [nextHost, none_served rfl]
    decide +kernel
  · rw [nextHost, none_served rfl]
    rfl
  · rw [none_served rfl]
    exact fun q h => absurd h (List.not_mem_nil)

theorem witness_Dispatching : (serving (dispatchScene plainWord) 0 = true ∧ ((dispatchScene plainWord).part 0).reserving = none ∧
      hasToken (dispatchScene plainWord) 0 = true ∧ badRecord (hostHead plainWord).words (hostHead plainWord).addr = false ∧
      gangBit (hostHead plainWord).words = false ∧ (0 : CoreId) ∈ coresOf (dispatchScene plainWord) 0 ∧
      placeable (dispatchScene plainWord) (hostHead plainWord).words 0 = true ∧
      (∀ d ∈ coresOf (dispatchScene plainWord) 0, runningCount ((dispatchScene plainWord).core 0) = runningCount ((dispatchScene plainWord).core d)
        ∧ (0 : CoreId) ≤ d) ∧ freeCtxOf ((dispatchScene plainWord).core 0) = some 0) ∧
    (badRecord (hostHead 0x8000000000000000).words 0x40 = true ∧ badRecord (hostHead 0x2000000000000000).words 0x40 = false ∧
      gangBit (hostHead 0x2000000000000000).words = true) ∧
    (serving crowdedScene 0 = true ∧ hasToken crowdedScene 0 = true ∧
      (∀ d ∈ coresOf crowdedScene 0, placeable crowdedScene (hostHead plainWord).words d = false) ∧
      victim crowdedScene 0 (recPrio (hostHead plainWord).words) = some (3, 3)) := by decide +kernel

theorem witness_Dispatching_steals : serving stealScene 0 = true ∧ startable stealScene 0 = true ∧ (stealScene.part 0).reserving = none ∧
    stealScene.partOf 0 = some 0 ∧ queueLength (stealScene.core 0) = 0 ∧
    hasToken stealScene 0 = true ∧ stealable stealScene 0 0 3 = true ∧
    (∀ d ∈ coresOf stealScene 0, stealable stealScene 0 0 d = true → stealRank 0 3 ≤ stealRank 0 d) ∧
    freeCtxOf (stealScene.core 0) = some 0 ∧ (stealScene.core 3).queue = [0x40] ∧ wbit (0x40 : W64) 57 = false ∧
    canGrant stealScene 0 (startWords (release stealScene (linkCore 0x40) (scopeOf (linkCore 0x40) 0) everyByte) 0 (entryName 0x40)) = true := by
  decide +kernel

/-- A gang of one waits. -/
def gangScene : State := { machineOf Ctx.zero with gangs := [.mk 0 0 1 [.mk 0x40 none]] }

/-- Context 0 is to be pre-empted: its record permits what w0 says. -/
def drainScene (w0 : W64) : State :=
  { machineOf { Ctx.zero with
      phase := .running, action := some 0, drainFrom := some 0, job := { Record.none with words := Record.none.words.set 0 w0 } } with cycle := 20001 }

/-- It is to be saved, or is being saved into slot 7. -/
def saveScene (b : Bool) : State :=
  let s := machineOf { Ctx.zero with phase := if b then .saving 7 else .running, action := some 1 }
  s.setCore 0 { s.core 0 with saves := if b then [.mk 0 7 0 false] else [] }

/-- A saved continuation with an accumulator that the core has free; save_base is as said. -/
def savedScene (base : W64) : State :=
  let s := machineOf Ctx.zero
  s.setCore 0 { s.core 0 with saved := [.mk 0 { Ctx.zero with acc := 4, phase := .running }], saveBase := base }

theorem witness_Dispatching_gangs : gangScene.gangs.find? (fun g => g.part == 0 && g.gangid.toNat == 0) = some (.mk 0 0 1 [.mk 0x40 none]) ∧
    gangEntry gangScene 0 0 = (1, 1, 0, 0) ∧ serving gangScene 0 = true ∧ (gangScene.part 0).reserving = none ∧ hasToken gangScene 0 = true ∧
    (assignGroups ((coresOf gangScene 0).map (fun c => (c, gangRoom gangScene c 1 none 0 0))) 1 1).length = 1 ∧
    (stealScene.part 0).tokenAt ≠ stealScene.cycle / 200000 + 1 ∧ (stealScene.part 0).tokens ≠ 0 ∧
    (stealScene.part 0).slipAt ≠ stealScene.cycle / 2000 + 1 ∧ (stealScene.part 0).budSlip ≠ 0 ∧ stealScene.inbox = [] ∧
    stealScene.outbox = [] := by decide +kernel

theorem witness_Dispatching_actions :
    ((drainScene 0).ctx 0 0).action = some 0 ∧ ((drainScene 0).ctx 0 0).drainFrom = some 0 ∧
    2000 * ((drainScene 0).part ((drainScene 0).partIdOf 0)).drainLim.toNat < (drainScene 0).cycle - 0 ∧
    strongAction (drainScene 0) 0 0 = none ∧ strongAction (drainScene 0x1000000000000000) 0 0 = some 1 ∧
    ((saveScene false).ctx 0 0).action = some 1 ∧ ((saveScene false).ctx 0 0).handler = false ∧ ((saveScene false).ctx 0 0).phase = .running ∧
    ((saveScene false).core 0).saves = [] ∧ 0 ∉ slotsUsed ((saveScene false).core 0) ∧ ((saveScene true).ctx 0 0).action = some 1 ∧
    ((saveScene true).ctx 0 0).phase = .saving 7 ∧ ((saveScene true).core 0).saves = [.mk 0 7 0 false] ∧ quiet (saveScene true) 0 0 = true ∧
    (saveScene true).retrains = [] ∧ ((saveScene true).ctx 0 0).fences = [] ∧ ((saveScene true).ctx 0 0).pendFault = none ∧
    (teamScene.ctx 0 0).action = some 2 ∧ (teamScene.ctx 0 0).handler = false ∧
    running (teamScene.ctx 0 0) = true ∧ teamScene.team (teamScene.ctx 0 0).job.team = some (teamOf false) ∧
    ({ teamScene with teams := [teamOf true] } : State).team (teamOf true).id = some (teamOf true) ∧ (teamOf true).killed = true ∧
    (teamOf true).abort = false := by decide +kernel

theorem witness_Dispatching_resumes :
    ([0x8000000000000000, 0x8000FFFFFFFF0000] : List W64).all (fun base => let s := savedScene base
      (s.part (s.partIdOf 0)).reserving.isNone && (s.core 0).saved.all (fun v => decide (v.ctx.acc ≤ accFree (s.core 0)) && !v.ctx.r.owns)
        && startable s 0 && decide (freeCtxOf (s.core 0) = some 0)) = true ∧
    (place (fullAcquire (savedScene 0x8000FFFFFFFF0000) 0).2 0 .peek (saveSlotAddr (fullAcquire (savedScene 0x8000FFFFFFFF0000) 0).2 0 0)
      0x2C000).toOption.isNone = true ∧
    given (place (fullAcquire (savedScene 0) 0).2 0 .peek (saveSlotAddr (fullAcquire (savedScene 0) 0).2 0 0) 0x2C000) = true := by
  decide +kernel

/-- The engine of context 0 of core 0 holds the copy k; a copy to group 255 waits in a transfer and a mailbox copy for a tile; s's pool
holds a request of the slip 5 and a receive 9. -/
def copyScene (k : Copy) : State :=
  let s := { (engineScene 0 false).setEngine 0 0 { Engine.zero with copies := [k] } with
    cycle := 2001, transfers := [.mk 9 255 0 [1] none (some (0, 0)) (some (0, 0, 7)) none false] }
  let s := s.setPool 0 0 { s.pool 0 0 with waiting := [.mk (.copy 0 0 7) 3 1 0 0] }
  s.setPart 0 { s.part 0 with allocWdog := 1 }

/-- A copy that moves. -/
def movingOf (form : CopyForm) (kind : BitVec 2) : Copy := { copyOf form with started := true, kind := kind }

/-- A copy that reads a tile, the handle h, and spends a read. -/
def spendingOf (h : W64) : Copy := { copyOf .plain with shape := rget shapes 1, src := h }

theorem witness_CopySteps : ([.plain, .add, .gather, .wstore, .tile, .mcast] : List CopyForm).all (fun f =>
      (copyOf f).started == false && (copyOf f).aborted == false && shField (copyOf f).shape 6 == 0
        && decide (((copyScene (copyOf f)).engine 0 0).copies = [copyOf f])) = true ∧
    ((engineScene 1 false).engine 0 0).copies = [copyOf .plain] ∧
    (copyScene (spendingOf (handleOf 0 0 0 1))).ecc = [] ∧ (copyScene (spendingOf (handleOf 0 0 0 1))).poison = [] ∧
    (shField (spendingOf 0).shape 6 = 1 ∧ shField (spendingOf 0).shape 28 ≠ 1 ∧
      handleMatches (copyScene (spendingOf (handleOf 0 0 0 2))) (handleOf 0 0 0 2) = false ∧
      handleMatches (copyScene (spendingOf (handleOf 0 0 0 1))) (handleOf 0 0 0 1) = true ∧
      (tileOf (copyScene (spendingOf (handleOf 0 0 0 1))) (handleOf 0 0 0 1)).state ≠ .open ∧
      handleMatches poolScene (handleOf 0 0 0 1) = true ∧ (tileOf poolScene (handleOf 0 0 0 1)).state = .open) ∧
    ([(.plain, 2), (.add, 0), (.gather, 1)] : List (CopyForm × BitVec 2)).all (fun p =>
      decide (movingCopy (copyScene (movingOf p.1 p.2)) 0 0 7 = some (movingOf p.1 p.2))) = true := by decide +kernel

/-- A shape of one 16-byte word of Q63.64 accumulators. -/
def wordShape : File 4 W64 := shPut (Vector.replicate _ 0) 0 16

theorem witness_CopySteps_sums : (let k := { movingOf .add 0 with shape := wordShape }
    k.form = .add ∧ k.moved = 0 ∧ k.data = none ∧ k.kind.toNat < 2 ∧ walkRuns k.shape ≠ 0 ∧ accElem k.shape ≤ runLen k.shape ∧
      place (copyScene k) 0 .read k.src (runLen k.shape) = .ok (.scratch 0 0x100) ∧
      memReady (copyScene k) ((copyScene k).partIdOf 0) (copyBlocks (copyScene k) 0 k 0 0 (accElem k.shape)) = true ∧
      (copyScene k).poison = [] ∧ (copyScene k).ecc = []) ∧
    engineCause (.pageRefused 15) = (.page, 9) ∧ engineCause (.uncorrectable 15) = (.eccue, 8) ∧
    liveCopy (copyScene (movingOf .plain 1)) 0 0 7 = some (movingOf .plain 1) ∧ (movingOf .plain 1).started = true := by decide +kernel

/-- As `copyScene`, with the pool's one request by a slip of itinerary 0 or for a received slip. -/
def askScene (w : Asker) : State :=
  let s := copyScene (copyOf .tile)
  let s := s.setPool 0 0 { s.pool 0 0 with waiting := [.mk w 3 1 0 0] }
  { s.setItin 0 { Itin.zero with flight := [.mk 5 (Vector.replicate _ 0) true none false none 0 false] } with
    receives := [.mk 9 1 0 []], transfers := [.mk 9 255 0 [1] none none none (some (0, 5)) false] }

theorem witness_CopySteps_waits : ((copyScene (copyOf .tile)).pool 0 0).waiting = [.mk (.copy 0 0 7) 3 1 0 0] ∧
    ((copyScene (copyOf .tile)).part ((copyScene (copyOf .tile)).partIdOf 0)).allocWdog ≠ 0 ∧
    2000 * ((copyScene (copyOf .tile)).part ((copyScene (copyOf .tile)).partIdOf 0)).allocWdog.toNat < (copyScene (copyOf .tile)).cycle - 0 ∧
    ((copyScene (copyOf .tile)).engine 0 0).copy 7 = some (copyOf .tile) ∧
    ((askScene (.slip 0 5)).pool 0 0).waiting = [.mk (.slip 0 5) 3 1 0 0] ∧ ((askScene (.slip 0 5)).itin 0).flight.map (·.num) = [5] ∧
    ((askScene (.xfer 9)).pool 0 0).waiting = [.mk (.xfer 9) 3 1 0 0] ∧ (askScene (.xfer 9)).receives = [.mk 9 1 0 []] ∧
    (copyScene (copyOf .mcast)).transfers.find? (fun t => t.id == 9) = some (.mk 9 255 0 [1] none (some (0, 0)) (some (0, 0, 7)) none false) ∧
    ((copyScene (copyOf .mcast)).group 255).any (fun e => windowOpen (copyScene (copyOf .mcast)) 255 e) = true ∧
    ({ copyScene (copyOf .mcast) with groups := [] } : State).group 255 = none ∧
    liveCopy (copyScene (copyOf .mcast)) 0 0 7 = some (copyOf .mcast) ∧
    (askScene (.slip 0 5)).transfers.find? (fun t => t.id == 9) = some (.mk 9 255 0 [1] none none none (some (0, 5)) false) := by decide +kernel

theorem witness_CopiesMove : movingCopy (copyScene (movingOf .plain 1)) 0 0 7 = some (movingOf .plain 1) ∧ (movingOf .plain 1).moved = 0 ∧
    (movingOf .plain 1).data = none ∧ (movingOf .plain 1).fault = none ∧ (movingOf .plain 1).kind.toNat < 2 ∧ (movingOf .plain 1).xfer = none ∧
    walkRuns (movingOf .plain 1).shape = 1 ∧ shField (movingOf .plain 1).shape 9 = 0 ∧
    place (copyScene (movingOf .plain 1)) 0 .read 0x100 (runLen (movingOf .plain 1).shape) = .ok (.scratch 0 0x100) ∧
    (Place.scratch 0 0x100).key + runLen (movingOf .plain 1).shape ≤ (Place.scratch 0 0x200).key ∧
    placeIn (copyScene (movingOf .plain 1)) ((copyScene (movingOf .plain 1)).partIdOf 0) 0 .write 0x200 (runLen (movingOf .plain 1).shape)
      = .ok (.scratch 0 0x200) ∧ (copyScene (movingOf .plain 1)).ecc = [] ∧ (copyScene (movingOf .plain 1)).poison = [] ∧
    memReady (copyScene (movingOf .plain 1)) ((copyScene (movingOf .plain 1)).partIdOf 0)
      (copyBlocks (copyScene (movingOf .plain 1)) 0 (movingOf .plain 1) 0 0 (runLen (movingOf .plain 1).shape)) = true := by decide +kernel

/-- 64 KiB of each tier, one after the other in the upper half; itinerary 0 runs, with its ring of one slip, of hop kind w3's, at 40H of T1. -/
def tiersScene (hop : Nat) (flight : List Slip) : State :=
  let s := machineOf Ctx.zero
  let s := s.setPart 0 { s.part 0 with
    table := ([1, 2, 3, 4] : List Nat).map (fun t => .mk (BitVec.ofNat 64 (0xE30 + 64 * t + (t - 1) * 2 ^ 16)) 0) }
  let s := s |> withWords (keyTier 1 0 0x40) [0x8000000000010000, 0x8000000000000000, BitVec.ofNat 64 (hop * 2 ^ 32 + 0x40), 0]
  s.setItin 0 { Itin.zero with
    state := .running, flight := flight, desc := #v[0x8000000000000040, 0x100000001, 0, 0x1111, 0, 0, 0, 0] }

/-- A slip of 64 bytes from T2 to T1, or of that hop kind. -/
def slipOf (hop : Nat) : Slip :=
  .mk 1 #v[0x8000000000010000, 0x8000000000000000, BitVec.ofNat 64 (hop * 2 ^ 32 + 0x40), 0] false none false none 0 false

/-- That slip into a tile. -/
def tileSlip : Slip :=
  { slipOf 3 with words := (slipOf 3).words.set 0 0x8000000000000000, tile := some (handleOf 0 0 0 1) }

theorem witness_SlipsAndBatches_slips :
    ([2, 7] : List Nat).all (fun hop => let s := tiersScene hop []
      decide ((s.itin 0).state = .running) && decide ((s.itin 0).started < itPasses (s.itin 0) * itSlips (s.itin 0))
        && (placeIn s 0 0 .read (itRing (s.itin 0)) 32).toOption.any (fun q => decide ((slipOf hop).words = Vector.ofFn (fun i : Fin (2 ^ 2) =>
         leWord 64 (((s.mem.readRun q.key 32).drop (8 * i.val)).take 8)))) && decide ((slipOf hop).num = (s.itin 0).base + (s.itin 0).started + 1)
        && s.ecc.isEmpty && s.poison.isEmpty && decide ((slipFault s 0 (s.itin 0) (slipOf hop)).isSome = (hop == 7))) = true ∧
    (let s := tiersScene 2 []
     (s.itin 0).flight = [] ∧ 0 < itWindow (s.itin 0) (slipOf 2).hop ∧ ((refreshBudgets s 0).part 0).slipsLeft ≠ some 0 ∧
       (placeIn s 0 0 .read (itRing (s.itin 0)) 32).toOption.any (fun q => memReady s (s.itin 0).part (q.blocks 32)) = true) ∧
    (let s := tiersScene 2 [slipOf 2]
     (s.itin 0).flight = [slipOf 2] ∧ (slipOf 2).waiting = false ∧ (slipOf 2).moved = false ∧ (slipOf 2).hop ≤ 2 ∧ (slipOf 2).tile = none ∧
       (slipSrc s (s.itin 0) (slipOf 2)).isSome = true ∧ (slipDst s 0 (s.itin 0) (slipOf 2)).isSome = true ∧
       memReady s (s.itin 0).part (slipBlocks s 0 (slipOf 2)) = true) ∧
    (let s := tiersScene 3 [tileSlip]
     (s.itin 0).flight = [tileSlip] ∧ tileSlip.waiting = false ∧ tileSlip.moved = false ∧ tileSlip.tile = some (handleOf 0 0 0 1) ∧
       (slipSrc s (s.itin 0) tileSlip).isSome = true ∧ memReady s (s.itin 0).part (slipBlocks s 0 tileSlip) = true) := by decide +kernel

/-- A slip of 64 bytes from T1 to tiles of group 255. -/
def groupSlip : Slip := { slipOf 4 with words := #v[0x8000000000000000, 0, 0x10FF0400000040, 0] }

/-- As `tiersScene` with that slip next, the one slot of the group's window taken if b. -/
def groupScene (b : Bool) : State :=
  let s := (tiersScene 4 []) |> withWords (keyTier 1 0 0x40) [0x8000000000000000, 0, 0x10FF0400000040, 0]
  { s.setPool 0 0 { desc := #v[0x202000000, 0, 2, 0], waiting := [], tiles := [] } with
    groups := [(255, #v[2, 0x10010])], transfers := if b then [.mk 9 255 0 [1] none none none none true] else [] }

theorem witness_SlipsAndBatches_groups : ∀ b : Bool, let s := groupScene b
    groupSlip.hop = 4 ∧ groupSlip.group = 255 ∧ (s.itin 0).state = .running ∧ (s.itin 0).flight = [] ∧ 0 < itWindow (s.itin 0) 4 ∧
      slipFault s 0 (s.itin 0) groupSlip = none ∧ (slipGroup (refreshBudgets s 0) groupSlip).isNone = b ∧
      (placeIn s 0 0 .read (itRing (s.itin 0)) 32).toOption.any (fun q => decide (groupSlip.words = Vector.ofFn (fun i : Fin (2 ^ 2) =>
        leWord 64 (((s.mem.readRun q.key 32).drop (8 * i.val)).take 8)))) = true ∧
      memReady (refreshBudgets s 0) 0 (keyBlocks ((slipSrc s (s.itin 0) groupSlip).getD 0) groupSlip.bytes) = true := by decide +kernel

theorem witness_SlipsAndBatches_failed : engineCause (.pageRefused 15) = (.page, 9) ∧ ((tiersScene 2 [slipOf 2]).itin 0).flight = [slipOf 2] := by
  decide +kernel

theorem witness_SlipsAndBatches_sent : (let s := tiersScene 4 [{ groupSlip with tile := none }]
     (s.itin 0).flight = [groupSlip] ∧ groupSlip.waiting = false ∧ groupSlip.moved = false ∧ groupSlip.hop = 4 ∧ groupSlip.tile = none ∧
       (slipSrc s (s.itin 0) groupSlip).isSome = true ∧ s.ecc = [] ∧ s.poison = [] ∧
       memReady s (s.itin 0).part (slipBlocks s 0 groupSlip) = true) := by decide +kernel

/-- A batch that closes at 1 ns. -/
def lateBatch : Batch := { batchOf 1 with config := #v[0, 1, 0, 0, 0, 0, 0, 0] }

/-- A shelf entry in a machine of four tiers, its page in T3. -/
def shelfScene (h : Shelf) : State :=
  { (tiersScene 2 [] |> withWords 0x40 [3]).setShelf 65535 h with
    cycle := 2000001
    gatherers := State.reset.gatherers.set 0 { Gatherer.zero with batches := [lateBatch] } }

/-- A free list of tier t that has room for a frame. -/
def listHolds (s : State) (t : Nat) : Bool := (s.part 0).flCount t + 1 != (s.part 0).flSize t

theorem witness_SlipsAndBatches :
    (let s := shelfScene (shelfOf .parked)
     (s.gatherer 0).batches = [lateBatch] ∧ lateBatch.expired (s.cycle - 1) = true ∧ lateBatch.tile = none) ∧
    (let h := shelfOf .parked
     (shelfScene h).shelfAt 65535 = h ∧ h.state = .parked ∧ timerOn h.cls 3 = true ∧ h.demote = none ∧ h.timers.getLsbD (3 - 1) = false ∧
       h.parkedAt + classTimer h.cls (3 - 1) * 2000000 < (shelfScene h).cycle) ∧
    (let h := { shelfOf .parked with stalled := [(3, 0, 5)] }
     h.state = .parked ∧ h.demote = none ∧ (shelfScene h).shelfAt 65535 = h ∧
       h.stalled.find? (fun d => decide (d.2.2 ≤ (shelfScene h).cycle)) = some (3, 0, 5)) ∧
    (let h := { shelfOf .parked with move := some (.mk 0 1 4) }
     (shelfScene h).shelfAt 65535 = h ∧ tableEntry (shelfScene h) ((shelfScene h).shelfAt 65535) 0 = 3 ∧
       (pageKey (shelfScene h) 0 (entryState 3) (entryFrame 3)).isSome = true ∧ (pageKey (shelfScene h) 0 4 1).isSome = true ∧
       listHolds (shelfScene h) (entryState 3) = true ∧ memReady (shelfScene h) 0 (moveBlocks (pageKey (shelfScene h) 0 3 0)
         (pageKey (shelfScene h) 0 4 1)) = true) ∧
    ({ shelfScene (shelfOf .parked) with boot := .ready } : State).boot = .ready ∧
    wbits (0xFFFFFFFF : W64) 32 4 = 0 ∧ wbits (0xFFFFFFFF : W64) 0 16 = 65535 ∧
    ((shelfScene (shelfOf .parked)).shelfAt 65535).gen.toNat ≠ wbits (0xFFFF : W64) 16 16 ∧
    (let h := { shelfOf .waking with sources := [(0, 3, 1)] }
     (shelfScene h).shelfAt 65535 = h ∧ h.state = .waking ∧ h.move = none ∧ listHolds (shelfScene h) (entryState 3) = true ∧
       (pageKey (shelfScene h) 0 1 1).isSome = true ∧ memReady (shelfScene h) 0 (moveBlocks (pageKey (shelfScene h) 0 3 0)
         (pageKey (shelfScene h) 0 1 1)) = true ∧
       (giveFrame (shelfScene h) 0 3 0).any (fun t => (pageKey (shelfScene h) 0 3 0).any (fun src => crcOk t h 0 src)) = true) := by
  decide +kernel

/-- Queue 0 as its q1 says, in a package that has booted. -/
def hostQueueScene (q1 : W64) : State :=
  { State.reset.setQueue 0 { HostQueue.zero with q1 := q1 } with boot := .ready }

/-- The blocks and numbers of the register writes that have no effect. -/
def outside (block n : Nat) : Bool :=
  (block != 0 || decide (n < 0x300)) && (!decide (1 ≤ block ∧ block ≤ 16) || decide (n < 0x200) || decide (0x300 ≤ n))
    && (!decide (32 ≤ block ∧ block < 544) || decide (n < 0x120) || decide (0x200 ≤ n))

theorem witness_HostWrites : (bubbleScene.ctx (intCore 0) (intCtx 0)).empty = false ∧
    ((hostQueueScene 0).ctx (intCore 0) (intCtx 0)).empty = true ∧ (hostQueueScene 4).boot = .ready ∧ State.reset.boot ≠ .ready ∧
    ((hostQueueScene 4).queue 0).fabric = false ∧ ((hostQueueScene 4).queue 0).en = false ∧ ((hostQueueScene 0x1004).queue 0).en = true ∧
    (0xFFFF : W64).toNat % 2 ^ 16 = (0xFFFF : BitVec 16).toNat ∧
    ((0x200, 64) ∈ [(0x200, 64), (0x21A, 64)] ∧ (0x219, 8) ∈ [(0x218, 32), (0x219, 8)]) ∧
    ([(0, 0x2FF), (1, 0x1FF), (16, 0x300), (17, 0x200), (32, 0x11F), (543, 0x200), (544, 0x120)] : List (Nat × Nat)).all
      (fun q => outside q.1 q.2) = true ∧
    (((hostQueueScene 4).core 0).queue = [] ∧ ((hostQueueScene 4).core 0).spillCount = 0 ∧ ((hostQueueScene 4).core 0).heldPushes = []) ∧
    (wbits (0 : W64) 0 5 = 0 ∧ 6 ≤ wbits (6 : W64) 0 5 ∧ wbits (16 : W64) 0 5 ≤ 16) ∧ 
    (({ phaseScene .idle with boot := .ready } : State).core 0).queue ≠ [] := by
  decide +kernel

theorem witness_HostWrites_shares : (hostQueueScene 0).itins.toList.all (fun y => decide (y.state = .idle)) = true ∧
    ([0, 1, 2, 3, 4, 5, 6, 7, 8, 9, 10, 11, 12, 13, 14, 15] : List PartId).all (fun p => decide (((hostQueueScene 0).part p).itOwn = 0)) = true := by
  decide +kernel

/-- A configuration operation v runs; cfg_addr is at the start of T1, where the words stand. -/
def configScene (v : W64) (ws : List W64) : State :=
  let s := machineOf Ctx.zero |> withWords (keyTier 1 0 0) ws
  { s with boot := .ready, pkg := { s.pkg with cfgOp := v, cfgAddr := 0x8000000000000000 } }

/-- The n bytes at cfg_addr are read, and meet a test. -/
def cfgHas (s : State) (n : Nat) (test : List Byte → Bool) : Bool :=
  match cfgBytes s 0 n with
  | .bytes bs => test bs
  | _ => false

theorem witness_Configuration :
    (cfgBusy (configScene 0 []) = false ∧ cfgBad (1 : W64) = false ∧ cfgKind (1 : W64) = 1 ∧ cfgBad (2 : W64) = false ∧ cfgKind (2 : W64) = 2 ∧
      cfgBad (3 : W64) = false ∧ cfgKind (3 : W64) = 3) ∧
    ((configScene 0 []).partOf (cfgCore 2) = some (cfgPart 2) ∧ cfgHas (configScene 0 [0x202000000, 0, 2, 0]) 32 (fun bs =>
      poolOk (configScene 0 [0x202000000, 0, 2, 0]) 0 0 (poolOfWords (Vector.ofFn (fun i : Fin (2 ^ 2) => wordAt bs i.val)))) = true) ∧
    cfgHas (configScene 0 [0, 0]) 16 (fun bs => classOk #v[wordAt bs 0, wordAt bs 1]) = true ∧
    ((plainScene.setPart 0 { Part.zero with wsWant := true }).part 0).wsWant ≠
      ((plainScene.setPart 0 { Part.zero with wsWant := true }).part 0).wsLocked ∧
    writingStore (plainScene.setPart 0 { Part.zero with wsWant := true }) 0 = false ∧
    ((plainScene.setPart 0 { Part.zero with wsLocked := true }).part 0).wsWant ≠
      ((plainScene.setPart 0 { Part.zero with wsLocked := true }).part 0).wsLocked ∧
    (∀ c ∈ coresOf (plainScene.setPart 0 { Part.zero with wsLocked := true }) 0,
      ((plainScene.setPart 0 { Part.zero with wsLocked := true }).core c).ctx.toList.any running = false) := by decide +kernel

/-- Memory that lists nothing reads as zeros. -/
theorem empty_run (k n : Nat) : Memory.readRun [] k n = List.replicate n 0 := by
  simp [Memory.readRun, Memory.read, List.map_const']

/-- Words of zeros. -/
theorem word_of_zeros (n i : Nat) : wordAt (List.replicate n 0) i = 0 := by
  have z : ∀ m, leNat (List.replicate m 0) = 0 := by
    intro m
    induction m with
    | zero => rfl
    | succ m ih => rw [List.replicate_succ, leNat, ih]; rfl
  rw [wordAt, List.drop_replicate, List.take_replicate, leWord, z]
  rfl

/-- A table load of partition 0 runs, for a table without extents. -/
def tableScene : State := configScene 0x80000001 []

theorem table_bytes : cfgBytes tableScene 0 8192 = .bytes (List.replicate 8192 0) := by
  have h : placeIn tableScene 0 (coreOfPart tableScene 0) .peek tableScene.pkg.cfgAddr 8192 = .ok (.tier tierExtent 0) := by decide +kernel
  have m : tableScene.mem = [] := by decide +kernel
  unfold cfgBytes
  rw [h]
  show CfgRead.bytes (tableScene.mem.readRun _ 8192) = _
  rw [m, empty_run]

theorem table_empty : (tableOf (List.replicate 8192 0)).filter (fun e => e.valid) = [] := by
  simp only [tableOf, word_of_zeros]
  rw [List.filter_eq_nil_iff]
  intro e he
  obtain ⟨i, _, rfl⟩ := List.mem_map.mp he
  decide

theorem witness_Configuration_tables : cfgBusy tableScene = true ∧ cfgKind tableScene.pkg.cfgOp = 1 ∧ cfgPart tableScene.pkg.cfgOp = 0 ∧
    partIdle tableScene 0 = true ∧ cfgBytes tableScene 0 8192 = .bytes (List.replicate 8192 0) ∧
    ((tableOf (List.replicate 8192 0)).filter (fun e => e.valid)).all (extentOk tableScene) = true ∧
    disjoint ((tableOf (List.replicate 8192 0)).filter (fun e => e.valid)) = true := by
  refine ⟨by decide +kernel, by decide +kernel, by decide +kernel, by decide +kernel, table_bytes, ?_, ?_⟩ <;> (rw [table_empty]; rfl)

/-- The access-control and the group table stand at the start of T1. -/
def fabricScene : State :=
  let s := machineOf Ctx.zero
  { s with boot := .ready, pkg := { s.pkg with aclBase := 0x8000000000000000, grpBase := 0x8000000000000000 } }

theorem fabric_bytes (n : Nat) (h : placeIn fabricScene 0 (coreOfPart fabricScene 0) .peek 0x8000000000000000 n = .ok (.tier tierExtent 0)) :
    fabricBytes fabricScene 0x8000000000000000 n = some (List.replicate n 0) := by
  have m : fabricScene.mem = [] := by decide +kernel
  unfold fabricBytes
  rw [h]
  show some (fabricScene.mem.readRun _ n) = _
  rw [m, empty_run]

theorem witness_FabricTablesAndPorts :
    fabricBytes fabricScene fabricScene.pkg.aclBase 16384 = some (List.replicate 16384 0) ∧
    ((List.range 1024).map (fun i => (#v[wordAt (List.replicate 16384 0) (2 * i), wordAt (List.replicate 16384 0) (2 * i + 1)] : File 1 W64))).all
      aclOk = true ∧
    fabricBytes fabricScene fabricScene.pkg.grpBase 8192 = some (List.replicate 8192 0) ∧
    (∀ i, 1 ≤ i → i ≤ 255 → groupEntryOk #v[wordAt (List.replicate 8192 0) (4 * i), wordAt (List.replicate 8192 0) (4 * i + 1)]
      (wordAt (List.replicate 8192 0) (4 * i + 2)) (wordAt (List.replicate 8192 0) (4 * i + 3)) = true) ∧ fabricScene.transfers = [] ∧
    fabricScene.boot = .ready := by
  refine ⟨fabric_bytes 16384 (by decide +kernel), ?_, fabric_bytes 8192 (by decide +kernel), ?_, by decide +kernel, rfl⟩
  · have z : aclOk #v[0, 0] = true := by decide
    simp only [word_of_zeros, List.all_eq_true, List.mem_map]
    rintro e ⟨i, _, rfl⟩
    exact z
  · have z : groupEntryOk #v[0, 0] 0 0 = true := by decide
    intro i _ _
    simp only [word_of_zeros]
    exact z

/-- Port 17 belongs to the image, a new group table waits, and those retrains are asked for or run. -/
def linkScene (rs : List Retrain) : State :=
  { plainScene with
    boot := .ready, groupLoad := some [(255, #v[2, 0x10010])], retrains := rs
    image := some { seq := 0, qmap := Vector.replicate _ 0, hrate := 0, lrate := 0, ports := 0x20000, debug := false, plim := 0, bytes := [] } }

theorem witness_FabricTablesAndPorts_retrains : (linkScene []).groupLoad = some [(255, #v[2, 0x10010])] ∧
    groupHeld (linkScene []) [(255, #v[2, 0x10010])] = false ∧ wbit (linkScene []).pkg.mcReq 31 = false ∧ (linkScene []).boot = .ready ∧
    (linkScene []).inbox = [] ∧
    (0x80000013 : W64).getLsbD 31 = true ∧ wbits (0x80000013 : W64) 0 5 < 20 ∧
    (linkScene [.mk 19 3 false false 0]).retrains = [.mk 19 3 false false 0] ∧ saveHolds (linkScene [.mk 19 3 false false 0]) 19 = false ∧
    retraining (linkScene []) 19 = false ∧ (linkScene [.mk 19 3 false true 0]).retrains = [.mk 19 3 false true 0] ∧
    (linkScene []).image.any (fun im => im.ports.getLsbD 17) = true := by decide +kernel

/-- A packet of kind k from package 1, with an address, a word of auxiliaries and a payload of n zero bytes; the last of its transfer as
l says. -/
def packetOf (k : Nat) (va aux : W64) (l : Bool) (n : Nat) : Packet :=
  { h0 := BitVec.ofNat 64 (k + 2 ^ 16 + n * 2 ^ 40 + l.toNat * 2 ^ 53), h1 := va, h2 := 9, h3 := aux, payload := List.replicate n 0 }

/-- The fabric is enabled; one entry of the access-control table admits every packet of the kinds in ks to partition 0; queue 7 is fed by
the fabric, and its ring is translated by die 0; transfer 9 waits for package 1. -/
def packetScene (ks : Nat) : State :=
  let s := machineOf Ctx.zero
  { (s.setQueue 7 { HostQueue.zero with q1 := 0x3004 }) with
    pkg := { s.pkg with fabCtl := 1 }
    acl := [#v[BitVec.ofNat 64 (2 ^ 6 + 2 ^ 12 + 2 ^ 32 + ks * 2 ^ 20), 0x0FFF0000]]
    transfers := [.mk 9 255 0 [1] none (some (0, 0)) (some (0, 0, 7)) none true]
    tlb := rset s.tlb 0 [.mk 0 0 1 false true] }
    |>.setEngine 0 0 { Engine.zero with copies := [movingOf .mcast 1] }

theorem witness_Packets :
    ([1, 4, 5, 6] : List Nat).all (fun k => received (packetScene 15) (packetOf k 7 0 true 64) && pktKind (packetOf k 7 0 true 64) == k) = true ∧
    ([0, 1, 2, 3] : List Nat).all (fun n => counterFits (packetScene 15) (packetOf 1 7 0 true 64) n) = true ∧
    counterFits (packetScene 0) (packetOf 1 7 0 true 64) 0 = false ∧ received (packetScene 0) (packetOf 1 7 0 true 64) = true ∧
    pktDpart (packetOf 1 7 0 true 64) = 0 ∧ (0x4000000300000000 : W64).getLsbD 63 = false ∧
    wbits (0x4000000300000000 : W64) 32 9 = 3 ∧ (0x4000000300000000 : W64).getLsbD 62 = true ∧ (0x300000000 : W64).getLsbD 62 = false ∧
    (packetScene 15).partOf 3 = some 0 ∧ (packetScene 15).partOf 4 ≠ some 0 ∧
    placeIn (packetScene 15) 0 3 .write 0x100 64 = .ok (.scratch 0 0x100) ∧ placeIn (packetScene 15) 0 4 .write 0x100 64 = .ok (.scratch 4 0x100) ∧
    classOf (0x100 : W64) = 0 ∧ placeIn (packetScene 15) 0 4 .write 0x8000000000000000 64 = .ok (.tier tierExtent 0) ∧
    classOf (0x8000000000000000 : W64) ≠ 0 := by decide +kernel

theorem witness_Packets_others : pktLast (packetOf 1 7 0x8000000000000000 false 64) = false ∧ (0x8000000000000000 : W64).getLsbD 63 = true ∧
    (packetScene 15).receives = [] ∧ (packetScene 15).inbox = [] ∧ (packetOf 4 7 0 true 64).payload.length = 64 ∧
    (∃ q ∈ ({ packetScene 15 with inbox := [packetOf 1 7 0 false 64] } : State).inbox, pktSpkg q = pktSpkg (packetOf 1 7 0 true 64)) ∧
    wbits (leWord 64 ((packetOf 5 7 0 true 64).payload.take 8)) 32 4 = 0 ∧
    ([2, 3] : List Nat).all (fun k => received (packetScene 15) (packetOf k 0 0 true 0) && pktKind (packetOf k 0 0 true 0) == k
      && decide (answeredTransfer (packetScene 15) (packetOf k 0 0 true 0) = some (.mk 9 255 0 [1] none (some (0, 0)) (some (0, 0, 7)) none true))) = true ∧
    Cause.ofCode (pktCause { packetOf 3 0 0 true 0 with h2 := 0x1400000009 }) = .acl ∧
    liveCopy (memberAnswered (packetScene 15) (.mk 9 255 0 [1] none (some (0, 0)) (some (0, 0, 7)) none true) 1) 0 0 7 = some (movingOf .mcast 1) ∧
    ((memberAnswered { tiersScene 4 [slipOf 4] with transfers := [.mk 9 255 0 [1] none none none (some (0, 1)) true] }
      (.mk 9 255 0 [1] none none none (some (0, 1)) true) 1).itin 0).flight = [slipOf 4] := by decide +kernel

/-- What becomes of a record: 0 it has its slot, 1 it waits, 2 the queue takes none. -/
def filled (f : Filled) : Nat := match f with
  | .ok _ => 0
  | .wait _ => 1
  | .full => 2

theorem witness_Packets_records : (let s := packetScene 15;
      (s.queue 7).fabric = true ∧ (s.queue 7).part = 0 ∧ (s.queue 7).busy + (s.queue 7).pending < 2 ^ (s.queue 7).size ∧
      hostReach s 0 ((s.queue 7).q0.toNat + 64 * ((s.queue 7).tail % 2 ^ (s.queue 7).size)) true = .ready ∧
      filled (fillSlot s 0 (queueAt 7) (List.replicate 64 0)) = 0 ∧
      filled (fillSlot { s with tlb := rset s.tlb 0 [] } 0 (queueAt 7) (List.replicate 64 0)) = 1) ∧
    (let s := (packetScene 15).setQueue 7 { HostQueue.zero with q1 := 0x3004, q2 := 0x1000000000 };
      (s.queue 7).fabric = true ∧ (s.queue 7).part = 0 ∧ 2 ^ (s.queue 7).size ≤ (s.queue 7).busy + (s.queue 7).pending ∧
      filled (fillSlot s 0 (queueAt 7) (List.replicate 64 0)) = 2) := by decide +kernel

/-- All the HBM4 stacks retrain. -/
def stalledScene : State :=
  { packetScene 15 with retrains := [.mk 0 0 true true 0, .mk 1 0 true true 0, .mk 2 0 true true 0, .mk 3 0 true true 0] }

/-- A payload that waits for its stack, whichever holds it (log 41). -/
theorem witness_Packets_waits : memReady stalledScene 0 ((Place.tier tierExtent 0).blocks 64) = false := by
  have b : (Place.tier tierExtent 0).blocks 64 = [keyTier 1 0 0 / 64] := by decide +kernel
  have e : stalledScene.retrains.isEmpty = false := by decide +kernel
  have r : ∀ n < 4, stopped stalledScene n = true := by decide +kernel
  have t : targetOf (keyTier 1 0 0 / 64) = some (Config.moduleOf (keyTier 1 0 0 / 64) % 4) := rfl
  rw [b]
  simp [memReady, stalled, e, t, r _ (Nat.mod_lt _ (by decide : 0 < 4))]

/-- A configuration image that asks for nothing. -/
def plainImage : List Byte :=
  leBytes 4 0x50584347 ++ leBytes 4 1 ++ leBytes 8 5 ++ List.replicate 1456 0

/-- A boot of that image. -/
def bootOf (image : List Byte) : BootInput :=
  { firmware := [], image := image, minSeq := 5, devices := [], failed := [], trained := 0, apart := [], linksOk := true, broken := [], banks := [] }

/-- Step n of a boot fails. -/
def failsAt (b : BootInput) (n : Nat) : Prop :=
  n ∈ b.broken ∨ (n = 2 ∧ Config.signed b.firmware = false) ∨ (n = 4 ∧ imageOk b = false) ∨ (n = 5 ∧ b.linksOk = false)

/-- What the image must hold beside its signature is there; whether a signature is good is opaque (log 10). -/
theorem witness_image (h : Config.signed plainImage = true) : imageOk (bootOf plainImage) = true := by
  have r : (plainImage.length == 1472 && imageNat plainImage 0 4 == 0x50584347 && imageNat plainImage 4 4 == 1
      && decide (5 ≤ imageNat plainImage 8 8) && ((plainImage.drop 152).take 40).all (· == 0)) = true := by decide +kernel
  simp only [Bool.and_eq_true] at r
  simp only [imageOk, bootOf, h, Bool.and_eq_true]
  exact ⟨⟨⟨⟨⟨trivial, r.1.1.1.1⟩, r.1.1.1.2⟩, r.1.1.2⟩, r.1.2⟩, r.2⟩

/-- Where the signatures are good, no step fails; a step named as broken does first, then an image that is none, then the links. -/
theorem witness_BootAndReadOut (h : Config.signed plainImage = true) (f : Config.signed [] = true) : State.reset.boot = .powerOn ∧
    (∀ n, 1 ≤ n → n ≤ 7 → ¬ failsAt (bootOf plainImage) n) ∧
    failsAt { bootOf plainImage with broken := [1] } 1 ∧
    (failsAt (bootOf []) 4 ∧ ∀ m, 1 ≤ m → m < 4 → ¬ failsAt (bootOf []) m) ∧
    (failsAt { bootOf plainImage with linksOk := false } 5 ∧
      ∀ m, 1 ≤ m → m < 5 → ¬ failsAt { bootOf plainImage with linksOk := false } m) := by
  have i := witness_image h
  have j : imageOk { bootOf plainImage with linksOk := false } = true := i
  refine ⟨rfl, ?_, by simp [failsAt], ⟨by simp [failsAt, imageOk, bootOf], ?_⟩, ⟨by simp [failsAt], ?_⟩⟩
  · intro n _ _; simp [failsAt, i]; simp [bootOf, f]
  · intro n _ _; simp [failsAt, bootOf, f]; omega
  · intro n _ _; simp [failsAt, j]; simp [bootOf, f]; omega

/-- A frozen package whose image permits the read-out. -/
theorem witness_BootAndReadOut_scan : (let s := { frozenScene with image := (linkScene []).image.map (fun im => { im with debug := true }) };
    s.frozen = true ∧ readoutOk s = true) := by decide +kernel

theorem witness_BootAndReadOut_others : imageOk (bootOf []) = false ∧ readoutOk State.reset = false ∧ State.reset.frozen = false ∧
    attestation .getCertificate = some (0x82, 512) ∧ frozenScene.frozen = true ∧ frozenScene.agenda.head? ≠ some .packageReset ∧
    ((tiersScene 2 []).itin 0).part = 0 ∧ ((tiersScene 2 []).itin 0).state ≠ .idle ∧ ((tiersScene 2 []).itin 0).part ≠ 1 := by
  refine ⟨?_, by decide +kernel⟩
  simp [imageOk, bootOf]

/-- Die 0 keeps its own refresh, to be handed back at cycle n, or waits for heartbeats; the power alarm has stood since cycle 0. -/
def refreshScene (auto : Bool) (cycle : Nat) : State :=
  { State.reset.setRefresh 0 { auto := auto, origin := 0, beat := 0, beats := 0, due := if auto then some cycle else none, back := none } with
    cycle := cycle, powerSince := some 0 }

theorem witness_RefreshAndPower : (refreshScene false 6400).cycle - ((refreshScene false 6400).refreshOf 0).beat ≤ 6400 ∧
    6400 < (refreshScene false 6401).cycle - ((refreshScene false 6401).refreshOf 0).beat ∧
    ((refreshScene false 12800).refreshOf 0).auto = false ∧ 12800 ≤ (refreshScene false 12800).cycle - ((refreshScene false 12800).refreshOf 0).beat ∧
    ((refreshScene true 9).refreshOf 0).due = some 9 ∧ ((refreshScene true 9).refreshOf 0).auto = true ∧ 9 ≤ (refreshScene true 9).cycle ∧
    (refreshScene false 2000000).powerSince = some 0 ∧ 0 + 2000000 ≤ (refreshScene false 2000000).cycle ∧
    (State.reset.core 0).degraded = [] ∧ (State.reset.core 0).out = false ∧ (State.reset.core 1).narrow = false := by decide +kernel

/-- A bank's count has reached the level of activations, and where that level is not 0 one that nothing has activated has not (log 41). -/
theorem witness_RefreshAndPower_activations (h : 0 < Config.refreshLevel) : aget 0 State.reset.activations 7 < Config.refreshLevel ∧
    Config.refreshLevel ≤ aget 0 ({ State.reset with activations := [(7, Config.refreshLevel)] } : State).activations 7 :=
  ⟨h, Nat.le_refl _⟩

/-- Die 0 has asked for page 1000H of process 0; context 0 of core 0, in a phase, or its engine waits for the answer. -/
def pageScene (p : Phase) (engine : Bool) : State :=
  let s := machineOf { Ctx.zero with phase := p, asked := some (0x1000000, none) }
  { s.setEngine 0 0 { Engine.zero with copies := [{ movingOf .plain 1 with page := some 0x1000000 }] } with
    asks := rset s.asks 0 [(0, 0x1000)], pages := rset s.pages 0 [PageAsk.mk 0 0 engine 0x1000000] }

theorem witness_RefreshAndPower_pages : (0, 0x1000) ∈ rget (pageScene .running false).asks 0 ∧
    ((0x1000 : Nat) ≤ 0x1000 ∧ (0x1000 : Nat) < 0x1000 + 1) ∧ (dieTlb (pageScene .running false) 0).length < 16384 ∧
    (pageScene .running false).completions = [] ∧ (pageScene .running false).inbox = [] ∧ cfgBusy (pageScene .running false) = false ∧
    ((pageScene .running false).core 0).near = [] ∧
    ([false, true] : List Bool).all (fun e => decide (rget (pageScene (.waitPage (lateOf .page)) e).pages (BitVec.ofNat 3 (dieOf 0).val)
      = [PageAsk.mk 0 0 e 0x1000000])) = true ∧
    ((pageScene (.waitPage (lateOf .page)) false).ctx 0 0).asked = some (0x1000000, none) ∧
    ((pageScene (.waitPage (lateOf .page)) false).ctx 0 0).phase = .waitPage (lateOf .page) ∧
    ((pageScene .running false).ctx 0 0).phase = .running ∧
    ((pageScene .running true).engine 0 0).copies = [{ movingOf .plain 1 with page := some 0x1000000 }] ∧
    placeByte memScene 0 .peek (lineOf 0x8000000000000000) = .ok (.tier tierExtent 0) := by decide +kernel

/-- Registers s1 and v1 are empty, and every bit of g1 is 0. -/
def emptyScene : State :=
  scene { Regs.zero with sFull := BitVec.allOnes 32 &&& ~~~2, vFull := BitVec.allOnes 28 &&& ~~~2 }

theorem witness_GuardedOffAndEmpty : aluRule (.add r31) = some (r31, 1, fun a b => a + b) ∧ (vectorRule (.vadd f3)).isSome = true ∧
    (loadRule (.ldd i31)).isSome = true ∧ (storeRule (.std i31)).isSome = true ∧ (atomicRule (.amocas { fa with d := 30 })).isSome = true ∧
    emptyScene.src.fullS 1 = false ∧ emptyScene.src.fullS 31 = true ∧ on emptyScene 7 = false ∧ on emptyScene 0 = true ∧
    emptyScene.src.fullV 1 = false ∧ emptyScene.src.fullV 27 = true ∧ emptyScene.src.getG 7 = 0 ∧ emptyScene.me.handler = false :=
  ⟨rfl, by decide +kernel⟩

/-- A latch with n bundles to go. -/
def latchOf (d : Dest) (n : Nat) : Latch := .mk d (BitVec.allOnes 64) 1 16 n

/-- Registers with those latches; the array is to be cleared as b says. -/
def latched (b : Bool) (ls : List Latch) : Regs := { Regs.zero with latches := ls, clearing := b }

theorem witness_Landing : ((latched false [latchOf (.scalar 31) 72]).latches = [latchOf (.scalar 31) 72] ∧
      0 < (latchOf (.scalar 31) 72).left ∧ (latched false [latchOf (.scalar 31) 72]).clearing = false) ∧
    (latched false [latchOf (.vector 27) 1, latchOf (.vector 27) 1]).latches = [latchOf (.vector 27) 1, latchOf (.vector 27) 1] ∧
    (latched true [latchOf (.queue 3) 8]).clearing = true ∧ (latchOf (.queue 3) 8).drains = true ∧
    (latchOf (.scalar 31) 1).value = rowOfWord 1 ∧ (27 : BitVec 5).toNat < 28 ∧ (6 : BitVec 5) = 6 := by decide +kernel

/-- A context that owned the array at its checkpoint and has released it since. -/
def releasedScene : State := sceneOf { Ctx.zero with ck := { Regs.zero with owns := true } }

theorem witness_CheckpointAndRollback : (releasedScene.ctx 0 0).gate = [] ∧ (releasedScene.ctx 0 0).ck.owns = true ∧
    (releasedScene.ctx 0 0).r.owns = false ∧
    ((sceneOf { Ctx.zero with arrayKept := true }).ctx 0 0).arrayKept = true ∧
    ((sceneOf { Ctx.zero with arrayKept := true }).ctx 0 0).r.owns = false := by decide +kernel

/-- The handler table is at 20000H, its address of the cause ILL 1000H, if h. -/
def illScene (h : Bool) (k : Ctx) : State :=
  let s := machineOf k |> withWords 0x20008 (if h then [0x1000] else [])
  s.setPart 0 { s.part 0 with hbase := 0x20000 }

theorem witness_ExceptionEntry :
    ((machineOf { Ctx.zero with badStore := true }).ctx 0 0).badStore = true ∧
    ((illScene true { Ctx.zero with handler := true }).ctx 0 0).handler = true ∧ ((illScene true Ctx.zero).ctx 0 0).badStore = false ∧
    ((illScene true Ctx.zero).ctx 0 0).handler = false ∧
    handlerAt (framed (illScene false Ctx.zero) 0 0 .ill 0 4 1) 0 Cause.ill.code = 0 ∧
    handlerAt (framed (illScene true Ctx.zero) 0 0 .ill 0 4 1) 0 Cause.ill.code ≠ 0 := by decide +kernel

/-- A handler of context 0 is about to return by the form in eret_ctl, entered by replay as b says, with a fault held. -/
def eretScene (ctl : W64) (b : Bool) (held : Option Late) : State :=
  machineOf { Ctx.zero with handler := true, replayEntry := b, eretCtl := ctl, eretPc := 8, held := held, phase := .running, frame := some Regs.zero }

theorem witness_ExceptionReturn :
    ([(0, false), (0, true), (1, false), (1, true), (2, false), (0x502, false), (3, true)] : List (W64 × Bool)).all (fun p =>
      let k := (eretScene p.1 p.2 none).ctx 0 0
      decide (k.eretCtl = p.1 && k.replayEntry = p.2 && k.held.isNone && k.paused.isNone && k.commitDue = false && k.badStore = false)) = true ∧
    ([0, 1] : List W64).all (fun v => let k := { (eretScene v false none).ctx 0 0 with badStore := true };
      decide (wbits k.eretCtl 0 2 = v.toNat) && k.held.isNone && !k.replayEntry && decide (k.eretPc.toNat % 4 = 0) && k.badStore) = true ∧
    (let k := { (eretScene 0 true none).ctx 0 0 with commitDue := true, paused := some (.waitPage (lateOf .page)) };
      wbits k.eretCtl 0 2 = 0 ∧ k.held = none ∧ k.replayEntry = true ∧ k.commitDue = true ∧ k.badStore = false ∧ k.paused.isSome = true ∧
      k.asked.any (fun a => a.2.isSome) = false) ∧
    wbits (0x502 : W64) 0 2 = 2 ∧ wbits (0x502 : W64) 8 8 ≠ 0 ∧ wbits (2 : W64) 8 8 = 0 ∧ (8 : W64).toNat % 4 = 0 ∧ (6 : W64).toNat % 4 ≠ 0 ∧
    ((eretScene 0 true (some (lateOf .page))).ctx 0 0).held = some (lateOf .page) ∧
    ((eretScene 0 true (some (lateOf .eccue))).ctx 0 0).eccRetried = false ∧ (lateOf .eccue).info.getLsbD 0 = false ∧
    (lateOf .kvpoison).cause ≠ .page ∧ (lateOf .kvpoison).cause ≠ .eccue := by decide +kernel

theorem witness_MemoryReadsWrites : Memory.wf [(0, 1), (255, 2)] = true ∧ Memory.wf [] = true := by decide

/-- The instructions of a bundle in flight. -/
def slotsOf (s : State) : List Instr := (issueSlot (dropEvent s) s.turn).issue.slots

/-- The verdict after the first slot of the bundle that issues next. -/
def verdictOf (s : State) (i : Instr) : Option Verdict :=
  match exec i ((issueSlot (dropEvent s) s.turn).atSlot 0) with
  | .next v => some v.issue.verdict
  | _ => none

/-- A bundle whose first word is w, as `codeScene` has it. -/
def firstScene (w : Nat) : State :=
  let s := codeScene [BitVec.ofNat 64 (0x1000000000000000 + w), 0x9000000010000000]
  { s.setCtx 0 0 { s.ctx 0 0 with r := { (s.ctx 0 0).r with s := rset (s.ctx 0 0).r.s 1 0x40 } } with
    mem := s.mem.writeRun (keyScratch 0 0x40) [2] }

theorem witness_StepRuns_events : isEvent (.refreshWindow 0) = true ∧
    ({ machineOf Ctx.zero with agenda := [.refreshWindow 0] } : State).agenda = [.refreshWindow 0] ∧
    ({ machineOf Ctx.zero with agenda := [.refreshWindow 0] } : State).frozen = false ∧
    (dropEvent { machineOf Ctx.zero with agenda := [.refreshWindow 0] }).issue.live = false := ⟨rfl, rfl, by decide +kernel, rfl⟩

theorem witness_StepRuns : (firstScene 0x10000000).agenda = [] ∧ (firstScene 0x10000000).auto = false ∧
    (issueSlot (dropEvent (firstScene 0x10000000)) 0).issue.live = true ∧
    slotsOf (firstScene 0x10000000) = .nop :: List.replicate 3 .nop ∧ verdictOf (firstScene 0x10000000) .nop = some .ok ∧
    slotsOf (firstScene 314572805) = .trap (.mk 0 0 5 none) :: List.replicate 3 .nop ∧
    (match verdictOf (firstScene 314572805) (.trap (.mk 0 0 5 none)) with
      | some (.raised _ _ _) => true
      | _ => false) = true ∧
    slotsOf (firstScene 1887437056) = .join (.mk 0 0 1 false false false) :: List.replicate 3 .nop ∧
    verdictOf (firstScene 1887437056) (.join (.mk 0 0 1 false false false)) = some .left ∧
    (issueSlot (dropEvent State.reset) State.reset.turn).issue.live = false := by decide +kernel

theorem witness_StepRuns_bundles : stopBit 0x10000000 = false ∧ stopBit 0x90000000 = true ∧ litBit 0x10000000 = false ∧
    litBit 0x90000000 = false ∧ bundleHas (firstScene 0x10000000) .nop = true := by decide +kernel

theorem witness_RoundTrip : Instr.wf (.addi l31) = true ∧ (encode (.addi l31)).length = 2 ∧ (encode (.amocas { fa with d := 30 })).length = 1 := by
  decide +kernel

/-! One step each, with results from the spec's worked examples or by hand from its tables. -/

/-- The state that an answer gives. -/
def after (a : Answer) : State := match a with
  | .next t => t
  | _ => State.reset

/-- The last result in flight. -/
def flight (a : Answer) : Option Latch := (after a).me.r.latches.getLast?

/-- The cause that a slot raised. -/
def raisedBy (a : Answer) : Option (Cause × W64) := match (after a).issue.verdict with
  | .raised c i _ => some (c, i)
  | _ => none

/-- The example of R95: an ori literal is zero-extended. -/
theorem test_ori : (flight (exec (.ori { fi with d := 7, a := 7, lit := some 0x9ABCDEF0 }) (scene (regs [(7, 0x1234567800000000)])))).map
    (fun l => (l.dest, l.value, l.left)) = some (.scalar 7, rowOfWord 0x123456789ABCDEF0, 1) := by decide +kernel

/-- R100, by hand: the field of 8 bits at bit 60 is cut to 4 bits, and its sign extended. -/
theorem test_bfx : (flight (exec (.bfx { f3 with d := 3, a := 1, b := 2 }) (scene (regs [(1, 0xA000000000000000), (2, 0x883C)])))).map (·.value)
    = some (rowOfWord 0xFFFFFFFFFFFFFFFA) := by decide +kernel

/-- The example of R81: lanes 0 to 3 of the generator at seed 0 and counter 0. -/
theorem test_vrng : (flight (exec (.vrng { f2 with d := 2 }) (scene Regs.zero))).map (fun l => ([0, 1, 2, 3].map (lane l.value))) =
    some [0, 0xE220A839, 0x6E789E6A, 0x06C45D18] := by decide +kernel

/-- The example of R86: the window is set by the largest product before any cancellation. -/
theorem test_group : groupValue ([0x3F800000, 0xBF800000, 0x27C00000].map f32 ++ List.replicate 13 (f32 0), f32 0x3F800000)
    (List.replicate 16 (f32 0x3F800000), f32 0x3F800000) = 0x27000000 := by decide +kernel

/-- The example of chapter 7: vfma rounds once. -/
theorem test_fused : ffma (f32 0xBF801000) (f32 0x3F800800) (f32 0x3F800800) = (0x33800000, 0) := by decide +kernel

/-- The example of R177: 465.0 rounds to 480, beyond the largest E4M3; of and nx. -/
theorem test_round : ((tabled (tableA 3)).elem.round (f32 0x43E88000) .rne false 0, (tabled (tableA 3)).elem.round (f32 0x43E80000) .rne false 0)
    = ((0x7F, 5), (0x7E, 1)) := by decide +kernel

/-- The example of R267: tile 2 of pool 3 of core 9 of die 1 at generation 5. -/
theorem test_handle : handleOf 73 3 2 5 = 0x0000004930020005 := by decide +kernel

/-- The example of R300: a compare-and-swap that finds its value. -/
theorem test_amocas : (let t := after (exec (.amocas { fa with d := 6, a := 9, ord := 3, scope := 4 })
      (machine [(6, 9), (7, 5), (9, 0x40)] |> withWords 0x40 [5]))
    (t.mem.readRun (keyScratch 0 0x40) 8, t.me.ops.map (fun o => (o.dest, o.kind))))
    = ([9, 0, 0, 0, 0, 0, 0, 0], [(.scalar 6, .atomic 0x40 5)]) := by decide +kernel

/-- The example of R290: a gather from a rank-0 base that reaches rank 1. -/
theorem test_vldx : raisedBy (exec (.vldx { f3 with d := 3, a := 1, b := 4 })
      (machineOf { Ctx.zero with r := { regs [(4, 0x3FFF00)] with v := Regs.zero.v.set 1 0x40 } })) = some (.bounds, 0x400000) := by
  decide +kernel

/-- The example of R142: the seventeenth drain into a queue with no pop between them. -/
theorem test_mdrain : (raisedBy (exec (.mdrain { fm with d := 1 }) (sceneOf { Ctx.zero with
      acc := 1, r := { Regs.zero with owns := true, rq := Vector.replicate _ (List.replicate 16 none) } }))).map (·.1) = some .qovf := by
  decide +kernel

/-- R288 and R368, by hand: a store waits in the gate, least significant byte first, and memory is as before. -/
theorem test_std : (let t := after (exec (.std { fi with d := 2, a := 1 }) (machine [(1, 8), (2, 0x1122334455667788)]))
    (gateByte t.me.gate 8, gateByte t.me.gate 15, gateByte t.me.gate 16, t.mem)) = (some 0x88, some 0x11, none, []) := by decide +kernel

end Sys2Proof.Tests.Slice0
end

namespace Sys2Proof.Machine

/-! What the operations of contexts, memory, queues and pools never touch: the bundle in flight, the time, the turn, the agenda, the image in
force, the translations, the errors to come and the retrains. -/

/-- The fields of the state that no operation of a context, of memory, of a queue or of a pool touches. -/
def State.steady (s : State) :=
  (s.issue, s.cycle, s.turn, s.slotDone, s.agenda, s.auto, s.frozen, s.boot, s.image, s.tlb, s.upsets, s.retrains, s.poison)

theorem steady_issue {s t : State} (h : t.steady = s.steady) : t.issue = s.issue := congrArg (·.1) h

@[simp] theorem setCore_steady (s : State) (c : CoreId) (k : Core) : (s.setCore c k).steady = s.steady := rfl
@[simp] theorem setCtx_steady (s : State) (c : CoreId) (x : CtxId) (y : Ctx) : (s.setCtx c x y).steady = s.steady := rfl
@[simp] theorem setEngine_steady (s : State) (c : CoreId) (x : CtxId) (e : Engine) : (s.setEngine c x e).steady = s.steady := rfl
@[simp] theorem setPart_steady (s : State) (p : PartId) (k : Part) : (s.setPart p k).steady = s.steady := rfl
@[simp] theorem setPool_steady (s : State) (c : CoreId) (q : Fin 16) (p : Pool) : (s.setPool c q p).steady = s.steady := rfl
@[simp] theorem setQueue_steady (s : State) (q : QueueId) (h : HostQueue) : (s.setQueue q h).steady = s.steady := rfl
@[simp] theorem setTeam_steady (s : State) (t : Team) : (s.setTeam t).steady = s.steady := rfl
@[simp] theorem setShelf_steady (s : State) (e : Nat) (h : Shelf) : (s.setShelf e h).steady = s.steady := rfl
@[simp] theorem emit_steady (s : State) (o : Out) : (s.emit o).steady = s.steady := rfl
@[simp] theorem mergeAt_steady (s : State) (k : Nat) (bs : List (Option Byte)) : (s.mergeAt k bs).steady = s.steady := rfl
@[simp] theorem writeAt_steady (s : State) (k : Nat) (bs : List Byte) : (s.writeAt k bs).steady = s.steady := rfl
@[simp] theorem forget_steady (s : State) (p : PartId) (n : W64) : (s.forget p n).steady = s.steady := rfl

/-- A run of steps each of which leaves those fields leaves them. -/
theorem foldl_steady {β : Type} (f : State → β → State) (h : ∀ s b, (f s b).steady = s.steady) :
    ∀ (l : List β) (s : State), (l.foldl f s).steady = s.steady
  | [], _ => rfl
  | b :: t, s => (foldl_steady f h t (f s b)).trans (h s b)

@[simp] theorem askHost_steady (s : State) (d : DieId) (p : BitVec 20) (va : Nat) : (askHost s d p va).steady = s.steady := by
  unfold askHost; simp only; split <;> rfl

@[simp] theorem askPlace_steady (s : State) (d : DieId) (p : Place) : (askPlace s d p).steady = s.steady := by
  unfold askPlace; split <;> simp

@[simp] theorem askHostPort_steady (s : State) (p : PartId) (va : Nat) : (askHostPort s p va).steady = s.steady := askHost_steady ..

@[simp] theorem refreshBudgets_steady (s : State) (p : PartId) : (refreshBudgets s p).steady = s.steady := rfl

@[simp] theorem spendMem_steady (s : State) (p : PartId) (bs : List Nat) : (spendMem s p bs).steady = s.steady := by
  unfold spendMem
  split
  · rfl
  · simp only; split <;> rfl

@[simp] theorem writeBack_steady (s : State) (c : CoreId) (l : NearLine) : (writeBack s c l).steady = s.steady := by
  unfold writeBack
  split
  · rfl
  · split <;> simp

@[simp] theorem nearPut_steady (s : State) (c : CoreId) (l : NearLine) : (nearPut s c l).steady = s.steady := by
  unfold nearPut; simp only; split <;> simp

@[simp] theorem nearStore_steady (s : State) (c : CoreId) (a : W64) (bs : Vector (Option Byte) 64) :
    (nearStore s c a bs).steady = s.steady := nearPut_steady ..

@[simp] theorem nearWriteBack_steady (s : State) (c : CoreId) (sel : W64 → Bool) : (nearWriteBack s c sel).steady = s.steady :=
  foldl_steady _ (fun t l => by simp only; split <;> simp) _ _

@[simp] theorem nearInvalidate_steady (s : State) (c : CoreId) (sel : W64 → Bool) : (nearInvalidate s c sel).steady = s.steady := rfl

@[simp] theorem nearDrop_steady (s : State) (c : CoreId) (va : W64) : (nearDrop s c va).steady = s.steady := by
  unfold nearDrop; split <;> simp

@[simp] theorem nearRefresh_steady (s : State) (c : CoreId) (va : W64) (bs : List Byte) : (nearRefresh s c va bs).steady = s.steady := rfl

theorem ownerWrite_steady {s t : State} {c : CoreId} {a : Access} {va : W64} {bs : List Byte} (h : ownerWrite s c a va bs = .ok t) :
    t.steady = s.steady := by
  unfold ownerWrite at h; split at h <;> cases h; rfl

@[simp] theorem deviceWrite_steady (s : State) (c : CoreId) (va : W64) (bs : List Byte) : (deviceWrite s c va bs).steady = s.steady := by
  unfold deviceWrite
  split
  · rw [nearRefresh_steady, ownerWrite_steady ‹_›]
  · rfl

@[simp] theorem performLine_steady (s : State) (c : CoreId) (l : GateLine) : (performLine s c l).steady = s.steady := by
  unfold performLine
  split
  · rfl
  · split <;> simp

@[simp] theorem drainGate_steady (s : State) (c : CoreId) (x : CtxId) : (drainGate s c x).steady = s.steady := by
  simp [drainGate, foldl_steady]

@[simp] theorem drainHandler_steady (s : State) (c : CoreId) (x : CtxId) : (drainHandler s c x).steady = s.steady := by
  simp [drainHandler, foldl_steady]

@[simp] theorem release_steady (s : State) (c : CoreId) (n : Nat) (sel : W64 → Bool) : (release s c n sel).steady = s.steady := by
  unfold release; split <;> simp

@[simp] theorem acquire_steady (s : State) (c : CoreId) (n : Nat) (sel : W64 → Bool) : (acquire s c n sel).steady = s.steady := by
  unfold acquire; split <;> simp

/-! Task queues. -/

@[simp] theorem refill_steady : ∀ (n : Nat) (s : State) (c : CoreId), (refill n s c).steady = s.steady
  | 0, _, _ => rfl
  | n + 1, s, c => by
    unfold refill
    simp only
    split
    · rfl
    · split
      · simp
      · rfl
      · rw [refill_steady n, setCore_steady]

theorem pushTail_steady {s t : State} {c : CoreId} {e : W64} (h : pushTail s c e = .ok t) : t.steady = s.steady := by
  unfold pushTail at h
  simp only at h
  split at h
  · cases h; rfl
  · split at h
    · split at h
      · cases h
      · split at h <;> cases h; rfl
    · cases h

@[simp] theorem putEntryAt_steady (s : State) (c : CoreId) (i : Nat) (e : W64) : (putEntryAt s c i e).steady = s.steady := by
  unfold putEntryAt; split <;> simp

@[simp] theorem moveUp_steady (c : CoreId) : ∀ (m i : Nat) (s : State), (moveUp c m i s).steady = s.steady
  | 0, _, _ => rfl
  | m + 1, i, s => by rw [moveUp, moveUp_steady c m]; simp

@[simp] theorem dropTail_steady (s : State) (c : CoreId) : (dropTail s c).steady = s.steady := rfl

theorem pushPlace_steady {s t : State} {c : CoreId} {w : Pusher} {e : W64} (h : pushPlace s c w e = .ok t) : t.steady = s.steady := by
  unfold pushPlace at h
  simp only at h
  split at h
  · split at h
    · split at h
      · cases h
      · cases h; rw [setCore_steady, pushTail_steady ‹_›, dropTail_steady]
    · cases h
  · exact pushTail_steady h

theorem push_steady {s t : State} {c : CoreId} {w : Pusher} {e : W64} (h : push s c w e = .ok t) : t.steady = s.steady := by
  unfold push at h
  split at h
  · cases h
  · cases h; rw [moveUp_steady, setCore_steady, pushPlace_steady ‹_›]

@[simp] theorem retryHeld_steady : ∀ (n : Nat) (s : State) (c : CoreId), (retryHeld n s c).steady = s.steady
  | 0, _, _ => rfl
  | n + 1, s, c => by
    unfold retryHeld
    split
    · rfl
    · split
      · rw [retryHeld_steady n, setCore_steady, pushTail_steady ‹_›]
      · simp
      · rfl

theorem pushAfterHeld_steady {s t : State} {c : CoreId} {w : Pusher} {e : W64} (h : pushAfterHeld s c w e = .ok t) :
    t.steady = s.steady := by
  unfold pushAfterHeld at h
  simp only at h
  split at h
  · rw [push_steady h]; simp
  · split at h <;> cases h

@[simp] theorem heldPush_steady (s : State) (c : CoreId) (w : Pusher) (e : W64) : (heldPush s c w e).steady = s.steady := by
  unfold heldPush
  split
  · exact pushAfterHeld_steady ‹_›
  · simp only [setCore_steady]; split <;> simp

@[simp] theorem devicePush_steady (s : State) (c : CoreId) (e : W64) : (devicePush s c e).steady = s.steady := heldPush_steady ..

/-! Records and counters. -/

theorem atOwner_steady {s : State} {c : CoreId} {a : Access} {va : W64} {n : Nat} {r : State × Nat} (h : atOwner s c a va n = .ok r) :
    r.1.steady = s.steady := by
  unfold atOwner at h
  split at h <;> cases h
  simp only; split <;> simp

@[simp] theorem pairPut_steady (s : State) (k : Nat) (a b : W64) : (pairPut s k a b).steady = s.steady := rfl

@[simp] theorem releasePush_steady (s : State) (c : CoreId) (l n : W64) : (releasePush s c l n).steady = s.steady := by
  unfold releasePush; split <;> simp

@[simp] theorem joinDown_steady (s : State) (c : CoreId) (w : W64) : (joinDown s c w).steady = s.steady := by
  unfold joinDown
  split
  · rfl
  · have h := atOwner_steady ‹_›
    simp only at h ⊢
    split
    · exact h
    · split <;> simp [h]

@[simp] theorem recordPut_steady (s : State) (c : CoreId) (n : W64) (i : Nat) (w : W64) : (recordPut s c n i w).steady = s.steady := by
  unfold recordPut
  split
  · rfl
  · split
    · rfl
    · simp

/-! Tiles and the host. -/

@[simp] theorem setTile_steady (s : State) (h : W64) (t : Tile) : (setTile s h t).steady = s.steady := rfl

@[simp] theorem staleReads_steady (s : State) (h : W64) : (staleReads s h).steady = s.steady :=
  foldl_steady _ (fun _ _ => foldl_steady _ (fun _ _ => by simp only; split <;> simp) _ _) _ _

@[simp] theorem withdraw_steady (s : State) (c : CoreId) (w : Asker) : (withdraw s c w).steady = s.steady := rfl

@[simp] theorem reclaim_steady (s : State) (n : Nat) : (reclaim s n).steady = s.steady := foldl_steady _ (fun _ _ => by simp) _ _

@[simp] theorem writeCompletion_steady (s : State) (e : Completion) : (writeCompletion s e).steady = s.steady := by
  unfold writeCompletion
  simp only
  split
  · rfl
  · split
    · rw [askHostPort_steady]; rfl
    · rfl
    · rfl

@[simp] theorem completeHost_steady (s : State) (r : Record) (b : Byte) (k : Bool) (i : W64) : (completeHost s r b k i).steady = s.steady := by
  unfold completeHost; split
  · exact writeCompletion_steady ..
  · rfl

@[simp] theorem statusEntry_steady (s : State) (p : PartId) (c : CoreId) (x : CtxId) (n : W64) (b : Byte) (h k : Bool) (pc : CodeAddr)
    (i : W64) : (statusEntry s p c x n b h k pc i).steady = s.steady := by
  unfold statusEntry; simp only; split <;> simp

@[simp] theorem releaseShelf_steady (s : State) (n : W64) : (releaseShelf s n).steady = s.steady := by
  unfold releaseShelf; split <;> simp

/-! Contexts. -/

@[simp] theorem sampleLoads_steady (s : State) (c : CoreId) (x : CtxId) : (sampleLoads s c x).steady = s.steady := rfl

@[simp] theorem drainStores_steady (s : State) (c : CoreId) (x : CtxId) : (drainStores s c x).steady = s.steady := by
  unfold drainStores; simp only; split <;> simp

@[simp] theorem freeArray_steady (s : State) (c : CoreId) (x : CtxId) (b : Bool) : (freeArray s c x b).steady = s.steady := by
  unfold freeArray; split <;> rfl

@[simp] theorem commit_steady (s : State) (c : CoreId) (x : CtxId) : (commit s c x).steady = s.steady := by simp [commit]

@[simp] theorem rollBack_steady (s : State) (c : CoreId) (x : CtxId) : (rollBack s c x).steady = s.steady := by
  unfold rollBack; simp only; split <;> simp

@[simp] theorem writeTrap_steady (s : State) (c : CoreId) (x : CtxId) (r : Regs) (t : Trap) : (writeTrap s c x r t).steady = s.steady := by
  simp [writeTrap]

@[simp] theorem depart_steady (s : State) (r : Record) : (depart s r).steady = s.steady := by
  unfold depart
  split
  · rfl
  · simp only; split <;> rfl

@[simp] theorem freeCtx_steady (s : State) (c : CoreId) (x : CtxId) : (freeCtx s c x).steady = s.steady := by
  unfold freeCtx; simp only [setCtx_steady, setCore_steady]; split <;> simp

@[simp] theorem releaseOwn_steady (s : State) (c : CoreId) (x : CtxId) : (releaseOwn s c x).steady = s.steady := release_steady ..

@[simp] theorem joinOwn_steady (s : State) (c : CoreId) (x : CtxId) : (joinOwn s c x).steady = s.steady := by
  unfold joinOwn; simp only; split <;> simp

@[simp] theorem completionEffects_steady (s : State) (c : CoreId) (x : CtxId) : (completionEffects s c x).steady = s.steady := by
  simp [completionEffects]

@[simp] theorem endCtx_steady (s : State) (c : CoreId) (x : CtxId) (b : Byte) (i : W64) (h k : Bool) :
    (endCtx s c x b i h k).steady = s.steady := by
  simp only [endCtx, freeCtx_steady, releaseShelf_steady, completeHost_steady, statusEntry_steady, depart_steady]
  split <;> split <;> simp

@[simp] theorem endWith_steady (s : State) (c : CoreId) (x : CtxId) (b : Byte) (i : W64) (h k : Bool) :
    (endWith s c x b i h k).steady = s.steady := by
  unfold endWith; simp only; split <;> simp

@[simp] theorem endBad_steady (s : State) (c : CoreId) (x : CtxId) (pc : CodeAddr) (n : Nat) : (endBad s c x pc n).steady = s.steady := by
  simp [endBad]

@[simp] theorem endByFailure_steady (s : State) (c : CoreId) (x : CtxId) : (endByFailure s c x).steady = s.steady := by
  unfold endByFailure; simp only; split <;> simp

@[simp] theorem leaveOut_steady (s : State) (c : CoreId) : (leaveOut s c).steady = s.steady := by
  simp [leaveOut]

end Sys2Proof.Machine

namespace Sys2Proof.Machine

/-! The end of a step: a next state with no bundle in flight (R18). -/

@[simp] theorem calm_live (s : State) : s.calm.issue.live = false := rfl

theorem strike_issue (s : State) (u : Upset) : (strike s u).issue = s.issue := by
  cases u with
  | takeOut c =>
    simp only [strike]
    split
    · rfl
    · exact steady_issue (leaveOut_steady s c)
  | _ => rfl

theorem strikes_issue (s : State) : (strikes s).issue = s.issue := by
  have h : ∀ (l : List (Nat × Upset)) (t : State), (l.foldl (fun t u => strike t u.2) t).issue = t.issue := by
    intro l
    induction l with
    | nil => exact fun _ => rfl
    | cons u l ih => exact fun t => (ih _).trans (strike_issue t u.2)
  exact h _ _

/-- The errors that strike at the end of a cycle leave the bundle in flight, or its absence, as it is. -/
theorem endCycle_issue (s : State) : (endCycle s).issue = s.issue := by
  unfold endCycle
  simp only
  split
  · rfl
  · exact strikes_issue _

@[simp] theorem tick_issue (s : State) : (tick s).issue = s.issue := by
  unfold tick
  simp only
  split
  · rfl
  · exact endCycle_issue _

@[simp] theorem pass_live (s : State) : s.pass.issue.live = false := by
  unfold State.pass; split <;> simp

@[simp] theorem endBundle_live (s : State) : (endBundle s).issue.live = false := pass_live _

/-- What running a bundle may come to: it is held, or it is over with no bundle in flight; it never ends the step otherwise. -/
def Ran.Settled : Ran → Prop
  | .held _ => True
  | .over t => t.issue.live = false
  | .answer _ => False

/-- A dispatch that always answers a next state. -/
def Total (ex : Instr → State → Answer) : Prop := ∀ i s, Proceeds (ex i s)

theorem foldSlots_settled (ex : Instr → State → Answer) (hex : Total ex) (start : State) :
    ∀ (l : List Instr) (n : Nat) (s : State), (foldSlots ex start n l s).Settled
  | [], _, s => endBundle_live s
  | i :: l, n, s => by
    obtain ⟨u, hu⟩ := hex i (s.atSlot n)
    simp only [foldSlots, hu]
    split
    · exact foldSlots_settled ex hex start l (n + 1) u
    · trivial
    · exact pass_live _
    · exact pass_live _

theorem runBundle_settled (ex : Instr → State → Answer) (hex : Total ex) (s : State) : (runBundle ex s).Settled := by
  unfold runBundle
  simp only
  split
  · trivial
  · split
    · exact pass_live _
    · exact foldSlots_settled ex hex s _ _ _

/-- The rest of an issue slot ends in a next state with no bundle in flight. -/
theorem runFrom_settles (ex : Instr → State → Answer) (hex : Total ex) (c : CoreId) :
    ∀ (l : List CtxId) (s : State), ∃ t, runFrom ex s c l = .next t ∧ t.issue.live = false
  | [], s => ⟨_, rfl, by simp⟩
  | x :: l, s => by
    unfold runFrom
    split
    · exact runFrom_settles ex hex c l s
    · exact ⟨_, rfl, by simp⟩
    · next u _ =>
      have h := runBundle_settled ex hex (u.setCore c { u.core c with current := x })
      split <;> simp only [*, Ran.Settled] at h
      · exact runFrom_settles ex hex c l _
      · exact ⟨_, rfl, h⟩

theorem completeIssue_settles (ex : Instr → State → Answer) (hex : Total ex) (s t : State) :
    ∃ u, completeIssue ex s t = .next u ∧ u.issue.live = false := by
  unfold completeIssue
  by_cases hl : t.issue.live = true
  · have h := runBundle_settled ex hex t
    rw [if_pos hl]
    split <;> simp only [*, Ran.Settled] at h
    · split
      · exact ⟨_, rfl, rfl⟩
      · exact runFrom_settles ex hex _ _ _
    · exact ⟨_, rfl, h⟩
  · exact ⟨t, if_neg hl, by simpa using hl⟩

/-! Every meaning answers a next state. -/

/-- No instruction and no event ends in a fault or a refusal: a slot answers through `finish`, an event in each of its branches by `.next`. -/
theorem exec_proceeds (i : Instr) (s : State) : Proceeds (exec i s) := by
  cases i
  any_goals exact finish_proceeds ..
  any_goals exact ⟨_, rfl⟩
  all_goals
    simp only [exec, execContinuationStart, execSuspensionPoint, execBarrierEpisodeComplete, execTileStep, execTileStepDone,
      execDivisionResult, execVariableLoadResult, execAtomicResult, execFenceComplete, execTileGrant, execPlanResult, execKvappResult,
      execRollback, execPage, execHeldFault, execInt, execWatchdog, execPreempt, execPreemptHandlerTimeout, execDispatch, execSteal,
      execPreemption, execDrainLimit, execSave, execSaveResume, execKill, execTeamAbort, execKillDrainDone, execGangPlacement, execTstall,
      execEngineAllocWatchdog, execCopyWalkStart, execCopyComplete, execCopyError, execSyncWordArrival, execDestinationAccumulate,
      execGatherPageLanded, execSlipStart, execSlipComplete, execSlipFailure, execDemotionTimer, execDemotionMoveDone, execDemotionRetry,
      execPromotionMoveDone, execPowerExcessNotify, execBankFailure, execBankRebuildDone, execAutonomousRefresh,
      execRefreshOwnershipReturn, execRefreshManagement, execAtsTranslationCompletion, execPriPageResponse, execWritebackPoison,
      execTableInstall, execWsLockEffect, execGroupTableInstall, execRetrainStart, execThermalRetrain, execRetrainDone,
      execMulticastTransferStart, execData, execAck, execNack, execLaunch, execWakePacket, execBarrier, accept, execBoot,
      execPowerAlarmEnd, execPortTrained]
    repeat' split
    all_goals exact ⟨_, rfl⟩

/-- A meaning of the opcode table: what the device does of its own is one too. -/
def IsMeaning (m : Meaning) : Prop := ∃ i, m = exec i

theorem opEvent_isMeaning (c : CoreId) (x : CtxId) (o : Op) : ∀ m ∈ opEvent c x o, IsMeaning m := by
  have load : IsMeaning (execVariableLoadResult c x o.id) := ⟨.variableLoadResult c x o.id, rfl⟩
  have page : IsMeaning (execPage c x o.id) := ⟨.page c x o.id, rfl⟩
  unfold opEvent
  cases o.kind <;> simp only [List.forall_mem_cons, List.not_mem_nil, false_implies, implies_true, and_true]
  case div => exact ⟨.divisionResult c x o.id, rfl⟩
  case wload => exact load
  case atomic => exact ⟨.atomicResult c x o.id, rfl⟩
  case plan => exact ⟨.planResult c x o.id, rfl⟩
  case kvapp => exact ⟨.kvappResult c x o.id, rfl⟩
  case talloc => exact ⟨.tstall c x, rfl⟩
  all_goals exact ⟨load, page⟩

theorem phaseEvent_isMeaning (c : CoreId) (x : CtxId) (k : Ctx) : ∀ m ∈ phaseEvent c x k, IsMeaning m := by
  have dog : IsMeaning (execWatchdog c x) := ⟨.watchdog c x, rfl⟩
  have step : IsMeaning (execTileStep c x) := ⟨.tileStep c x, rfl⟩
  unfold phaseEvent
  cases k.phase <;> simp only [List.forall_mem_cons, List.not_mem_nil, false_implies, implies_true, and_true]
  case idle => exact ⟨⟨.continuationStart c x, rfl⟩, ⟨.saveResume c x, rfl⟩⟩
  case suspending => exact ⟨⟨.suspensionPoint c x, rfl⟩, dog⟩
  case waitArray => exact ⟨step, dog⟩
  case tileStep => exact ⟨step, ⟨.tileStepDone c x, rfl⟩, dog⟩
  all_goals exact dog

end Sys2Proof.Machine

namespace Sys2Proof.Machine

/-- A list of meanings of the opcode table. -/
def AllMeanings (l : List Meaning) : Prop := ∀ m ∈ l, IsMeaning m

@[simp] theorem allMeanings_nil : AllMeanings [] := fun _ h => absurd h List.not_mem_nil
@[simp] theorem allMeanings_cons (m : Meaning) (l : List Meaning) : AllMeanings (m :: l) ↔ IsMeaning m ∧ AllMeanings l := List.forall_mem_cons
@[simp] theorem allMeanings_append (l k : List Meaning) : AllMeanings (l ++ k) ↔ AllMeanings l ∧ AllMeanings k := List.forall_mem_append

theorem allMeanings_ite (p : Prop) [Decidable p] {l k : List Meaning} (hl : AllMeanings l) (hk : AllMeanings k) :
    AllMeanings (if p then l else k) := by
  split <;> assumption

theorem allMeanings_map {α : Type} (l : List α) (f : α → Meaning) (h : ∀ a, IsMeaning (f a)) : AllMeanings (l.map f) := by
  simp [AllMeanings, h]

theorem allMeanings_flatMap {α : Type} (l : List α) (f : α → List Meaning) (h : ∀ a, AllMeanings (f a)) : AllMeanings (l.flatMap f) := by
  intro m hm
  obtain ⟨a, -, ha⟩ := List.mem_flatMap.1 hm
  exact h a m ha

theorem pendingEvent_meanings (c : CoreId) (x : CtxId) (k : Ctx) : AllMeanings (pendingEvent c x k) := by
  have late : AllMeanings [execRollback c x, execHeldFault c x] := by simp; exact ⟨⟨.rollback c x, rfl⟩, ⟨.heldFault c x, rfl⟩⟩
  have fence : AllMeanings [execFenceComplete c x] := by simp; exact ⟨.fenceComplete c x, rfl⟩
  have int : AllMeanings [execInt c x] := by simp; exact ⟨.int c x, rfl⟩
  have pre : AllMeanings [execPreempt c x] := by simp; exact ⟨.preempt c x, rfl⟩
  have act (a : BitVec 2) : IsMeaning (if a = 0 then execDrainLimit c x else if a = 1 then execSave c x else execKill c x) := by
    split
    · exact ⟨.drainLimit c x, rfl⟩
    · split
      · exact ⟨.save c x, rfl⟩
      · exact ⟨.kill c x, rfl⟩
  simp only [pendingEvent, allMeanings_append]
  refine ⟨⟨⟨⟨allMeanings_ite _ late (by simp), allMeanings_ite _ (by simp) fence⟩, allMeanings_ite _ int (by simp)⟩,
    allMeanings_ite _ pre (by simp)⟩, ?_⟩
  cases k.action with
  | none => simp
  | some a => simpa using ⟨⟨.preemptHandlerTimeout c x, rfl⟩, act a⟩

theorem barrierEvent_meanings (c : CoreId) (k : Ctx) : AllMeanings (barrierEvent c k) :=
  allMeanings_map _ _ (fun sc => ⟨.barrierEpisodeComplete k.job.team sc (domainOf c sc), rfl⟩)

theorem copyEvent_meanings (c : CoreId) (x : CtxId) (e : Engine) : AllMeanings (copyEvent c x e) := by
  refine allMeanings_map _ _ (fun k => ?_)
  split
  · exact ⟨.copyComplete c x k.id, rfl⟩
  · exact ⟨.copyWalkStart c x k.id, rfl⟩

theorem poolEvent_meanings (c : CoreId) (k : Core) : AllMeanings (poolEvent c k) := by
  refine allMeanings_flatMap _ _ (fun q => allMeanings_ite _ (by simp) ?_)
  rw [allMeanings_cons]
  refine ⟨⟨.tileGrant c q, rfl⟩, fun m hm => ?_⟩
  obtain ⟨r, -, hr⟩ := List.mem_filterMap.1 hm
  obtain ⟨n, -, rfl⟩ := Option.map_eq_some_iff.1 hr
  exact ⟨.engineAllocWatchdog c q n, rfl⟩

theorem coreEvents_meanings (s : State) (c : CoreId) : AllMeanings (coreEvents s c) := by
  have held : AllMeanings [execHeldPushRetry c] := by simp; exact ⟨.heldPushRetry c, rfl⟩
  simp only [coreEvents, allMeanings_append]
  refine ⟨⟨allMeanings_flatMap _ _ (fun x => ?_), poolEvent_meanings c _⟩, allMeanings_ite _ (by simp) held⟩
  simp only [allMeanings_append]
  exact ⟨⟨⟨⟨phaseEvent_isMeaning c x _, pendingEvent_meanings c x _⟩, barrierEvent_meanings c _⟩,
    allMeanings_flatMap _ _ (fun o => opEvent_isMeaning c x o)⟩, copyEvent_meanings c x _⟩

theorem allCoreEvents_meanings (s : State) : AllMeanings (allCoreEvents s) :=
  allMeanings_flatMap _ _ (fun c => allMeanings_ite _ (coreEvents_meanings s c) (by simp))

theorem engineEvents_meanings (s : State) : AllMeanings (engineEvents s) := by
  have slip (it : ItinId) : AllMeanings [execSlipStart it] := by simp; exact ⟨.slipStart it, rfl⟩
  have gather (g : GathererId) : AllMeanings [execGathererDeadline g] := by simp; exact ⟨.gathererDeadline g, rfl⟩
  have moved (e : Nat) : IsMeaning (execDemotionMoveDone e) := ⟨.demotionMoveDone e, rfl⟩
  have timer (e n : Nat) : IsMeaning (execDemotionTimer e n) := ⟨.demotionTimer e n, rfl⟩
  simp only [engineEvents, allMeanings_append]
  refine ⟨⟨⟨allMeanings_flatMap _ _ (fun it => ?_), allMeanings_flatMap _ _ (fun g => allMeanings_ite _ (by simp) (gather g))⟩,
    allMeanings_map _ _ (fun t => ⟨.multicastTransferStart t.id, rfl⟩)⟩, allMeanings_flatMap _ _ (fun h => ?_)⟩
  · rw [allMeanings_append]
    exact ⟨allMeanings_ite _ (slip it) (by simp), allMeanings_map _ _ (fun p => ⟨.slipComplete it p.num, rfl⟩)⟩
  · split
    · simp
    · simpa [moved, timer] using ⟨.demotionRetry h.1, rfl⟩
    · simpa [moved] using ⟨⟨.promotionMoveDone h.1, rfl⟩, ⟨.promotionResume h.1, rfl⟩⟩

theorem stealEvents_meanings (s : State) (p : PartId) : AllMeanings (stealEvents s p) := by
  unfold stealEvents
  refine allMeanings_ite _ (by simp) (allMeanings_ite _ (by simp) (allMeanings_flatMap _ _ (fun c => ?_)))
  exact allMeanings_map _ _ (fun o => ⟨.steal p o c, rfl⟩)

theorem refreshEvents_meanings (s : State) (d : DieId) : AllMeanings (refreshEvents s d) := by
  have auto : AllMeanings [execAutonomousRefresh d] := by simp; exact ⟨.autonomousRefresh d, rfl⟩
  have back : AllMeanings [execRefreshOwnershipReturn d] := by simp; exact ⟨.refreshOwnershipReturn d, rfl⟩
  rw [refreshEvents, allMeanings_append]
  exact ⟨allMeanings_ite _ auto (by simp), allMeanings_ite _ back (by simp)⟩

theorem packageEvents_meanings (s : State) : AllMeanings (packageEvents s) := by
  have part (p : PartId) : AllMeanings [execDispatch p, execPreemption p] := by simp; exact ⟨⟨.dispatch p, rfl⟩, ⟨.preemption p, rfl⟩⟩
  have table (p : PartId) : AllMeanings [execTableInstall p] := by simp; exact ⟨.tableInstall p, rfl⟩
  have group : AllMeanings [execGroupTableInstall] := by simp; exact ⟨.groupTableInstall, rfl⟩
  have lock (p : PartId) : AllMeanings [execWsLockEffect p] := by simp; exact ⟨.wsLockEffect p, rfl⟩
  have train : AllMeanings [execRetrainStart] := by simp; exact ⟨.retrainStart, rfl⟩
  simp only [packageEvents, allMeanings_append]
  exact ⟨⟨⟨⟨⟨⟨⟨⟨⟨allMeanings_flatMap _ _ part, allMeanings_map _ _ (fun g => ⟨.gangPlacement g.part g.gangid.toNat, rfl⟩)⟩,
    allMeanings_flatMap _ _ (stealEvents_meanings s)⟩, allMeanings_flatMap _ _ (refreshEvents_meanings s)⟩,
    allMeanings_map _ _ (fun t => ⟨.killDrainDone t.id, rfl⟩)⟩, allMeanings_map _ _ (fun t => ⟨.barrierEpisodeComplete t.id 5 0, rfl⟩)⟩,
    allMeanings_ite _ (table _) (by simp)⟩, allMeanings_ite _ group (by simp)⟩,
    allMeanings_flatMap _ _ (fun p => allMeanings_ite _ (by simp) (lock p))⟩, allMeanings_ite _ train (by simp)⟩

/-- What the device does next of its own is a row of the table. -/
theorem ownEvent_isMeaning (s : State) : IsMeaning (ownEvent s) := by
  unfold ownEvent
  simp only
  cases h : (allCoreEvents s ++ engineEvents s ++ packageEvents s)[s.cycle % max 1
      (allCoreEvents s ++ engineEvents s ++ packageEvents s).length]? with
  | none => exact ⟨.bundleIssue s.turn, rfl⟩
  | some m =>
    have all : AllMeanings (allCoreEvents s ++ engineEvents s ++ packageEvents s) := by
      simp only [allMeanings_append]
      exact ⟨⟨allCoreEvents_meanings s, engineEvents_meanings s⟩, packageEvents_meanings s⟩
    exact all m (List.mem_of_getElem? h)

/-- The event of a step is a row of the table. -/
theorem nextEvent_isMeaning (s : State) : IsMeaning (nextEvent s) := by
  unfold nextEvent
  split
  · next e _ _ =>
    split
    · exact ⟨e, rfl⟩
    · exact ⟨.bundleIssue s.turn, rfl⟩
  · split
    · exact ownEvent_isMeaning s
    · exact ⟨.bundleIssue s.turn, rfl⟩

/-- Settles O59: the event of the step answers a next state, and what it leaves in flight runs to its end. -/
theorem stepInvariant : Obligations.StepInvariant := by
  intro s
  obtain ⟨i, hi⟩ := nextEvent_isMeaning s
  obtain ⟨u, hu⟩ := exec_proceeds i (dropEvent s)
  simp only [step, hi, hu]
  exact completeIssue_settles exec exec_proceeds _ u

/-- Settles O60: the bundle in flight at reset is `Issue.none`. -/
theorem invariantAtReset : Obligations.InvariantAtReset := rfl

end Sys2Proof.Machine

namespace Sys2Proof.Machine

/-! Guarded-off slots and empty registers (R26, R38, R39): each family's meaning as a slot over the test of its sources. -/

/-- A source that is empty, with no source that holds the bundle, raises EMPTY (R26). -/
theorem sources_trap (s : State) (rs : List (Ref × Bool)) (r : Ref) (t : Bool) (hr : (r, t) ∈ rs) (he : s.src.full r = false)
    (hh : s.me.handler = false) (hold : ∀ q ∈ rs, s.src.full q.1 = true ∨ q.2 = true) : sources s rs = .error (.trap .empty 0) := by
  have h1 : rs.any (fun p => !s.src.full p.1 && (!p.2 || s.me.handler)) = false := by
    rw [List.any_eq_false]
    intro q hq
    rcases hold q hq with h | h <;> simp [h, hh]
  have h2 : rs.any (fun p => !s.src.full p.1) = true := List.any_eq_true.2 ⟨(r, t), hr, by simp [he]⟩
  simp [sources, h1, h2]

theorem allFull_singleton (s : State) (r : Ref) : AllFull s [r] ↔ s.src.full r = true := by simp [AllFull]

/-- A slot that is on and whose sources hold the bundle holds it. -/
theorem slot_sources_hold (s : State) (g : BitVec 3) (ds : List Ref) (rs : List (Ref × Bool)) (body : Except Stop State) (r : Ref)
    (hg : on s g = true) (hd : AllFull s ds) (hr : (r, false) ∈ rs) (he : s.src.full r = false) :
    Holds s (slot s g ds (need (sources s rs) body)) := by
  rw [slot_on s g ds _ hg hd, sources_hold s rs r hr he]; rfl

theorem aluRule_slot {i : Instr} {f : RRR} {n : Nat} {op : W64 → W64 → W64} (h : aluRule i = some (f, n, op)) (s : State) :
    ∃ body, exec i s = slot s f.g [.s f.d] (need (sources s [(.s f.a, f.ta), (.s f.b, f.tb)]) body) := by
  unfold aluRule at h
  split at h <;> cases h <;> exact ⟨_, rfl⟩

theorem vecOp_slotV (f : RRR) (s : State) (n : Nat) (old : Bool) (op : W32 → W32 → W32 → W32 × BitVec 5) :
    ∃ body, vecOp f s n old op = slotV s f.g [.v f.d] body := by
  unfold vecOp
  exact ⟨_, rfl⟩

theorem vectorRule_slot {i : Instr} {f : RRR} {n : Nat} {old : Bool} {op : W32 → W32 → W32 → W32 × BitVec 5}
    (h : vectorRule i = some (f, n, old, op)) (s : State) : ∃ body, exec i s = slotV s f.g [.v f.d] body := by
  have form : ∃ lat d lanes, exec i s = vecOp f s lat d lanes := by
    unfold vectorRule at h
    split at h <;> cases h <;> simp only [exec_vadd, exec_vsub, exec_vmul, exec_vfma, exec_vfms, exec_vmin, exec_vmax, exec_viadd, exec_visub, exec_vimul, exec_viand,
      exec_vior, exec_vixor, exec_vishl, exec_vishr, exec_visar, exec_vimin, exec_vimax, execVadd, execVsub, execVmul, execVfma,
      execVfms, execVmin, execVmax, execViadd, execVisub, execVimul, execViand, execVior, execVixor, execVishl, execVishr,
      execVisar, execVimin, execVimax] <;> exact ⟨_, _, _, rfl⟩
  obtain ⟨lat, d, lanes, e⟩ := form
  rw [e]
  exact vecOp_slotV f s lat d lanes

theorem loadRule_slot {i : Instr} {f : RRI} {n : Nat} {sg : Bool} (h : loadRule i = some (f, n, sg)) (s : State) :
    ∃ body, exec i s = slot s f.g [.s f.d] (need (sources s [(.s f.a, false)]) body) := by
  unfold loadRule at h
  split at h <;> cases h <;> exact ⟨_, rfl⟩

theorem storeRule_slot {i : Instr} {f : RRI} {n : Nat} (h : storeRule i = some (f, n)) (s : State) :
    ∃ body, exec i s = slot s f.g [] (need (sources s [(.s f.a, false), (.s f.d, false)]) body) := by
  unfold storeRule at h
  split at h <;> cases h <;> exact ⟨_, rfl⟩

theorem atomicRule_slot {i : Instr} {f : AT} {op : AtomOp} (h : atomicRule i = some (f, op)) (s : State) :
    ∃ rs body, exec i s = slot s f.g [.s f.d] (need (sources s rs) body) ∧ (.s f.a, false) ∈ rs := by
  unfold atomicRule at h
  split at h <;> cases h <;> exact ⟨_, _, rfl, by simp⟩

/-- Settles O48: each family is a slot over the test of its sources, so the laws of `slot` and `sources` decide every clause. -/
theorem guardedOffAndEmpty : Obligations.GuardedOffAndEmpty := by
  refine ⟨fun i f n op s h => ?_, fun i f n old op s h => ?_, fun i f n sg s h => ?_, fun i f n s h => ?_, fun i f op s h => ?_⟩
  · obtain ⟨body, hb⟩ := aluRule_slot h s
    rw [hb]
    refine ⟨fun hd => slot_held s _ _ _ (.s f.d) (by simp) hd, fun hd => ?_⟩
    have full := (allFull_singleton s (.s f.d)).2 hd
    refine ⟨fun hg => slot_off s _ _ _ hg full, fun hg ha ht => ?_, fun hg ha ht hb hh => ?_, fun hg ha hb ht hh => ?_⟩
    · exact slot_sources_hold s _ _ _ _ (.s f.a) hg full (by simp [ht]) ha
    · rw [slot_on s _ _ _ hg full, sources_trap s _ (.s f.a) f.ta (by simp) ha hh (by simp [ht, Regs.full, hb])]; rfl
    · rw [slot_on s _ _ _ hg full, sources_trap s _ (.s f.b) f.tb (by simp) hb hh (by simp [ht, Regs.full, ha])]; rfl
  · obtain ⟨body, hb⟩ := vectorRule_slot h s
    rw [hb]
    refine ⟨fun hd => ?_, fun hd hg => slotV_off s _ _ _ hg ((allFull_singleton s (.v f.d)).2 hd)⟩
    simp [Holds, slotV, dests_empty s [.v f.d] (.v f.d) (by simp) hd]
  · obtain ⟨body, hb⟩ := loadRule_slot h s
    rw [hb]
    refine ⟨fun hd => slot_held s _ _ _ (.s f.d) (by simp) hd, fun hd => ?_⟩
    have full := (allFull_singleton s (.s f.d)).2 hd
    exact ⟨fun hg => slot_off s _ _ _ hg full, fun hg ha => slot_sources_hold s _ _ _ _ (.s f.a) hg full (by simp) ha⟩
  · obtain ⟨body, hb⟩ := storeRule_slot h s
    rw [hb]
    have full : AllFull s [] := by simp [AllFull]
    exact ⟨fun hg => slot_off s _ _ _ hg full, fun hg hd => slot_sources_hold s _ _ _ _ (.s f.d) hg full (by simp) hd,
      fun hg ha => slot_sources_hold s _ _ _ _ (.s f.a) hg full (by simp) ha⟩
  · obtain ⟨rs, body, hb, hrs⟩ := atomicRule_slot h s
    rw [hb]
    refine ⟨fun hd => slot_held s _ _ _ (.s f.d) (by simp) hd, fun hd => ?_⟩
    have full := (allFull_singleton s (.s f.d)).2 hd
    exact ⟨fun hg => slot_off s _ _ _ hg full, fun hg ha => slot_sources_hold s _ _ _ _ (.s f.a) hg full hrs ha⟩

/-! The frame of a slot's result. -/

/-- An update of one context leaves the rest of every core. -/
theorem core_setCtx_rest (s : State) (c d : CoreId) (x : CtxId) (y : Ctx) :
    { (s.setCtx c x y).core d with ctx := (s.core d).ctx } = s.core d := by
  by_cases h : d = c
  · subst h; simp [State.setCtx, Core.setCtx]
  · rw [State.setCtx, State.core_setCore_ne _ _ _ _ h]

/-- An update of one context leaves every other one. -/
theorem ctx_setCtx_ne (s : State) (c d : CoreId) (x z : CtxId) (y : Ctx) (h : (d, z) ≠ (c, x)) :
    (s.setCtx c x y).ctx d z = s.ctx d z := by
  by_cases hc : d = c
  · subst hc; exact State.ctx_setCtx_ctx_ne s d x z y (fun hz => h (by rw [hz]))
  · exact State.ctx_setCtx_core_ne s c d x z y hc

/-- Settles O49: a result and an operation that starts are one update of the issuing context; a pop, a transfer and a verdict touch only
the bundle in flight. -/
theorem resultFrame : Obligations.ResultFrame := by
  refine ⟨fun s d m v fl n => ⟨?_, rfl, fun c => core_setCtx_rest .., fun c x h => ctx_setCtx_ne _ _ _ _ _ _ h⟩,
    fun s d k => ⟨?_, rfl, ?_, fun c => core_setCtx_rest .., fun c x h => ctx_setCtx_ne _ _ _ _ _ _ h⟩,
    fun s keep rs => ?_, fun s t v => ⟨rfl, rfl⟩⟩
  · rw [result_eq, State.me_setRegs]; rfl
  · exact congrArg Ctx.ops (State.me_setMe s _)
  · exact congrArg (fun y : Ctx => { y with r := s.me.r, ops := s.me.ops }) (State.me_setMe s _)
  · unfold pop; split <;> rfl

end Sys2Proof.Machine

namespace Sys2Proof.Machine

/-! Landing (R14, R22 to R24, R40, R141). -/

/-- A latch with one bundle less to go. -/
def Latch.tick (l : Latch) : Latch := { l with left := l.left - 1 }

/-- While no latch is due, a bundle only counts them down. -/
theorem landAll_waits (r : Regs) (hw : ∀ l ∈ r.latches, 1 < l.left) (hc : r.clearing = false ∨ r.latches.any Latch.drains = true) :
    r.landAll = { r with latches := r.latches.map Latch.tick } := by
  have due : r.latches.filter (fun l => decide (l.left ≤ 1)) = [] := by
    rw [List.filter_eq_nil_iff]; intro l hl; have := hw l hl; simp; omega
  have wait : r.latches.filter (fun l => decide (1 < l.left)) = r.latches := by
    rw [List.filter_eq_self]; intro l hl; simpa using hw l hl
  have drains : (r.latches.map Latch.tick).any Latch.drains = r.latches.any Latch.drains := by
    rw [List.any_map]; rfl
  rw [Regs.landAll, due, wait]
  change Regs.settleArray { r with latches := r.latches.map Latch.tick } = _
  rw [Regs.settleArray, drains]
  rcases hc with h | h <;> simp [h]

/-- When every latch is due, they land in issue order, and what a release put off is cleared. -/
theorem landAll_lands (r : Regs) (hw : ∀ l ∈ r.latches, l.left ≤ 1) :
    r.landAll = (r.latches.foldl Regs.land { r with latches := [] }).settleArray := by
  have due : r.latches.filter (fun l => decide (l.left ≤ 1)) = r.latches := by
    rw [List.filter_eq_self]; intro l hl; simpa using hw l hl
  have wait : r.latches.filter (fun l => decide (1 < l.left)) = [] := by
    rw [List.filter_eq_nil_iff]; intro l hl; have := hw l hl; simp; omega
  rw [Regs.landAll, due, wait]; rfl

/-- Until the first of its latches is due, m bundles only count the latches down. -/
theorem landAll_iterate_waits (r : Regs) (m : Nat) (hw : ∀ l ∈ r.latches, m < l.left)
    (hc : r.clearing = false ∨ r.latches.any Latch.drains = true) :
    Regs.landAll^[m] r = { r with latches := r.latches.map (fun l => { l with left := l.left - m }) } := by
  induction m with
  | zero => simp
  | succ m ih =>
    have drains : (r.latches.map (fun l => { l with left := l.left - m })).any Latch.drains = r.latches.any Latch.drains := by
      rw [List.any_map]; rfl
    rw [Function.iterate_succ_apply', ih (fun l hl => by have := hw l hl; omega), landAll_waits]
    · simp only [List.map_map]; rfl
    · intro l hl
      obtain ⟨k, hk, rfl⟩ := List.mem_map.1 hl
      have := hw k hk; simp only; omega
    · rcases hc with h | h
      · exact .inl h
      · exact .inr (drains.trans h)

/-- After as many bundles as its latches had to go, all of them alike, they have landed in issue order. -/
theorem landAll_iterate_lands (r : Regs) (n : Nat) (hn : 0 < n) (hw : ∀ l ∈ r.latches, l.left = n)
    (hc : r.clearing = false ∨ r.latches.any Latch.drains = true) :
    Regs.landAll^[n] r
      = ((r.latches.map (fun l => { l with left := 1 })).foldl Regs.land { r with latches := [] }).settleArray := by
  obtain ⟨m, rfl⟩ : ∃ m, n = m + 1 := ⟨n - 1, by omega⟩
  have one : r.latches.map (fun l => { l with left := l.left - m }) = r.latches.map (fun l => { l with left := 1 }) :=
    List.map_congr_left (fun l hl => by rw [hw l hl, Nat.add_sub_cancel_left])
  rw [Function.iterate_succ_apply', landAll_iterate_waits r m (fun l hl => by have := hw l hl; omega) hc, one, landAll_lands]
  intro l hl
  obtain ⟨k, -, rfl⟩ := List.mem_map.1 hl
  exact le_rfl

@[simp] theorem setS_clearing (r : Regs) (d : BitVec 5) (x : W64) : (r.setS d x).clearing = r.clearing := by
  unfold Regs.setS; split <;> rfl
@[simp] theorem setG_clearing (r : Regs) (d : BitVec 3) (x : W64) : (r.setG d x).clearing = r.clearing := by
  unfold Regs.setG; split <;> rfl
@[simp] theorem setS_fpctl (r : Regs) (d : BitVec 5) (x : W64) : (r.setS d x).fpctl = r.fpctl := by
  unfold Regs.setS; split <;> rfl
@[simp] theorem setG_fpctl (r : Regs) (d : BitVec 3) (x : W64) : (r.setG d x).fpctl = r.fpctl := by
  unfold Regs.setG; split <;> rfl
@[simp] theorem setS_latches (r : Regs) (d : BitVec 5) (x : W64) : (r.setS d x).latches = r.latches := by
  unfold Regs.setS; split <;> rfl
@[simp] theorem setG_latches (r : Regs) (d : BitVec 3) (x : W64) : (r.setG d x).latches = r.latches := by
  unfold Regs.setG; split <;> rfl

theorem write_fpctl (r : Regs) (l : Latch) : (r.write l).fpctl = r.fpctl := by
  unfold Regs.write; split <;> simp [Regs.setV]

theorem land_clearing (r : Regs) (l : Latch) : (r.land l).clearing = r.clearing := by
  unfold Regs.land Regs.write; split <;> simp [Regs.setV, Regs.setFlags]

theorem land_latches (r : Regs) (l : Latch) : (r.land l).latches = r.latches := by
  unfold Regs.land Regs.write; split <;> simp [Regs.setV, Regs.setFlags]

theorem settleArray_steady (r : Regs) (h : r.clearing = false) : r.settleArray = r := by simp [Regs.settleArray, h]

theorem settleArray_clears (r : Regs) (h : r.clearing = true) (hl : r.latches = []) : r.settleArray = r.clearArray := by
  simp [Regs.settleArray, h, hl]

/-- The sticky flags of a latch stand 8 bits up in fpctl (R14, R389). -/
theorem stickyFlags_bit (f : BitVec 5) (i : Nat) : (BitVec.ofNat 64 (f.toNat * 2 ^ 8)).getLsbD i = (decide (8 ≤ i) && f.getLsbD (i - 8)) := by
  rw [BitVec.getLsbD_ofNat, Nat.testBit_mul_two_pow]
  by_cases h : i < 64
  · simp [h, BitVec.getLsbD]
  · have : f.getLsbD (i - 8) = false := BitVec.getLsbD_of_ge f _ (by omega)
    simp [h, this]

theorem land_fpctl (r : Regs) (l : Latch) (i : Nat) :
    (r.land l).fpctl.getLsbD i = (r.fpctl.getLsbD i || (decide (8 ≤ i) && l.flags.getLsbD (i - 8))) := by
  rw [Regs.land, write_fpctl, Regs.setFlags, BitVec.getLsbD_or, stickyFlags_bit]

/-! Registers read after a write. -/

theorem getS_setS_same (r : Regs) (d : BitVec 5) (x : W64) (h : d ≠ 0) : (r.setS d x).getS d = x := by
  rw [Regs.getS, if_neg h, Regs.setS, if_neg h, rget_rset_same]

theorem getS_setS_ne (r : Regs) (d e : BitVec 5) (x : W64) (h : e ≠ d) : (r.setS d x).getS e = r.getS e := by
  unfold Regs.getS Regs.setS
  split
  · rfl
  · split
    · rfl
    · exact rget_rset_ne _ _ _ _ h

@[simp] theorem fullS_setS (r : Regs) (d e : BitVec 5) (x : W64) : (r.setS d x).fullS e = r.fullS e := by
  unfold Regs.setS Regs.fullS; split <;> rfl

theorem getV_setV_same (r : Regs) (d : BitVec 5) (x : Row) (h : d.toNat < 28) : (r.setV d x).getV d = x := by
  simp [Regs.getV, Regs.setV, h]

theorem getV_setV_ne (r : Regs) (d e : BitVec 5) (x : Row) (h : e ≠ d) : (r.setV d x).getV e = r.getV e := by
  have h' : d.toNat ≠ e.toNat := fun q => h (BitVec.eq_of_toNat_eq q.symm)
  simp [Regs.getV, Regs.setV, Vector.getElem?_setIfInBounds_ne h']

theorem getG_setG_same (r : Regs) (d : BitVec 3) (x : W64) (h : 2 ≤ d.toNat) : (r.setG d x).getG d = x := by
  have h0 : d ≠ 0 := by rintro rfl; simp at h
  have h1 : d ≠ 1 := by rintro rfl; simp at h
  rw [Regs.getG, if_neg h0, if_neg h1, Regs.setG, if_neg (Nat.not_lt.2 h), rget_rset_same]

theorem getG_setG_ne (r : Regs) (d e : BitVec 3) (x : W64) (h : e ≠ d) : (r.setG d x).getG e = r.getG e := by
  unfold Regs.getG Regs.setG
  by_cases hd : d.toNat < 2
  · rw [if_pos hd]
  · rw [if_neg hd, rget_rset_ne _ _ _ _ h]

/-- A lane of a blend (R154). -/
theorem lane_blend (m : W64) (new old : Row) (i : Nat) (h : i < 64) :
    lane (blend m new old) i = if m.getLsbD i then lane new i else lane old i := by
  rw [blend, lane_ofLanes _ i h, active_eq]

/-- The low word of a row that holds a word. -/
theorem rowWord_rowOfWord (x : W64) : rowWord (rowOfWord x) 0 = x := by
  apply BitVec.eq_of_toNat_eq
  rw [rowWord, rowOfWord, BitVec.toNat_ofNat, BitVec.toNat_ofNat, Nat.mul_zero, Nat.pow_zero, Nat.div_one,
    Nat.mod_mod_of_dvd _ (Nat.pow_dvd_pow 2 (by decide)), Nat.mod_eq_of_lt x.isLt]

/-- The two words that a compare's latch carries (R40). -/
def pairRow (x : W64) : Row := BitVec.ofNat 2048 (x.toNat + (~~~x).toNat * 2 ^ 64)

theorem pairRow_toNat (x : W64) : (pairRow x).toNat = x.toNat + (~~~x).toNat * 2 ^ 64 := by
  have h1 := x.isLt
  have h2 := (~~~x).isLt
  have h : x.toNat + (~~~x).toNat * 2 ^ 64 < 2 ^ 128 := by omega
  rw [pairRow, BitVec.toNat_ofNat]
  exact Nat.mod_eq_of_lt (h.trans_le (Nat.pow_le_pow_right Nat.two_pos (by decide)))

theorem rowWord_pairRow_low (x : W64) : rowWord (pairRow x) 0 = x := by
  apply BitVec.eq_of_toNat_eq
  have h1 := x.isLt
  rw [rowWord, pairRow_toNat, BitVec.toNat_ofNat]
  omega

theorem rowWord_pairRow_high (x : W64) : rowWord (pairRow x) 1 = ~~~x := by
  apply BitVec.eq_of_toNat_eq
  have h1 := x.isLt
  have h2 := (~~~x).isLt
  rw [rowWord, pairRow_toNat, BitVec.toNat_ofNat]
  omega

/-- A word in the bits of a mask over an old one. -/
theorem masked_bit (old new m : W64) (i : Nat) (h : i < 64) :
    ((old &&& ~~~m) ||| (new &&& m)).getLsbD i = if m.getLsbD i then new.getLsbD i else old.getLsbD i := by
  rw [BitVec.getLsbD_or, BitVec.getLsbD_and, BitVec.getLsbD_and, BitVec.getLsbD_not]
  cases m.getLsbD i <;> simp [h]

/-- What a compare's latch leaves in its guard pair (R40). -/
theorem land_pair (r : Regs) (g : BitVec 3) (m x : W64) (fl : BitVec 5) (n i : Nat) (hg : g.toNat % 2 = 0) (h2 : 2 ≤ g.toNat) (hi : i < 64) :
    ((r.land (Latch.mk (.pair g) m (pairRow x) fl n)).getG g).getLsbD i = (if m.getLsbD i then x.getLsbD i else (r.getG g).getLsbD i) ∧
    ((r.land (Latch.mk (.pair g) m (pairRow x) fl n)).getG (g + 1)).getLsbD i
      = (if m.getLsbD i then !x.getLsbD i else (r.getG (g + 1)).getLsbD i) := by
  have hn : (g + 1).toNat = g.toNat + 1 := by have := g.isLt; rw [BitVec.toNat_add]; simp; omega
  have hne : g ≠ g + 1 := fun e => by have := congrArg BitVec.toNat e; omega
  have e : r.land (Latch.mk (.pair g) m (pairRow x) fl n)
      = ((r.setFlags fl).setG g ((r.getG g &&& ~~~m) ||| (rowWord (pairRow x) 0 &&& m))).setG (g + 1)
          ((((r.setFlags fl).setG g ((r.getG g &&& ~~~m) ||| (rowWord (pairRow x) 0 &&& m))).getG (g + 1) &&& ~~~m)
            ||| (rowWord (pairRow x) 1 &&& m)) := rfl
  rw [e, getG_setG_ne _ _ _ _ hne, getG_setG_same _ g _ h2, getG_setG_same _ (g + 1) _ (by omega), getG_setG_ne _ _ _ _ hne.symm,
    rowWord_pairRow_low, rowWord_pairRow_high, masked_bit _ _ _ _ hi, masked_bit _ _ _ _ hi]
  refine ⟨rfl, ?_⟩
  rw [BitVec.getLsbD_not, decide_eq_true hi, Bool.true_and]; rfl

/-- A latch by itself: it waits its bundles, then lands. -/
theorem landing_single (r : Regs) (l : Latch) (hr : r.latches = [l]) (h0 : 0 < l.left) (hc : r.clearing = false ∨ l.drains = true) :
    (∀ m, m < l.left → Regs.landAll^[m] r = { r with latches := [{ l with left := l.left - m }] }) ∧
    Regs.landAll^[l.left] r = (Regs.land { r with latches := [] } l).settleArray := by
  have hc' : r.clearing = false ∨ r.latches.any Latch.drains = true := by simpa [hr] using hc
  refine ⟨fun m hm => ?_, ?_⟩
  · rw [landAll_iterate_waits r m (by simpa [hr] using hm) hc', hr]; rfl
  · rw [landAll_iterate_lands r l.left h0 (by simp [hr]) hc', hr]; rfl

/-- Settles O50: the counts go down bundle by bundle (`landAll_iterate_waits`) and all that are due land in issue order. -/
theorem landing : Obligations.Landing := by
  refine ⟨fun r l hr h0 hc => ?_, fun r l k hr hk h0 hc => ?_, fun r l hr h0 hc hd => ?_, land_fpctl, fun r l d x hd hx h0 => ?_,
    fun r l d hd h28 => ?_, fun r d m x fl n i hd hi => ?_⟩
  · have h := landing_single r l hr h0 (.inl hc)
    rwa [settleArray_steady (Regs.land { r with latches := [] } l) ((land_clearing _ l).trans hc)] at h
  · rw [landAll_iterate_lands r l.left h0 (by simp [hr, hk]) (.inl hc), hr]
    change ((Regs.land { r with latches := [] } l).land k).settleArray = _
    rw [settleArray_steady _ (by rw [land_clearing, land_clearing]; exact hc)]
  · have h := landing_single r l hr h0 (.inr hd)
    rwa [settleArray_clears (Regs.land { r with latches := [] } l) ((land_clearing _ l).trans hc) (land_latches _ l)] at h
  · have e : r.land l = (r.setFlags l.flags).setS d x := by simp only [Regs.land, Regs.write, hd, hx, rowWord_rowOfWord]
    rw [e]
    exact ⟨getS_setS_same _ d x h0, fun q hq => getS_setS_ne _ d q x hq, fun q => fullS_setS _ d q x⟩
  · have e : r.land l = (r.setFlags l.flags).setV d (blend l.mask l.value (r.getV d)) := by simp only [Regs.land, Regs.write, hd]; rfl
    rw [e]
    refine ⟨fun i hi => ?_, fun q hq => getV_setV_ne _ d q _ hq⟩
    rw [getV_setV_same _ d _ h28, lane_blend _ _ _ i hi]
  · have e : BitVec.ofNat 3 (d.toNat + 1) = BitVec.ofNat 3 d.toNat + 1 := by rcases hd with rfl | rfl | rfl <;> rfl
    rw [e]
    exact land_pair r _ m x fl n i (by rcases hd with rfl | rfl | rfl <;> rfl) (by rcases hd with rfl | rfl | rfl <;> decide) hi

/-! Memory: a canonical list is determined by what it reads as. -/

/-- A key below every listed one reads as zero. -/
theorem Memory.read_below (m : Memory) (k : Nat) (h : ∀ c ∈ m, k < c.1) : m.read k = 0 :=
  Memory.read_absent m k (fun c hc e => by have := h c hc; omega)

/-- Two canonical memories that read alike are equal. -/
theorem Memory.ext_of_read : ∀ (m n : Memory), m.Pairwise (fun a b => a.1 < b.1) → n.Pairwise (fun a b => a.1 < b.1) →
    (∀ c ∈ m, c.2 ≠ 0) → (∀ c ∈ n, c.2 ≠ 0) → (∀ j, m.read j = n.read j) → m = n
  | [], [], _, _, _, _, _ => rfl
  | [], (a, b) :: n, _, _, _, hn, h => absurd (by simpa [Memory.read] using (h a).symm) (hn (a, b) (List.mem_cons_self ..))
  | (a, b) :: m, [], _, _, hm, _, h => absurd (by simpa [Memory.read] using h a) (hm (a, b) (List.mem_cons_self ..))
  | (a, b) :: m, (a', b') :: n, pm, pn, hm, hn, h => by
    obtain ⟨lm, pm'⟩ := List.pairwise_cons.1 pm
    obtain ⟨ln, pn'⟩ := List.pairwise_cons.1 pn
    have hb : b ≠ 0 := hm (a, b) (List.mem_cons_self ..)
    have hb' : b' ≠ 0 := hn (a', b') (List.mem_cons_self ..)
    have keys : a = a' := by
      rcases Nat.lt_trichotomy a a' with lt | e | lt
      · have := h a
        rw [Memory.read_below ((a', b') :: n) a (List.forall_mem_cons.2 ⟨lt, fun c hc => lt.trans (ln c hc)⟩)] at this
        exact absurd (by simpa [Memory.read] using this) hb
      · exact e
      · have := h a'
        rw [Memory.read_below ((a, b) :: m) a' (List.forall_mem_cons.2 ⟨lt, fun c hc => lt.trans (lm c hc)⟩)] at this
        exact absurd (by simpa [Memory.read] using this.symm) hb'
    subst keys
    have bytes : b = b' := by simpa [Memory.read] using h a
    have tails : ∀ j, Memory.read m j = Memory.read n j := fun j => by
      by_cases hj : a = j
      · subst hj; rw [Memory.read_below m a lm, Memory.read_below n a ln]
      · simpa [Memory.read, hj] using h j
    rw [bytes, Memory.ext_of_read m n pm' pn' (fun c hc => hm c (List.mem_cons_of_mem _ hc)) (fun c hc => hn c (List.mem_cons_of_mem _ hc)) tails]

/-- Settles O54: the laws of a run of bytes, and the extensionality of canonical memories. -/
theorem memoryReadsWrites : Obligations.MemoryReadsWrites := by
  refine ⟨Memory.read_writeRun, Memory.writeRun_wf, fun m n hm hn h => ?_⟩
  rw [Memory.wf_iff] at hm hn
  exact Memory.ext_of_read m n hm.1 hn.1 hm.2 hn.2 h

end Sys2Proof.Machine

namespace Sys2Proof.Machine

/-! A step runs the event or the bundle that is next (R18, R19). -/

theorem nextEvent_bundle (s : State) (ha : s.agenda = []) (hu : s.auto = false) : nextEvent s = execBundleIssue s.turn := by
  simp [nextEvent, ha, hu]

/-- With nothing on the agenda a step is the issue slot of the core whose turn it is, and the run of what it prepares. -/
theorem step_issue (s : State) (ha : s.agenda = []) (hu : s.auto = false) :
    step s = completeIssue exec (dropEvent s) (issueSlot (dropEvent s) s.turn) := by
  rw [step, nextEvent_bundle s ha hu]; rfl

@[simp] theorem atSlot_atSlot (s : State) (m n : Nat) : (s.atSlot m).atSlot n = s.atSlot n := rfl
@[simp] theorem atSlot_verdict (s : State) (n : Nat) : (s.atSlot n).issue.verdict = .ok := rfl

@[simp] theorem slotVerdict_nop (s : State) (n : Nat) : slotVerdict exec s n .nop = some (s.atSlot n) := rfl

theorem slotVerdict_next {s v : State} {n : Nat} {i : Instr} (h : exec i (s.atSlot n) = .next v) : slotVerdict exec s n i = some v := by
  rw [slotVerdict, h]

/-- Nops after a slot only move the slot count on. -/
theorem foldSlots_nops (start : State) : ∀ (k n : Nat) (v : State),
    foldSlots exec start n (List.replicate k .nop) v = .over (endBundle (if k = 0 then v else v.atSlot (n + k - 1)))
  | 0, _, _ => rfl
  | k + 1, n, v => by
    have hn : exec .nop (v.atSlot n) = .next (v.atSlot n) := rfl
    rw [List.replicate_succ, foldSlots, hn]
    simp only [atSlot_verdict]
    rw [foldSlots_nops start k (n + 1) (v.atSlot n)]
    by_cases hk : k = 0
    · subst hk; simp
    · simp only [if_neg hk, if_neg (Nat.succ_ne_zero k), atSlot_atSlot]
      congr 3; omega

/-- The verdicts of a bundle of one instruction and nops, each slot run by itself. -/
theorem verdicts_single {u v : State} {i : Instr} {n : Nat} (hs : u.issue.slots = i :: List.replicate n .nop)
    (hv : exec i (u.atSlot 0) = .next v) :
    ∃ rest : List (Option State), (u.issue.slots.mapIdx (fun k j => slotVerdict exec u k j)) = some v :: rest ∧
      ∀ o ∈ rest, ∃ k, o = some (u.atSlot k) := by
  rw [hs, List.mapIdx_cons, slotVerdict_next hv]
  refine ⟨_, rfl, fun o ho => ?_⟩
  obtain ⟨k, hk, rfl⟩ := List.mem_mapIdx.1 ho
  rw [List.getElem_replicate]
  exact ⟨k + 1, rfl⟩

theorem firstVerdict_none {w : Verdict} (hw : w ≠ .ok) {v : State} (hv : v.issue.verdict ≠ w) (rest : List (Option State))
    (hr : ∀ o ∈ rest, o = none ∨ ∃ (t : State), o = some t ∧ t.issue.verdict = .ok) : firstVerdict w (some v :: rest) = none := by
  rw [firstVerdict, List.findSome?_eq_none_iff]
  intro o ho
  rcases List.mem_cons.1 ho with rfl | h
  · simp [Option.filter, hv]
  · rcases hr o h with rfl | ⟨t, rfl, ht⟩
    · rfl
    · simp [Option.filter, ht, hw.symm]

/-- A bundle of one instruction and nops whose instruction does not hold it: its meaning, then the end of the bundle; a cause is taken from
the state before it; a join or futwait that leaves ends it there. -/
theorem runBundle_single {u v : State} {i : Instr} {n : Nat} (hs : u.issue.slots = i :: List.replicate n .nop)
    (hv : exec i (u.atSlot 0) = .next v) :
    (v.issue.verdict = .ok → runBundle exec u = .over (endBundle (if n = 0 then v else v.atSlot n))) ∧
    (∀ c info e, v.issue.verdict = .raised c info e → runBundle exec u = .over (raise u c info e).pass) ∧
    (v.issue.verdict = .left → runBundle exec u = .over v.pass) := by
  obtain ⟨rest, hrest, hnop⟩ := verdicts_single hs hv
  have nops : ∀ o ∈ rest, o = none ∨ ∃ (t : State), o = some t ∧ t.issue.verdict = .ok := fun o ho => by
    obtain ⟨k, rfl⟩ := hnop o ho; exact .inr ⟨_, rfl, rfl⟩
  have fold : foldSlots exec u 0 u.issue.slots u = match v.issue.verdict with
      | .ok => foldSlots exec u 1 (List.replicate n .nop) v
      | .held => .held v
      | .left => .over ((slotVerdict exec u 0 i).filter (fun t => t.issue.verdict == .left) |>.getD v).pass
      | .raised c info eng => .over (raise u c info eng).pass := by
    rw [hs, foldSlots, hv] <;> rfl
  have noneLeft (hl : v.issue.verdict ≠ .left) : firstVerdict .left
      ((u.issue.slots.zip (some v :: rest)).map (fun o => if preIssue o.1 then o.2 else none)) = none := by
    rw [firstVerdict, List.findSome?_eq_none_iff]
    intro o ho
    obtain ⟨q, hq, rfl⟩ := List.mem_map.1 ho
    have hmem := (List.of_mem_zip hq).2
    have none' := List.findSome?_eq_none_iff.1 (firstVerdict_none (w := .left) (by simp) hl rest nops) _ hmem
    split
    · exact none'
    · rfl
  have run (hh : v.issue.verdict ≠ .held) (hl : v.issue.verdict ≠ .left) : runBundle exec u = foldSlots exec u 0 u.issue.slots u := by
    unfold runBundle
    simp only [hrest, firstVerdict_none (w := .held) (by simp) hh rest nops, noneLeft hl]
  refine ⟨fun h => ?_, fun c info e h => ?_, fun h => ?_⟩
  · rw [run (by simp [h]) (by simp [h]), fold, h]
    simp only
    rw [foldSlots_nops]
    simp
  · rw [run (by simp [h]) (by simp [h]), fold, h]
  · unfold runBundle
    simp only [hrest, firstVerdict_none (w := .held) (v := v) (by simp) (by simp [h]) rest nops]
    split
    · next t ht =>
      rw [hs, List.zip_cons_cons, List.map_cons] at ht
      by_cases hp : preIssue i = true
      · simp [firstVerdict, hp, Option.filter, h] at ht
        rw [ht]
      · exfalso
        have : firstVerdict .left (none :: ((List.replicate n Instr.nop).zip rest).map (fun o => if preIssue o.1 then o.2 else none)) = none := by
          rw [firstVerdict, List.findSome?_eq_none_iff]
          intro o ho
          rcases List.mem_cons.1 ho with rfl | ho
          · rfl
          · obtain ⟨q, hq, rfl⟩ := List.mem_map.1 ho
            rw [List.eq_of_mem_replicate (List.of_mem_zip hq).1]
            rfl
        simp only [hp, Bool.false_eq_true, if_false] at ht
        rw [this] at ht
        cases ht
    · rw [fold, h]
      simp [slotVerdict_next hv, Option.filter, h]

/-- What `prepareNext` prepares: the bundle that stands at the context's pc, in flight. -/
theorem prepareNext_ready {s u : State} {c : CoreId} {x : CtxId} {oper : Bool} (h : prepareNext s c x oper = .ready u) :
    u.issue.core = c ∧ u.issue.ctx = x ∧ u.issue.live = true ∧
    ∃ slots words, nextBundle s c x = .good slots words ∧ u.issue.words = words ∧
      u.issue.slots = slots.filterMap (fun sl => sl.instr.toOption) := by
  unfold prepareNext at h
  simp only at h
  split at h
  · cases h
  · split at h
    · cases h
    · next slots words hb =>
      split at h
      · cases h
      · split at h
        · cases h
        · split at h
          · cases h
          · cases h
            refine ⟨rfl, rfl, rfl, slots, words, hb, rfl, ?_⟩
            refine List.filterMap_congr (fun sl _ => ?_)
            cases sl.instr <;> rfl

theorem fetchSlots_last {get : CodeAddr → Except W64 W32} {n : Nat} {pc : CodeAddr} {w : W32} (h : get pc = .ok w)
    (hs : stopBit w = true) : fetchSlots get (n + 1) pc = .ok [w] := by
  rw [fetchSlots, h]; simp [hs]

theorem fetchSlots_more {get : CodeAddr → Except W64 W32} {n : Nat} {pc : CodeAddr} {w : W32} {t : List W32} (h : get pc = .ok w)
    (hs : stopBit w = false) (ht : fetchSlots get n (pc + 4) = .ok t) : fetchSlots get (n + 1) pc = .ok (w :: t) := by
  rw [fetchSlots, h, ht]; simp [hs]

/-- Four words without literals, the last of them with the stop bit, as a bundle (R42). -/
theorem decodeBundle_four (m : BundleMode) (get : CodeAddr → Except W64 W32) (pc : CodeAddr) (a b c d : W32) (hm : m.handler = false)
    (ga : get pc = .ok a) (gb : get (pc + 4) = .ok b) (gc : get (pc + 4 + 4) = .ok c) (gd : get (pc + 4 + 4 + 4) = .ok d)
    (sa : stopBit a = false) (sb : stopBit b = false) (sc : stopBit c = false) (sd : stopBit d = true)
    (la : litBit a = false) (lb : litBit b = false) (lc : litBit c = false) (ld : litBit d = false) :
    decodeBundle m get pc = match checkBundle m ([a, b, c, d].map (fun w => { word := w, instr := decodeSlot w 0 })) 4 with
      | some (cause, n) => .bad cause (BitVec.ofNat 64 n) 4
      | none => .good ([a, b, c, d].map (fun w => { word := w, instr := decodeSlot w 0 })) 4 := by
  have slots : fetchSlots get 8 pc = .ok [a, b, c, d] :=
    fetchSlots_more ga sa (fetchSlots_more gb sb (fetchSlots_more gc sc (fetchSlots_last gd sd)))
  have pairs : pairLits [a, b, c, d] [] = [a, b, c, d].map (fun w => { word := w, instr := decodeSlot w 0 }) := by
    simp [pairLits, la, lb, lc, ld]
  have lits : [a, b, c, d].filter litBit = [] := by simp [la, lb, lc, ld]
  simp [decodeBundle, hm, slots, lits, sd, fetchRun, pairs] <;> rfl

/-- Settles O57: `step_issue` and the run of a bundle of one instruction; what is prepared is what the words at the pc decode to. -/
theorem stepRuns : Obligations.StepRuns := by
  refine ⟨fun s u i rest ha he hf hx hl => ?_, fun s u v i n ha hu hi hl hs hv => ?_, fun s ha hu hl => ?_, fun s u c x h => ?_,
    decodeBundle_four⟩
  · have hn : nextEvent s = exec i := by simp [nextEvent, ha, he, hf]
    rw [step, hn, hx]
    exact if_neg (by simp [hl])
  · obtain ⟨ok, raised, left⟩ := runBundle_single hs hv
    rw [step_issue s ha hu, hi, completeIssue, if_pos hl]
    exact ⟨fun h => by rw [ok h], fun c info e h => by rw [raised c info e h], fun h => by rw [left h]⟩
  · rw [step_issue s ha hu, completeIssue, if_neg (by simp [hl])]
  · unfold prepare at h
    split at h
    · exact prepareNext_ready h
    · cases h

end Sys2Proof.Machine

namespace Sys2Proof.Machine

/-! A load whose destination is 28 to 31, which are read ports and no registers (R34, R116): nothing can be read there after it. -/

/-- What the numbers of the read ports read as in the vector file, whatever has been written (R116). -/
theorem getV_port (r : Regs) (d : BitVec 5) (h : 28 ≤ d.toNat) : r.getV d = 0 := by
  simp [Regs.getV, Vector.getElem?_eq_none h]

theorem lane_rowFrom (ls : List (Nat × W32)) (l : Nat) (h : l < 64) : lane (rowFrom ls) l = aget 0 ls l := lane_ofLanes _ l h

/-- A weight-store load of lane 0 whose destination is number 28. -/
def portOp : Op := { id := 7, dest := .vector 28 1, kind := .wload [(0, 0)], epoch := 0, pc := 0, words := 4 }

/-- Core 0 with that load outstanding outside the refresh window of its bank, and the byte 1 at offset 0 of the weight store. -/
def portScene : State :=
  { State.reset with cycle := 3200, mem := [(2 ^ 40, 1)] }.setCtx 0 0 { Ctx.zero with ops := [portOp] }

/-- Refutes O34: the data of a vector load do not stand in its destination where that is 28 to 31, since no register has these numbers and
they read as zero (R116); the statement leaves the destination of its vector clauses unbounded. The witness is a weight-store load of lane 0
to number 28, of a word that is not zero. -/
theorem not_operationResults : ¬ Obligations.OperationResults := by
  intro h
  obtain ⟨loads, -⟩ := h
  have pending : opOf portScene 0 0 portOp.id = some portOp := by
    rw [opOf, portScene, State.ctx_setCtx_same]; rfl
  have program : (portScene.ctx 0 0).handler = false := by rw [portScene, State.ctx_setCtx_same]; rfl
  have window : ∀ b ∈ wldBanks [(0, 0)], inWindow portScene (dieOf 0) b = false := by decide +kernel
  obtain ⟨-, -, -, weights, -⟩ := loads 0 0 portScene portOp pending program
  obtain ⟨t, -, -, gives⟩ := weights 28 1 [(0, 0)] rfl rfl rfl window
  have lanes := congrArg (lane · 0) gives
  have word : leWord 32 (portScene.mem.readRun (keyWeight (dieOf 0) 0) 4) = 1 := by decide +kernel
  have zero : lane 0 0 = 0 := by simp [lane]
  have bit : (1 : W64).getLsbD 0 = true := by decide
  simp only [getV_port _ 28 (by decide), lane_blend _ _ _ 0 (by decide), lane_rowFrom _ 0 (by decide), List.map_cons, List.map_nil, aget, word,
    zero, bit, if_true] at lanes
  exact absurd lanes (by decide)

end Sys2Proof.Machine

namespace Sys2Proof.Machine

/-! What the movements of bytes between gate, near cache and memory leave of a core: its contexts, engines, queue and pools. -/

/-- A core without what reads, writes and write-backs may change of it: its near cache, its count of corrected errors and the write-back
errors recorded for it. -/
def Core.bare (k : Core) : Core := { k with near := [], corrErr := 0, poisoned := [] }

/-- Two states whose cores agree but for near caches, counts of corrected errors and recorded write-back errors. -/
def SameCores (s t : State) : Prop := ∀ d, (t.core d).bare = (s.core d).bare

theorem SameCores.refl (s : State) : SameCores s s := fun _ => rfl
theorem SameCores.trans {s t u : State} (h : SameCores s t) (g : SameCores t u) : SameCores s u := fun d => (g d).trans (h d)

theorem SameCores.ctx {s t : State} (h : SameCores s t) (c : CoreId) (x : CtxId) : t.ctx c x = s.ctx c x := by
  show (t.core c).bare.ctx.get x = (s.core c).bare.ctx.get x
  rw [h c]

/-- An update of a core that changes nothing else of it. -/
theorem sameCores_setCore (s : State) (c : CoreId) (k : Core) (h : k.bare = (s.core c).bare) : SameCores s (s.setCore c k) := by
  intro d
  by_cases hd : d = c
  · subst hd; rw [State.core_setCore_same, h]
  · rw [State.core_setCore_ne _ _ _ _ hd]

theorem sameCores_foldl {β : Type} (f : State → β → State) (h : ∀ s b, SameCores s (f s b)) :
    ∀ (l : List β) (s : State), SameCores s (l.foldl f s)
  | [], s => SameCores.refl s
  | b :: t, s => (h s b).trans (sameCores_foldl f h t (f s b))

theorem sameCores_spendMem (s : State) (p : PartId) (bs : List Nat) : SameCores s (spendMem s p bs) := by
  unfold spendMem
  split
  · exact SameCores.refl s
  · simp only; split <;> exact fun _ => rfl

theorem sameCores_writeBack (s : State) (c : CoreId) (l : NearLine) : SameCores s (writeBack s c l) := by
  unfold writeBack
  split
  · exact SameCores.refl s
  · split
    · exact sameCores_spendMem s _ _
    · exact SameCores.refl s

theorem sameCores_nearPut (s : State) (c : CoreId) (l : NearLine) : SameCores s (nearPut s c l) := by
  unfold nearPut
  simp only
  split
  · exact (sameCores_writeBack s c _).trans (sameCores_setCore _ c _ rfl)
  · exact sameCores_setCore _ c _ rfl

theorem sameCores_nearStore (s : State) (c : CoreId) (a : W64) (bs : Vector (Option Byte) 64) : SameCores s (nearStore s c a bs) :=
  sameCores_nearPut s c _

theorem sameCores_nearInvalidate (s : State) (c : CoreId) (sel : W64 → Bool) : SameCores s (nearInvalidate s c sel) :=
  sameCores_setCore _ c _ rfl

theorem sameCores_nearRefresh (s : State) (c : CoreId) (va : W64) (bs : List Byte) : SameCores s (nearRefresh s c va bs) :=
  sameCores_setCore _ c _ rfl

theorem sameCores_deviceWrite (s : State) (c : CoreId) (va : W64) (bs : List Byte) : SameCores s (deviceWrite s c va bs) := by
  unfold deviceWrite ownerWrite
  cases place s c .peek va bs.length with
  | error _ => exact SameCores.refl s
  | ok p => exact sameCores_nearRefresh _ c va bs

theorem sameCores_recordPut (s : State) (c : CoreId) (n : W64) (i : Nat) (w : W64) : SameCores s (recordPut s c n i w) := by
  unfold recordPut
  split
  · exact SameCores.refl s
  · split
    · exact fun _ => rfl
    · exact sameCores_deviceWrite s _ _ _

theorem sameCores_performLine (s : State) (c : CoreId) (l : GateLine) : SameCores s (performLine s c l) := by
  unfold performLine
  split
  · exact SameCores.refl s
  · split
    · exact sameCores_nearStore s c _ _
    · exact sameCores_spendMem s _ _

theorem sameCores_acquire (s : State) (c : CoreId) (n : Nat) (sel : W64 → Bool) : SameCores s (acquire s c n sel) := by
  unfold acquire
  split
  · exact SameCores.refl s
  · exact sameCores_nearInvalidate s c sel

theorem acquire_mem (s : State) (c : CoreId) (n : Nat) (sel : W64 → Bool) : (acquire s c n sel).mem = s.mem := by
  unfold acquire; split <;> rfl

/-! Draining a gate, and a checkpoint. -/

theorem sameCores_performLines (s : State) (c : CoreId) (g : List GateLine) : SameCores s (g.foldl (fun t l => performLine t c l) s) :=
  sameCores_foldl _ (fun t l => sameCores_performLine t c l) _ _

/-- A drain changes nothing of its context but its gate. -/
theorem drainGate_ctx (s : State) (c : CoreId) (x : CtxId) : (drainGate s c x).ctx c x = { s.ctx c x with gate := [] } := by
  rw [drainGate, State.ctx_setCtx_same, (sameCores_performLines s c _).ctx]

theorem drainGate_mem (s : State) (c : CoreId) (x : CtxId) (h : (s.ctx c x).gate = []) : (drainGate s c x).mem = s.mem := by
  rw [drainGate, h]; rfl

theorem drainHandler_ctx (s : State) (c : CoreId) (x : CtxId) : (drainHandler s c x).ctx c x
    = { s.ctx c x with gate := gateMinus (s.ctx c x).gate (s.ctx c x).hgate, hgate := [] } := by
  rw [drainHandler, State.ctx_setCtx_same, (sameCores_performLines s c _).ctx]

theorem sampleLoads_ctx (s : State) (c : CoreId) (x : CtxId) : (sampleLoads s c x).ctx c x
    = { s.ctx c x with ops := (s.ctx c x).ops.map (fun o => { o with kind := o.kind.sampled s c }) } := by
  rw [sampleLoads, State.ctx_setCtx_same]

/-- A context whose checkpoint commits: the registers are the checkpoint's, the gate is empty, the pending loads have sampled. -/
theorem commit_ctx (s : State) (c : CoreId) (x : CtxId) : (commit s c x).ctx c x = { s.ctx c x with
    ops := (s.ctx c x).ops.map (fun o => { o with kind := o.kind.sampled s c }), gate := [], ck := (s.ctx c x).r,
    epoch := (s.ctx c x).epoch + 1, eccRetried := (s.ctx c x).eccRetried && !(s.ctx c x).moved, moved := false, arrayKept := false } := by
  simp only [commit, State.ctx_setCtx_same, drainGate_ctx, sampleLoads_ctx]

theorem freeArray_mem (s : State) (c : CoreId) (x : CtxId) (b : Bool) : (freeArray s c x b).mem = s.mem := by
  unfold freeArray; split <;> rfl

/-- A checkpoint with an empty gate leaves memory as it is. -/
theorem commit_mem (s : State) (c : CoreId) (x : CtxId) (h : (s.ctx c x).gate = []) : (commit s c x).mem = s.mem := by
  have g : ((sampleLoads s c x).ctx c x).gate = [] := by rw [sampleLoads_ctx]; exact h
  rw [commit, State.setCtx_mem, freeArray_mem, drainGate_mem _ _ _ g]; rfl

/-- In handler mode the handler's own stores are handed over, and nothing else of the context changes but its gates and its loads. -/
theorem drainStores_handler_ctx (s : State) (c : CoreId) (x : CtxId) (h : (s.ctx c x).handler = true) : (drainStores s c x).ctx c x
    = { s.ctx c x with
        ops := (s.ctx c x).ops.map (fun o => { o with kind := o.kind.sampled s c }),
        gate := gateMinus (s.ctx c x).gate (s.ctx c x).hgate, hgate := [] } := by
  have h' : ((sampleLoads s c x).ctx c x).handler = true := by rw [sampleLoads_ctx]; exact h
  rw [drainStores]
  simp only
  rw [if_pos h', drainHandler_ctx, sampleLoads_ctx]

/-! The issue of a bundle (R18, R20, R22, R366). -/

theorem barAcquire_sameCores (s : State) (c : CoreId) (x : CtxId) : SameCores s (barAcquire s c x) := by
  unfold barAcquire
  simp only
  split
  · split
    · exact SameCores.refl s
    · exact sameCores_acquire s c _ _
  · exact SameCores.refl s

theorem barAcquire_idle (s : State) (c : CoreId) (x : CtxId) (h : (s.ctx c x).barWait = none ∨ (s.ctx c x).handler = true) :
    barAcquire s c x = s := by
  unfold barAcquire
  simp only
  split
  · next hb => rw [if_pos (h.resolve_left (by rw [hb]; simp))]
  · rfl

@[simp] theorem setS_pc (r : Regs) (d : BitVec 5) (x : W64) : (r.setS d x).pc = r.pc := by
  unfold Regs.setS; split <;> rfl
@[simp] theorem setG_pc (r : Regs) (d : BitVec 3) (x : W64) : (r.setG d x).pc = r.pc := by
  unfold Regs.setG; split <;> rfl

theorem land_pc (r : Regs) (l : Latch) : (r.land l).pc = r.pc := by
  unfold Regs.land Regs.write; split <;> simp [Regs.setV, Regs.setFlags]

/-- Landing leaves the pc. -/
theorem landAll_pc (r : Regs) : r.landAll.pc = r.pc := by
  have settle (k : Regs) : k.settleArray.pc = k.pc := by unfold Regs.settleArray; split <;> rfl
  have fold : ∀ (ls : List Latch) (k : Regs), (ls.foldl Regs.land k).pc = k.pc := by
    intro ls
    induction ls with
    | nil => exact fun _ => rfl
    | cons l ls ih => exact fun k => (ih _).trans (land_pc k l)
  rw [Regs.landAll, settle, fold]

/-! The bundle that a step prepares. -/

/-- The instructions of a bundle's slots. -/
def slotInstrs (slots : List Slot) : List Instr := slots.filterMap (fun sl => sl.instr.toOption)

theorem slotInstrs_of (slots : List Slot) (f : Slot → Option Instr) (h : ∀ sl, f sl = sl.instr.toOption) :
    slots.filterMap f = slotInstrs slots :=
  List.filterMap_congr (fun sl _ => h sl)

/-- The bundle makes a checkpoint commit (R366, R374, R392). -/
def commits (k : Ctx) (is : List Instr) : Bool := !k.handler && (is.any irrevocable || is.any (ckptSlot k.r.landAll))

/-- The bundle hands stores over before it issues. -/
abbrev HandsOver (k : Ctx) (is : List Instr) : Prop := commits k is ∨ is.any irrevocable

/-- Something that the bundle waits for before it hands stores over: an access outstanding, or the memory controllers. -/
abbrev HandOverBlocked (s : State) (c : CoreId) (x : CtxId) (is : List Instr) : Prop :=
  (commits (s.ctx c x) is ∧ ckptBlocked (s.ctx c x)) ∨ (is.any irrevocable ∧ handlerStores (s.ctx c x)) ∨
    (HandsOver (s.ctx c x) is ∧ ¬ drainReady s c x)

/-- The state from which a prepared bundle issues: its stores handed over as it demands, its barrier's acquire made. -/
def storesHanded (s : State) (c : CoreId) (x : CtxId) (is : List Instr) : State :=
  barAcquire (if commits (s.ctx c x) is then commit s c x else if is.any irrevocable then drainStores s c x else s) c x

/-- The prepared bundle in flight: the results that are due landed, the snapshot taken. -/
def inFlight (s : State) (c : CoreId) (x : CtxId) (is : List Instr) (words : Nat) (oper : Bool) : State :=
  let t := storesHanded s c x is
  let k := t.ctx c x
  let k := { k with r := (s.ctx c x).r.landAll,
                    badRows := k.badRows.filter (fun i => !k.r.latches.any (fun l => decide (l.left ≤ 1) && l.renews i)),
                    barWait := if k.handler then k.barWait else none }
  let t := t.setCtx c x k
  { t with issue := { core := c, ctx := x, pc := (s.ctx c x).r.landAll.pc, words := words, slot := 0, pre := k, mem := t.mem,
                      near := (t.core c).near, drained := false, live := true, slots := is, ckpt := commits (s.ctx c x) is, pops := 0,
                      draws := 0, verdict := .ok, transfer := .none, replay := false, oper := oper, effects := [] } }

/-- What is prepared for a good bundle of a context with no write-back error to report and no rep of zero (R18, R20, R366, R378). -/
theorem prepareNext_good {s : State} {c : CoreId} {x : CtxId} {slots : List Slot} {words : Nat} (oper : Bool)
    (hb : barError s c x = none) (hg : nextBundle s c x = .good slots words)
    (hr : (s.ctx c x).r.rep ≠ some 0 ∨ (s.ctx c x).r.replay.isSome = true) :
    prepareNext s c x oper =
      let is := slotInstrs slots
      if HandOverBlocked s c x is then .blocked
      else if HandsOver (s.ctx c x) is ∧ (s.ctx c x).badStore then .done (endBad s c x (s.ctx c x).r.pc words)
      else .ready (inFlight s c x is words oper) := by
  have skip : ¬((s.ctx c x).r.rep = some 0 ∧ (s.ctx c x).r.replay.isNone = true) := by
    rintro ⟨h0, hn⟩
    rcases hr with h | h
    · exact h h0
    · rw [Option.isNone_iff_eq_none] at hn; rw [hn] at h; exact absurd h (by simp)
  unfold prepareNext
  simp only [hb, hg, if_neg skip]
  rw [slotInstrs_of]
  · rfl
  · exact fun sl => by cases sl.instr <;> rfl

end Sys2Proof.Machine

namespace Sys2Proof.Machine

/-! The issue slot of a core whose current context can issue (R20, R119). -/

theorem reported_eq_none {s : State} {c : CoreId} {sel : W64 → Bool} : reported s c sel = none ↔
    (s.core c).poisoned.find? (fun l => (List.range 64).any (fun i => sel (l + BitVec.ofNat 64 i))) = none := by
  unfold reported; split <;> simp [*]

theorem barError_calm {s : State} {c : CoreId} {x : CtxId} (h : barError s c x = none) : barError s.calm c x = none := by
  have ctx : s.calm.ctx c x = s.ctx c x := rfl
  unfold barError at h ⊢
  cases hb : (s.ctx c x).barWait with
  | none => simp [ctx, hb]
  | some w =>
    cases hh : (s.ctx c x).handler with
    | true => simp [ctx, hb, hh]
    | false =>
      simp only [ctx, hb, hh, Bool.false_eq_true, if_false] at h ⊢
      exact reported_eq_none.2 (reported_eq_none (s := s).1 h)

/-- A state in which core c has bundle or boundary of context x behind it: x is its current context. -/
def State.selects (u : State) (c : CoreId) (x : CtxId) : State := u.setCore c { u.core c with current := x }

theorem selects_ctx (u : State) (c : CoreId) (x : CtxId) : (u.selects c x).ctx c x = u.ctx c x := by
  rw [State.selects, State.ctx, State.core_setCore_same]; rfl

/-- An issue slot that nothing takes away goes to the bundle prepared for the current context, unless that is blocked. -/
theorem issueSlot_prepared {s : State} {c : CoreId} (hf : s.frozen = false) (ho : (s.core c).out = false)
    (hr : ctxReady s c (s.core c).current = true) (ha : stretchAllows s (s.core c) = true) :
    issueSlot s c = match prepareNext s.calm c (s.core c).current false with
      | .blocked => issueFrom s.calm c (order (s.core c)).tail
      | .done u => tick (u.selects c (s.core c).current)
      | .ready u => u.selects c (s.core c).current := by
  have bubble : ¬((s.calm.ctx c (s.calm.core c).current).phase = .running ∧ (s.calm.ctx c (s.calm.core c).current).bubble ≠ 0) := by
    rintro ⟨_, hne⟩
    simp only [ctxReady, Bool.and_eq_true, beq_iff_eq] at hr
    exact hne hr.1.1.2
  have hp : prepare s.calm c (s.core c).current = prepareNext s.calm c (s.core c).current false := if_pos hr
  have frozen : ¬ (s.calm.frozen = true) := by rw [show s.calm.frozen = s.frozen from rfl, hf]; simp
  have out : ¬ ((s.calm.core c).out = true) := by rw [show (s.calm.core c).out = (s.core c).out from rfl, ho]; simp
  have allows : ¬¬ (stretchAllows s.calm (s.calm.core c) = true) := by
    rw [show stretchAllows s.calm (s.calm.core c) = stretchAllows s (s.core c) from rfl, ha]; simp
  rw [issueSlot]
  rw [if_neg frozen, if_neg out, if_neg bubble, if_neg allows, ← hp]
  rfl

/-- What is in flight: its context, with the results that are due landed. -/
theorem inFlight_issued (s : State) (c : CoreId) (x : CtxId) (is : List Instr) (words : Nat) :
    InFlight s ((inFlight s.calm c x is words false).selects c x) c x is words := by
  have hr : ((inFlight s.calm c x is words false).ctx c x).r = (s.ctx c x).r.landAll := by
    rw [inFlight]; exact congrArg Ctx.r (State.ctx_setCtx_same _ _ _ _)
  refine ⟨rfl, rfl, rfl, landAll_pc _, rfl, rfl, ?_, ?_⟩
  · rw [selects_ctx, hr]
  · rw [selects_ctx]; exact (State.ctx_setCtx_same _ _ _ _).symm

/-- The bundle in flight leaves checkpoint, operations and gates of its context as the handing over left them. -/
theorem inFlight_ctx (s : State) (c : CoreId) (x : CtxId) (is : List Instr) (words : Nat) :
    let t := (inFlight s c x is words false).selects c x
    let k := (storesHanded s c x is).ctx c x
    (t.ctx c x).ck = k.ck ∧ (t.ctx c x).ops = k.ops ∧ (t.ctx c x).gate = k.gate ∧ (t.ctx c x).hgate = k.hgate := by
  have h : (inFlight s c x is words false).ctx c x = _ := State.ctx_setCtx_same _ _ _ _
  simp only [selects_ctx, h]
  exact ⟨trivial, trivial, trivial, trivial⟩

/-! What the stores are handed over for, bundle by bundle. -/

theorem commits_eq_false {k : Ctx} {is : List Instr}
    (h : ∀ i ∈ is, irrevocable i = false ∧ (k.handler = true ∨ ckptSlot k.r.landAll i = false)) :
    is.any irrevocable = false ∧ commits k is = false := by
  have irr : is.any irrevocable = false := List.any_eq_false.2 (fun i hi => by simp [(h i hi).1])
  refine ⟨irr, ?_⟩
  cases hk : k.handler with
  | true => simp [commits, hk]
  | false =>
    have ck : is.any (ckptSlot k.r.landAll) = false :=
      List.any_eq_false.2 (fun i hi => by simp [(h i hi).2.resolve_left (by simp [hk])])
    simp [commits, irr, ck]

theorem commits_eq_true {k : Ctx} {is : List Instr} (hk : k.handler = false)
    (h : ∃ i ∈ is, irrevocable i = true ∨ ckptSlot k.r.landAll i = true) : commits k is = true := by
  obtain ⟨i, hi, h⟩ := h
  rw [commits, hk, Bool.not_false, Bool.true_and, Bool.or_eq_true]
  exact h.imp (fun h => List.any_eq_true.2 ⟨i, hi, h⟩) (fun h => List.any_eq_true.2 ⟨i, hi, h⟩)

theorem commits_handler {k : Ctx} {is : List Instr} (hk : k.handler = true) : commits k is = false := by simp [commits, hk]

/-- Nothing that blocks a checkpoint is outstanding, so no store of a handler is. -/
theorem handlerStores_of_not_blocked {k : Ctx} (h : ckptBlocked k = false) : handlerStores k = false := by
  rw [ckptBlocked, List.any_eq_false] at h
  rw [handlerStores, List.any_eq_false]
  intro o ho
  have := h o ho
  cases hk : o.kind <;> simp_all [OpKind.waitsStore]

theorem not_handsOver {k : Ctx} {is : List Instr} (hc : commits k is = false) (hi : is.any irrevocable = false) : ¬HandsOver k is := by
  rintro (h | h)
  · exact ne_true_of_eq_false hc h
  · exact ne_true_of_eq_false hi h

theorem not_blocked_of_not_handsOver {s : State} {c : CoreId} {x : CtxId} {is : List Instr} (h : ¬HandsOver (s.ctx c x) is) :
    ¬HandOverBlocked s c x is := by
  rintro (⟨hc, _⟩ | ⟨hi, _⟩ | ⟨ho, _⟩)
  · exact h (.inl hc)
  · exact h (.inr hi)
  · exact h ho

theorem not_blocked {s : State} {c : CoreId} {x : CtxId} {is : List Instr}
    (hb : commits (s.ctx c x) is = true → ckptBlocked (s.ctx c x) = false) (hs : handlerStores (s.ctx c x) = false)
    (hd : drainReady s c x = true) : ¬HandOverBlocked s c x is := by
  rintro (⟨hc, h⟩ | ⟨_, h⟩ | ⟨_, h⟩)
  · exact ne_true_of_eq_false (hb hc) h
  · exact ne_true_of_eq_false hs h
  · exact h hd

/-- A bundle that commits nothing hands nothing over. -/
theorem storesHanded_plain {s : State} {c : CoreId} {x : CtxId} {is : List Instr} (h : commits (s.ctx c x) is = false)
    (hi : is.any irrevocable = false) : storesHanded s c x is = barAcquire s c x := by
  rw [storesHanded, if_neg (by simp [h]), if_neg (by simp [hi])]

/-- A checkpoint bundle's context, its stores handed over. -/
theorem storesHanded_commit {s : State} {c : CoreId} {x : CtxId} {is : List Instr} (h : commits (s.ctx c x) is = true) :
    (storesHanded s c x is).ctx c x = (commit s c x).ctx c x := by
  rw [storesHanded, if_pos h, (barAcquire_sameCores _ c x).ctx]

/-- The context of an irrevocable bundle in handler mode, the handler's stores handed over. -/
theorem storesHanded_handler {s : State} {c : CoreId} {x : CtxId} {is : List Instr} (h : commits (s.ctx c x) is = false)
    (hi : is.any irrevocable = true) : (storesHanded s c x is).ctx c x = (drainStores s c x).ctx c x := by
  rw [storesHanded, if_neg (by simp [h]), if_pos hi, (barAcquire_sameCores _ c x).ctx]

/-! The end of a cycle leaves memory as it is, when no error strikes. -/

theorem endCycle_mem (s : State) (h : s.upsets = []) : (endCycle s).mem = s.mem := by
  unfold endCycle; simp [h]

theorem tick_mem (s : State) (h : s.upsets = []) : (tick s).mem = s.mem := by
  unfold tick
  simp only
  split
  · rfl
  · exact endCycle_mem { s with slotDone := [] } h

/-- An issue slot in the current context's bubble passes (R20). -/
theorem issueSlot_bubble {s : State} {c : CoreId} (hf : s.frozen = false) (ho : (s.core c).out = false)
    (hp : (s.ctx c (s.core c).current).phase = .running) (hb : (s.ctx c (s.core c).current).bubble ≠ 0) :
    ∃ y, issueSlot s c = tick (s.calm.setCtx c (s.core c).current y) := by
  rw [issueSlot, if_neg (show ¬ (s.calm.frozen = true) from ne_true_of_eq_false hf),
    if_neg (show ¬ ((s.calm.core c).out = true) from ne_true_of_eq_false ho)]
  exact ⟨_, if_pos ⟨hp, hb⟩⟩

section
variable {s : State} {c : CoreId} {slots : List Slot} {words : Nat} (hf : s.frozen = false) (ho : (s.core c).out = false)
  (hr : ctxReady s c (s.core c).current = true) (ha : stretchAllows s (s.core c) = true) (hb : barError s c (s.core c).current = none)
  (hg : nextBundle s c (s.core c).current = .good slots words)
  (hrep : (s.ctx c (s.core c).current).r.rep ≠ some 0 ∨ (s.ctx c (s.core c).current).r.replay.isSome = true)
include hf ho hr ha hb hg hrep

/-- The slot's bundle is in flight: nothing blocks what it hands over, and what it hands over is good. -/
theorem issueSlot_inFlight
    (hfree : ¬HandOverBlocked s c (s.core c).current (slotInstrs slots))
    (hok : ¬(HandsOver (s.ctx c (s.core c).current) (slotInstrs slots) ∧ (s.ctx c (s.core c).current).badStore)) :
    exec (.bundleIssue c) s = .next ((inFlight s.calm c (s.core c).current (slotInstrs slots) words false).selects c (s.core c).current) := by
  have prepared := prepareNext_good (s := s.calm) false (barError_calm hb) (show nextBundle s.calm c (s.core c).current = _ from hg) hrep
  rw [exec_bundleIssue, execBundleIssue, issueSlot_prepared hf ho hr ha, prepared.trans ((if_neg hfree).trans (if_neg hok))]

/-- The slot's bundle finds an error in the gate that it hands over: the continuation ends (R378). -/
theorem issueSlot_bad
    (hfree : ¬HandOverBlocked s c (s.core c).current (slotInstrs slots))
    (hbad : HandsOver (s.ctx c (s.core c).current) (slotInstrs slots) ∧ (s.ctx c (s.core c).current).badStore) :
    exec (.bundleIssue c) s =
      .next (tick ((endBad s.calm c (s.core c).current (s.ctx c (s.core c).current).r.pc words).selects c (s.core c).current)) := by
  have prepared := prepareNext_good (s := s.calm) false (barError_calm hb) (show nextBundle s.calm c (s.core c).current = _ from hg) hrep
  rw [exec_bundleIssue, execBundleIssue, issueSlot_prepared hf ho hr ha, prepared.trans ((if_neg hfree).trans (if_pos hbad))]
  rfl

end

/-- Settles O33: an issue slot that nothing takes away, by the three ways a bundle may hand its stores over. -/
theorem bundleIssues : Obligations.BundleIssues := by
  refine ⟨fun c x s slots words is hf ho hx hr ha hb hg hrep his => ?_, fun c s hf ho hp hb hu => ?_, fun c s hf => ?_⟩
  · subst hx his
    have issues := issueSlot_inFlight hf ho hr ha hb hg hrep
    have bad := issueSlot_bad hf ho hr ha hb hg hrep
    obtain ⟨ck, ops, gate, hgate⟩ := inFlight_ctx s.calm c (s.core c).current (slotInstrs slots) words
    have flight := inFlight_issued s c (s.core c).current (slotInstrs slots) words
    refine ⟨fun h => ?_, fun h hh hbl hd => ?_, fun h hh hst hd => ?_⟩
    · obtain ⟨irr, com⟩ := commits_eq_false h
      have plain : storesHanded s.calm c (s.core c).current (slotInstrs slots) = barAcquire s.calm c (s.core c).current :=
        storesHanded_plain com irr
      have same := (barAcquire_sameCores s.calm c (s.core c).current).ctx c (s.core c).current
      have quiet := not_handsOver com irr
      refine ⟨_, issues (not_blocked_of_not_handsOver quiet) (fun h => quiet h.1), flight, ?_, ?_, fun hw => ?_⟩
      · rw [ck, plain, same]; rfl
      · rw [ops, plain, same]; rfl
      · show (storesHanded s.calm c (s.core c).current (slotInstrs slots)).mem = _
        rw [plain, barAcquire_idle s.calm _ _ hw]; rfl
    · have com := commits_eq_true hh h
      have free := not_blocked (is := slotInstrs slots) (fun _ => hbl) (handlerStores_of_not_blocked hbl) hd
      have done := (storesHanded_commit (s := s.calm) (is := slotInstrs slots) com).trans (commit_ctx s.calm c (s.core c).current)
      refine ⟨fun hok => ⟨_, issues free (fun h => ne_true_of_eq_false hok h.2), flight, ?_, ?_⟩,
        fun hbad => ⟨_, rfl, bad free ⟨.inl com, hbad⟩⟩⟩
      · rw [ck, done]; rfl
      · rw [gate, done]
    · have com := commits_handler (is := slotInstrs slots) hh
      have irr : (slotInstrs slots).any irrevocable = true := by
        obtain ⟨i, hi, h⟩ := h
        exact List.any_eq_true.2 ⟨i, hi, h⟩
      have free := not_blocked (is := slotInstrs slots) (fun h => absurd h (ne_true_of_eq_false com)) hst hd
      have done := (storesHanded_handler (s := s.calm) com irr).trans (drainStores_handler_ctx s.calm c (s.core c).current hh)
      refine ⟨fun hok => ⟨_, issues free (fun h => ne_true_of_eq_false hok h.2), flight, ?_, ?_⟩,
        fun hbad => ⟨_, rfl, bad free ⟨.inr irr, hbad⟩⟩⟩
      · rw [ck, done]; rfl
      · rw [hgate, done]
  · obtain ⟨y, h⟩ := issueSlot_bubble hf ho hp hb
    refine ⟨_, rfl, ?_, ?_⟩
    · rw [h, tick_issue]; rfl
    · rw [h]; exact tick_mem _ hu
  · exact congrArg _ (if_pos hf)

end Sys2Proof.Machine

namespace Sys2Proof.Machine

/-! Where a core's addresses lie depends on the partition table and the cores left out; write-backs change neither. -/

/-- Two states under the same partition table, with the same cores left out. -/
def SamePlaces (s t : State) : Prop :=
  (∀ d, (t.core d).out = (s.core d).out) ∧ t.image = s.image ∧ ∀ p, (t.part p).pasid = (s.part p).pasid ∧ (t.part p).table = (s.part p).table

theorem SamePlaces.refl (s : State) : SamePlaces s s := ⟨fun _ => rfl, rfl, fun _ => ⟨rfl, rfl⟩⟩

theorem SamePlaces.trans {s t u : State} (h : SamePlaces s t) (g : SamePlaces t u) : SamePlaces s u :=
  ⟨fun d => (g.1 d).trans (h.1 d), g.2.1.trans h.2.1, fun p => ⟨(g.2.2 p).1.trans (h.2.2 p).1, (g.2.2 p).2.trans (h.2.2 p).2⟩⟩

theorem samePlaces_setPart (s : State) (p : PartId) (k : Part) (hp : k.pasid = (s.part p).pasid) (ht : k.table = (s.part p).table) :
    SamePlaces s (s.setPart p k) := by
  refine ⟨fun _ => rfl, rfl, fun q => ?_⟩
  by_cases h : q = p
  · subst h; rw [State.part_setPart_same]; exact ⟨hp, ht⟩
  · rw [State.part_setPart_ne _ _ _ _ h]; exact ⟨rfl, rfl⟩

theorem samePlaces_refreshBudgets (s : State) (p : PartId) : SamePlaces s (refreshBudgets s p) := by
  unfold refreshBudgets
  simp only
  split <;> split <;> exact samePlaces_setPart s p _ rfl rfl

theorem samePlaces_spendMem (s : State) (p : PartId) (bs : List Nat) : SamePlaces s (spendMem s p bs) := by
  unfold spendMem
  split
  · exact SamePlaces.refl s
  · simp only
    split
    · exact SamePlaces.refl s
    · exact (samePlaces_refreshBudgets _ p).trans (samePlaces_setPart _ p _ rfl rfl)

theorem spendMem_mem (s : State) (p : PartId) (bs : List Nat) : (spendMem s p bs).mem = s.mem := by
  unfold spendMem
  split
  · rfl
  · simp only; split <;> rfl

theorem samePlaces_writeBack (s : State) (c : CoreId) (l : NearLine) : SamePlaces s (writeBack s c l) := by
  unfold writeBack
  split
  · exact SamePlaces.refl s
  · split
    · exact (samePlaces_spendMem s _ _).trans ⟨fun _ => rfl, rfl, fun _ => ⟨rfl, rfl⟩⟩
    · exact SamePlaces.refl s

theorem samePlaces_setCore (s : State) (c : CoreId) (k : Core) (h : k.out = (s.core c).out) : SamePlaces s (s.setCore c k) := by
  refine ⟨fun d => ?_, rfl, fun _ => ⟨rfl, rfl⟩⟩
  by_cases hd : d = c
  · subst hd; rw [State.core_setCore_same, h]
  · rw [State.core_setCore_ne _ _ _ _ hd]

theorem SamePlaces.ownerKey {s t : State} (h : SamePlaces s t) (c : CoreId) (va : W64) : ownerKey t c va = ownerKey s c va := by
  obtain ⟨out, image, parts⟩ := h
  have part (d : CoreId) : t.partOf d = s.partOf d := by simp only [State.partOf, State.partOfQuad, image]
  have place : placeByte t c .peek va = placeByte s c .peek va := by
    simp only [placeByte, placeByteIn, State.partIdOf, part, out, (parts _).1, (parts _).2]
  rw [Machine.ownerKey, place, Machine.ownerKey]

/-- A write-back to a key from n on leaves the bytes below n. -/
theorem writeBack_read {s : State} {c : CoreId} {l : NearLine} {n j : Nat} (h : ∀ k, ownerKey s c l.addr = some k → n ≤ k) (hj : j < n) :
    (writeBack s c l).mem.read j = s.mem.read j := by
  unfold writeBack
  split
  · rfl
  · split
    · next k hk =>
      have := h k hk
      rw [State.mergeAt, Memory.merge, Memory.read_writeRun, if_neg (by omega), spendMem_mem]
    · rfl

/-- The write-back of dirty lines whose owners' keys are from n on leaves the bytes below n. -/
theorem nearWriteBack_read {s : State} {c : CoreId} {n j : Nat} (sel : W64 → Bool)
    (h : ∀ l ∈ (s.core c).near, l.dirty ≠ 0 → ∀ k, ownerKey s c l.addr = some k → n ≤ k) (hj : j < n) :
    (nearWriteBack s c sel).mem.read j = s.mem.read j := by
  have fold : SamePlaces s (nearWriteBack s c sel) ∧ (nearWriteBack s c sel).mem.read j = s.mem.read j := by
    refine List.foldlRecOn (motive := fun t => SamePlaces s t ∧ t.mem.read j = s.mem.read j) (s.core c).near _
      ⟨SamePlaces.refl s, rfl⟩ (fun t ⟨places, same⟩ l hl => ?_)
    split
    · next hd =>
      have keys : ∀ k, ownerKey t c l.addr = some k → n ≤ k := by rw [places.ownerKey]; exact h l hl hd.1
      exact ⟨(places.trans (samePlaces_writeBack t c l)).trans (samePlaces_setCore _ c _ rfl), (writeBack_read keys hj).trans same⟩
    · exact ⟨places, same⟩
  exact fold.2

theorem reported_mem {s t : State} {c : CoreId} {sel : W64 → Bool} {l : W64} (h : reported s c sel = some (l, t)) : t.mem = s.mem := by
  unfold reported at h
  split at h <;> cases h
  rfl

theorem fullAcquire_mem (s : State) (c : CoreId) : (fullAcquire s c).2.mem = s.mem := by
  unfold fullAcquire
  split
  · next hr => exact (acquire_mem _ _ _ _).trans (reported_mem hr)
  · exact acquire_mem _ _ _ _

/-! The registers at a start (R15). -/

theorem getS_zero (n : BitVec 5) : Regs.zero.getS n = 0 := by
  unfold Regs.getS
  split
  · rfl
  · exact Vector.getElem_replicate ..

theorem fullS_zero (n : BitVec 5) : Regs.zero.fullS n = true := by
  have : Regs.zero.sFull.getLsbD n.toNat = true := by
    rw [show Regs.zero.sFull = BitVec.allOnes 32 from rfl, BitVec.getLsbD_allOnes]; exact decide_eq_true n.isLt
  rw [Regs.fullS, this, Bool.or_true]

theorem getG_zero (n : BitVec 3) (h : 2 ≤ n.toNat) : Regs.zero.getG n = 0 := by
  have h0 : n ≠ 0 := by rintro rfl; simp at h
  have h1 : n ≠ 1 := by rintro rfl; simp at h
  rw [Regs.getG, if_neg h0, if_neg h1]
  exact (Vector.getElem_set_ne (i := 0) (by decide) n.isLt (by omega)).trans (Vector.getElem_replicate ..)

/-- Only the pc, the scalar registers and the accumulator rows differ from the registers at reset. -/
theorem startRegs_eq (job : Record) : ∃ f, startRegs job = { Regs.zero with
    pc := (recWord job.words 0).setWidth 48, rows := List.replicate (64 * recAcc job.words) 0, s := f } :=
  ⟨_, rfl⟩

theorem startRegs_getS (job : Record) : (startRegs job).getS 1 = recWord job.words 4 ∧ (startRegs job).getS 2 = recWord job.words 5 ∧
    (startRegs job).getS 3 = recWord job.words 6 ∧ (startRegs job).getS 4 = recWord job.words 7 ∧
    (startRegs job).getS 5 = nameAddr job.name ∧ ∀ n : BitVec 5, 5 < n.toNat → (startRegs job).getS n = 0 := by
  have other (n : BitVec 5) (h : 5 < n.toNat) (i : BitVec 5) (hi : i.toNat ≤ 5) : n ≠ i := by rintro rfl; omega
  refine ⟨?_, ?_, ?_, ?_, ?_, fun n hn => ?_⟩
  · simp [startRegs, getS_setS_same, getS_setS_ne]
  · simp [startRegs, getS_setS_same, getS_setS_ne]
  · simp [startRegs, getS_setS_same, getS_setS_ne]
  · simp [startRegs, getS_setS_same, getS_setS_ne]
  · simp [startRegs, getS_setS_same]
  · simp only [startRegs]
    rw [getS_setS_ne _ _ _ _ (other n hn 5 (by decide)), getS_setS_ne _ _ _ _ (other n hn 4 (by decide)),
      getS_setS_ne _ _ _ _ (other n hn 3 (by decide)), getS_setS_ne _ _ _ _ (other n hn 2 (by decide)),
      getS_setS_ne _ _ _ _ (other n hn 1 (by decide))]
    exact getS_zero n

theorem startCtx_ctx (s : State) (c : CoreId) (x : CtxId) (job : Record) : ∃ y, (startCtx s c x job).ctx c x = y ∧
    y.r = startRegs job ∧ y.ck = startRegs job ∧ y.gate = [] ∧ y.handler = false ∧ y.acc = recAcc job.words ∧
    y.phase = (if wbits (recWord job.words 0) 48 4 = 1 then .waitArray (recWord job.words 3).toNat else .running) := by
  unfold startCtx
  obtain ⟨bad, t⟩ := fullAcquire (nearWriteBack s c everyByte) c
  simp only [State.ctx_setEngine]
  exact ⟨_, State.ctx_setCtx_same _ _ _ _, rfl, rfl, rfl, rfl, rfl, rfl⟩

theorem startCtx_mem (s : State) (c : CoreId) (x : CtxId) (job : Record) :
    (startCtx s c x job).mem = (nearWriteBack s c everyByte).mem :=
  fullAcquire_mem _ _

theorem joinGang_none {s : State} {p : PartId} (h : (s.part p).reserving = none) : joinGang s p = s := by
  unfold joinGang; rw [h]; rfl

theorem freeCtxOf_lowest {s : State} {c : CoreId} {x : CtxId} (hp : (s.ctx c x).phase = .idle) (hn : (s.ctx c x).newcomer = none)
    (h : ∀ y, y < x → (s.ctx c y).phase ≠ .idle ∨ (s.ctx c y).newcomer ≠ none) : freeCtxOf (s.core c) = some x := by
  have nth : ∀ (i : Nat) (hi : i < 4), ([0, 1, 2, 3] : List CtxId)[i] = ⟨i, hi⟩ := by decide
  rw [freeCtxOf, List.find?_eq_some_iff_getElem]
  refine ⟨?_, x.val, x.isLt, nth x.val x.isLt, fun j hj => ?_⟩
  · rw [State.ctx] at hp hn
    simp [hp, hn]
  · have busy := h ⟨j, hj.trans x.isLt⟩ hj
    rw [State.ctx] at busy
    rw [nth j (hj.trans x.isLt)]
    rcases busy with hb | hb
    · simp [hb]
    · simp [Option.isSome_iff_ne_none.2 hb]

/-! Taking a record (R129 to R131). -/

/-- The two ways a record is taken, in one form: some state with the same memory starts some job of the record's words. -/
theorem takeRecord_start (s : State) (c : CoreId) (x : CtxId) (name : W64) (started : Bool) (w : Nat)
    (host : Option (QueueId × BitVec 16)) : ∃ u job, takeRecord s c x name started w host = startCtx u c x job ∧ u.mem = s.mem ∧
      job.words = startWords s c name ∧ job.started = started ∧
      job.scope = BitVec.ofNat 3 (max (wbits (recWord (startWords s c name) 0) 56 3) w) ∧ job.widening = BitVec.ofNat 3 w := by
  unfold takeRecord
  simp only
  split
  · split
    · exact ⟨_, _, rfl, rfl, rfl, rfl, rfl, rfl⟩
    · exact ⟨_, _, rfl, rfl, rfl, rfl, rfl, rfl⟩
  · exact ⟨_, _, rfl, rfl, rfl, rfl, rfl, rfl⟩

/-- Settles O35: the start of a record, and the registers that a start leaves. -/
theorem recordsStart : Obligations.RecordsStart := by
  refine ⟨fun c x s hres hst hidle => ⟨fun e rest hn hlow hsaved hq hleave hacc hscr => ?_, fun n hn hacc hscr => ?_⟩,
    fun s c x name started w host => ?_, fun s c x job r hr => ?_⟩
  · have free := freeCtxOf_lowest hidle hn hlow
    have grant : canGrant s c (startWords s c (entryName e)) = true := by simp [canGrant, hacc, hscr]
    have noSaved : resumable s c = none := by simp [resumable, hsaved]
    have run : exec (.continuationStart c x) s = if !wbit e 2 && gangBit (startWords s c (entryName e)) then .next s
        else .next (beginRecord (popQueue s c) c x (entryName e) (wbit e 2) (if wbit e 2 then wbits e 3 3 else 0) none) := by
      rw [exec_continuationStart, execContinuationStart, joinGang_none hres]
      simp [hst, hidle, hn, free, noSaved, hq, hleave, grant]
    refine ⟨fun hg => ?_, fun hw hg => ?_⟩
    · rw [run, if_neg (by rcases hg with hg | hg <;> simp [hg])]
    · rw [run, if_pos (by simp [hw, hg])]
  · have grant : canGrant s c (startWords s c n.name) = true := by simp [canGrant, hacc, hscr]
    rw [exec_continuationStart, execContinuationStart, joinGang_none hres]
    simp [hst, hidle, hn, startNewcomer, grant]
  · obtain ⟨u, job, start, mem, words, st, scope, wide⟩ := takeRecord_start s c x name started w host
    refine ⟨u, job, start, mem, words, st, ?_, ?_⟩
    · rw [scope, words, BitVec.toNat_ofNat]
    · rw [wide, BitVec.toNat_ofNat]
  · obtain ⟨y, hy, regs, ck, gate, handler, acc, phase⟩ := startCtx_ctx s c x job
    rw [hy] at hr ⊢
    subst hr
    obtain ⟨s1, s2, s3, s4, s5, others⟩ := regs ▸ startRegs_getS job
    obtain ⟨f, rest⟩ := startRegs_eq job
    refine ⟨?_, s1, s2, s3, s4, s5, others, rfl, fun n => ?_, fun n hn => ?_, ?_, ?_, ?_, ?_, ?_, ck.trans regs.symm, gate, handler, acc,
      phase, fun hkeys j hj => ?_⟩
    · rw [regs, rest]
    · rw [regs, rest]; exact fullS_zero n
    · rw [regs, rest]; exact getG_zero n hn
    · rw [regs, rest]; rfl
    · rw [regs, rest]; rfl
    · rw [regs, rest]; rfl
    · rw [regs, rest]; rfl
    · rw [regs, rest]; rfl
    · rw [startCtx_mem, nearWriteBack_read _ hkeys hj]

end Sys2Proof.Machine

namespace Sys2Proof.Machine

/-! Held pushes and barrier episodes (R128, R136). -/

theorem refill_no_ring (n : Nat) (s : State) (c : CoreId) (h : (s.core c).spillCount = 0) : refill n s c = s := by
  cases n with
  | zero => rfl
  | succ n => rw [refill, if_pos (.inl h)]

/-- A held push that the hardware queue has room for is made. -/
theorem retryHeld_one (s : State) (c : CoreId) (e : W64) (hh : (s.core c).heldPushes = [e]) (hr : (s.core c).spillCount = 0)
    (hq : (s.core c).queue.length < 32) : ((retryHeld 1 s c).core c).heldPushes = [] ∧
      ((retryHeld 1 s c).core c).queue = (s.core c).queue ++ [e] ∧ (retryHeld 1 s c).mem = s.mem := by
  have put : pushTail s c e = .ok (s.setCore c { s.core c with queue := (s.core c).queue ++ [e] }) := by
    unfold pushTail; exact if_pos ⟨hq, hr⟩
  simp only [retryHeld, hh, put, State.core_setCore_same]
  exact ⟨trivial, trivial, rfl⟩

theorem team_setTeam {s : State} {t v : Team} (h : s.team t.id = some t) (hv : v.id = t.id) : (s.setTeam v).team t.id = some v := by
  unfold State.team at h ⊢
  unfold State.setTeam
  simp only
  generalize s.teams = l at h ⊢
  induction l with
  | nil => cases h
  | cons u l ih =>
    rw [List.map_cons]
    by_cases hu : u.id = t.id
    · rw [if_pos (hu.trans hv.symm), List.find?_cons_of_pos (by simp [hv])]
    · rw [List.find?_cons_of_neg (by simpa using hu)] at h
      rw [if_neg (by rw [hv]; exact hu), List.find?_cons_of_neg (by simpa using hu)]
      exact ih h

theorem completed_completeEpisode (t : Team) (scope dom n : Nat) : (t.completeEpisode scope dom n).completed scope dom = n := by
  simp [Team.completeEpisode, Team.completed]

/-! Tile steps (R144 to R147). -/

theorem takeArray_owns (r : Regs) : r.takeArray.owns = true := rfl

/-- A tile step begins: the context has the array and its checkpoint is where it stands. -/
theorem enterStep_ctx {s : State} {c : CoreId} {x : CtxId} (n : Nat) (hb : (s.ctx c x).badStore = false) (hg : (s.ctx c x).gate = []) :
    ((enterStep s c x n).ctx c x).phase = .tileStep n ∧ ((enterStep s c x n).ctx c x).r.owns = true ∧
    ((enterStep s c x n).ctx c x).ck = ((enterStep s c x n).ctx c x).r ∧ (enterStep s c x n).mem = s.mem := by
  have run : enterStep s c x n = commit (s.setCtx c x { s.ctx c x with
      r := if (s.ctx c x).r.owns then (s.ctx c x).r else (s.ctx c x).r.takeArray, phase := .tileStep n, stepSince := s.cycle,
      arrayWait := none }) c x := by
    unfold enterStep checkpoint
    rw [if_neg (by rw [State.ctx_setCtx_same]; simp [hb])]
  rw [run, commit_ctx, State.ctx_setCtx_same]
  refine ⟨rfl, ?_, rfl, commit_mem _ _ _ (by rw [State.ctx_setCtx_same]; exact hg)⟩
  simp only
  split
  · assumption
  · exact takeArray_owns _

theorem arrayTurn_heir {s : State} {c : CoreId} {x : CtxId} (ho : arrayOwner (s.core c) = none) (hh : arrayHeir s c x = x) :
    arrayTurn s c x = true := by
  simp [arrayTurn, ho, hh]

theorem operBlock_gemm {s : State} {c : CoreId} {x : CtxId} {p : File 3 W64} (hp : paramBlock s c (s.ctx c x).r.pc = .ok p)
    (ht : isTemplate p = false) (hv : gemmValid p (s.ctx c x).acc = true) : operBlock s c x = .ok (p, gemmSteps p) := by
  simp [operBlock, hp, operSteps, ht, hv]

/-- The words of a template's levels give its trip counts. -/
theorem operTrip_word (s : State) (c : CoreId) {d : List W64} {l : Nat} (h : tripAddr d l = none) :
    operTrip s c d l = .ok (wbits (descWord d (2 + 2 * l)) 0 32) := by
  rw [operTrip, h]

theorem operTrips_words (s : State) (c : CoreId) (d : List W64) : ∀ l, (∀ i, i < l → tripAddr d i = none) → operTrips s c d l = .ok ()
  | 0, _ => rfl
  | l + 1, h => by
    rw [operTrips, operTrip_word s c (h l (Nat.lt_succ_self l))]
    simp only
    split
    · rfl
    · exact operTrips_words s c d l (fun i hi => h i (Nat.lt_succ_of_lt hi))

theorem operBlock_template {s : State} {c : CoreId} {x : CtxId} {p : File 3 W64} {d : List W64}
    (hp : paramBlock s c (s.ctx c x).r.pc = .ok p) (ht : isTemplate p = true) (hd : (s.ctx c x).seqDesc = some d)
    (ha : tripAddr d (seqLevels d - 1) = none) : operBlock s c x = .ok (p, wbits (descWord d (2 * seqLevels d)) 0 32) := by
  have last : 2 + 2 * (seqLevels d - 1) = 2 * seqLevels d := by unfold seqLevels; omega
  simp [operBlock, hp, operSteps, ht, hd, operTrip_word s c ha, last]

/-- Levels whose trip counts stand in the descriptor and are not zero are all entered; what lies above them is left. -/
theorem seqEnter_words (s : State) (c : CoreId) (x : CtxId) (d : List W64) : ∀ (l : Nat) (p : Replay),
    (∀ i, i < l → tripAddr d i = none ∧ wbits (descWord d (2 + 2 * i)) 0 32 ≠ 0) →
    ∃ q, seqEnter s c x d l p = .ok (some q) ∧ q.pos = p.pos ∧ ∀ i, l ≤ i → q.counters[i]? = p.counters[i]?
  | 0, p, _ => ⟨p, rfl, rfl, fun _ _ => rfl⟩
  | l + 1, p, h => by
    obtain ⟨ha, hw⟩ := h l (Nat.lt_succ_self l)
    have trip : seqTrip s c x d l = .ok (BitVec.ofNat 32 (wbits (descWord d (2 + 2 * l)) 0 32)) := by rw [seqTrip, ha]
    have entered : BitVec.ofNat 32 (wbits (descWord d (2 + 2 * l)) 0 32) ≠ 0 := by
      intro h0
      have := congrArg BitVec.toNat h0
      rw [BitVec.toNat_ofNat, Nat.mod_eq_of_lt (show wbits (descWord d (2 + 2 * l)) 0 32 < 2 ^ 32 from Nat.mod_lt _ (by decide))] at this
      exact hw this
    obtain ⟨q, hq, pos, rest⟩ := seqEnter_words s c x d l
      { p with trips := p.trips.set l (BitVec.ofNat 32 (wbits (descWord d (2 + 2 * l)) 0 32)), counters := p.counters.set l 0 }
      (fun i hi => h i (Nat.lt_succ_of_lt hi))
    refine ⟨q, ?_, pos, fun i hi => (rest i (by omega)).trans (List.getElem?_set_ne (by omega))⟩
    rw [seqEnter, trip]
    exact (if_neg entered).trans hq

/-- An iteration of a template is entered: its bundles replay from the first, with the iteration's number at the outermost level. -/
theorem startIteration_words {s : State} {c : CoreId} {x : CtxId} {d : List W64} (n : Nat) (hb : (s.ctx c x).badStore = false)
    (hg : (s.ctx c x).gate = []) (hd : (s.ctx c x).seqDesc = some d) (hl : seqLevels d ≤ 6)
    (hw : ∀ l, l < seqLevels d → tripAddr d l = none ∧ wbits (descWord d (2 + 2 * l)) 0 32 ≠ 0) :
    ∃ q, ((startIteration s c x n).ctx c x).phase = .tileStep n ∧ ((startIteration s c x n).ctx c x).r.owns = true ∧
      ((startIteration s c x n).ctx c x).r.replay = some q ∧ q.pos = 0 ∧ q.counters[seqLevels d - 1]? = some (BitVec.ofNat 32 n) ∧
      (startIteration s c x n).mem = s.mem := by
  have top : seqLevels d - 1 < seqLevels d := by unfold seqLevels; omega
  have below : ∀ i, i < seqLevels d - 1 → tripAddr d i = none ∧ wbits (descWord d (2 + 2 * i)) 0 32 ≠ 0 := fun i hi => hw i (by omega)
  obtain ⟨phase, owns, _, mem⟩ := enterStep_ctx n hb hg
  let t := enterStep s c x n
  let p := seqOrigin d (t.ctx c x).r (t.ctx c x).r.pc
  obtain ⟨q, hq, pos, counters⟩ := seqEnter_words t c x d (seqLevels d - 1)
    { p with trips := p.trips.set (seqLevels d - 1) (BitVec.ofNat 32 (wbits (descWord d (2 + 2 * (seqLevels d - 1))) 0 32)),
             counters := p.counters.set (seqLevels d - 1) (BitVec.ofNat 32 n) } below
  have run : startIteration s c x n = t.setCtx c x { t.ctx c x with
      r := { (t.ctx c x).r with replay := some q, st := seqBases d q (t.ctx c x).r.st } } := by
    unfold startIteration
    simp only [hd, Option.getD_some, operTrips_words s c d _ (fun i hi => (below i hi).1), operTrip_word s c (hw _ top).1]
    rw [if_neg (by simp [phase])]
    simp only [t, p] at hq
    rw [hq]
  refine ⟨q, ?_⟩
  rw [run, State.ctx_setCtx_same]
  refine ⟨phase, owns, rfl, pos, ?_, mem⟩
  rw [counters _ (Nat.le_refl _)]
  have : seqLevels d - 1 < 6 := by omega
  simp [p, seqOrigin, this]

/-! The operands and outputs of a tile step (R145). -/

/-- Readings that all succeed: their results, one beside each. -/
theorem mapM_ok {α β ε : Type} (f : α → Except ε β) : ∀ (l : List α), (∀ a ∈ l, ∃ b, f a = .ok b) →
    ∃ bs, l.mapM f = .ok bs ∧ List.Forall₂ (fun a b => f a = .ok b) l bs
  | [], _ => ⟨[], rfl, .nil⟩
  | a :: l, h => by
    obtain ⟨b, hb⟩ := h a List.mem_cons_self
    obtain ⟨bs, hbs, all⟩ := mapM_ok f l (fun x hx => h x (List.mem_cons_of_mem a hx))
    refine ⟨b :: bs, ?_, .cons hb all⟩
    rw [List.mapM_cons, hb, hbs]; rfl

theorem mem_zip_of_forall₂ {α β ε : Type} {f : α → Except ε β} {l : List α} {bs : List β}
    (h : List.Forall₂ (fun a b => f a = .ok b) l bs) {a : α} {b : β} (ha : a ∈ l) (hb : f a = .ok b) : (a, b) ∈ l.zip bs := by
  induction h with
  | nil => cases ha
  | cons hx _ ih =>
    rw [List.zip_cons_cons]
    rcases List.mem_cons.1 ha with rfl | ha
    · rw [hx] at hb; cases hb; exact List.mem_cons_self
    · exact List.mem_cons_of_mem _ (ih ha)

theorem mem_zip_zip_of_forall₂ {α β γ ε : Type} {f : α → Except ε β} {g : α → Except ε γ} {l : List α} {bs : List β} {cs : List γ}
    (h : List.Forall₂ (fun a b => f a = .ok b) l bs) (h' : List.Forall₂ (fun a b => g a = .ok b) l cs) {a : α} {b : β} {c : γ}
    (ha : a ∈ l) (hb : f a = .ok b) (hc : g a = .ok c) : (a, b, c) ∈ l.zip (bs.zip cs) := by
  induction h generalizing cs with
  | nil => cases ha
  | cons hx _ ih =>
    cases h' with
    | cons hy rest =>
      rw [List.zip_cons_cons, List.zip_cons_cons]
      rcases List.mem_cons.1 ha with rfl | ha
      · rw [hx] at hb; rw [hy] at hc; cases hb; cases hc; exact List.mem_cons_self
      · exact List.mem_cons_of_mem _ (ih rest ha)

/-- The outputs of a tile step whose operands can all be read. -/
theorem gemmStep_readable {s : State} {c : CoreId} {p : File 3 W64} {n : Nat} (h : StepReadable s c p n) :
    ∃ os, gemmStep s c p n = .ok os ∧ ∀ i ∈ gemmRows p n, ∀ j ∈ gemmCols p n, ∀ as ws b,
      operRow s c (gemmA p) (gemmK p) (gemmAAt p i) = .ok as → operRow s c (gemmW p) (gemmK p) (gemmWAt p j) = .ok ws →
      (gemmOp p = 2 → operRead s c (gemmBiasAt p j) 4 = .ok b) → (gemmOp p ≠ 2 → b = []) →
      (p[5] + BitVec.ofNat 64 (i * wbits p[2] 32 32 + j * gemmOut p), gemmBytes p (gemmValue p as ws (leWord 32 b))) ∈ os := by
  obtain ⟨cols, rows⟩ := h
  obtain ⟨ws, hws, allW⟩ := mapM_ok (fun j => operRow s c (gemmW p) (gemmK p) (gemmWAt p j)) (gemmCols p n) (fun j hj => (cols j hj).1)
  obtain ⟨as, has, allA⟩ := mapM_ok (fun i => operRow s c (gemmA p) (gemmK p) (gemmAAt p i)) (gemmRows p n) rows
  obtain ⟨bs, hbs, allB⟩ := mapM_ok (fun j => if gemmOp p = 2 then operRead s c (gemmBiasAt p j) 4 else .ok []) (gemmCols p n)
    (fun j hj => by
      split
      · next h2 => exact (cols j hj).2 h2
      · exact ⟨[], rfl⟩)
  refine ⟨(((gemmRows p n).zip as).flatMap (fun a => ((gemmCols p n).zip (ws.zip bs)).map (fun w =>
    (p[5] + BitVec.ofNat 64 (a.1 * wbits p[2] 32 32 + w.1 * gemmOut p), gemmBytes p (gemmValue p a.2 w.2.1 (leWord 32 w.2.2)))))), ?_,
    fun i hi j hj a w b ha hw hb2 hb0 => ?_⟩
  · rw [gemmStep]
    simp only [hws, hbs, has]
  · have bias : (if gemmOp p = 2 then operRead s c (gemmBiasAt p j) 4 else .ok []) = .ok b := by
      split
      · next h2 => exact hb2 h2
      · next h2 => rw [hb0 h2]
    exact List.mem_flatMap.2 ⟨(i, a), mem_zip_of_forall₂ allA hi ha,
      List.mem_map.2 ⟨(j, w, b), mem_zip_zip_of_forall₂ allW allB hj hw bias, rfl⟩⟩

/-- Outputs that all have their place are all written. -/
theorem writeOutputs_ok {s : State} {c : CoreId} {os : List (W64 × List Byte)}
    (h : ∀ o ∈ os, ∃ q, operPlace s c .store o.1 o.2.length = .ok q) :
    writeOutputs s c os = .ok (os.foldl (fun s o => performStore s c o.1 o.2) s) := by
  have none : os.findSome? (fun o => match operPlace s c .store o.1 o.2.length with
      | .error e => some e
      | .ok _ => none) = none :=
    List.findSome?_eq_none_iff.2 (fun o ho => by obtain ⟨q, hq⟩ := h o ho; rw [hq])
  unfold writeOutputs
  split
  · next e he => exact absurd (none.symm.trans he) (by simp)
  · rfl

/-! The progress word (R146). -/

/-- A device write of a word of a record that is in memory. -/
theorem recordPut_mem {s : State} {c : CoreId} {name : W64} {i : Nat} {w : W64} {q : Place} (hs : nameShelf name = none)
    (hn : nameIn s c name = true) (hq : place s (nameCore c name) .peek (nameAddr name + BitVec.ofNat 64 (8 * i)) 8 = .ok q) :
    (recordPut s c name i w).mem = s.mem.writeRun q.key (leBytes 8 w.toNat) := by
  have written : ownerWrite s (nameCore c name) .peek (nameAddr name + BitVec.ofNat 64 (8 * i)) (leBytes 8 w.toNat)
      = .ok (s.writeAt q.key (leBytes 8 w.toNat)) := by rw [ownerWrite, leBytes_length, hq]
  rw [recordPut, if_neg (by simp [hn]), hs]
  simp only [deviceWrite, written]
  rfl

/-- A step that is not the last, of an operator that nothing drains: the context waits for the next step, its progress word is written, and
whether the array passes on changes no byte of memory when the gate is empty. -/
theorem stepDone_more {s : State} {c : CoreId} {x : CtxId} {n total : Nat} (ht : n + 1 < total) (ha : (s.ctx c x).action ≠ some 0)
    (hb : (s.ctx c x).badStore = false) : ((stepDone s c x n total).ctx c x).phase = .waitArray (n + 1) ∧
      ((stepDone s c x n total).ctx c x).job.words = (s.ctx c x).job.words.set 3 (BitVec.ofNat 64 (n + 1)) ∧
      ((s.ctx c x).gate = [] →
        (stepDone s c x n total).mem = (recordPut s c (s.ctx c x).job.name 3 (BitVec.ofNat 64 (n + 1))).mem) := by
  have same := (sameCores_recordPut s c (s.ctx c x).job.name 3 (BitVec.ofNat 64 (n + 1))).ctx c x
  unfold stepDone
  simp only
  rw [if_neg (by omega), if_neg ha]
  split
  · rw [checkpoint, if_neg (by simp [same, hb]), commit_ctx]
    refine ⟨by simp, by simp [same], fun hg => ?_⟩
    rw [commit_mem _ _ _ (by simp [same, hg])]; rfl
  · refine ⟨by simp, by simp [same], fun _ => rfl⟩

/-- Settles O36: each end of a suspension, push, episode and tile step. -/
theorem suspensionsAndEpisodes : Obligations.SuspensionsAndEpisodes := by
  refine ⟨fun c x s why pc hph hq hf => ?_, fun c s e hh hr hq => ?_, fun s t scope dom ht hs ha hall => ?_,
    fun c x s n p hph ho hh hop hf hfr hout hg hb hp => ⟨fun htm hv => ?_, fun d htm hd hl hw hn => ?_⟩,
    fun c x s n p hph hrep hops hf hp htm hv hread => ?_, fun c x s n total ht ha hb => ?_⟩
  · rw [exec_suspensionPoint, execSuspensionPoint]
    simp [hph, hq, hf]
  · obtain ⟨held, queue, mem⟩ := retryHeld_one s c e hh hr hq
    rw [exec_heldPushRetry, execHeldPushRetry, hh, refill_no_ring 32 s c hr]
    exact ⟨_, rfl, held, queue, mem⟩
  · refine ⟨_, _, ?_, team_setTeam ht (v := t.completeEpisode scope dom (t.completed scope dom + 1)) rfl,
      completed_completeEpisode t scope dom _, rfl⟩
    rw [exec_barrierEpisodeComplete, execBarrierEpisodeComplete]
    simp [ht, ha, hall, hs]
  · have block := operBlock_gemm hp htm hv
    have run : exec (.tileStep c x) s = if gemmSteps p ≤ n then .next (leave s c x .stop (s.ctx c x).r.pc)
        else .next (enterStep s c x n) := by
      rw [exec_tileStep, execTileStep]
      simp [hph, hop, hf, hfr, hout, block, arrayTurn_heir ho hh, htm]
    obtain ⟨phase, owns, ck, mem⟩ := enterStep_ctx n hb hg
    exact ⟨fun hn => ⟨_, run.trans (if_neg (by omega)), phase, owns, ck, mem⟩, fun hn => run.trans (if_pos hn)⟩
  · have top : seqLevels d - 1 < seqLevels d := by unfold seqLevels; omega
    have block := operBlock_template hp htm hd (hw _ top).1
    obtain ⟨q, phase, owns, replay, pos, counters, mem⟩ := startIteration_words n hb hg hd hl hw
    refine ⟨_, q, ?_, phase, owns, replay, pos, counters, mem⟩
    rw [exec_tileStep, execTileStep]
    simp [hph, hop, hf, hfr, hout, block, arrayTurn_heir ho hh, htm, hd]
    omega
  · obtain ⟨os, hos, values⟩ := gemmStep_readable hread
    refine ⟨os, hos, values, fun u hu hm hplace => ?_⟩
    subst hu
    have block := operBlock_gemm hp htm hv
    have idle : ckptBlocked (s.ctx c x) = false := by simp [ckptBlocked, hops]
    rw [exec_tileStepDone, execTileStepDone]
    simp [hph, hrep, hf, idle, block, htm, hos, hm, writeOutputs_ok hplace]
  · obtain ⟨phase, words, mem⟩ := stepDone_more ht ha hb
    refine ⟨phase, words, fun hg hs hn q hq => ?_⟩
    rw [mem hg, recordPut_mem hs hn (i := 3) hq, BitVec.toNat_ofNat]

end Sys2Proof.Machine

namespace Sys2Proof

/-! The fields of each operand form, read back from its word (R31, R32): a form's low bits are a sum of its fields, each times its place, so
that a field is a quotient and a remainder of that sum. -/

theorem bits_eq {w : W32} {lo n : Nat} {x : BitVec n} (h : w.toNat / 2 ^ lo % 2 ^ n = x.toNat) : bits w lo n = x :=
  BitVec.eq_of_toNat_eq ((BitVec.toNat_ofNat _ _).trans h)

theorem bits_eq_zero {w : W32} {lo n : Nat} (h : w.toNat / 2 ^ lo % 2 ^ n = 0) : bits w lo n = 0 :=
  bits_eq (h.trans BitVec.toNat_zero.symm)

theorem bit_eq {w : W32} {k : Nat} {b : Bool} (h : w.toNat / 2 ^ k % 2 = b.toNat) : bit w k = b := by
  cases b <;> simp [bit, h]

/-- What a word holds below its opcode: the L bit, the guard and the form's own bits. -/
theorem word_low (op : Nat) (l : Bool) (g : BitVec 3) {low : Nat} (h : low < 2 ^ 18) :
    (word op l g low).toNat % 2 ^ 22 = l.toNat * 2 ^ 21 + g.toNat * 2 ^ 18 + low := by
  have := g.isLt
  have := Bool.toNat_le l
  rw [word, BitVec.toNat_ofNat]
  omega

theorem getRRR_putRRR (op : Nat) (f : RRR) : getRRR (putRRR op f) = f := by
  obtain ⟨g, d, a, b, ta, tb, h⟩ := f
  have := d.isLt; have := a.isLt; have := b.isLt
  have := Bool.toNat_le ta; have := Bool.toNat_le tb; have := Bool.toNat_le h
  have low := word_low op false g
    (show d.toNat * 2 ^ 13 + a.toNat * 2 ^ 8 + b.toNat * 2 ^ 3 + ta.toNat * 4 + tb.toNat * 2 + h.toNat < 2 ^ 18 by omega)
  simp only [getRRR, putRRR, RRR.mk.injEq]
  refine ⟨bits_eq ?_, bits_eq ?_, bits_eq ?_, bits_eq ?_, bit_eq ?_, bit_eq ?_, bit_eq ?_⟩ <;> omega

theorem getMF_putMF (op : Nat) (f : MF) : getMF (putMF op f) = f := by
  obtain ⟨g, d, a, b, ta, tb, z⟩ := f
  have := d.isLt; have := a.isLt; have := b.isLt
  have := Bool.toNat_le ta; have := Bool.toNat_le tb; have := Bool.toNat_le z
  have low := word_low op false g
    (show d.toNat * 2 ^ 13 + a.toNat * 2 ^ 8 + b.toNat * 2 ^ 3 + ta.toNat * 4 + tb.toNat * 2 + z.toNat < 2 ^ 18 by omega)
  simp only [getMF, putMF, MF.mk.injEq]
  refine ⟨bits_eq ?_, bits_eq ?_, bits_eq ?_, bits_eq ?_, bit_eq ?_, bit_eq ?_, bit_eq ?_⟩ <;> omega

theorem getRR_putRR_and_zero (op : Nat) (f : RR) : getRR (putRR op f) = f ∧ bits (putRR op f) 3 5 = 0 := by
  obtain ⟨g, d, a, ta, tb, h⟩ := f
  have := d.isLt; have := a.isLt
  have := Bool.toNat_le ta; have := Bool.toNat_le tb; have := Bool.toNat_le h
  have low := word_low op false g
    (show d.toNat * 2 ^ 13 + a.toNat * 2 ^ 8 + ta.toNat * 4 + tb.toNat * 2 + h.toNat < 2 ^ 18 by omega)
  simp only [getRR, putRR, RR.mk.injEq]
  refine ⟨⟨bits_eq ?_, bits_eq ?_, bits_eq ?_, bit_eq ?_, bit_eq ?_, bit_eq ?_⟩, bits_eq_zero ?_⟩ <;> omega

theorem getSYS_putSYS_and_zero (op : Nat) (f : SYS) : getSYS (putSYS op f) = f ∧ bit (putSYS op f) 12 = false := by
  obtain ⟨g, d, num⟩ := f
  have := d.isLt; have := num.isLt
  have low := word_low op false g (show d.toNat * 2 ^ 13 + num.toNat < 2 ^ 18 by omega)
  simp only [getSYS, putSYS, SYS.mk.injEq]
  refine ⟨⟨bits_eq ?_, bits_eq ?_, bits_eq ?_⟩, bit_eq (b := false) ?_⟩ <;> simp only [Bool.toNat_false] at * <;> omega

theorem getNF_putNF_and_zero (op : Nat) (f : NF) : getNF (putNF op f) = f ∧ bits (putNF op f) 0 18 = 0 := by
  obtain ⟨g⟩ := f
  have low := word_low op false g (low := 0) (by decide)
  simp only [getNF, putNF, NF.mk.injEq]
  refine ⟨bits_eq ?_, bits_eq_zero ?_⟩ <;> omega

theorem getUF_putUF (op : Nat) (f : UF) : getUF (putUF op f) = f := by
  obtain ⟨g, d, a, fmt, rnd, sat, ta⟩ := f
  have := d.isLt; have := a.isLt; have := fmt.isLt; have := rnd.isLt
  have := Bool.toNat_le sat; have := Bool.toNat_le ta
  have low := word_low op false g (show d.toNat * 2 ^ 13 + a.toNat * 2 ^ 8 + fmt.toNat * 2 ^ 4 + rnd.toNat / 2 * 8 + ta.toNat * 4
    + rnd.toNat % 2 * 2 + sat.toNat < 2 ^ 18 by omega)
  simp only [getUF, putUF, UF.mk.injEq]
  refine ⟨bits_eq ?_, bits_eq ?_, bits_eq ?_, bits_eq ?_, BitVec.eq_of_toNat_eq ((BitVec.toNat_ofNat _ _).trans ?_), bit_eq ?_, bit_eq ?_⟩ <;>
    omega

theorem getCP_putCP (op : Nat) (f : CP) : getCP (putCP op f) = f := by
  obtain ⟨g, kind, sh, a, b, tok⟩ := f
  have := kind.isLt; have := sh.isLt; have := a.isLt; have := b.isLt; have := tok.isLt
  have low := word_low op false g
    (show kind.toNat * 2 ^ 16 + sh.toNat * 2 ^ 13 + a.toNat * 2 ^ 8 + b.toNat * 2 ^ 3 + tok.toNat < 2 ^ 18 by omega)
  simp only [getCP, putCP, CP.mk.injEq]
  refine ⟨bits_eq ?_, bits_eq ?_, bits_eq ?_, bits_eq ?_, bits_eq ?_, bits_eq ?_⟩ <;> omega

theorem getAT_putAT_and_zero (op : Nat) (f : AT) : getAT (putAT op f) = f ∧ bits (putAT op f) 5 3 = 0 := by
  obtain ⟨g, d, a, ord, scope⟩ := f
  have := d.isLt; have := a.isLt; have := ord.isLt; have := scope.isLt
  have low := word_low op false g
    (show d.toNat * 2 ^ 13 + a.toNat * 2 ^ 8 + ord.toNat * 2 ^ 3 + scope.toNat < 2 ^ 18 by omega)
  simp only [getAT, putAT, AT.mk.injEq]
  refine ⟨⟨bits_eq ?_, bits_eq ?_, bits_eq ?_, bits_eq ?_, bits_eq ?_⟩, bits_eq_zero ?_⟩ <;> omega

/-! The forms with an immediate: a literal stands in its place, and the bits it replaces are zero (R41). -/

theorem putRRI_bits (op : Nat) (f : RRI) : bits (putRRI op f) 18 3 = f.g ∧ bits (putRRI op f) 13 5 = f.d ∧ bits (putRRI op f) 8 5 = f.a ∧
    bits (putRRI op f) 0 8 = f.imm := by
  have := f.d.isLt; have := f.a.isLt; have := f.imm.isLt
  have low := word_low op f.lit.isSome f.g (show f.d.toNat * 2 ^ 13 + f.a.toNat * 2 ^ 8 + f.imm.toNat < 2 ^ 18 by omega)
  simp only [putRRI]
  refine ⟨bits_eq ?_, bits_eq ?_, bits_eq ?_, bits_eq ?_⟩ <;> omega

theorem putRI_bits (op : Nat) (f : RI) : bits (putRI op f) 18 3 = f.g ∧ bits (putRI op f) 13 5 = f.d ∧ bits (putRI op f) 0 13 = f.imm := by
  have := f.d.isLt; have := f.imm.isLt
  have low := word_low op f.lit.isSome f.g (show f.d.toNat * 2 ^ 13 + f.imm.toNat < 2 ^ 18 by omega)
  simp only [putRI]
  refine ⟨bits_eq ?_, bits_eq ?_, bits_eq ?_⟩ <;> omega

theorem putBR_bits (op : Nat) (f : BR) : bits (putBR op f) 18 3 = f.g ∧ bits (putBR op f) 0 18 = f.off := by
  have := f.off.isLt
  have low := word_low op f.lit.isSome f.g f.off.isLt
  simp only [putBR]
  refine ⟨bits_eq ?_, bits_eq ?_⟩ <;> omega

theorem getRRI_putRRI {op : Nat} {f : RRI} (h : f.litOk = true) (hop : op < 512) :
    getRRI (putRRI op f) (f.lit.toList.headD 0) = f := by
  obtain ⟨hg, hd, ha, hi⟩ := putRRI_bits op f
  obtain ⟨-, hl, -⟩ := putRRI_code op f hop
  rw [getRRI, hl, hg, hd, ha, hi]
  obtain ⟨g, d, a, imm, _ | x⟩ := f
  · rfl
  · have : imm = 0 := by simpa [RRI.litOk] using h
    subst this; rfl

theorem getRI_putRI {op : Nat} {f : RI} (h : f.litOk = true) (hop : op < 512) :
    getRI (putRI op f) (f.lit.toList.headD 0) = f := by
  obtain ⟨hg, hd, hi⟩ := putRI_bits op f
  obtain ⟨-, hl, -⟩ := putRI_code op f hop
  rw [getRI, hl, hg, hd, hi]
  obtain ⟨g, d, imm, _ | x⟩ := f
  · rfl
  · have : imm = 0 := by simpa [RI.litOk] using h
    subst this; rfl

theorem getBR_putBR {op : Nat} {f : BR} (h : f.litOk = true) (hop : op < 512) :
    getBR (putBR op f) (f.lit.toList.headD 0) = f := by
  obtain ⟨hg, hi⟩ := putBR_bits op f
  obtain ⟨-, hl, -⟩ := putBR_code op f hop
  rw [getBR, hl, hg, hi]
  obtain ⟨g, off, _ | x⟩ := f
  · rfl
  · have : off = 0 := by simpa [BR.litOk] using h
    subst this; rfl

/-! What the decoder finds in the words of an operand form: the opcode, the zero bits and the fields. -/

/-- From the words `v :: l` a decoder that looks at the opcode, tests the zero bits by `ok` and takes the fields by `get` gets `op` and `f`. -/
def Reads {F : Type} (op : Nat) (ok : W32 → Bool) (get : W32 → W32 → F) (f : F) (v : W32) (l : List W32) : Prop :=
  opcode v = op ∧ ok v = true ∧ get v (l.headD 0) = f

section
variable {op : Nat} (hop : op < 512)
include hop

theorem putRRR_reads (f : RRR) : Reads op noLit (fun w _ => getRRR w) f (putRRR op f) [] := by
  obtain ⟨-, hl, ho⟩ := putRRR_code op f hop
  exact ⟨ho, by simp [noLit, hl], getRRR_putRRR op f⟩

theorem putRR_reads (f : RR) : Reads op zeroRR (fun w _ => getRR w) f (putRR op f) [] := by
  obtain ⟨-, hl, ho⟩ := putRR_code op f hop
  obtain ⟨hf, hz⟩ := getRR_putRR_and_zero op f
  exact ⟨ho, by simp [zeroRR, hl, hz], hf⟩

theorem putSYS_reads (f : SYS) : Reads op zeroSYS (fun w _ => getSYS w) f (putSYS op f) [] := by
  obtain ⟨-, hl, ho⟩ := putSYS_code op f hop
  obtain ⟨hf, hz⟩ := getSYS_putSYS_and_zero op f
  exact ⟨ho, by simp [zeroSYS, hl, hz], hf⟩

theorem putNF_reads (f : NF) : Reads op zeroNF (fun w _ => getNF w) f (putNF op f) [] := by
  obtain ⟨-, hl, ho⟩ := putNF_code op f hop
  obtain ⟨hf, hz⟩ := getNF_putNF_and_zero op f
  exact ⟨ho, by simp [zeroNF, hl, hz], hf⟩

theorem putUF_reads (f : UF) : Reads op noLit (fun w _ => getUF w) f (putUF op f) [] := by
  obtain ⟨-, hl, ho⟩ := putUF_code op f hop
  exact ⟨ho, by simp [noLit, hl], getUF_putUF op f⟩

theorem putMF_reads (f : MF) : Reads op noLit (fun w _ => getMF w) f (putMF op f) [] := by
  obtain ⟨-, hl, ho⟩ := putMF_code op f hop
  exact ⟨ho, by simp [noLit, hl], getMF_putMF op f⟩

theorem putCP_reads (f : CP) : Reads op noLit (fun w _ => getCP w) f (putCP op f) [] := by
  obtain ⟨-, hl, ho⟩ := putCP_code op f hop
  exact ⟨ho, by simp [noLit, hl], getCP_putCP op f⟩

theorem putAT_reads (f : AT) : Reads op zeroAT (fun w _ => getAT w) f (putAT op f) [] := by
  obtain ⟨-, hl, ho⟩ := putAT_code op f hop
  obtain ⟨hf, hz⟩ := getAT_putAT_and_zero op f
  exact ⟨ho, by simp [zeroAT, hl, hz], hf⟩

theorem putRRI_reads {f : RRI} (h : f.litOk = true) : Reads op (fun _ => true) getRRI f (putRRI op f) f.lit.toList :=
  ⟨(putRRI_code op f hop).2.2, rfl, getRRI_putRRI h hop⟩

theorem putRI_reads {f : RI} (h : f.litOk = true) : Reads op (fun _ => true) getRI f (putRI op f) f.lit.toList :=
  ⟨(putRI_code op f hop).2.2, rfl, getRI_putRI h hop⟩

theorem putBR_reads {f : BR} (h : f.litOk = true) : Reads op (fun _ => true) getBR f (putBR op f) f.lit.toList :=
  ⟨(putBR_code op f hop).2.2, rfl, getBR_putBR h hop⟩

/-- An RRI form that takes no literal. -/
theorem putRRI_reads_noLit {f : RRI} (h : f.lit.isNone = true) : Reads op (fun _ => true) getRRI f (putRRI op f) [] := by
  have := putRRI_reads hop (f := f) (by simp [RRI.litOk, h])
  rwa [Option.isNone_iff_eq_none.1 h] at this

/-- An RI form that takes no literal. -/
theorem putRI_reads_noLit {f : RI} (h : f.lit.isNone = true) : Reads op (fun _ => true) getRI f (putRI op f) [] := by
  have := putRI_reads hop (f := f) (by simp [RI.litOk, h])
  rwa [Option.isNone_iff_eq_none.1 h] at this

end

/-! The round trip of an instruction. -/

/-- The words of an instruction decode to it. -/
def RoundTrips (i : Instr) : Prop :=
  ∀ (w : W32) (ws : List W32), i.wf = true → encode i = w :: ws → decodeSlot w (ws.headD 0) = .ok i

theorem fields_of_wf {i : Instr} (h : i.wf = true) : i.fields = true := Bool.and_elim_left h

theorem roundTrips_of_decode {i : Instr} {v : W32} {l : List W32} (he : encode i = v :: l)
    (hd : i.fields = true → decodeSlot v (l.headD 0) = .ok i) : RoundTrips i := by
  intro w ws hwf e
  cases he.symm.trans e
  exact hd (fields_of_wf hwf)

theorem roundTrips_of_no_words {i : Instr} (he : encode i = []) : RoundTrips i := fun _ _ _ e => nomatch he.symm.trans e

/-- An instruction comes back when its words hold its opcode and its fields, and the arm of that opcode builds it from them. -/
theorem roundTrips_of_reads {F : Type} {mk : F → Instr} {f : F} {op : Nat} {ok : W32 → Bool} {get : W32 → W32 → F} {v : W32} {l : List W32}
    (he : encode (mk f) = v :: l) (hr : (mk f).fields = true → Reads op ok get f v l)
    (hd : ∀ w lit, opcode w = op → decodeSlot w lit = form (ok w) op (mk (get w lit))) : RoundTrips (mk f) := by
  refine roundTrips_of_decode he fun hf => ?_
  obtain ⟨ho, hz, hg⟩ := hr hf
  rw [hd v _ ho, hz, hg]
  simp [form, hf]

/-- Opcode 0x147 is two instructions: field D is 0 to acquire and 1 to release. -/
theorem decodeSlot_mown {w : W32} (lit : W32) (h : opcode w = 0x147) : decodeSlot w lit =
    form (noLit w) 0x147 (if bits w 13 5 == 1 then .mownRelease (getMF w) else .mownAcquire (getMF w)) := by
  unfold decodeSlot; generalize opcode w = n at h; subst h; rfl

/-- Opcode 0x18D is two instructions: the immediate is 0 for a template and 1 for a descriptor. -/
theorem decodeSlot_lnscfg {w : W32} (lit : W32) (h : opcode w = 0x18D) : decodeSlot w lit =
    form true 0x18D (if bits w 0 8 == 1 then .lnscfgDescriptor (getRRI w lit) else .lnscfgTemplate (getRRI w lit)) := by
  unfold decodeSlot; generalize opcode w = n at h; subst h; rfl

theorem roundTrips_mownAcquire (f : MF) : RoundTrips (.mownAcquire f) := by
  refine roundTrips_of_decode rfl fun hf => ?_
  obtain ⟨⟨⟨hd, -⟩, -⟩, -⟩ : ((f.d = 0 ∧ f.a = 0) ∧ f.b = 0) ∧ f.z = false := by simpa [Instr.fields] using hf
  obtain ⟨ho, hz, -⟩ := putMF_reads (op := 0x147) (by decide) f
  have hg := getMF_putMF 0x147 f
  rw [decodeSlot_mown _ ho, hz, show bits _ 13 5 = f.d from congrArg MF.d hg, hg, hd]
  simp [form, hf]

theorem roundTrips_mownRelease (f : MF) : RoundTrips (.mownRelease f) := by
  refine roundTrips_of_decode rfl fun hf => ?_
  obtain ⟨⟨⟨hd, -⟩, -⟩, -⟩ : ((f.d = 1 ∧ f.a = 0) ∧ f.b = 0) ∧ f.z = false := by simpa [Instr.fields] using hf
  obtain ⟨ho, hz, -⟩ := putMF_reads (op := 0x147) (by decide) f
  have hg := getMF_putMF 0x147 f
  rw [decodeSlot_mown _ ho, hz, show bits _ 13 5 = f.d from congrArg MF.d hg, hg, hd]
  simp [form, hf]

theorem roundTrips_lnscfgTemplate (f : RRI) : RoundTrips (.lnscfgTemplate f) := by
  refine roundTrips_of_decode rfl fun hf => ?_
  obtain ⟨⟨lit, -⟩, imm⟩ : (f.lit.isNone = true ∧ f.d = 0) ∧ f.imm = 0 := by simpa [Instr.fields] using hf
  obtain ⟨ho, -, hg⟩ := putRRI_reads_noLit (op := 0x18D) (by decide) lit
  obtain ⟨-, -, -, hi⟩ := putRRI_bits 0x18D f
  rw [decodeSlot_lnscfg _ ho, hg, hi, imm]
  simp [form, hf]

theorem roundTrips_lnscfgDescriptor (f : RRI) : RoundTrips (.lnscfgDescriptor f) := by
  refine roundTrips_of_decode rfl fun hf => ?_
  obtain ⟨⟨lit, -⟩, imm⟩ : (f.lit.isNone = true ∧ f.d = 0) ∧ f.imm = 1 := by simpa [Instr.fields] using hf
  obtain ⟨ho, -, hg⟩ := putRRI_reads_noLit (op := 0x18D) (by decide) lit
  obtain ⟨-, -, -, hi⟩ := putRRI_bits 0x18D f
  rw [decodeSlot_lnscfg _ ho, hg, hi, imm]
  simp [form, hf]

/-- Every instruction comes back: the forms by what the decoder reads from their words; the two pairs that share an opcode, nop and the rows
without an encoding by themselves. -/
theorem roundTrips (i : Instr) : RoundTrips i := by
  cases i
  case' add | sub | mul | mulh | mulhu | div | divu | rem | remu | and | or | xor | andn | shl | shr | sar | rol | min | max | minu |
      maxu | bfx | bfi | cmpeq | cmpne | cmplt | cmpge | cmpltu | cmpgeu | sel | gand | gor | gxor | ldx | vldx | vstx | bind | vadd |
      vsub | vmul | vfma | vfms | vmin | vmax | vcmpeq | vcmplt | vcmple | vcmpun | vsel | viadd | visub | vimul | viand | vior | vixor
      | vishl | vishr | visar | vimin | vimax | vicmpeq | vicmplt | vperm | vrot | vext | vins | vfmai | vlsem | swset | plan | gcfg |
      gsub | qpush | futset | kvapp =>
    refine roundTrips_of_reads rfl (fun _ => putRRR_reads (by decide) _) (fun w _ h => ?_)
  case' addi | andi | ori | xori | shli | shri | sari | sext | cmpeqi | cmplti | ldb | ldbu | ldh | ldhu | ldw | ldwu | ldd | stb | sth
      | stw | std | vld | vst | vldb | wld =>
    refine roundTrips_of_reads rfl (fun hf => putRRI_reads (by decide) hf) (fun w _ h => ?_)
  case' li | addpc | loop | rep =>
    refine roundTrips_of_reads rfl (fun hf => putRI_reads (by decide) hf) (fun w _ h => ?_)
  case' clz | ctz | popc | gset | gget | jr | callr | lds | sts | fwait | acq | rel | vabs | vneg | vmov | vbcast | viota | vamax | vsum
      | vmaxi | vmini | vrng | tlrd | tlwait | swwait | itstart | itstat | lnsgo | spawn | join | park | wake | futwait | futpoison |
      tfin | tdrop =>
    refine roundTrips_of_reads rfl (fun _ => putRR_reads (by decide) _) (fun w _ h => ?_)
  case' br | call =>
    refine roundTrips_of_reads rfl (fun hf => putBR_reads (by decide) hf) (fun w _ h => ?_)
  case' ret | yield | stop | eret | ckpt | brk | trig | susp =>
    refine roundTrips_of_reads rfl (fun _ => putNF_reads (by decide) _) (fun w _ h => ?_)
  case' wait | bar | barr | barw =>
    refine roundTrips_of_reads rfl (fun hf => putRI_reads_noLit (by decide) (Bool.and_elim_left (Bool.and_elim_left hf))) (fun w _ h => ?_)
  case' trap =>
    refine roundTrips_of_reads rfl (fun hf => putRI_reads (by decide) (Bool.and_elim_left hf)) (fun w _ h => ?_)
  case' mfs | mts =>
    refine roundTrips_of_reads rfl (fun _ => putSYS_reads (by decide) _) (fun w _ h => ?_)
  case' stset | stget | stq | vldt | vldtc | shw | talloc =>
    refine roundTrips_of_reads rfl (fun hf => putRRI_reads_noLit (by decide) hf) (fun w _ h => ?_)
  case' amoadd | amomin | amomax | amoand | amoor | amoxor | amoswp | amocas =>
    refine roundTrips_of_reads rfl (fun _ => putAT_reads (by decide) _) (fun w _ h => ?_)
  case' fence =>
    refine roundTrips_of_reads rfl (fun hf => putRI_reads_noLit (by decide) (Bool.and_elim_left hf)) (fun w _ h => ?_)
  case' prf | ninv =>
    refine roundTrips_of_reads rfl (fun hf => putRRI_reads (by decide) (Bool.and_elim_left hf)) (fun w _ h => ?_)
  case' vcvt | vcvtx | vpack | vunpk | vqmx | vdqmx | vq4n | vdq4n | vlog2 | vexp2 | vrcp | vrsqrt | vfxcvt =>
    refine roundTrips_of_reads rfl (fun _ => putUF_reads (by decide) _) (fun w _ h => ?_)
  case' mpush | mswap | macc | maccp | mdrain | mdrainp | mclr =>
    refine roundTrips_of_reads rfl (fun _ => putMF_reads (by decide) _) (fun w _ h => ?_)
  case' cpy | cpyadd | cpymc | cpyt | cpyg | cpyw =>
    refine roundTrips_of_reads rfl (fun _ => putCP_reads (by decide) _) (fun w _ h => ?_)
  case nop => exact roundTrips_of_decode rfl fun _ => rfl
  case mownAcquire => exact roundTrips_mownAcquire _
  case mownRelease => exact roundTrips_mownRelease _
  case lnscfgTemplate => exact roundTrips_lnscfgTemplate _
  case lnscfgDescriptor => exact roundTrips_lnscfgDescriptor _
  any_goals exact roundTrips_of_no_words rfl
  -- What is left of each form: the decoder's arm for the opcode.
  all_goals
    unfold decodeSlot
    generalize opcode w = op at h
    subst h
    rfl

/-- Settles O58: `roundTrips`, by the operand forms. -/
theorem roundTrip : Obligations.RoundTrip := roundTrips

/-- Settles O56: the decoder run on each word. -/
theorem decodeWords : Obligations.DecodeWords := by
  refine ⟨?_, ?_, ?_, ?_, ?_, ?_, ?_, ?_, ?_, ?_, ?_⟩ <;> rfl

end Sys2Proof

namespace Sys2Proof.Machine

/-! Compares and guard logic (R40, R103, R104). -/

/-- The model's sign extension of the low bits of a natural number is the bit vector's. -/
theorem sextN_toNat {n : Nat} (x : BitVec n) (h0 : 0 < n) (h : n < 64) : sextN n x.toNat = x.signExtend 64 := by
  have hx : x.toNat < 2 ^ 64 := x.isLt.trans (Nat.pow_lt_pow_right (by decide) h)
  refine BitVec.eq_of_toNat_eq ?_
  rw [BitVec.toNat_signExtend, BitVec.toNat_setWidth, Nat.mod_eq_of_lt hx, BitVec.msb_eq_decide, sextN, if_neg (by omega), if_neg (by omega),
    BitVec.toNat_ofNat, Nat.mod_eq_of_lt x.isLt]
  have top : 2 ^ n ≤ 2 ^ 64 := Nat.pow_le_pow_right (by decide) h.le
  have := x.isLt
  by_cases negative : 2 ^ (n - 1) ≤ x.toNat
  · rw [if_pos negative, if_pos (decide_eq_true negative)]; omega
  · rw [if_neg negative, if_neg (by simpa using negative)]; omega

theorem immS_eq (f : RRI) : immS f = signedImm f := by
  unfold immS signedImm
  cases f.lit with
  | none => exact sextN_toNat _ (by decide) (by decide)
  | some l => exact sextN_toNat _ (by decide) (by decide)

theorem guardOf_eq (s : State) (r : BitVec 5) : guardOf s r = s.src.getG (r.setWidth 3) := by
  rw [guardOf, BitVec.ofNat_toNat]

/-- A slot whose only stop is the test of its sources, and which executes: what it answers. -/
theorem slot_executes {s : State} {g : BitVec 3} {rs : List (Ref × Bool)} (t : State) (h : Executes s g (rs.map Prod.fst)) :
    slot s g [] (need (sources s rs) (.ok t)) = .next t := by
  obtain ⟨hg, full⟩ := h
  rw [slot_on s g [] _ hg (by simp [AllFull]), sources_full s rs full]
  rfl

theorem compareRule_exec {i : Instr} {f : RRR} {op : W64 → W64 → Bool} (h : compareRule i = some (f, op)) (s : State) :
    exec i s = compare f s op := by
  unfold compareRule at h
  split at h <;> cases h <;> rfl

theorem compareImmRule_exec {i : Instr} {f : RRI} {op : W64 → Bool} (h : compareImmRule i = some (f, op)) (s : State) :
    ∃ rel, exec i s = compareI f s rel ∧ ∀ a, rel a (signedImm f) = op a := by
  unfold compareImmRule at h
  split at h <;> cases h
  · exact ⟨fun a b => a == b, exec_cmpeqi f s, fun _ => rfl⟩
  · exact ⟨fun a b => decide (a.toInt < b.toInt), exec_cmplti f s, fun _ => rfl⟩

theorem guardRule_exec {i : Instr} {f : RRR} {op : W64 → W64 → W64} (h : guardRule i = some (f, op)) (s : State) :
    exec i s = guardOp f s op := by
  unfold guardRule at h
  split at h <;> cases h <;> rfl

/-- Settles O3: each family is a slot of its shared operation over the test of its sources, which passes. -/
theorem guardResults : Obligations.GuardResults := by
  refine ⟨fun i f op s hi h => ?_, fun i f op s hi h => ?_, fun i f op s hi h => ?_, fun f s h => ?_⟩
  · rw [compareRule_exec hi, compare, srcAB, slot_executes _ h]
    rfl
  · obtain ⟨rel, run, same⟩ := compareImmRule_exec hi s
    rw [run, compareI, slot_executes _ h, immS_eq, same]
    rfl
  · obtain ⟨hg, full⟩ := h
    rw [guardRule_exec hi, guardOp, slot_on s f.g [] _ hg full, guardOf_eq, guardOf_eq]
    rfl
  · rw [exec_gset, execGset, slot_executes _ h]

end Sys2Proof.Machine

namespace Sys2Proof.Machine

/-! The operations of the scalar instructions as bit-vector operations (R95 to R101). -/

theorem wbit_eq (w : W64) (k : Nat) : wbit w k = w.getLsbD k := active_eq w k

theorem minS_eq (a b : W64) : minS a b = if a.sle b then a else b := by
  unfold minS; rw [BitVec.sle_eq_decide]; simp only [decide_eq_true_eq]

theorem maxS_eq (a b : W64) : maxS a b = if b.sle a then a else b := by
  unfold maxS; rw [BitVec.sle_eq_decide]; simp only [decide_eq_true_eq]

theorem minU_eq (a b : W64) : minU a b = if a.ule b then a else b := by
  unfold minU; rw [BitVec.ule_eq_decide]; simp only [decide_eq_true_eq]

theorem maxU_eq (a b : W64) : maxU a b = if b.ule a then a else b := by
  unfold maxU; rw [BitVec.ule_eq_decide]; simp only [decide_eq_true_eq]

theorem shl64_eq (a : W64) (n : Nat) : shl64 a n = a <<< n := by
  refine BitVec.eq_of_toNat_eq ?_
  rw [shl64, BitVec.toNat_ofNat, BitVec.toNat_shiftLeft, Nat.shiftLeft_eq]

theorem shr64_eq (a : W64) (n : Nat) : shr64 a n = a >>> n := by
  refine BitVec.eq_of_toNat_eq ?_
  rw [shr64, BitVec.toNat_ofNat, BitVec.toNat_ushiftRight, Nat.shiftRight_eq_div_pow,
    Nat.mod_eq_of_lt ((Nat.div_le_self _ _).trans_lt a.isLt)]

theorem sar64_eq (a : W64) (n : Nat) : sar64 a n = a.sshiftRight n := by
  rw [sar64, BitVec.sshiftRight, Int.shiftRight_eq_div_pow]; norm_cast

/-- The bits that a left rotate moves past the top come back at the bottom (R97). -/
theorem rol64_eq (a : W64) {n : Nat} (h : n < 64) : rol64 a n = (a <<< n) ||| (a >>> (64 - n)) := by
  have apart : (a <<< n) &&& (a >>> (64 - n)) = 0#64 := by
    refine BitVec.eq_of_getLsbD_eq (fun i hi => ?_)
    rw [BitVec.getLsbD_and, BitVec.getLsbD_shiftLeft, BitVec.getLsbD_ushiftRight, BitVec.getLsbD_zero]
    by_cases low : i < n
    · simp [low]
    · rw [BitVec.getLsbD_of_ge a (64 - n + i) (by omega), Bool.and_false]
  rw [← BitVec.add_eq_or_of_and_eq_zero _ _ apart, rol64, BitVec.ofNat_add]
  exact congrArg₂ _ (shl64_eq a n) (shr64_eq a (64 - n))

theorem mulhU_eq (a b : W64) : mulhU a b = ((a.setWidth 128 * b.setWidth 128) >>> 64).setWidth 64 := by
  refine BitVec.eq_of_toNat_eq ?_
  have fits : a.toNat * b.toNat < 2 ^ 128 := (Nat.mul_lt_mul'' a.isLt b.isLt).trans_eq (by decide)
  rw [mulhU, BitVec.toNat_ofNat, BitVec.toNat_setWidth, BitVec.toNat_ushiftRight, BitVec.toNat_mul, BitVec.toNat_setWidth,
    BitVec.toNat_setWidth, Nat.mod_eq_of_lt (a.isLt.trans (by decide)), Nat.mod_eq_of_lt (b.isLt.trans (by decide)),
    Nat.mod_eq_of_lt fits, Nat.shiftRight_eq_div_pow]

/-- Bits 64 to 127 of an integer. -/
theorem ofInt_high (z : Int) : ((BitVec.ofInt 128 z) >>> 64).setWidth 64 = BitVec.ofInt 64 (z / 2 ^ 64) := by
  refine BitVec.eq_of_toNat_eq ?_
  rw [BitVec.toNat_setWidth, BitVec.toNat_ushiftRight, BitVec.toNat_ofInt, BitVec.toNat_ofInt, Nat.shiftRight_eq_div_pow]
  omega

theorem mulhS_eq (a b : W64) : mulhS a b = ((a.signExtend 128 * b.signExtend 128) >>> 64).setWidth 64 := by
  rw [mulhS, ← ofInt_high, BitVec.ofInt_mul]
  rfl

theorem lowMask_toNat {n : Nat} (h : n ≤ 64) : ((1#64 <<< n) - 1#64).toNat = 2 ^ n - 1 := by
  have pos : 0 < 2 ^ n := Nat.two_pow_pos n
  have top : 2 ^ n ≤ 2 ^ 64 := Nat.pow_le_pow_right (by decide) h
  rw [BitVec.toNat_sub, BitVec.toNat_shiftLeft, Nat.shiftLeft_eq]
  simp only [BitVec.toNat_ofNat]
  omega

/-- A field of n bits from bit lo. -/
theorem bitField_toNat (a : W64) (lo : Nat) {n : Nat} (h : n ≤ 64) :
    ((a >>> lo) &&& ((1#64 <<< n) - 1#64)).toNat = a.toNat / 2 ^ lo % 2 ^ n := by
  rw [BitVec.toNat_and, lowMask_toNat h, BitVec.toNat_ushiftRight, Nat.and_two_pow_sub_one_eq_mod, Nat.shiftRight_eq_div_pow]

/-- Sign extension from bit n - 1 as a left and a right shift (R99). -/
theorem sextN_eq_shifts (n : Nat) (a : W64) : sextN n a.toNat = (a <<< (64 - n)).sshiftRight (64 - n) := by
  rcases Nat.eq_zero_or_pos n with rfl | pos
  · rw [sextN]
    simp
  by_cases wide : 64 ≤ n
  · rw [Nat.sub_eq_zero_of_le wide, sextN]
    simp only [if_neg pos.ne', if_pos wide, BitVec.ofNat_toNat, BitVec.setWidth_eq, BitVec.shiftLeft_zero, BitVec.sshiftRight_zero]
  · have low : sextN n a.toNat = (a.setWidth n).signExtend 64 := by
      rw [← sextN_toNat (a.setWidth n) pos (by omega), BitVec.toNat_setWidth]
      simp only [sextN, Nat.mod_mod, if_neg wide]
    rw [low]
    refine BitVec.eq_of_getLsbD_eq (fun i hi => ?_)
    have sign : (a.setWidth n).msb = (a <<< (64 - n)).msb := by
      rw [BitVec.msb_eq_getLsbD_last, BitVec.msb_eq_getLsbD_last, BitVec.getLsbD_setWidth, BitVec.getLsbD_shiftLeft]
      rw [show 64 - 1 - (64 - n) = n - 1 by omega]
      simp [show n - 1 < n by omega, show ¬ (63 < 64 - n) by omega]
    rw [BitVec.getLsbD_signExtend, BitVec.getLsbD_sshiftRight, BitVec.getLsbD_setWidth, sign, BitVec.getLsbD_shiftLeft]
    by_cases inside : i < n
    · simp [inside, hi, show 64 - n + i < 64 by omega]
    · simp [inside, hi, show ¬ (64 - n + i < 64) by omega]

/-- The descriptor of a bit field: its low bit, and its width within the word (R100). -/
theorem fieldDescriptor (b : W64) : wbits b 0 6 = b.toNat % 64 ∧ wbits b 8 7 = b.toNat / 2 ^ 8 % 128 := by
  simp [wbits]

theorem bfx64_eq (a b : W64) : bfx64 a b = bfxRule a b := by
  obtain ⟨low, width⟩ := fieldDescriptor b
  have room : min (b.toNat / 2 ^ 8 % 128) (64 - b.toNat % 64) ≤ 64 := by omega
  simp only [bfx64, bfxRule, low, width, wbit_eq, ← bitField_toNat a _ room, sextN_eq_shifts, BitVec.ofNat_toNat, BitVec.setWidth_eq]

/-- A bit of a word of which a field has been replaced. -/
theorem getLsbD_wset (w : W64) (lo n x i : Nat) (h : i < 64) :
    (wset w lo n x).getLsbD i = if lo ≤ i ∧ i < lo + n then x.testBit (i - lo) else w.getLsbD i := by
  have parts : w.toNat - wbits w lo n * 2 ^ lo + x % 2 ^ n * 2 ^ lo
      = 2 ^ lo * (2 ^ n * (w.toNat / 2 ^ lo / 2 ^ n) + x % 2 ^ n) + w.toNat % 2 ^ lo := by
    have low := Nat.div_add_mod w.toNat (2 ^ lo)
    have field := Nat.div_add_mod (w.toNat / 2 ^ lo) (2 ^ n)
    have whole : w.toNat = 2 ^ lo * (2 ^ n * (w.toNat / 2 ^ lo / 2 ^ n)) + wbits w lo n * 2 ^ lo + w.toNat % 2 ^ lo := by
      rw [wbits, Nat.mul_comm _ (2 ^ lo), ← Nat.mul_add, field, low]
    rw [Nat.mul_add, Nat.mul_comm (x % 2 ^ n)]
    omega
  rw [wset, parts, BitVec.getLsbD_ofNat, decide_eq_true h, Bool.true_and, BitVec.getLsbD,
    Nat.testBit_two_pow_mul_add _ (Nat.mod_lt _ (Nat.two_pow_pos lo)), Nat.testBit_two_pow_mul_add _ (Nat.mod_lt _ (Nat.two_pow_pos n)),
    Nat.testBit_mod_two_pow, Nat.testBit_mod_two_pow, Nat.testBit_div_two_pow, Nat.testBit_div_two_pow]
  by_cases below : i < lo
  · simp [below, Nat.not_le.2 below]
  · by_cases inside : i - lo < n
    · simp [below, inside, Nat.not_lt.1 below, show i < lo + n by omega]
    · have back : i - lo - n + n + lo = i := by omega
      simp [below, inside, show ¬ i < lo + n by omega, back]

theorem bfi64_eq (d a b : W64) : bfi64 d a b = bfiRule d a b := by
  obtain ⟨low, width⟩ := fieldDescriptor b
  simp only [bfi64, bfiRule, low, width]
  generalize b.toNat % 64 = lo
  generalize hn : min (b.toNat / 2 ^ 8 % 128) (64 - lo) = n
  have mask (i : Nat) : ((1#64 <<< n) - 1#64).getLsbD i = decide (i < n) := by
    rw [BitVec.getLsbD, lowMask_toNat (by omega), Nat.testBit_two_pow_sub_one]
  refine BitVec.eq_of_getLsbD_eq (fun i hi => ?_)
  rw [getLsbD_wset d lo n a.toNat i hi, masked_bit _ _ _ _ hi, BitVec.getLsbD_shiftLeft, BitVec.getLsbD_shiftLeft, mask]
  by_cases below : i < lo
  · simp [below, Nat.not_le.2 below]
  · have inside : i - lo < n ↔ i < lo + n := by omega
    simp [below, hi, inside, Nat.not_lt.1 below, BitVec.getLsbD]

/-! Counts (R98). -/

/-- The first of n bits that is set, or n. -/
theorem firstBit_spec (p : Nat → Bool) (n : Nat) :
    let k := ((List.range n).find? p).getD n
    k ≤ n ∧ (∀ j, j < k → p j = false) ∧ (k < n → p k = true) := by
  cases h : (List.range n).find? p with
  | none =>
    have absent := List.find?_range_eq_none.1 h
    simpa using absent
  | some k =>
    obtain ⟨found, inside, first⟩ := List.find?_range_eq_some.1 h
    exact ⟨(List.mem_range.1 inside).le, fun j hj => by simpa using first j hj, fun _ => found⟩

theorem clz64_counts (f : RR) (a : W64) : CountRule (.clz f) a (clz64 a) := by
  simpa only [CountRule, clz64, wbit_eq] using firstBit_spec (fun i => wbit a (63 - i)) 64

theorem ctz64_counts (f : RR) (a : W64) : CountRule (.ctz f) a (ctz64 a) := by
  simpa only [CountRule, ctz64, wbit_eq] using firstBit_spec (fun i => wbit a i) 64

theorem popc64_counts (f : RR) (a : W64) : CountRule (.popc f) a (popc64 a) := by
  simp only [CountRule, popc64, wbit_eq]
  rw [← List.map_coe_finRange_eq_range, List.filter_map, List.length_map]
  rfl

/-! Immediates (R95). -/

theorem immZ_eq (f : RRI) : immZ f = unsignedImm f := by
  unfold immZ unsignedImm
  cases f.lit <;> exact BitVec.ofNat_toNat ..

theorem imm13S_eq (f : RI) : imm13S f = signedImm13 f := by
  unfold imm13S signedImm13
  cases f.lit with
  | none => exact sextN_toNat _ (by decide) (by decide)
  | some l => exact sextN_toNat _ (by decide) (by decide)

theorem imm13Z_eq (f : RI) : imm13Z f = unsignedImm13 f := by
  unfold imm13Z unsignedImm13
  cases f.lit <;> exact BitVec.ofNat_toNat ..

/-! Results of scalar slots. -/

/-- A slot that executes and whose sources are full answers what its body gives. -/
theorem slot_sourced {s : State} {g : BitVec 3} {ds : List Ref} {rs : List (Ref × Bool)} (body : Except Stop State)
    (h : Executes s g (ds ++ rs.map Prod.fst)) : slot s g ds (need (sources s rs) body) = finish s body := by
  obtain ⟨hg, full⟩ := h
  rw [slot_on s g ds _ hg (fun r hr => full r (List.mem_append_left _ hr)),
    sources_full s rs (fun r hr => full r (List.mem_append_right _ hr)), need_ok]

/-- Each two-source instruction is the shared operation over its rule. -/
theorem aluRule_exec {i : Instr} {f : RRR} {n : Nat} {op : W64 → W64 → W64} (h : aluRule i = some (f, n, op)) (s : State) :
    ∃ run, exec i s = alu f s n run ∧ ∀ a b, run a b = op a b := by
  have six (b : W64) : count6 b < 64 := Nat.mod_lt _ (by decide)
  unfold aluRule at h
  split at h <;> cases h
  case h_1 => exact ⟨_, exec_add f s, fun _ _ => rfl⟩
  case h_2 => exact ⟨_, exec_sub f s, fun _ _ => rfl⟩
  case h_3 => exact ⟨_, exec_and f s, fun _ _ => rfl⟩
  case h_4 => exact ⟨_, exec_or f s, fun _ _ => rfl⟩
  case h_5 => exact ⟨_, exec_xor f s, fun _ _ => rfl⟩
  case h_6 => exact ⟨_, exec_andn f s, fun _ _ => rfl⟩
  case h_7 => exact ⟨minS, exec_min f s, minS_eq⟩
  case h_8 => exact ⟨maxS, exec_max f s, maxS_eq⟩
  case h_9 => exact ⟨minU, exec_minu f s, minU_eq⟩
  case h_10 => exact ⟨maxU, exec_maxu f s, maxU_eq⟩
  case h_11 => exact ⟨_, exec_shl f s, fun a b => shl64_eq a (count6 b)⟩
  case h_12 => exact ⟨_, exec_shr f s, fun a b => shr64_eq a (count6 b)⟩
  case h_13 => exact ⟨_, exec_sar f s, fun a b => sar64_eq a (count6 b)⟩
  case h_14 => exact ⟨_, exec_rol f s, fun a b => rol64_eq a (six b)⟩
  case h_15 => exact ⟨bfx64, exec_bfx f s, bfx64_eq⟩
  case h_16 => exact ⟨_, exec_mul f s, fun _ _ => rfl⟩
  case h_17 => exact ⟨mulhS, exec_mulh f s, mulhS_eq⟩
  case h_18 => exact ⟨mulhU, exec_mulhu f s, mulhU_eq⟩

/-- Each instruction with an immediate is the shared operation over its rule. -/
theorem aluImmRule_exec {i : Instr} {f : RRI} {op : W64 → W64} (h : aluImmRule i = some (f, op)) (s : State) :
    ∃ run, exec i s = aluI f s run ∧ ∀ a, run a = op a := by
  unfold aluImmRule at h
  split at h <;> cases h
  case h_1 => exact ⟨_, exec_addi f s, fun a => congrArg (a + ·) (immS_eq f)⟩
  case h_2 => exact ⟨_, exec_andi f s, fun a => congrArg (a &&& ·) (immZ_eq f)⟩
  case h_3 => exact ⟨_, exec_ori f s, fun a => congrArg (a ||| ·) (immZ_eq f)⟩
  case h_4 => exact ⟨_, exec_xori f s, fun a => congrArg (a ^^^ ·) (immZ_eq f)⟩
  case h_5 => exact ⟨_, exec_shli f s, fun a => by rw [shl64_eq, immZ_eq]⟩
  case h_6 => exact ⟨_, exec_shri f s, fun a => by rw [shr64_eq, immZ_eq]⟩
  case h_7 => exact ⟨_, exec_sari f s, fun a => by rw [sar64_eq, immZ_eq]⟩
  case h_8 => exact ⟨_, exec_sext f s, fun a => by rw [sextN_eq_shifts, immZ_eq]⟩

/-- Settles O1: each family is a slot of its shared operation, whose value is the rule's by the lemma on its operation. -/
theorem scalarResults : Obligations.ScalarResults := by
  refine ⟨fun i f n op s hi h => ?_, fun i f op s hi h => ?_, fun f s ⟨hg, full⟩ => ⟨?_, ?_⟩⟩
  · obtain ⟨run, arm, same⟩ := aluRule_exec hi s
    rw [arm, alu, srcAB, slot_sourced _ h, same, finish_ok]
  · obtain ⟨run, arm, same⟩ := aluImmRule_exec hi s
    rw [arm, aluI, slot_sourced _ h, same, finish_ok]
  · rw [exec_li, execLi, slot_on s f.g _ _ hg full, imm13S_eq, finish_ok]
  · rw [exec_addpc, execAddpc, slot_on s f.g _ _ hg full, imm13S_eq, BitVec.ofNat_toNat, finish_ok]

/-- Each counting instruction is the shared operation over a count that its rule describes. -/
theorem countRule_exec {i : Instr} {f : RR} (h : i = .clz f ∨ i = .ctz f ∨ i = .popc f) (s : State) :
    ∃ count : W64 → Nat, exec i s = alu1 f s (fun a => BitVec.ofNat 64 (count a)) ∧ ∀ a, CountRule i a (count a) := by
  rcases h with rfl | rfl | rfl
  · exact ⟨clz64, exec_clz f s, clz64_counts f⟩
  · exact ⟨ctz64, exec_ctz f s, ctz64_counts f⟩
  · exact ⟨popc64, exec_popc f s, popc64_counts f⟩

/-- Settles O2: slots over the test of their sources; `sel` alone asks nothing of its guard. -/
theorem fieldAndCountResults : Obligations.FieldAndCountResults := by
  refine ⟨fun f s h => ?_, fun i f s hi h => ?_, fun f s ⟨hg, full⟩ => ?_, fun f s full => ?_⟩
  · obtain ⟨hg, full⟩ := h
    have sourced : Executes s f.g ([.s f.d] ++ [(Ref.s f.a, f.ta), (.s f.b, f.tb), (.s f.d, false)].map Prod.fst) :=
      ⟨hg, fun r hr => full r (by simp at hr ⊢; tauto)⟩
    rw [exec_bfi, execBfi, slot_sourced _ sourced, bfi64_eq, finish_ok]
  · obtain ⟨count, arm, counts⟩ := countRule_exec hi s
    refine ⟨count (s.src.getS f.a), counts _, ?_⟩
    rw [arm, alu1, slot_sourced _ h, finish_ok]
  · rw [exec_gget, execGget, slot_on s f.g _ _ hg full, guardOf_eq, finish_ok]
  · have dest : dests s [.s f.d] = .ok () := dests_full s _ (fun r hr => full r (by simp at hr ⊢; tauto))
    have srcs : srcAB s f = .ok () := sources_full s _ (fun r hr => full r (by simp at hr ⊢; tauto))
    rw [exec_sel, execSel, dest, srcs, on, wbit_eq]
    rfl

end Sys2Proof.Machine

namespace Sys2Proof.Machine

/-! Divisions (R21, R24, R102). -/

theorem quotS_eq (a b : W64) : quotS a b = divRule a b := by
  unfold quotS divRule
  split
  · rfl
  · exact BitVec.eq_of_toInt_eq (by rw [BitVec.toInt_ofInt, BitVec.toInt_sdiv])

/-- The remainder is what the quotient, rounded towards zero, leaves of the dividend. -/
theorem remS_eq (a b : W64) : remS a b = remRule a b := by
  unfold remS quotS remRule
  split
  · next h => rw [h, show allBits * 0 = 0 from BitVec.mul_zero, show a - 0 = a from BitVec.sub_zero a]
  · rw [← BitVec.ofInt_toInt (x := a.srem b), BitVec.toInt_srem, Int.tmod_def, Int.sub_eq_add_neg, BitVec.ofInt_add, BitVec.ofInt_neg,
      BitVec.ofInt_mul, BitVec.ofInt_toInt, BitVec.ofInt_toInt, BitVec.mul_comm, BitVec.sub_eq_add_neg]

theorem quotU_eq (a b : W64) : quotU a b = divuRule a b := by
  unfold quotU divuRule
  split
  · rfl
  · refine BitVec.eq_of_toNat_eq ?_
    rw [BitVec.toNat_ofNat, BitVec.toNat_udiv, Nat.mod_eq_of_lt ((Nat.div_le_self _ _).trans_lt a.isLt)]

theorem remU_eq (a b : W64) : remU a b = remuRule a b := by
  unfold remU remuRule
  split
  · rfl
  · refine BitVec.eq_of_toNat_eq ?_
    rw [BitVec.toNat_ofNat, BitVec.toNat_umod, Nat.mod_eq_of_lt ((Nat.mod_le _ _).trans_lt a.isLt)]

/-- Each division is the shared operation over its rule. -/
theorem divisionRule_exec {i : Instr} {f : RRR} {op : W64 → W64 → W64} (h : divisionRule i = some (f, op)) (s : State) :
    ∃ run, exec i s = divide f s run ∧ ∀ a b, run a b = op a b := by
  unfold divisionRule at h
  split at h <;> cases h
  case h_1 => exact ⟨quotS, exec_div f s, quotS_eq⟩
  case h_2 => exact ⟨remS, exec_rem f s, remS_eq⟩
  case h_3 => exact ⟨quotU, exec_divu f s, quotU_eq⟩
  case h_4 => exact ⟨remU, exec_remu f s, remU_eq⟩

@[simp] theorem getS_markS (r : Regs) (d e : BitVec 5) (b : Bool) : (r.markS d b).getS e = r.getS e := by
  unfold Regs.markS; split <;> rfl

theorem fullS_markS_same (r : Regs) (d : BitVec 5) (b : Bool) (h : d ≠ 0) : (r.markS d b).fullS d = b := by
  have here : (BitVec.twoPow 32 d.toNat).getLsbD d.toNat = true := by rw [BitVec.getLsbD_twoPow]; simp [d.isLt]
  rw [Regs.markS, if_neg h, Regs.fullS, beq_false_of_ne h, Bool.false_or]
  cases b
  · simp only [Bool.false_eq_true, if_false, BitVec.getLsbD_and, BitVec.getLsbD_not, here]; simp
  · simp only [if_true, BitVec.getLsbD_or, here, Bool.or_true]

theorem fullS_markS_ne (r : Regs) (d e : BitVec 5) (b : Bool) (h : e ≠ d) : (r.markS d b).fullS e = r.fullS e := by
  have there : (BitVec.twoPow 32 d.toNat).getLsbD e.toNat = false := by
    have other : ¬ d.toNat = e.toNat := fun q => h (BitVec.eq_of_toNat_eq q.symm)
    rw [BitVec.getLsbD_twoPow, decide_eq_false other, Bool.and_false]
  have inside : decide (e.toNat < 32) = true := decide_eq_true e.isLt
  unfold Regs.markS Regs.fullS
  split
  · rfl
  · cases b
    · simp only [Bool.false_eq_true, if_false, BitVec.getLsbD_and, BitVec.getLsbD_not, there, inside]; simp
    · simp only [if_true, BitVec.getLsbD_or, there, Bool.or_false]

/-- A register that a variable-latency instruction takes, and what the others keep (R21, R24). -/
theorem takeS_eq (r : Regs) (d : BitVec 5) (h : d ≠ 0) : r.takeS d = (r.dropLatches (.scalar d)).markS d false := by
  rw [Regs.takeS, if_neg h]

theorem takeS_latches (r : Regs) (d : BitVec 5) (h : d ≠ 0) : (r.takeS d).latches
    = r.latches.map (fun l => if l.dest = .scalar d then { l with dest := .flagsOnly, mask := 0, value := 0 } else l) := by
  rw [takeS_eq r d h, Regs.markS, if_neg h]; rfl

/-- The registers of a context whose scalar variable-latency operation starts. -/
theorem startOp_regs (s : State) (d : BitVec 5) (kind : OpKind) (h : d ≠ 0) : (startOp s (opS d) kind).me.r = s.me.r.takeS d := by
  rw [opS, if_neg h]
  exact congrArg Ctx.r (State.me_setMe s _)

theorem getS_giveS_same (r : Regs) (d : BitVec 5) (x : W64) (h : d ≠ 0) : (r.giveS d x).getS d = x := by
  rw [Regs.giveS, getS_markS, getS_setS_same r d x h]

theorem fullS_giveS_same (r : Regs) (d : BitVec 5) (x : W64) (h : d ≠ 0) : (r.giveS d x).fullS d = true := fullS_markS_same _ d true h

/-- Outside handler mode no register image keeps up with a result (R374, R390). -/
theorem giveImage_program {s : State} {c : CoreId} {x : CtxId} (o : Op) (h : (s.ctx c x).handler = false) : giveImage s c x o = s := by
  unfold giveImage; simp [h]

/-- An operation that ends outside handler mode changes its context alone. -/
theorem endOp_program {s : State} {c : CoreId} {x : CtxId} (o : Op) (g : Regs → Regs) (h : (s.ctx c x).handler = false) :
    endOp s c x o g = s.setCtx c x ((s.ctx c x).give o g) :=
  giveImage_program o (by rw [State.ctx_setCtx_same]; exact h)

/-- Settles O4: the start takes sD (`startOp_regs`), the completion gives it back full (`Regs.giveS`). -/
theorem divisions : Obligations.Divisions := by
  refine ⟨fun i f op s hi h => ?_, fun i f op s hi hg full => ?_, fun s d kind h => ?_, fun c x s o d v ho hk hd h0 hh => ?_⟩
  · obtain ⟨run, arm, same⟩ := divisionRule_exec hi s
    rw [arm, divide, srcAB, slot_sourced _ h, same, finish_ok]
  · obtain ⟨run, arm, _⟩ := divisionRule_exec hi s
    rw [arm, divide, slot_off s f.g _ _ hg full]
  · rw [startOp_regs s d kind h]
    refine ⟨?_, takeS_latches _ d h, fun e he => ?_, fun e => ?_⟩
    · rw [takeS_eq _ d h, fullS_markS_same _ d false h]
    · rw [takeS_eq _ d h, fullS_markS_ne _ d e false he]; rfl
    · rw [takeS_eq _ d h, getS_markS]; rfl
  · have run : exec (.divisionResult c x o.id) s = .next (giveScalar s c x o v) := by
      rw [exec_divisionResult, execDivisionResult]; simp only [ho, hk]
    refine ⟨_, run, ?_⟩
    rw [giveScalar, endOp_program o _ hh, State.ctx_setCtx_same]
    simp only [Ctx.give, hd]
    exact ⟨getS_giveS_same _ d v h0, fullS_giveS_same _ d v h0, trivial, rfl⟩

end Sys2Proof.Machine

namespace Sys2Proof.Machine

/-! System registers (R114, R115, R388, R389, R392, R393). -/

theorem readReg_ctx (s : State) (c : CoreId) (x : CtxId) {n : Nat} (h : n < 0x120) : readReg s c x n = readCtxReg s c x n := if_pos h

theorem readReg_pkg (s : State) (c : CoreId) (x : CtxId) {n : Nat} (h : 0x300 ≤ n) : readReg s c x n = readPkgReg s n := by
  rw [readReg, if_neg (by omega), if_neg (by omega), if_neg (by omega)]

/-- The k registers are a run of registers of context scope (R389). -/
theorem readReg_k (s : State) (c : CoreId) (x : CtxId) (k : BitVec 4) : readReg s c x (0x110 + k.toNat) = rget (s.ctx c x).k k := by
  have inside : 0x110 ≤ 0x110 + k.toNat ∧ 0x110 + k.toNat ≤ 0x11F := by have := k.isLt; omega
  rw [readReg_ctx s c x (by omega)]
  unfold readCtxReg
  simp only
  split
  case h_20 => rw [if_pos inside, Nat.add_sub_cancel_left, BitVec.ofNat_toNat, BitVec.setWidth_eq]
  all_goals omega

/-- The routing registers are a run of registers of package scope (R388). -/
theorem readReg_route (s : State) (c : CoreId) (x : CtxId) (n : BitVec 6) : readReg s c x (0x310 + n.toNat) = rget s.pkg.route n := by
  have inside : 0x310 ≤ 0x310 + n.toNat ∧ 0x310 + n.toNat ≤ 0x34F := by have := n.isLt; omega
  rw [readReg_pkg s c x (by omega)]
  unfold readPkgReg
  split
  case h_11 => rw [if_pos inside, Nat.add_sub_cancel_left, BitVec.ofNat_toNat, BitVec.setWidth_eq]
  all_goals omega

/-- A bit of a register that is put together from numbers. -/
theorem getLsbD_of_toNat {w : W64} {k : Nat} {b : Bool} (h : w.toNat / 2 ^ k % 2 = b.toNat) : w.getLsbD k = b := by
  rw [← wbit_eq, wbit, h]; cases b <;> rfl

/-- The fields of stretch (R389): below bit 8 the ratio, then a flag in each of three bits. -/
theorem stretchReg_fields (s : State) (k : Core) :
    wbits (stretchReg s k) 0 8 = (stretchNow s k).1.toNat ∧ (stretchReg s k).getLsbD 8 = k.narrow ∧
    (stretchReg s k).getLsbD 9 = decide (k.degraded ≠ []) ∧ (stretchReg s k).getLsbD 10 = k.pace.any (fun q => decide (q.2 ≠ 0)) := by
  have ratio := (stretchNow s k).1.isLt
  have narrow := Bool.toNat_le k.narrow
  have degraded := Bool.toNat_le (decide (k.degraded ≠ []))
  have pace := Bool.toNat_le (k.pace.any (fun q => decide (q.2 ≠ 0)))
  refine ⟨?_, getLsbD_of_toNat ?_, getLsbD_of_toNat ?_, getLsbD_of_toNat ?_⟩ <;>
    simp only [stretchReg, wbits, BitVec.toNat_ofNat] <;> omega

/-- The fields of array_mode (R389): the owner with a bit that says there is one, and the narrow bit. -/
theorem arrayMode_fields (k : Core) :
    (∀ y, arrayOwner k = some y → wbits (arrayMode k) 0 3 = y.val + 4) ∧ (arrayOwner k = none → wbits (arrayMode k) 0 3 = 0) ∧
    (arrayMode k).getLsbD 3 = k.narrow := by
  have narrow := Bool.toNat_le k.narrow
  have fields (n : Nat) (small : n < 8) (mode : arrayMode k = BitVec.ofNat 64 (n + k.narrow.toNat * 8)) :
      wbits (arrayMode k) 0 3 = n ∧ (arrayMode k).getLsbD 3 = k.narrow := by
    rw [mode]
    refine ⟨?_, getLsbD_of_toNat ?_⟩ <;> simp only [wbits, BitVec.toNat_ofNat] <;> omega
  cases owner : arrayOwner k with
  | none =>
    obtain ⟨low, bit⟩ := fields 0 (by decide) (by rw [arrayMode, owner])
    exact ⟨fun y h => (nomatch h), fun _ => low, bit⟩
  | some x =>
    obtain ⟨low, bit⟩ := fields (x.val + 4) (by omega) (by rw [arrayMode, owner])
    exact ⟨fun y h => by rw [low, Option.some.inj h], fun h => (nomatch h), bit⟩

/-- The fields of ws_window outside autonomous refresh (R236): the time in the period, whether a window is open, and which. -/
theorem wsWindow_fields (s : State) (d : DieId) (h : (s.refreshOf d).auto = false) :
    wbits (wsWindow s d) 16 48 = refreshPhase s d ∧ (wsWindow s d).getLsbD 4 = decide (refreshPhase s d % 3200 < 1600) ∧
    wbits (wsWindow s d) 0 4 = (if refreshPhase s d % 3200 < 1600 then refreshPhase s d / 3200 else (refreshPhase s d / 3200 + 1) % 16) := by
  have period : refreshPhase s d < 51200 := Nat.mod_lt _ (by decide)
  have window : wsWindow s d = BitVec.ofNat 64 ((if refreshPhase s d % 3200 < 1600 then refreshPhase s d / 3200
      else (refreshPhase s d / 3200 + 1) % 16) + (decide (refreshPhase s d % 3200 < 1600)).toNat * 2 ^ 4 + refreshPhase s d * 2 ^ 16) :=
    if_neg (ne_true_of_eq_false h)
  rw [window]
  generalize slot : (if refreshPhase s d % 3200 < 1600 then refreshPhase s d / 3200 else (refreshPhase s d / 3200 + 1) % 16) = n
  have bank : n < 16 := by
    rw [← slot]
    split <;> omega
  have opened := Bool.toNat_le (decide (refreshPhase s d % 3200 < 1600))
  refine ⟨?_, getLsbD_of_toNat ?_, ?_⟩ <;> simp only [wbits, BitVec.toNat_ofNat] <;> omega

/-- The fields of spill_ptr (R388). -/
theorem spillPtr_fields (k : Core) : wbits (spillPtr k) 0 16 = k.spillHead.toNat ∧ wbits (spillPtr k) 16 16 = k.spillTail.toNat ∧
    wbits (spillPtr k) 32 17 = k.spillCount % 2 ^ 17 ∧ (spillPtr k).getLsbD 63 = k.spillRefused := by
  have head := k.spillHead.isLt
  have tail := k.spillTail.isLt
  have refused := Bool.toNat_le k.spillRefused
  refine ⟨?_, ?_, ?_, getLsbD_of_toNat ?_⟩ <;> simp only [spillPtr, wbits, BitVec.toNat_ofNat] <;> omega

/-- The registers that a read clears (R388, R392). -/
theorem clearReg_clears (s : State) (c : CoreId) (x : CtxId) :
    ∀ n ∈ [0x123, 0x124, 0x208, 0x209, 0x20C, 0x217, 0x308],
      readReg (clearReg s c (s.partIdOf c) n) c x n = 0 ∧ (clearReg s c (s.partIdOf c) n).mem = s.mem := by
  have core (k : Core) : (s.setCore c k).core c = k := State.core_setCore_same s c k
  have part (k : Part) : (s.setPart (s.partIdOf c) k).part ((s.setPart (s.partIdOf c) k).partIdOf c) = k :=
    State.part_setPart_same s (s.partIdOf c) k
  simp only [List.forall_mem_cons, List.not_mem_nil, false_imp_iff, implies_true, and_true]
  exact ⟨⟨congrArg Core.corrErr (core _), rfl⟩, ⟨congrArg Core.dropInt (core _), rfl⟩, ⟨congrArg Part.abandoned (part _), rfl⟩,
    ⟨congrArg Part.staleWake (part _), rfl⟩, ⟨congrArg Part.sringLost (part _), rfl⟩, ⟨congrArg Part.saveLate (part _), rfl⟩, ⟨rfl, rfl⟩⟩

theorem clearReg_keeps (s : State) (c : CoreId) (p : PartId) (n : Nat) (h : n ∉ [0x123, 0x124, 0x208, 0x209, 0x20C, 0x217, 0x308]) :
    clearReg s c p n = s := by
  unfold clearReg
  split <;> simp at h ⊢

theorem wsWindow_autonomous (s : State) (d : DieId) (h : (s.refreshOf d).auto = true) : wsWindow s d = 0x8000000000000000 := if_pos h

/-! Writes by mts. -/

theorem writeReg_k (s : State) (k : BitVec 4) (v : W64) :
    writeReg s (0x110 + k.toNat) v = .ok (s.setMe { s.me with k := rset s.me.k k v }) := by
  have inside : 0x110 ≤ 0x110 + k.toNat ∧ 0x110 + k.toNat ≤ 0x11F := by have := k.isLt; omega
  unfold writeReg
  simp only
  split
  case h_7 => rw [if_pos inside, Nat.add_sub_cancel_left, BitVec.ofNat_toNat, BitVec.setWidth_eq]
  all_goals omega

/-- A register with no writable bit is left alone (R392). -/
theorem writeReg_ignored (s : State) (n : Nat) (v : W64) (h : n ∉ [0, 1, 2, 0x104, 0x105, 0x125]) (hk : ¬ (0x110 ≤ n ∧ n ≤ 0x11F)) :
    writeReg s n v = .ok s := by
  unfold writeReg
  simp only
  split
  case h_7 => rw [if_neg hk]
  all_goals simp at h

/-- An interrupt request to a core of another partition raises ACL; any other is posted (R393). -/
theorem writeReg_interrupt (s : State) (v : W64) : writeReg s 0x125 v =
    if s.partOf (intCore v) ≠ s.partOf s.issue.core then .error (.trap .acl v) else .ok (postInt s (intCore v) (intCtx v) (intVector v)) := rfl

theorem intVector_eq (v : W64) : intVector v = (v >>> 32).setWidth 32 := by
  refine BitVec.eq_of_toNat_eq ?_
  rw [intVector, wbits, BitVec.toNat_ofNat, BitVec.toNat_setWidth, BitVec.toNat_ushiftRight, Nat.shiftRight_eq_div_pow, Nat.mod_mod]

/-- What an mts that executes writes (R115). -/
theorem exec_mts_writes (f : SYS) (s : State) (h : Executes s f.g [.s f.d]) :
    exec (.mts f) s = finish s (writeReg s f.num.toNat (s.src.getS f.d)) := by
  rw [exec_mts, execMts, slot_sourced _ h]

/-- What an mfs that executes reads (R114): three registers of the snapshot, the others of the context. -/
theorem exec_mfs_reads (f : SYS) (s : State) (h : Executes s f.g [.s f.d]) :
    exec (.mfs f) s = .next (resultS (clearReg s s.issue.core (s.partIdOf s.issue.core) f.num.toNat) f.d
      (if f.num = 0 then s.src.fpctl else if f.num = 1 then s.src.rngSeed else if f.num = 2 then s.src.rngCtr
        else readReg s s.issue.core s.issue.ctx f.num.toNat) 1) := by
  obtain ⟨hg, full⟩ := h
  rw [exec_mfs, execMfs, slot_on s f.g _ _ hg full, finish_ok]
  congr 2
  split
  case h_1 h => rw [if_pos (BitVec.eq_of_toNat_eq h)]
  case h_2 h =>
    have num : f.num = 1 := BitVec.eq_of_toNat_eq h
    rw [num]; rfl
  case h_3 h =>
    have num : f.num = 2 := BitVec.eq_of_toNat_eq h
    rw [num]; rfl
  case h_4 h0 h1 h2 =>
    rw [if_neg (fun e => h0 (congrArg BitVec.toNat e)), if_neg (fun e => h1 (congrArg BitVec.toNat e)),
      if_neg (fun e => h2 (congrArg BitVec.toNat e))]

/-- Settles O8: the reads by the scope of their register, the writes by `writeReg`. -/
theorem systemRegisters : Obligations.SystemRegisters := by
  refine ⟨exec_mfs_reads, fun s c x => ⟨?_, readReg_route s c x, stretchReg_fields s (s.core c), arrayMode_fields (s.core c),
    ⟨wsWindow_autonomous s (dieOf c), wsWindow_fields s (dieOf c)⟩, spillPtr_fields (s.core c), readReg_k s c x, clearReg_clears s c x,
    clearReg_keeps s c (s.partIdOf c)⟩, fun f s h => ?_⟩
  · -- every listed number is closed, so each read reduces to the field it names
    simp only [List.forall_mem_cons, List.not_mem_nil, false_imp_iff, implies_true, and_true, ← BitVec.ofNat_toNat]
    and_intros <;> rfl
  · rw [exec_mts_writes f s h]
    refine ⟨fun e => ?_, fun e => ?_, fun e => ?_, fun e => ?_, fun e => ?_, fun k e => ?_, fun e => ?_, fun e hk => ?_⟩
    iterate 5
      · rw [e]
        rfl
    · rw [e, writeReg_k, finish_ok]
    · have num : f.num.toNat = 0x125 := congrArg BitVec.toNat e
      rw [num, writeReg_interrupt]
      refine ⟨fun other => ?_, fun same => ?_⟩
      · rw [if_pos other, finish_trap]
      · rw [if_neg (not_not.2 same), finish_ok, postInt, intVector_eq]
    · rw [writeReg_ignored s _ _ e hk, finish_ok]

end Sys2Proof.Machine

namespace Sys2Proof.Machine

/-! Transfers (R106). -/

/-- A transfer to a register: ALIGN unless the target is a multiple of 4. -/
theorem finish_aligned4 (s t : State) (a : W64) : finish s (need (aligned4 a) (.ok t)) =
    if a.toNat % 4 = 0 then .next t else .next (raise s .align a false) := by
  unfold aligned4; split <;> rfl

/-- Settles O5: slots over the test of their sources, then `finish_aligned4` where the target is a register's. -/
theorem transfers : Obligations.Transfers := by
  refine ⟨fun f s ⟨hg, full⟩ => ?_, fun f s ⟨hg, full⟩ => ?_, fun f s h => ?_, fun f s h => ?_, fun f s h => ?_⟩
  · rw [exec_br, execBr, slot_on s f.g _ _ hg full]; rfl
  · rw [exec_call, execCall, slot_on s f.g _ _ hg full]; rfl
  · rw [exec_jr, execJr, slot_sourced _ h, finish_aligned4]
  · rw [exec_callr, execCallr, slot_sourced _ h, finish_aligned4]; rfl
  · rw [exec_ret, execRet, slot_sourced _ h, finish_aligned4]

/-! Sequencing (R43, R108, R110 to R112, R366, R392). -/

/-- A slot that names no destination and tests no source, and which executes, answers what its body gives. -/
theorem slot_bare {s : State} {g : BitVec 3} (body : Except Stop State) (h : Executes s g []) : slot s g [] body = finish s body :=
  slot_on s g [] body h.1 h.2

/-- An acquire that meets no recorded write-back error is made (R252, R263). -/
theorem acquireHere_unreported {s : State} {scope : Nat} {sel : W64 → Bool} (h : reported s s.issue.core sel = none) :
    acquireHere s scope sel = .ok (acquire s s.issue.core scope sel) := by
  rw [acquireHere, h]

/-- A wait while a copy that it names is incomplete (R111, R307). -/
theorem exec_wait_busy {f : RI} {s : State} (h : Executes s f.g []) (busy : ∃ k ∈ s.eng.copies, f.imm.toNat.testBit k.tok.toNat = true) :
    Holds s (exec (.wait f) s) := by
  rw [exec_wait, execWait, slot_bare _ h]
  simp only
  rw [if_pos (List.any_eq_true.2 busy)]
  rfl

/-- A wait whose tokens are idle, with no failed copy to observe, acquires what the completed ones wrote (R312). -/
theorem exec_wait_idle {f : RI} {s : State} (h : Executes s f.g []) (idle : ∀ k ∈ s.eng.copies, f.imm.toNat.testBit k.tok.toNat = false)
    (err : s.eng.err = none) (ok : reported s s.issue.core (tokenBytes s f.imm.toNat) = none) :
    exec (.wait f) s = .next (acquire s s.issue.core 4 (tokenBytes s f.imm.toNat)) := by
  have quiet : ¬ s.eng.copies.any (fun k => f.imm.toNat.testBit k.tok.toNat) = true :=
    ne_true_of_eq_false (List.any_eq_false.2 (fun k hk => ne_true_of_eq_false (idle k hk)))
  rw [exec_wait, execWait, slot_bare _ h]
  simp only [err]
  rw [if_neg quiet, acquireHere_unreported ok, finish_ok]

theorem pushTail_room {s : State} {c : CoreId} {e : W64} (h : (s.core c).queue.length < 32 ∧ (s.core c).spillCount = 0) :
    pushTail s c e = .ok (s.setCore c { s.core c with queue := (s.core c).queue ++ [e] }) := if_pos h

/-- A queue with room takes an entry at once (R126, R127). -/
theorem pushAfterHeld_room {s : State} {c : CoreId} (w : Pusher) (e : W64) (h : QueueRoom s c) : ∃ t, pushAfterHeld s c w e = .ok t := by
  obtain ⟨room, spilled, held⟩ := h
  simp only [pushAfterHeld, refill_no_ring 32 s c spilled, held, List.length_nil, retryHeld, push, pushPlace, pushTail_room ⟨room, spilled⟩]
  exact ⟨_, rfl⟩

/-- A yield by a continuation that has not triggered, whose core's queue has room for it (R112). -/
theorem exec_yield_room {f : NF} {s : State} (h : Executes s f.g []) (ht : s.src.triggered = false) (room : QueueRoom s s.issue.core) :
    exec (.yield f) s = .next (s.transfer (.leave .yield)) := by
  obtain ⟨t, pushed⟩ := pushAfterHeld_room .own (queueEntry s.me.job.name true s.me.job.scope.toNat s.issue.core false) room
  rw [exec_yield, execYield, slot_bare _ h, pushed, notTriggered, if_neg (ne_true_of_eq_false ht)]
  rfl

/-- After a trig the continuation may not suspend (R207). -/
theorem exec_yield_triggered {f : NF} {s : State} (h : Executes s f.g []) (ht : s.src.triggered = true) :
    exec (.yield f) s = .next (raise s .badrec 6 false) := by
  rw [exec_yield, execYield, slot_bare _ h, notTriggered, if_pos ht]
  rfl

theorem exec_ckpt_nothing (f : NF) (s : State) : exec (.ckpt f) s = .next s := by
  have full : AllFull s [] := by simp [AllFull]
  rw [exec_ckpt, execCkpt]
  cases hg : on s f.g with
  | true => exact slot_on s f.g [] _ hg full
  | false => exact slot_off s f.g [] _ hg full

/-- The context of a prepared bundle: what the handing over of its stores left, with the results that are due landed. -/
theorem inFlight_prepared (s : State) (c : CoreId) (x : CtxId) (is : List Instr) (words : Nat) (oper : Bool) :
    let y := (inFlight s c x is words oper).ctx c x
    let k := (storesHanded s c x is).ctx c x
    y.ck = k.ck ∧ y.r = (s.ctx c x).r.landAll ∧ y.gate = k.gate ∧ y.epoch = k.epoch := by
  have h : (inFlight s c x is words oper).ctx c x = _ := State.ctx_setCtx_same _ _ _ _
  simp only [h]
  exact ⟨trivial, trivial, trivial, trivial⟩

theorem mem_slotInstrs {slots : List Slot} {sl : Slot} {i : Instr} (h : sl ∈ slots) (hi : sl.instr = .ok i) : i ∈ slotInstrs slots :=
  List.mem_filterMap.2 ⟨sl, h, by rw [hi]; rfl⟩

/-- A bundle whose ckpt slot is on commits before its slots run, when nothing blocks it (R366, R392). -/
theorem prepare_checkpoint {f : NF} {c : CoreId} {x : CtxId} {s : State} {slots : List Slot} {words : Nat} (ready : ctxReady s c x = true)
    (good : nextBundle s c x = .good slots words) (slot : ∃ sl ∈ slots, sl.instr = .ok (.ckpt f))
    (live : wbit ((s.ctx c x).r.landAll.getG f.g) 0 = true) (program : (s.ctx c x).handler = false)
    (free : ckptBlocked (s.ctx c x) = false) (drain : drainReady s c x = true) (store : (s.ctx c x).badStore = false)
    (rep : (s.ctx c x).r.rep = none) (bar : (s.ctx c x).barWait = none) :
    commits (s.ctx c x) (slotInstrs slots) = true ∧ prepare s c x = .ready (inFlight s c x (slotInstrs slots) words false) := by
  obtain ⟨sl, mem, hi⟩ := slot
  have commit : commits (s.ctx c x) (slotInstrs slots) = true := commits_eq_true program ⟨_, mem_slotInstrs mem hi, .inr live⟩
  have quiet : barError s c x = none := by simp [barError, bar]
  have unblocked : ¬HandOverBlocked s c x (slotInstrs slots) := not_blocked (fun _ => free) (handlerStores_of_not_blocked free) drain
  refine ⟨commit, ?_⟩
  rw [prepare, if_pos ready, prepareNext_good false quiet good (.inl (by simp [rep]))]
  simp only
  rw [if_neg unblocked, if_neg (fun h => ne_true_of_eq_false store h.2)]

/-- Settles O6: each slot by its own lemma; the checkpoint bundle by `prepare_checkpoint` and what `commit` leaves of its context. -/
theorem sequencing : Obligations.Sequencing := by
  refine ⟨fun f s h => ⟨?_, ?_⟩, fun f s h => ⟨exec_wait_busy h, exec_wait_idle h⟩, exec_nop,
    fun f s h => ⟨?_, exec_yield_triggered h, exec_yield_room h⟩, exec_ckpt_nothing,
    fun f c x s slots words ready good slot live program free drain store rep bar => ?_⟩
  · rw [exec_loop, execLoop, slot_sourced _ h, imm13Z_eq]
    split <;> rfl
  · rw [exec_rep, execRep, slot_sourced _ h, imm13Z_eq, finish_ok]
  · rw [exec_stop, execStop, slot_bare _ h, finish_ok]
  · obtain ⟨commit, prepared⟩ := prepare_checkpoint ready good slot live program free drain store rep bar
    obtain ⟨ck, regs, gate, epoch⟩ := inFlight_prepared s c x (slotInstrs slots) words false
    rw [storesHanded_commit commit, commit_ctx] at ck gate epoch
    exact ⟨_, prepared, ck, regs, gate, epoch⟩

/-! Software traps (R113, R372, R392). -/

/-- eret outside handler mode, and in it with the handler's stores translated or not (R223, R392). -/
theorem exec_eret_cases {f : NF} {s : State} (h : Executes s f.g []) :
    (s.me.handler = true → handlerStores s.me = false → exec (.eret f) s = .next ((eretCtx s s.issue.core s.issue.ctx).verdict .left)) ∧
    (s.me.handler = true → handlerStores s.me = true → Holds s (exec (.eret f) s)) ∧
    (s.me.handler = false → exec (.eret f) s = .next (raise s .priv (BitVec.ofNat 64 s.issue.slot) false)) := by
  rw [exec_eret, execEret, slot_bare _ h]
  refine ⟨fun handler translated => ?_, fun handler waits => ?_, fun program => ?_⟩
  · rw [if_neg (fun w => ne_true_of_eq_false translated w.2), if_pos handler, finish_left]
  · rw [if_pos ⟨handler, waits⟩]; rfl
  · rw [if_neg (fun w => ne_true_of_eq_false program w.1), if_neg (ne_true_of_eq_false program), finish_trap]

/-- Settles O7: the bodies of the three slots. -/
theorem softwareTraps : Obligations.SoftwareTraps := by
  refine ⟨fun f s h => ?_, fun f s h => ⟨?_, exec_eret_cases h⟩⟩
  · rw [exec_trap, execTrap, slot_bare _ h, imm13Z_eq, finish_trap]
  · rw [exec_brk, execBrk, slot_bare _ h, finish_trap]

end Sys2Proof.Machine

namespace Sys2Proof.Machine

/-! Lane-masked slots that execute (R38, R154, R155). -/

theorem ExecutesV.mono {s : State} {g : BitVec 3} {rs ts : List Ref} (h : ExecutesV s g rs) (sub : ts ⊆ rs) : ExecutesV s g ts :=
  ⟨h.1, fun r hr => h.2 r (sub hr)⟩

/-- A lane-masked slot that executes and whose sources are full answers what its body gives for its mask. -/
theorem slotV_sourced {s : State} {g : BitVec 3} {ds : List Ref} {rs : List (Ref × Bool)} (body : W64 → Except Stop State)
    (h : ExecutesV s g (ds ++ rs.map Prod.fst)) :
    slotV s g ds (fun m => need (sources s rs) (body m)) = finish s (body (s.src.getG g)) := by
  obtain ⟨hg, full⟩ := h
  rw [slotV_on s g ds _ hg (fun r hr => full r (List.mem_append_left _ hr)),
    sources_full s rs (fun r hr => full r (List.mem_append_right _ hr)), need_ok]

/-- As `slotV_sourced`, where the slot also reads ports that are ready. -/
theorem slotV_ported {s : State} {g : BitVec 3} {ds : List Ref} {rs : List (Ref × Bool)} {ps : List (BitVec 5)}
    (body : W64 → Except Stop State) (h : ExecutesV s g (ds ++ rs.map Prod.fst)) (ready : PortsReady s ps) :
    slotV s g ds (fun m => need (sources s rs) (need (ports s ps) (body m))) = finish s (body (s.src.getG g)) := by
  rw [slotV_sourced _ h, ports_ready s ps ready, need_ok]

/-! The shared operations of class V. -/

theorem vecOp_executes {f : RRR} {s : State} (n : Nat) (old : Bool) (op : W32 → W32 → W32 → W32 × BitVec 5)
    (h : ExecutesV s f.g [.v f.d, .v f.a, .v f.b]) (ready : PortsReady s [f.a, f.b]) :
    ∃ x fl, LanesGive (s.src.getG f.g) (fun l => op (lane (s.src.getV f.d) l) (lane (vsrc s f.a) l) (lane (vsrc s f.b) l)) x fl ∧
      vecOp f s n old op = .next (resultV (pop s f.h [f.a, f.b]) f.d (s.src.getG f.g) x fl n) := by
  refine ⟨_, _, lanewise_gives _ _, ?_⟩
  rw [vecOp, slotV_ported _ (h.mono (by cases old <;> simp)) ready, finish_ok]

theorem vecOp1_executes {f : RR} {s : State} (n : Nat) (op : W32 → W32 × BitVec 5) (h : ExecutesV s f.g [.v f.d, .v f.a])
    (ready : PortsReady s [f.a]) : ∃ x fl, LanesGive (s.src.getG f.g) (fun l => op (lane (vsrc s f.a) l)) x fl ∧
      vecOp1 f s n op = .next (resultV (pop s f.h [f.a]) f.d (s.src.getG f.g) x fl n) := by
  refine ⟨_, _, lanewise_gives _ _, ?_⟩
  rw [vecOp1, slotV_ported _ h ready, finish_ok]

theorem vecCompare_executes {f : RRR} {s : State} (op : W32 → W32 → Bool × BitVec 5) (h : ExecutesV s f.g [.v f.a, .v f.b])
    (ready : PortsReady s [f.a, f.b]) : ∃ x fl, BitsGive (s.src.getG f.g) (fun l => op (lane (vsrc s f.a) l) (lane (vsrc s f.b) l)) x fl ∧
      vecCompare f s op = .next (resultP (pop s f.h [f.a, f.b]) f.d (s.src.getG f.g) x fl 2) := by
  refine ⟨_, _, lanebits_gives _ _, ?_⟩
  rw [vecCompare, slotV_ported _ h ready, finish_ok]

/-- Lanes none of which sets a flag leave no flag. -/
theorem lanewise_quietly (m : W64) (f : Nat → W32) : (lanewise m (fun l => quietly (f l))).2 = 0 := by
  refine BitVec.eq_of_getLsbD_eq (fun k hk => ?_)
  rw [BitVec.ofNat_eq_ofNat, BitVec.getLsbD_zero, Bool.eq_false_iff]
  intro set
  obtain ⟨-, flags⟩ := lanewise_gives m (fun l => quietly (f l))
  obtain ⟨l, -, -, bit⟩ := (flags k hk).1 set
  simp [quietly] at bit

theorem vecFromScalar_executes {f : RR} {s : State} (op : W32 → Nat → W32) (h : ExecutesV s f.g [.v f.d, .s f.a]) :
    ∃ x, LanesGive (s.src.getG f.g) (fun l => (op ((s.src.getS f.a).setWidth 32) l, 0)) x 0 ∧
      vecFromScalar f s op = .next (resultV s f.d (s.src.getG f.g) x 0 1) := by
  have gives := lanewise_gives (s.src.getG f.g) (fun l => quietly (op ((s.src.getS f.a).setWidth 32) l))
  rw [lanewise_quietly] at gives
  refine ⟨_, gives, ?_⟩
  rw [vecFromScalar, slotV_sourced _ h, finish_ok, BitVec.ofNat_toNat, lanewise_quietly]

/-! The operations on 32-bit lanes as bit-vector operations (R165, R166). -/

theorem shl32_eq (a b : W32) : shl32 a b = a <<< (b.toNat % 32) := by
  refine BitVec.eq_of_toNat_eq ?_
  rw [shl32, BitVec.toNat_ofNat, BitVec.toNat_shiftLeft, Nat.shiftLeft_eq]

theorem shr32_eq (a b : W32) : shr32 a b = a >>> (b.toNat % 32) := by
  refine BitVec.eq_of_toNat_eq ?_
  rw [shr32, BitVec.toNat_ofNat, BitVec.toNat_ushiftRight, Nat.shiftRight_eq_div_pow,
    Nat.mod_eq_of_lt ((Nat.div_le_self _ _).trans_lt a.isLt)]

theorem sar32_eq (a b : W32) : sar32 a b = a.sshiftRight (b.toNat % 32) := by
  rw [sar32, BitVec.sshiftRight, Int.shiftRight_eq_div_pow]; norm_cast

/-! Each family is its shared operation over its rule. -/

theorem vectorRule_exec {i : Instr} {f : RRR} {n : Nat} {old : Bool} {op : W32 → W32 → W32 → W32 × BitVec 5}
    (h : vectorRule i = some (f, n, old, op)) (s : State) : exec i s = vecOp f s n old op := by
  unfold vectorRule at h
  split at h <;> cases h
  case h_1 => exact exec_vadd f s
  case h_2 => exact exec_vsub f s
  case h_3 => exact exec_vmul f s
  case h_4 => exact exec_vfma f s
  case h_5 => exact exec_vfms f s
  case h_6 => exact exec_vmin f s
  case h_7 => exact exec_vmax f s
  case h_8 => exact exec_viadd f s
  case h_9 => exact exec_visub f s
  case h_10 => exact exec_vimul f s
  case h_11 => exact exec_viand f s
  case h_12 => exact exec_vior f s
  case h_13 => exact exec_vixor f s
  case h_14 => rw [exec_vishl, execVishl]; simp only [shl32_eq]; rfl
  case h_15 => rw [exec_vishr, execVishr]; simp only [shr32_eq]; rfl
  case h_16 => rw [exec_visar, execVisar]; simp only [sar32_eq]; rfl
  case h_17 => rw [exec_vimin, execVimin]; simp only [← BitVec.sle_iff_toInt_le]; rfl
  case h_18 => rw [exec_vimax, execVimax]; simp only [← BitVec.sle_iff_toInt_le]; rfl

theorem vectorRule1_exec {i : Instr} {f : RR} {op : W32 → W32 × BitVec 5} (h : vectorRule1 i = some (f, op)) (s : State) :
    exec i s = vecOp1 f s 1 op := by
  unfold vectorRule1 at h
  split at h <;> cases h
  case h_1 => exact exec_vabs f s
  case h_2 => exact exec_vneg f s
  case h_3 => exact exec_vmov f s

theorem vectorCompareRule_exec {i : Instr} {f : RRR} {op : W32 → W32 → Bool × BitVec 5} (h : vectorCompareRule i = some (f, op))
    (s : State) : exec i s = vecCompare f s op := by
  unfold vectorCompareRule at h
  split at h <;> cases h
  case h_1 => exact exec_vcmpeq f s
  case h_2 => exact exec_vcmplt f s
  case h_3 => exact exec_vcmple f s
  case h_4 => exact exec_vcmpun f s
  case h_5 => exact exec_vicmpeq f s
  case h_6 => exact exec_vicmplt f s

/-- Settles O9: each family is its shared operation, whose lanes `lanewise_gives` and `lanebits_gives` describe. -/
theorem vectorResults : Obligations.VectorResults := by
  refine ⟨fun i f n old op s hi h ready => ?_, fun f s h ready => ?_, fun i f op s hi h ready => ?_⟩
  · rw [vectorRule_exec hi]
    exact vecOp_executes n old op h ready
  · refine ⟨_, _, lanewise_gives _ _, ?_⟩
    rw [exec_vfmai, execVfmai, slotV_ported _ (h.mono (by simp)) ready, finish_ok, BitVec.ofNat_toNat]
  · rw [vectorCompareRule_exec hi]
    exact vecCompare_executes op h ready

/-! Moves (R164, R168, R169). -/

/-- vsel asks nothing of its guard: its lanes only choose (R164). -/
theorem exec_vsel_full {f : RRR} {s : State} (full : AllFull s [.v f.d, .v f.a, .v f.b]) (ready : PortsReady s [f.a, f.b]) :
    exec (.vsel f) s = .next (resultV (pop s f.h [f.a, f.b]) f.d (BitVec.allOnes 64)
      (ofLanes (fun l => if active (s.src.getG f.g) l then lane (vsrc s f.a) l else lane (vsrc s f.b) l)) 0 2) := by
  have dest : dests s [.v f.d] = .ok () := dests_full s _ (fun r hr => full r (by simp at hr ⊢; tauto))
  have srcs : sources s [(.v f.a, f.ta), (.v f.b, f.tb)] = .ok () := sources_full s _ (fun r hr => full r (by simp at hr ⊢; tauto))
  rw [exec_vsel, execVsel, dest, srcs, ports_ready s _ ready]
  rfl

theorem exec_vins_executes {f : RRR} {s : State} (h : ExecutesV s f.g [.v f.d, .s f.a, .s f.b]) :
    exec (.vins f) s = .next (if active (s.src.getG f.g) ((s.src.getS f.b).toNat % 64)
      then resultV s f.d (BitVec.twoPow 64 ((s.src.getS f.b).toNat % 64)) (ofLanes (fun _ => (s.src.getS f.a).setWidth 32)) 0 2
      else s) := by
  rw [exec_vins, execVins, slotV_sourced _ (h.mono (by simp)), finish_ok, BitVec.ofNat_toNat]

/-- Settles O10: one-source and broadcast forms by their shared operations; each other move is a row whose lanes `lane_ofLanes` gives. -/
theorem vectorMoves : Obligations.VectorMoves := by
  refine ⟨fun i f op s hi h ready => ?_, fun f s h => ⟨?_, ?_⟩, fun f s full ready => ?_, fun f s h ready => ?_, fun f s h ready => ?_,
    fun f s h ready => ?_, fun f s h => ?_⟩
  · rw [vectorRule1_exec hi]
    exact vecOp1_executes 1 op h ready
  · exact vecFromScalar_executes (fun x _ => x) h
  · exact vecFromScalar_executes (fun x l => x + BitVec.ofNat 32 l) h
  · exact ⟨_, fun l hl => by rw [lane_ofLanes _ l hl, active_eq], exec_vsel_full full ready⟩
  · refine ⟨_, fun l hl => lane_ofLanes _ l hl, ?_⟩
    rw [exec_vperm, execVperm, slotV_ported _ h ready, finish_ok]
  · refine ⟨_, fun l hl => lane_ofLanes _ l hl, ?_⟩
    rw [exec_vrot, execVrot, slotV_ported _ h ready, finish_ok]
  · rw [exec_vext, execVext, slotV_ported _ h ready, finish_ok, active_eq, BitVec.ofNat_toNat]
  · have inside : (s.src.getS f.b).toNat % 64 < 64 := Nat.mod_lt _ (by decide)
    rw [exec_vins_executes h, active_eq]
    split
    · exact ⟨_, lane_ofLanes _ _ inside, rfl⟩
    · rfl

end Sys2Proof.Machine

namespace Sys2Proof.Machine

theorem AllFull.head {s : State} {r : Ref} {rs : List Ref} (h : AllFull s (r :: rs)) : AllFull s [r] :=
  (allFull_singleton s r).2 (h r (List.mem_cons_self ..))

/-! Lane-masked slots of class F that execute (R39, R73, R81). -/

/-- A slot that may draw, with an active lane and full destinations: a result is followed by the use of the generator. -/
theorem slotF_result {s t : State} {g : BitVec 3} {ds : List Ref} {draws : Bool} {body : W64 → Except Stop State}
    (hg : s.src.getG g ≠ 0) (full : AllFull s ds) (ok : body (s.src.getG g) = .ok t) :
    slotF s g ds draws body = .next (if draws then useGenerator t else t) := by
  simp only [slotF, dests_full s ds full, if_neg hg, ok, finish_ok]

/-- A slot that may draw and stops does not draw. -/
theorem slotF_stop {s : State} {g : BitVec 3} {ds : List Ref} {draws : Bool} {body : W64 → Except Stop State} {e : Stop}
    (hg : s.src.getG g ≠ 0) (full : AllFull s ds) (stop : body (s.src.getG g) = .error e) :
    slotF s g ds draws body = finish s (.error e) := by
  simp only [slotF, dests_full s ds full, if_neg hg, stop]

/-- A U-form slot under a rounding mode, and under a reserved dynamic one. -/
theorem unary_executes {f : UF} {s : State} {extra : List (Ref × Bool)} (body : W64 → Rm → Row → State → State)
    (h : ExecutesV s f.g (.v f.d :: .v f.a :: extra.map Prod.fst)) (ready : PortsReady s [f.a]) :
    (∀ mode, roundMode s f.rnd = some mode →
      unary f s extra body = .next (drawn mode (body (s.src.getG f.g) mode (vsrc s f.a) (pop s false [f.a])))) ∧
    (roundMode s f.rnd = none → unary f s extra body = .next (raise s .ill (BitVec.ofNat 64 s.issue.slot) false)) := by
  obtain ⟨hg, full⟩ := h
  have srcs : sources s ((.v f.a, f.ta) :: extra) = .ok () := sources_full s _ (fun r hr => full r (List.mem_cons_of_mem _ hr))
  refine ⟨fun mode hm => ?_, fun hm => ?_⟩
  · rw [unary, slotF_result hg full.head (by simp only [srcs, ports_ready s _ ready, hm, need_ok]; rfl), hm, drawn]
    cases mode <;> rfl
  · rw [unary, slotF_stop hg full.head (by simp only [srcs, ports_ready s _ ready, hm, need_ok]; rfl), finish_trap]

/-! Conversions and special functions of the U form (R176 to R178, R180, R182, R183, R187, R190). -/

/-- The block scale of a Q4N record is read from its first byte. -/
theorem q4nScale_run (sup : W32) (n : Nat) : q4nScale sup (n % 2 ^ 264) = roundF32 ((f32 sup).mul (.fin false (n % 256) 256)) := by
  rw [q4nScale, Nat.mod_mod_of_dvd n (Nat.pow_dvd_pow 2 (show 8 ≤ 264 by decide))]

/-- Each instruction of the rule is the U-form operation of its lanes. -/
theorem unaryRule_exec {s : State} {i : Instr} {f : UF} {n : Nat} {more : List Ref} {op : Rm → Row → Nat → W32 × BitVec 5}
    (h : unaryRule s i = some (f, n, more, op)) : ∃ extra, extra.map Prod.fst = more ∧ exec i s = unaryLanes f s n extra op := by
  unfold unaryRule at h
  split at h <;> cases h
  case h_1 => exact ⟨[], rfl, exec_vcvt f s⟩
  case h_2 => exact ⟨[], rfl, exec_vcvtx f s⟩
  case h_3 => exact ⟨[], rfl, exec_vunpk f s⟩
  case h_4 => exact ⟨[], rfl, exec_vdqmx f s⟩
  case h_5 =>
    refine ⟨[(.s f.d, false)], rfl, ?_⟩
    rw [exec_vdq4n, execVdq4n]
    simp only [q4nScale_run]
    rfl
  case h_6 => exact ⟨[], rfl, exec_vlog2 f s⟩
  case h_7 => exact ⟨[], rfl, exec_vexp2 f s⟩
  case h_8 => exact ⟨[], rfl, exec_vrcp f s⟩
  case h_9 => exact ⟨[], rfl, exec_vrsqrt f s⟩
  case h_10 => exact ⟨[], rfl, exec_vfxcvt f s⟩

/-- Settles O11: each instruction is a U-form slot (`unary_executes`) whose lanes `lanewise_gives` describes. -/
theorem unaryResults : Obligations.UnaryResults := by
  intro i f n more op s hi h ready
  obtain ⟨extra, rfl, he⟩ := unaryRule_exec hi
  rw [he, unaryLanes]
  obtain ⟨moded, reserved⟩ := unary_executes (fun m mode a t =>
    let (x, fl) := lanewise m (op mode a)
    resultV t f.d m x fl n) h ready
  exact ⟨fun mode hm => ⟨_, _, lanewise_gives _ _, moded mode hm⟩, reserved⟩

/-! Packing and block quantisation (R174, R179, R181, R183). -/

/-- Settles O12: U-form slots; vpack's codes and flags are the lists of its active lanes'. -/
theorem packingResults : Obligations.PackingResults := by
  refine ⟨fun f s mode h ready hm => ?_, fun f s mode h ready hm => ?_, fun f s mode h ready hm => ?_, fun i f s hi h ready hm => ?_⟩
  · refine ⟨_, fun k _ => lane_flags _ _ 0 k, ?_⟩
    rw [exec_vpack, execVpack, (unary_executes _ (h.mono (by simp)) ready).1 mode hm]
    simp only [List.map_map, active_eq, Function.comp_def, apply_ite Prod.fst]
    rfl
  · rw [exec_vqmx, execVqmx, (unary_executes _ (h.mono (by simp)) ready).1 mode hm]
    rfl
  · rw [exec_vq4n, execVq4n, (unary_executes _ (h.mono (by simp)) ready).1 mode hm]
    simp only [superScale, active_eq, BitVec.ofNat_toNat]
    rfl
  · obtain rfl | rfl | rfl := hi
    · rw [exec_vpack, execVpack, (unary_executes _ (h.mono (by simp)) ready).2 hm]
    · rw [exec_vqmx, execVqmx, (unary_executes _ (h.mono (by simp)) ready).2 hm]
    · rw [exec_vq4n, execVq4n, (unary_executes _ (h.mono (by simp)) ready).2 hm]

end Sys2Proof.Machine

namespace Sys2Proof.Machine

/-! Reductions (R184, R185). -/

/-- A reduction that executes: its body over the mask and vA, with vD among the sources where it is read. -/
theorem reduce_executes {f : RR} {s : State} (old : Bool) (body : W64 → Row → State → State) (h : ExecutesV s f.g [.v f.d, .v f.a])
    (ready : PortsReady s [f.a]) : reduce f s old body = .next (body (s.src.getG f.g) (vsrc s f.a) (pop s f.h [f.a])) := by
  rw [reduce, slotV_ported _ (h.mono (by cases old <;> simp)) ready, finish_ok]

/-- The flag of a signalling NaN among a first value and those of the active lanes. -/
theorem signalling_flag (x : Num) (m : W64) (g : Nat → Num) :
    flagIf (x.isSig || ((List.range 64).filter (fun l => m.getLsbD l)).any (fun l => (g l).isSig)) flagNV =
      if x.isSig ∨ ∃ l ∈ List.range 64, m.getLsbD l = true ∧ (g l).isSig = true then 16 else 0 := by
  simp only [flagIf, flagNV, Bool.or_eq_true, List.any_eq_true, List.mem_filter, and_assoc]

/-- One level of the tree joins node 2i with node 2i + 1 (R185). -/
theorem pairUp_range (f : Nat → Option W32 × BitVec 5) (n : Nat) :
    pairUp ((List.range (2 * n)).map f) = (List.range n).map (fun i => joinSums (f (2 * i)) (f (2 * i + 1))) := by
  induction n generalizing f with
  | zero => rfl
  | succ n ih =>
    have e : 2 * (n + 1) = 2 * n + 1 + 1 := rfl
    rw [e, List.range_succ_eq_map, List.range_succ_eq_map, List.range_succ_eq_map]
    simp only [List.map_cons, List.map_map, pairUp]
    congr 1
    exact ih _

theorem pairUp_level (m : W64) (a : Row) (k n : Nat) :
    pairUp ((List.range (2 * n)).map (sumNode m a k)) = (List.range n).map (sumNode m a (k + 1)) := pairUp_range _ n

/-- The leaves of the tree: the lanes that take part, each entered (R63, R185; log 37). -/
theorem leaf_eq (m : W64) (a : Row) (l : Nat) :
    (if active m l then (some (enter (lane a l)).1, (enter (lane a l)).2) else (none, 0)) = sumNode m a 0 l := by
  rw [active_eq]; rfl

/-- Six levels over the 64 leaves give the root (R185). -/
theorem pairUp_root (m : W64) (a : Row) :
    (pairUp (pairUp (pairUp (pairUp (pairUp (pairUp ((List.range 64).map (sumNode m a 0)))))))).headD (none, 0) = sumNode m a 6 0 := by
  rw [pairUp_level m a 0 32, pairUp_level m a 1 16, pairUp_level m a 2 8, pairUp_level m a 3 4, pairUp_level m a 4 2, pairUp_level m a 5 1]
  rfl

/-! The running pair of vmaxi and vmini (R186). -/

/-- The pair that a slot leaves, as its lanes: a winner's value with a NaN made canonical, its index, and the next index base. -/
def pairLanes (d : Row) (best : Option (W32 × W32)) : Row :=
  ofLanes (fun l => if l = 0 then canonical (best.getD (lane d 0, lane d 1)).1 else if l = 1 then (best.getD (lane d 0, lane d 1)).2
    else lane d 2 + 64)

theorem pairLanes_gives (d : Row) (best : Option (W32 × W32)) : lane (pairLanes d best) 2 = lane d 2 + 64 ∧
    ∀ v n, best = some (v, n) → lane (pairLanes d best) 0 = (if (f32 v).isNan then 0x7FC00000 else v) ∧ lane (pairLanes d best) 1 = n := by
  refine ⟨lane_ofLanes _ 2 (by decide), ?_⟩
  rintro v n rfl
  exact ⟨lane_ofLanes _ 0 (by decide), lane_ofLanes _ 1 (by decide)⟩

/-- The model's step over one candidate is `meet`. -/
theorem meet_eq (wantMax : Bool) : (fun (b : Option (W32 × W32)) (c : W32 × W32) => if c.2 = 0xFFFFFFFF then b
    else match b with
      | none => some c
      | some p => if beats wantMax (f32 c.1) (f32 p.1) then some c else b) = meet wantMax := by
  funext b c
  cases b <;> rfl

theorem foldBest_executes {f : RR} {s : State} (wantMax : Bool) (h : ExecutesV s f.g [.v f.d, .v f.a]) (ready : PortsReady s [f.a]) :
    foldBest wantMax f s = .next (resultV (pop s f.h [f.a]) f.d
      (if (winner wantMax (s.src.getG f.g) (s.src.getV f.d) (vsrc s f.a)).isSome then 7 else 4)
      (pairLanes (s.src.getV f.d) (winner wantMax (s.src.getG f.g) (s.src.getV f.d) (vsrc s f.a)))
      (if (f32 (lane (s.src.getV f.d) 0)).isSig ∨ ∃ l ∈ List.range 64, (s.src.getG f.g).getLsbD l = true ∧
        (f32 (lane (vsrc s f.a) l)).isSig = true then 16 else 0) 5) := by
  rw [foldBest, reduce_executes true _ h ready, ← signalling_flag, winner, ← meet_eq]
  simp only [List.any_map, funext (active_eq _)]
  rfl

/-! The generator (R82, R188). -/

theorem exec_vrng_executes {f : RR} {s : State} (h : ExecutesV s f.g [.v f.d, .v f.a]) :
    exec (.vrng f) s = .next (useGenerator (resultV s f.d (s.src.getG f.g) (ofLanes (fun l => drawHigh s.src.rngSeed (drawCtr s) l)) 0 2)) := by
  obtain ⟨hg, full⟩ := h
  rw [exec_vrng, execVrng, slotF_result hg full.head rfl, if_pos rfl]

/-! The log-sum-exp merge (R189). -/

/-- A list of n pairs laid out: place 2i holds the first of pair i, place 2i + 1 its second. -/
theorem flatMap_pairs {α : Type} (n : Nat) (p q : Nat → α) :
    (List.range n).flatMap (fun i => [p i, q i]) = (List.range (2 * n)).map (fun l => if l % 2 = 0 then p (l / 2) else q (l / 2)) := by
  induction n with
  | zero => rfl
  | succ n ih =>
    have even : 2 * n % 2 = 0 := by omega
    have halves : 2 * n / 2 = n ∧ (2 * n + 1) / 2 = n := by omega
    rw [List.range_succ, List.flatMap_append, ih, show 2 * (n + 1) = 2 * n + 1 + 1 from rfl, List.range_succ, List.range_succ]
    simp [even, halves]

/-- Lanes 2i and 2i + 1 of a row built from 32 pairs. -/
theorem lane_ofPairs (p q : Nat → W32) (i : Nat) (hi : i < 32) :
    lane (BitVec.ofNat 2048 (lanesNat ((List.range 32).flatMap (fun i => [p i, q i])))) (2 * i) = p i ∧
    lane (BitVec.ofNat 2048 (lanesNat ((List.range 32).flatMap (fun i => [p i, q i])))) (2 * i + 1) = q i := by
  have even : 2 * i % 2 = 0 := by omega
  have odd : ¬ (2 * i + 1) % 2 = 0 := by omega
  have halves : 2 * i / 2 = i ∧ (2 * i + 1) / 2 = i := by omega
  rw [flatMap_pairs]
  refine ⟨(lane_ofLanes _ _ (by omega)).trans ?_, (lane_ofLanes _ _ (by omega)).trans ?_⟩
  · rw [if_pos even, halves.1]
  · rw [if_neg odd, halves.2]

theorem zipIdx_map_range {α : Type} (n : Nat) (g : Nat → α) : ((List.range n).map g).zipIdx = (List.range n).map (fun i => (g i, i)) :=
  List.ext_getElem (by simp) (fun i h1 h2 => by simp)

/-- Flags ORed over the members of a list. -/
theorem foldl_or_flags {α : Type} (xs : List α) (g : α → BitVec 5) (k : Nat) :
    (xs.foldl (fun acc x => acc ||| g x) 0).getLsbD k = true ↔ ∃ x ∈ xs, (g x).getLsbD k = true := by
  have e : xs.foldl (fun acc x => acc ||| g x) 0 = (xs.map g).foldl (fun a x => a ||| x) 0 := List.foldl_map.symm
  rw [e, orFlags]
  simp

/-- The pair that vlsem merges in lanes 2i and 2i + 1 of two rows. -/
def mergedPair (a b : Row) (i : Nat) : W32 × W32 × BitVec 5 × BitVec 5 :=
  mergePair (lane a (2 * i)) (lane a (2 * i + 1)) (lane b (2 * i)) (lane b (2 * i + 1))

/-- The flags that a pair leaves: all of them where its second lane is active, those of m where only its first is. -/
def mergedFlags (m : W64) (a b : Row) (i : Nat) : BitVec 5 :=
  if m.getLsbD (2 * i + 1) then (mergedPair a b i).2.2.2 else if m.getLsbD (2 * i) then (mergedPair a b i).2.2.1 else 0

theorem mergedFlags_bit (m : W64) (a b : Row) (i k : Nat) : (mergedFlags m a b i).getLsbD k = true ↔
    m.getLsbD (2 * i + 1) = true ∧ (mergedPair a b i).2.2.2.getLsbD k = true ∨
      m.getLsbD (2 * i + 1) = false ∧ m.getLsbD (2 * i) = true ∧ (mergedPair a b i).2.2.1.getLsbD k = true := by
  unfold mergedFlags
  cases m.getLsbD (2 * i + 1) <;> cases m.getLsbD (2 * i) <;> simp

theorem exec_vlsem_executes {f : RRR} {s : State} (h : ExecutesV s f.g [.v f.d, .v f.a, .v f.b]) (ready : PortsReady s [f.a, f.b]) :
    exec (.vlsem f) s = .next (resultV (pop s f.h [f.a, f.b]) f.d (s.src.getG f.g)
      (BitVec.ofNat 2048 (lanesNat ((List.range 32).flatMap (fun i =>
        [(mergedPair (vsrc s f.a) (vsrc s f.b) i).1, (mergedPair (vsrc s f.a) (vsrc s f.b) i).2.1]))))
      ((List.range 32).foldl (fun acc i => acc ||| mergedFlags (s.src.getG f.g) (vsrc s f.a) (vsrc s f.b) i) 0) 8) := by
  rw [exec_vlsem, execVlsem, slotV_ported _ h ready, finish_ok]
  simp only [zipIdx_map_range, List.foldl_map, List.flatMap_map, active_eq]
  rfl

/-- Settles O13: the reductions by `reduce_executes`, vsum by its tree (`pairUp_root`), vmaxi and vmini by `meet`, the merge pair by pair. -/
theorem reductionResults : Obligations.ReductionResults := by
  refine ⟨fun f s h ready => ⟨?_, ?_, fun i wantMax hi => ?_, ?_⟩, fun f s h ready => ?_⟩
  · rw [exec_vamax, execVamax, reduce_executes true _ h ready, ← signalling_flag]
    simp only [largest, List.any_cons, List.any_map, funext (active_eq _)]
    rfl
  · rw [exec_vsum, execVsum, reduce_executes false _ h ready]
    simp only [leaf_eq, pairUp_root]
    rfl
  · obtain ⟨next, won⟩ := pairLanes_gives (s.src.getV f.d) (winner wantMax (s.src.getG f.g) (s.src.getV f.d) (vsrc s f.a))
    refine ⟨_, next, won, ?_⟩
    obtain ⟨rfl, rfl⟩ | ⟨rfl, rfl⟩ := hi
    · rw [exec_vmaxi, execVmaxi, foldBest_executes true h ready]
    · rw [exec_vmini, execVmini, foldBest_executes false h ready]
  · exact ⟨_, fun l hl => lane_ofLanes _ l hl, exec_vrng_executes h⟩
  · refine ⟨_, _, fun i hi => lane_ofPairs _ _ i hi, fun k _ => ?_, exec_vlsem_executes h ready⟩
    simp only [foldl_or_flags, mergedFlags_bit, List.mem_range]
    rfl

end Sys2Proof.Machine

namespace Sys2Proof.Machine

/-! The checks of a beat (R192, R194, R195, R197, R292 to R294). -/

/-- The row of a stream that has one, and the stream after it (R292, R293). -/
theorem streamRow_of_rowAddr {st : File 3 W64} {ra : W64} (r : BitVec 5) (h : rowAddr st = some ra) :
    streamRow st r = .ok (ra, rowAfter st) := by
  unfold rowAddr at h
  unfold streamRow rowAfter
  simp only at h ⊢
  by_cases plain : stField st 3 = 0
  · rw [if_pos plain] at h ⊢
    split at h
    · next below =>
      cases h
      rw [if_neg (by omega), if_neg (by simp [plain])]
    · cases h
  · rw [if_neg plain] at h ⊢
    split at h
    · next filled =>
      obtain ⟨rows, uses, slots, filled, ahead⟩ := filled
      cases h
      have counts : ¬(stField st 7 = 0 ∨ stField st 8 = 0 ∨ stField st 9 = 0) := by simp [rows, uses, slots]
      rw [if_neg counts, if_neg (by omega)]
      simp only [ne_eq, plain, not_false_eq_true, true_and]
    · cases h

theorem ringsOk_ready {s : State} {rs : List (BitVec 5)} (h : ∀ r ∈ rs, BeatReady s r) : ringsOk s rs = .ok () := by
  have rows : (rs.map (fun r => (streamOf s r, r))).any (fun p => match streamRow p.1 p.2 with
      | .error .hold => true
      | _ => false) = false := by
    rw [List.any_map, List.any_eq_false]
    intro r hr
    obtain ⟨-, ra, hra, -⟩ := h r hr
    simp [streamRow_of_rowAddr r hra]
  unfold ringsOk ringOk
  rw [if_neg]
  exact ne_true_of_eq_false rows

theorem fmtsOk_ready {s : State} {rs : List (BitVec 5)} (h : ∀ r ∈ rs, BeatReady s r) : fmtsOk s rs = .ok () :=
  if_pos (List.all_eq_true.2 (fun r hr => (h r hr).1))

theorem owned_ok {s : State} (h : s.src.owns = true) : owned s = .ok () := if_pos h

theorem rowOk_good {s : State} {r : BitVec 5} (h : RowGood s r) : rowOk s r = .ok () := if_pos h.1

theorem rowRead_good {s : State} {r : BitVec 5} (h : RowGood s r) (n : Nat) : rowRead s n = .ok () := by
  rw [rowRead, h.2]; rfl

theorem pushOk_fits {s : State} {r : BitVec 5} {zero : Bool} (h : PushFits s r zero) : pushOk s r zero = .ok () := by
  unfold pushOk pushRow
  rcases h with rfl | h0 | ⟨p, hp, same⟩
  · rfl
  · simp [h0]
  · simp [hp, same]

theorem activeOk_fits {s : State} {r : BitVec 5} (h : ActiveFits s r) : activeOk s r = .ok () := by
  obtain ⟨p, hp, same⟩ := h
  simp [activeOk, hp, same]

theorem drainOk_room {s : State} {q : BitVec 2} (h : DrainRoom s q) : drainOk s q = .ok () := if_pos (Nat.lt_of_le_of_lt (Nat.sub_le ..) h)

theorem eccReads_good {s : State} (h : CodesGood s) : ∀ ks, eccReads s ks = .ok s
  | [] => rfl
  | (k, n) :: ks => by
    have read : eccRead s k n = .ok s := if_pos (by rw [show s.ecc = [] from h]; rfl)
    rw [eccReads, read]
    exact eccReads_good h ks

/-- The super-scales of records on their boundaries, all in the own scratchpad (R294). -/
theorem superScales_ready {s : State} {st : File 3 W64} (r : BitVec 5) {ra : W64} : ∀ n i,
    (∀ j, i ≤ j → j < i + n → recordAddr st ra j % 33 = 0 ∧ inOwn s (superAddr st ra j) 4 = true) →
    ∃ sups, superScales s st r ra n i = .ok sups ∧
      sups.map (fun p => p.1) = (List.range' i n).map (fun j => leWord 32 (ownBytes s (superAddr st ra j) 4))
  | 0, _, _ => ⟨[], rfl, rfl⟩
  | n + 1, i, h => by
    obtain ⟨aligned, own⟩ := h i (Nat.le_refl i) (by omega)
    obtain ⟨sups, read, same⟩ := superScales_ready r n (i + 1) (fun j hi hj => h j (by omega) (by omega))
    refine ⟨(leWord 32 (ownBytes s (superAddr st ra i) 4), keyScratch s.issue.core (wbits (superAddr st ra i) 0 22)) :: sups, ?_, ?_⟩
    · rw [superScales]
      simp only
      rw [if_neg (by simpa [recordAddr] using aligned), if_neg (by simpa [superAddr, recordAddr] using own), read]
      rfl
    · rw [List.map_cons, same, List.range'_succ, List.map_cons]

/-- A beat whose row can be read reads what `beatOf` gives. -/
theorem beatRead_ready {s : State} {r : BitVec 5} (h : BeatReady s r) : ∃ ks, beatRead s r = .ok { beatOf s r with keys := ks } := by
  obtain ⟨-, ra, hra, own, scales⟩ := h
  unfold beatRead beatOf
  simp only [streamRow_of_rowAddr r hra, own, not_true_eq_false, if_false, hra, Option.getD_some]
  by_cases q4n : stField (streamOf s r) 1 = 0x40
  · obtain ⟨sups, read, same⟩ := superScales_ready (s := s) (st := streamOf s r) r (ra := ra) 2 0
      (fun j _ hj => scales q4n j (by omega))
    simp only [if_pos q4n, read, same, List.range_eq_range']
    exact ⟨_, rfl⟩
  · simp only [if_neg q4n]
    exact ⟨_, rfl⟩

/-- A push of what a beat reads does not depend on the keys that were read. -/
theorem pushEffect_keys (s : State) (zero : Bool) (b : BeatRead) (ks : List (Nat × Nat)) :
    pushEffect s zero { b with keys := ks } = pushEffect s zero b := rfl

/-- Nor does a macc. -/
theorem maccEffect_keys (s : State) (row : Nat) (zero : Bool) (b : BeatRead) (ks : List (Nat × Nat)) :
    maccEffect s row zero { b with keys := ks } = maccEffect s row zero b := rfl

theorem queueOf_eq (r : BitVec 5) : queueOf r = r.setWidth 2 := BitVec.ofNat_toNat ..

/-! Beats (R195 to R199). -/

theorem exec_mpush_ready {f : MF} {s : State} (h : Executes s f.g []) (ho : s.src.owns = true) (hc : CodesGood s)
    (ready : BeatReady s f.a) (fits : PushFits s f.a f.z) :
    exec (.mpush f) s = .next (pushEffect (setStream s f.a (beatOf s f.a).st) f.z (beatOf s f.a)) := by
  obtain ⟨ks, read⟩ := beatRead_ready ready
  rw [exec_mpush, execMpush, slot_bare _ h, ringsOk_ready (by simpa using ready), fmtsOk_ready (by simpa using ready), owned_ok ho,
    pushOk_fits fits]
  simp only [need_ok, read, eccReads_good hc, pushEffect_keys, finish_ok]

theorem exec_mswap_owned {f : MF} {s : State} (h : Executes s f.g []) (ho : s.src.owns = true) :
    exec (.mswap f) s = .next (result (s.setRegs { s.me.r with arr := { s.me.r.arr with fill := 0 } }) .exchange
      (BitVec.allOnes 64) 0 0 2) := by
  rw [exec_mswap, execMswap, slot_bare _ h, owned_ok ho]
  rfl

theorem sources_executes {s : State} {g : BitVec 3} {rs : List (Ref × Bool)} (h : Executes s g (rs.map Prod.fst)) :
    sources s rs = .ok () := sources_full s rs h.2

theorem Executes.bare {s : State} {g : BitVec 3} {rs : List Ref} (h : Executes s g rs) : Executes s g [] :=
  ⟨h.1, fun _ hr => absurd hr List.not_mem_nil⟩

theorem exec_macc_ready {f : MF} {s : State} (h : Executes s f.g [.s f.b]) (ho : s.src.owns = true) (hc : CodesGood s)
    (row : RowGood s f.b) (ready : BeatReady s f.a) (fits : ActiveFits s f.a) :
    exec (.macc f) s
      = .next (maccEffect (setStream s f.a (beatOf s f.a).st) ((s.src.getS f.b).toNat % 256) f.z (beatOf s f.a)) := by
  obtain ⟨ks, read⟩ := beatRead_ready ready
  rw [exec_macc, execMacc, slot_bare _ h.bare, ringsOk_ready (by simpa using ready), sources_executes (rs := [(.s f.b, f.tb)]) h,
    fmtsOk_ready (by simpa using ready), owned_ok ho, rowOk_good row, activeOk_fits fits]
  simp only [need_ok, read, eccReads_good hc, rowRead_good row, ite_self, maccEffect_keys, finish_ok, rowIndex]

theorem exec_maccp_ready {f : MF} {s : State} (h : Executes s f.g [.s f.b]) (ho : s.src.owns = true) (hc : CodesGood s)
    (row : RowGood s f.b) (ready : BeatReady s f.a) (fits : ActiveFits s f.a) (pushReady : BeatReady s f.d)
    (pushFits : PushFits s f.d false) :
    exec (.maccp f) s = .next (pushEffect (maccEffect (setStream (setStream s f.a (beatOf s f.a).st) f.d (beatOf s f.d).st)
      ((s.src.getS f.b).toNat % 256) f.z (beatOf s f.a)) false (beatOf s f.d)) := by
  obtain ⟨ks, read⟩ := beatRead_ready ready
  obtain ⟨qs, pushRead⟩ := beatRead_ready pushReady
  rw [exec_maccp, execMaccp, slot_bare _ h.bare, ringsOk_ready (by simp [ready, pushReady]),
    sources_executes (rs := [(.s f.b, f.tb)]) h, fmtsOk_ready (by simp [ready, pushReady]), owned_ok ho, rowOk_good row,
    activeOk_fits fits, pushOk_fits pushFits]
  simp only [need_ok, read, pushRead, eccReads_good hc, rowRead_good row, ite_self, maccEffect_keys, pushEffect_keys, finish_ok,
    rowIndex]

theorem exec_mdrain_room {f : MF} {s : State} (h : Executes s f.g [.s f.a]) (ho : s.src.owns = true)
    (row : RowGood s f.a) (room : DrainRoom s (f.d.setWidth 2)) :
    exec (.mdrain f) s = .next (drainEffect s (f.d.setWidth 2) ((s.src.getS f.a).toNat % 256)) := by
  rw [exec_mdrain, execMdrain, slot_bare _ h.bare, sources_executes (rs := [(.s f.a, f.ta)]) h, owned_ok ho, rowOk_good row,
    queueOf_eq, drainOk_room room, rowRead_good row]
  rfl

theorem exec_mdrainp_ready {f : MF} {s : State} (h : Executes s f.g [.s f.a]) (ho : s.src.owns = true) (hc : CodesGood s)
    (row : RowGood s f.a) (room : DrainRoom s (f.d.setWidth 2)) (ready : BeatReady s f.b) (fits : PushFits s f.b f.z) :
    exec (.mdrainp f) s = .next (pushEffect (drainEffect (setStream s f.b (beatOf s f.b).st) (f.d.setWidth 2)
      ((s.src.getS f.a).toNat % 256)) f.z (beatOf s f.b)) := by
  obtain ⟨ks, read⟩ := beatRead_ready ready
  rw [exec_mdrainp, execMdrainp, slot_bare _ h.bare, ringsOk_ready (by simpa using ready),
    sources_executes (rs := [(.s f.a, f.ta)]) h, fmtsOk_ready (by simpa using ready), owned_ok ho, rowOk_good row, pushOk_fits fits]
  simp only [need_ok, read, queueOf_eq, drainOk_room room, eccReads_good hc, rowRead_good row, pushEffect_keys, finish_ok, rowIndex]

theorem exec_mclr_within {f : MF} {s : State} (h : Executes s f.g [.s f.a, .s f.b])
    (within : (s.src.getS f.a).toNat % 256 + (s.src.getS f.b).toNat % 512 ≤ 64 * s.me.acc) :
    exec (.mclr f) s = .next (if (s.src.getS f.b).toNat % 512 = 0 then s
      else result s (.rowClear ((s.src.getS f.a).toNat % 256) ((s.src.getS f.b).toNat % 512)) (BitVec.allOnes 64) 0 0 2) := by
  have fits : ¬ 64 * s.me.acc < rowIndex s f.a + (s.src.getS f.b).toNat % 512 := Nat.not_lt.2 within
  rw [exec_mclr, execMclr, slot_bare _ h.bare, sources_executes (rs := [(.s f.a, f.ta), (.s f.b, f.tb)]) h, need_ok]
  simp only
  rw [if_neg fits]
  split <;> rfl

/-! What a push leaves (R195). -/

/-- Digits of a number in mixed bases: one of base m over a rest. -/
theorem digit_and_rest {m a : Nat} (h : a < m) (b : Nat) : (a + m * b) % m = a ∧ (a + m * b) / m = b :=
  ⟨by rw [Nat.add_mul_mod_self_left, Nat.mod_eq_of_lt h], by rw [Nat.add_mul_div_left _ _ (by omega), Nat.div_eq_of_lt h, Nat.zero_add]⟩


theorem add_mul_lt_two_pow {n m a b : Nat} (ha : a < 2 ^ n) (hb : b < 2 ^ m) : a + 2 ^ n * b < 2 ^ (n + m) := by
  rw [Nat.pow_add]
  nlinarith

/-- The fields of a packed row above its bytes. -/
def WeightRow.top (w : WeightRow) : Nat := w.fmt.toNat + 2 ^ 32 * (w.sup0.toNat + 2 ^ 32 * w.sup1.toNat)

theorem WeightRow.top_lt (w : WeightRow) : w.top < 2 ^ 96 := by
  have hf := w.fmt.isLt
  have h0 := w.sup0.isLt
  have h1 := w.sup1.isLt
  unfold WeightRow.top
  omega

theorem WeightRow.pack_toNat (w : WeightRow) : w.pack.toNat = w.bytes.toNat + 2 ^ 1024 * w.top := by
  have fits := (add_mul_lt_two_pow w.bytes.isLt w.top_lt).trans_le (Nat.pow_le_pow_right Nat.two_pos (show 1024 + 96 ≤ 2048 by decide))
  exact (BitVec.toNat_ofNat ..).trans (Nat.mod_eq_of_lt fits)

/-- A weight row is what its latch carries (R195). -/
theorem WeightRow.unpack_pack (w : WeightRow) : WeightRow.unpack w.pack = w := by
  have hf := w.fmt.isLt
  have h0 := w.sup0.isLt
  have h1 := w.sup1.isLt
  obtain ⟨low, high⟩ := digit_and_rest w.bytes.isLt w.top
  have above (n : Nat) : w.pack.toNat / 2 ^ (1024 + n) = w.top / 2 ^ n := by
    rw [Nat.pow_add, ← Nat.div_div_eq_div_mul, w.pack_toNat, high]
  have fmt : BitVec.ofNat 8 (w.pack.toNat / 2 ^ 1024) = w.fmt := by
    apply BitVec.eq_of_toNat_eq
    rw [BitVec.toNat_ofNat, w.pack_toNat, high, WeightRow.top]
    omega
  have bytes : BitVec.ofNat 1024 w.pack.toNat = w.bytes := by
    apply BitVec.eq_of_toNat_eq
    rw [BitVec.toNat_ofNat, w.pack_toNat, low]
  have sup0 : BitVec.ofNat 32 (w.pack.toNat / 2 ^ 1056) = w.sup0 := by
    apply BitVec.eq_of_toNat_eq
    rw [BitVec.toNat_ofNat, above 32, WeightRow.top]
    omega
  have sup1 : BitVec.ofNat 32 (w.pack.toNat / 2 ^ 1088) = w.sup1 := by
    apply BitVec.eq_of_toNat_eq
    rw [BitVec.toNat_ofNat, above 64, WeightRow.top]
    omega
  rw [WeightRow.unpack, fmt, bytes, sup0, sup1]

/-- The latch of a push: its row of the shadow buffer, and with row 0 the format with which that buffer starts anew (R195). -/
theorem pushEffect_latch (s : State) (zero : Bool) (b : BeatRead) : ∃ l, (pushEffect s zero b).me.r.latches = s.me.r.latches ++ [l] ∧
    l.left = (if s.me.handler then 1 else 2) ∧ l.flags = 0 ∧
    l.dest = .shadow (if zero then 0 else s.src.arr.fill)
      (if (if zero then 0 else s.src.arr.fill) = 0 then some (BitVec.ofNat 8 b.fmt) else none) ∧
    WeightRow.unpack l.value = { fmt := BitVec.ofNat 8 b.fmt, bytes := BitVec.ofNat 1024 b.run, sup0 := (b.sups[0]?).getD 0,
                                 sup1 := (b.sups[1]?).getD 0 } := by
  unfold pushEffect pushRow
  simp only [result_me, State.me_setRegs, latch_keeps, latency]
  exact ⟨_, rfl, rfl, rfl, rfl, WeightRow.unpack_pack _⟩

theorem pushEffect_fill (s : State) (zero : Bool) (b : BeatRead) :
    (pushEffect s zero b).me.r.arr.fill = (if zero then 0 else s.src.arr.fill) + 1 ∧
    ((if zero then 0 else s.src.arr.fill) = 0 → (pushEffect s zero b).me.r.arr.pfmt = some (BitVec.ofNat 8 b.fmt)) := by
  unfold pushEffect pushRow
  simp only [result_me, State.me_setRegs, latch_keeps]
  exact ⟨trivial, fun h => if_pos h⟩

/-- A row that lands goes to the buffer that is the shadow at that moment (R195). -/
theorem land_shadow (r : Regs) (l : Latch) (j : BitVec 6) (f : Option Byte) (h : l.dest = .shadow j f) :
    (r.land l).arr = r.arr.push j f (WeightRow.unpack l.value) := by
  simp only [Regs.land, Regs.write, h]
  rfl

/-! What a macc and a drain leave (R142, R197, R198). -/

theorem maccEffect_result (s : State) (row : Nat) (zero : Bool) (b : BeatRead) :
    ∃ x, (∀ j, j < 64 → lane x j = columnValue (if zero then none else some (lane (accRowOf s row) j))
        (List.zipWith groupValue (rowGroups b.fmt b.run b.sups ((beatDepth b.fmt).getD 0))
          (weightGroups s.src.arr.active.1 ((beatDepth b.fmt).getD 0) j))) ∧
      maccEffect s row zero b = result s (.accRow row) (BitVec.allOnes 64) x 0 72 := by
  refine ⟨_, fun j hj => ?_, rfl⟩
  rw [maccRow, lane_ofLanes _ j hj]
  cases zero <;> rfl

theorem drainEffect_entry (s : State) (q : BitVec 2) (row : Nat) :
    rget (drainEffect s q row).me.r.rq q = rget s.me.r.rq q ++ [none] ∧
    ∃ l, (drainEffect s q row).me.r.latches = s.me.r.latches ++ [l] ∧ l.dest = .queue q ∧ l.value = accRowOf s row ∧
      l.left = (if s.me.handler then 1 else 8) := by
  unfold drainEffect
  simp only [result_me, State.me_setRegs, latch_keeps, rget_rset_same, latency]
  exact ⟨trivial, _, rfl, rfl, rfl, rfl⟩

/-! Ownership (R141, R200, R367). -/

/-- With no other context waiting as it became free, the array goes to the one that asks (R200). -/
theorem arrayHeir_alone {s : State} {c : CoreId} {me : CtxId} (h : ∀ x, x ≠ me → arrayCandidate s c me x = false) :
    arrayHeir s c me = me := by
  unfold arrayHeir
  simp only
  cases found : ([(s.core c).arrayLast + 1, (s.core c).arrayLast + 2, (s.core c).arrayLast + 3, (s.core c).arrayLast].find?
      (arrayCandidate s c me)) with
  | none => rfl
  | some x => exact by_contra fun hx => ne_true_of_eq_false (h x hx) (List.find?_some found)

theorem exec_mownAcquire_cases {f : MF} {s : State} (h : Executes s f.g []) :
    (arrayOwner (s.core s.issue.core) = none →
      (∀ x, x ≠ s.issue.ctx → arrayCandidate s s.issue.core s.issue.ctx x = false) →
      exec (.mownAcquire f) s = .next (s.setRegs s.me.r.takeArray)) ∧
    (arrayOwner (s.core s.issue.core) = some s.issue.ctx → exec (.mownAcquire f) s = .next (if s.me.r.owns then s
      else s.setRegs s.me.r.takeArray)) ∧
    (∀ x, arrayOwner (s.core s.issue.core) = some x → x ≠ s.issue.ctx → exec (.mownAcquire f) s
      = .next ((s.setMe { s.me with arrayWait := s.me.arrayWait.or (some s.cycle) }).verdict .held)) := by
  rw [exec_mownAcquire, execMownAcquire, slot_bare _ h]
  refine ⟨fun free alone => ?_, fun mine => ?_, fun x other hx => ?_⟩
  · simp only [free, arrayHeir_alone alone, if_true, finish_ok]
  · simp only [mine, ne_eq, not_true_eq_false, if_false, finish_ok]
  · simp only [other, ne_eq, hx, not_false_eq_true, if_true]
    rfl

theorem settleArray_latches (r : Regs) : r.settleArray.latches = r.latches := by unfold Regs.settleArray; split <;> rfl
theorem settleArray_rows (r : Regs) : r.settleArray.rows = r.rows := by unfold Regs.settleArray; split <;> rfl
theorem settleArray_owns (r : Regs) : r.settleArray.owns = r.owns := by unfold Regs.settleArray; split <;> rfl

/-- A release: drains in flight still land, rows stay, and with no drain in flight the array is clear at once (R141). -/
theorem releaseArray_leaves (r : Regs) : r.releaseArray.owns = false ∧ r.releaseArray.rows = r.rows ∧
    (∀ l ∈ r.latches, l.beat = false → l ∈ r.releaseArray.latches) ∧
    ((∀ l ∈ r.latches, l.drains = false) → r.releaseArray.arr = ArrayState.clear) := by
  refine ⟨settleArray_owns _, settleArray_rows _, fun l hl hb => ?_, fun none => ?_⟩
  · rw [Regs.releaseArray, settleArray_latches]
    exact List.mem_filter.2 ⟨hl, by simp [hb]⟩
  · have landed : (r.latches.filter (fun l => !l.beat)).any Latch.drains = false :=
      List.any_eq_false.2 (fun l hl => ne_true_of_eq_false (none l (List.mem_of_mem_filter hl)))
    rw [Regs.releaseArray, Regs.settleArray, if_pos (by simp [landed])]
    rfl

theorem exec_mownRelease_cases {f : MF} {s : State} (h : Executes s f.g []) :
    exec (.mownRelease f) s = .next (if s.me.r.owns then s.setMe { s.me with r := s.me.r.releaseArray, arrayKept := true } else s) := by
  rw [exec_mownRelease, execMownRelease, slot_bare _ h, finish_ok]

/-- Settles O14: the beats by their lemmas, whose checks the premises pass one after the other; the effects by what each latches. -/
theorem arrayBeats : Obligations.ArrayBeats := by
  refine ⟨fun f s h ho hc => ⟨exec_mpush_ready h ho hc, exec_mswap_owned h ho⟩,
    fun f s h ho hc row ready fits => ⟨exec_macc_ready h ho hc row ready fits, exec_maccp_ready h ho hc row ready fits⟩,
    fun f s h ho hc row room => ⟨exec_mdrain_room h ho row room, exec_mdrainp_ready h ho hc row room⟩,
    fun f s h => exec_mclr_within h, fun s zero b => ?_, fun r l j f hd => ⟨fun shadow => ?_, fun shadow => ?_⟩, maccEffect_result,
    drainEffect_entry, fun f s h => ?_, fun f s h => ⟨fun owns => ?_, fun owns => ?_⟩⟩
  · obtain ⟨fill, pfmt⟩ := pushEffect_fill s zero b
    exact ⟨fill, pfmt, pushEffect_latch s zero b⟩
  · rw [land_shadow r l j f hd, ArrayState.push, if_neg (ne_true_of_eq_false shadow)]
  · rw [land_shadow r l j f hd, ArrayState.push, if_pos shadow]
  · obtain ⟨free, mine, other⟩ := exec_mownAcquire_cases h
    exact ⟨fun none alone => ⟨free none alone, rfl, rfl⟩, mine, fun x hx hne => ⟨_, other x hx hne, rfl⟩⟩
  · obtain ⟨given, rows, drains, clear⟩ := releaseArray_leaves s.me.r
    exact ⟨by rw [exec_mownRelease_cases h, if_pos owns], given, rows, fun l hl _ => drains l hl, clear⟩
  · rw [exec_mownRelease_cases h, if_neg (ne_true_of_eq_false owns)]

end Sys2Proof.Machine

namespace Sys2Proof.Machine

/-! What the movements of bytes leave: reads, write-backs, drained gates, budgets spent and words written at an owner point change memory,
near caches, gates and the samples of pending loads, and no place, queue, job, register, engine or team. -/

theorem SamePlaces.partOf {s t : State} (h : SamePlaces s t) (d : CoreId) : t.partOf d = s.partOf d := by
  simp only [State.partOf, State.partOfQuad, h.2.1]

/-- Under the same table and with the same cores left out, the bytes of an access lie in the same place. -/
theorem SamePlaces.place {s t : State} (h : SamePlaces s t) (c : CoreId) (acc : Access) (va : W64) (n : Nat) :
    place t c acc va n = place s c acc va n := by
  have part := h.partOf
  obtain ⟨out, -, parts⟩ := h
  have byte (p : PartId) : placeByteIn t p c acc = placeByteIn s p c acc := by
    funext va
    simp only [placeByteIn, part, out, (parts _).1, (parts _).2]
  have zones : zone t = zone s := by
    funext p va
    simp only [zone, (parts _).2]
  rw [Machine.place, Machine.place, placeIn, placeIn, zones, byte, State.partIdOf, State.partIdOf, part]

/-- A context without its gates and without what its pending operations have sampled. -/
def Ctx.still (y : Ctx) : Ctx := { y with gate := [], hgate := [], ops := [] }

/-- A core without what the movements of bytes may change of it. -/
def Core.still (k : Core) : Core := { k.bare with ctx := k.ctx.map Ctx.still }

/-- The fields outside the cores that the movements of bytes leave, with the context in whose name they are made. -/
def State.outer (s : State) := (s.issue.core, s.issue.ctx, s.cycle, s.poison, s.teams, s.transfers)

/-- State t comes from state s by movements of bytes. -/
structure Moves (s t : State) : Prop where
  cores : ∀ d, (t.core d).still = (s.core d).still
  places : SamePlaces s t
  outer : t.outer = s.outer
  codes : s.ecc = [] → t.ecc = []

namespace Moves
variable {s t u : State}

theorem refl (s : State) : Moves s s := ⟨fun _ => rfl, SamePlaces.refl s, rfl, id⟩

theorem trans (h : Moves s t) (g : Moves t u) : Moves s u :=
  ⟨fun d => (g.cores d).trans (h.cores d), h.places.trans g.places, g.outer.trans h.outer, fun e => g.codes (h.codes e)⟩

theorem foldl {β : Type} {f : State → β → State} (h : ∀ s b, Moves s (f s b)) : ∀ (l : List β) (s : State), Moves s (l.foldl f s)
  | [], s => refl s
  | b :: l, s => (h s b).trans (foldl h l (f s b))

theorem setCore (s : State) (c : CoreId) (k : Core) (h : k.still = (s.core c).still) : Moves s (s.setCore c k) := by
  refine ⟨fun d => ?_, samePlaces_setCore s c k (congrArg Core.out h :), rfl, id⟩
  by_cases hd : d = c
  · subst hd; rw [State.core_setCore_same, h]
  · rw [State.core_setCore_ne _ _ _ _ hd]

theorem setCtx (s : State) (c : CoreId) (x : CtxId) (y : Ctx) (h : y.still = (s.ctx c x).still) : Moves s (s.setCtx c x y) := by
  refine setCore s c _ ?_
  have ctx : ((s.core c).ctx.set x.val y x.isLt).map Ctx.still = (s.core c).ctx.map Ctx.still := by
    apply Vector.ext
    intro i hi
    rw [Vector.getElem_map, Vector.getElem_map, Vector.getElem_set]
    split
    · next e => subst e; exact h
    · rfl
  rw [Core.still, Core.still, ← ctx]
  rfl

theorem issuer (h : Moves s t) : t.issue.core = s.issue.core ∧ t.issue.ctx = s.issue.ctx :=
  ⟨congrArg (·.1) h.outer, congrArg (·.2.1) h.outer⟩
theorem cycle (h : Moves s t) : t.cycle = s.cycle := congrArg (·.2.2.1) h.outer
theorem poison (h : Moves s t) : t.poison = s.poison := congrArg (·.2.2.2.1) h.outer
theorem teams (h : Moves s t) : t.teams = s.teams := congrArg (·.2.2.2.2.1) h.outer
theorem transfers (h : Moves s t) : t.transfers = s.transfers := congrArg (·.2.2.2.2.2) h.outer

theorem ctx (h : Moves s t) (c : CoreId) (x : CtxId) : (t.ctx c x).still = (s.ctx c x).still := by
  have e := congrArg (fun k : Core => k.ctx[x.val]'x.isLt) (h.cores c)
  simp only [Core.still, Vector.getElem_map] at e
  exact e

theorem me (h : Moves s t) : t.me.still = s.me.still := by
  rw [State.me, State.me, h.issuer.1, h.issuer.2]
  exact h.ctx ..

theorem eng (h : Moves s t) : t.eng = s.eng := by
  rw [State.eng, State.eng, h.issuer.1, h.issuer.2]
  have e := congrArg (fun k : Core => k.engine[s.issue.ctx.val]'s.issue.ctx.isLt) (h.cores s.issue.core)
  exact e

theorem place (h : Moves s t) (c : CoreId) (acc : Access) (va : W64) (n : Nat) : place t c acc va n = place s c acc va n :=
  h.places.place c acc va n

theorem partIdOf (h : Moves s t) (c : CoreId) : t.partIdOf c = s.partIdOf c := by
  rw [State.partIdOf, State.partIdOf, h.places.partOf]

/-- The task queue of a core, and what decides where a push to it goes. -/
theorem queue (h : Moves s t) (c : CoreId) : (t.core c).queue = (s.core c).queue ∧ (t.core c).spillCount = (s.core c).spillCount ∧
    (t.core c).heldPushes = (s.core c).heldPushes ∧ (t.core c).freshAt = (s.core c).freshAt ∧ (t.core c).fresh = (s.core c).fresh ∧
    (t.core c).spillSize = (s.core c).spillSize :=
  ⟨(congrArg Core.queue (h.cores c) :), (congrArg Core.spillCount (h.cores c) :), (congrArg Core.heldPushes (h.cores c) :),
    (congrArg Core.freshAt (h.cores c) :), (congrArg Core.fresh (h.cores c) :), (congrArg Core.spillSize (h.cores c) :)⟩

theorem setPart (s : State) (p : PartId) (k : Part) (h : SamePlaces s (s.setPart p k)) : Moves s (s.setPart p k) :=
  ⟨fun _ => rfl, h, rfl, id⟩

theorem spendMem (s : State) (p : PartId) (bs : List Nat) : Moves s (spendMem s p bs) := by
  refine ⟨fun d => ?_, samePlaces_spendMem s p bs, ?_, ?_⟩ <;> unfold Machine.spendMem <;> simp only
  · split
    · rfl
    · split <;> rfl
  · split
    · rfl
    · split <;> rfl
  · split
    · exact id
    · split <;> exact id

theorem mergeAt (s : State) (k : Nat) (bs : List (Option Byte)) : Moves s (s.mergeAt k bs) :=
  ⟨fun _ => rfl, ⟨fun _ => rfl, rfl, fun _ => ⟨rfl, rfl⟩⟩, rfl, fun e => by rw [State.mergeAt, e]; rfl⟩

theorem writeAt (s : State) (k : Nat) (bs : List Byte) : Moves s (s.writeAt k bs) :=
  ⟨fun _ => rfl, ⟨fun _ => rfl, rfl, fun _ => ⟨rfl, rfl⟩⟩, rfl, fun e => by rw [State.writeAt, e]; rfl⟩

theorem pairPut (s : State) (k : Nat) (a b : W64) : Moves s (pairPut s k a b) := writeAt s k _

theorem writeBack (s : State) (c : CoreId) (l : NearLine) : Moves s (writeBack s c l) := by
  unfold Machine.writeBack
  split
  · exact refl s
  · split
    · exact (spendMem s _ _).trans (mergeAt _ _ _)
    · exact refl s

theorem nearPut (s : State) (c : CoreId) (l : NearLine) : Moves s (nearPut s c l) := by
  unfold Machine.nearPut
  simp only
  split
  · exact (writeBack s c _).trans (setCore _ c _ rfl)
  · exact setCore s c _ rfl

theorem nearWriteBack (s : State) (c : CoreId) (sel : W64 → Bool) : Moves s (nearWriteBack s c sel) := by
  refine foldl (fun t l => ?_) _ s
  split
  · exact (writeBack t c l).trans (setCore _ c _ rfl)
  · exact refl t

theorem nearDrop (s : State) (c : CoreId) (va : W64) : Moves s (nearDrop s c va) := by
  unfold Machine.nearDrop
  split
  · exact refl s
  · exact (writeBack s c _).trans (setCore _ c _ rfl)

theorem release (s : State) (c : CoreId) (scope : Nat) (sel : W64 → Bool) : Moves s (release s c scope sel) := by
  unfold Machine.release
  split
  · exact refl s
  · exact nearWriteBack s c _

theorem performLine (s : State) (c : CoreId) (l : GateLine) : Moves s (performLine s c l) := by
  unfold Machine.performLine
  split
  · exact refl s
  · split
    · exact nearPut s c _
    · exact (spendMem s _ _).trans (mergeAt _ _ _)

theorem drainGate (s : State) (c : CoreId) (x : CtxId) : Moves s (drainGate s c x) := by
  unfold Machine.drainGate
  exact (foldl (fun t l => performLine t c l) _ s).trans (setCtx _ c x _ rfl)

theorem drainHandler (s : State) (c : CoreId) (x : CtxId) : Moves s (drainHandler s c x) := by
  unfold Machine.drainHandler
  exact (foldl (fun t l => performLine t c l) _ s).trans (setCtx _ c x _ rfl)

theorem drainStores (s : State) (c : CoreId) (x : CtxId) : Moves s (drainStores s c x) := by
  have sample : Moves s (sampleLoads s c x) := setCtx s c x _ rfl
  unfold Machine.drainStores
  simp only
  split
  · exact sample.trans (drainHandler _ c x)
  · exact sample.trans (drainGate _ c x)

theorem drainMe (s : State) : Moves s (drainMe s) :=
  have h := drainStores s s.issue.core s.issue.ctx
  ⟨h.cores, h.places, h.outer, h.codes⟩

theorem ownerTaken (s : State) (va : W64) (p : Place) : Moves s (ownerTaken s va p) := by
  unfold Machine.ownerTaken
  split
  · exact (nearDrop s _ va).trans (spendMem _ _ _)
  · exact spendMem s _ _

theorem blockTaken (s : State) (va : W64) (n : Nat) (p : Place) : Moves s (blockTaken s va n p) := by
  unfold Machine.blockTaken
  split
  · exact refl s
  · exact spendMem s _ _

theorem counted (s : State) (w1 : W64) : Moves s (counted s w1) := by
  unfold Machine.counted
  split
  · exact refl s
  · split
    · exact (ownerTaken s w1 _).trans (pairPut _ _ _ _)
    · exact refl s

end Moves

end Sys2Proof.Machine

namespace Sys2Proof.Machine

/-! Reads at issue and read-modify-writes at an owner point whose conditions hold (R203, R205, R230, R240, R248, R386). -/

theorem doubleAt_good {s : State} (h : CodesGood s) (k n : Nat) : doubleAt s k n = none := if_pos (by rw [show s.ecc = [] from h]; rfl)

theorem ownerRead_good {s : State} (hc : CodesGood s) (hp : s.poison = []) (va : W64) (k n : Nat) : ownerRead s va k n = .ok s := by
  have read : eccRead s k n = .ok s := if_pos (by rw [show s.ecc = [] from hc]; rfl)
  have fine : uncorrectable s k n = false := by simp [uncorrectable, doubleAt_good hc, hp]
  unfold ownerRead
  split
  · exact read
  · rw [if_neg (ne_true_of_eq_false fine)]

theorem Moves.codesGood {s t : State} (h : Moves s t) (hc : CodesGood s) : CodesGood t := h.codes hc

theorem memHold_taken {s : State} {p : Place} {n : Nat} (h : MemTaken s p n) : memHold s (p.blocks n) = .ok () := if_pos h

theorem readBlock_ready {s : State} {va : W64} {n : Nat} {p : Place} (h : BlockReady s va n p) :
    readBlock s va n = .ok (blockTaken s va n p) := by
  obtain ⟨hp, bar, ready⟩ := h
  unfold readBlock placed
  simp only [hp, bar]
  by_cases near : (p.cached && nearHas (s.core s.issue.core) va n) = true
  · rw [if_pos near, blockTaken, if_pos near]
  · obtain ⟨taken, good, clean⟩ := ready.resolve_left (by simpa [Bool.and_eq_true] using near)
    have spent := Moves.spendMem s (s.partIdOf s.issue.core) (p.blocks n)
    rw [if_neg near, blockTaken, if_neg near, memHold_taken taken, need_ok,
      ownerRead_good (spent.codesGood good) (spent.poison.trans clean)]

theorem checkRecord_fits {s : State} {va : W64} {p : Place} {w : File 3 W64} (h : RecordFits s va p w) :
    checkRecord s va = .ok (blockTaken s va 64 p, w) := by
  obtain ⟨aligned, high, ready, rfl, good, alone⟩ := h
  unfold checkRecord
  rw [if_neg (by simp [aligned, high]), readBlock_ready ready]
  simp only [good, alone, Bool.false_eq_true, if_false]

/-- The place of the 16 bytes at their owner point: the near-cache line is gone. -/
theorem atOwner_placed {s : State} {c : CoreId} {va : W64} {p : Place} (hc : classOf va ≠ 1) (hp : place s c .atomic va 16 = .ok p) :
    atOwner s c .atomic va 16 = .ok (if p.cached then nearDrop s c va else s, p.key) := by
  unfold atOwner
  rw [if_neg (fun h => hc h.2), hp]

theorem pairHere_ready {s : State} {va : W64} {p : Place} (k : State → Nat → Except Stop State) (h : OwnerReady s va p) :
    pairHere s va k = k (ownerTaken s va p) p.key := by
  obtain ⟨hc, hp, taken, good, clean⟩ := h
  have dropped : Moves s (if p.cached then nearDrop s s.issue.core va else s) := by
    split
    · exact Moves.nearDrop s _ va
    · exact Moves.refl s
  unfold pairHere
  rw [atOwner_placed hc hp]
  simp only
  rw [show keyBlocks p.key 16 = p.blocks 16 from rfl, memHold_taken taken, need_ok, ownerRead_good (dropped.codesGood good) (dropped.poison.trans clean)]
  simp only
  rw [dropped.issuer.1, dropped.partIdOf]
  rfl

theorem owned16_ready {s : State} {va : W64} {p : Place} (k : State → Nat → Except Stop State) (aligned : va.toNat % 16 = 0)
    (h : OwnerReady s va p) : owned16 s va k = k (ownerTaken s va p) p.key := by
  rw [owned16, alignTo, if_pos aligned, need_ok, pairHere_ready k h]

theorem countUp_fits {s : State} {w1 : W64} (h : CounterFits s w1) : countUp s w1 = .ok (counted s w1) := by
  unfold countUp counted
  by_cases zero : w1 = 0
  · rw [if_pos zero, if_pos zero]
  · obtain ⟨p, ready⟩ := h.resolve_left zero
    rw [if_neg zero, if_neg zero, pairHere_ready _ ready]
    obtain ⟨-, hp, -⟩ := ready
    rw [hp]

theorem podClear_done {s : State} {scope : Nat} (h : FabricDone s scope) : podClear s scope = .ok () := by
  refine if_neg (fun ⟨h5, open'⟩ => ?_)
  obtain ⟨copies, answered⟩ := h h5
  have idle : s.eng.copies.any (fun k => k.xfer.isSome) = false := List.any_eq_false.2 (fun k hk => by simp [copies k hk])
  rw [idle, answered] at open'
  exact absurd open' (by simp)

theorem Moves.fabricDone {s t : State} (h : Moves s t) {scope : Nat} (done : FabricDone s scope) : FabricDone t scope := fun h5 => by
  rw [h.eng, unanswered, h.transfers, h.issuer.1, h.issuer.2]
  exact done h5

/-! Pushes to a queue with room (R126 to R128). -/

theorem Moves.queueRoom {s t : State} (h : Moves s t) {c : CoreId} (room : QueueRoom s c) : QueueRoom t c := by
  obtain ⟨queue, spilled, held, -⟩ := h.queue c
  rw [QueueRoom, queue, spilled, held]
  exact room

theorem Moves.queueFull {s t : State} (h : Moves s t) {c : CoreId} (full : QueueFull s c) : QueueFull t c := by
  obtain ⟨queue, -, held, at', fresh, size⟩ := h.queue c
  rw [QueueFull, spillEntries, queue, held, at', fresh, size, h.cycle]
  exact full

theorem entryAt_inside {s : State} {c : CoreId} {i : Nat} {e : W64} (h : (s.core c).queue[i]? = some e) : entryAt s c i = e := by
  rw [entryAt, h, Option.getD_some]

theorem putEntryAt_inside {s : State} {c : CoreId} {i : Nat} (e : W64) (h : i < (s.core c).queue.length) :
    putEntryAt s c i e = s.setCore c { s.core c with queue := (s.core c).queue.set i e } := if_pos h

/-- Two neighbours of the hardware queue exchanged. -/
theorem exchange_queue {s : State} {c : CoreId} {p d : List W64} {x e : W64} (h : (s.core c).queue = p ++ x :: e :: d) :
    let u := putEntryAt (putEntryAt s c (p.length + 1) (entryAt s c p.length)) c p.length (entryAt s c (p.length + 1))
    u.core c = { s.core c with queue := p ++ e :: x :: d } ∧ u.mem = s.mem := by
  have first : (s.core c).queue[p.length]? = some x := by simp [h]
  have second : (s.core c).queue[p.length + 1]? = some e := by simp [h]
  have inside : p.length + 1 < (s.core c).queue.length := by simp [h]
  have swapped : ((s.core c).queue.set (p.length + 1) x).set p.length e = p ++ e :: x :: d := by simp [h]
  simp only [entryAt_inside first, entryAt_inside second, putEntryAt_inside _ inside]
  rw [putEntryAt_inside _ (by rw [State.core_setCore_same, List.length_set]; omega), State.core_setCore_same, State.core_setCore_same,
    swapped]
  exact ⟨rfl, rfl⟩

/-- An entry of the hardware queue moves up by exchanges with the entries before it. -/
theorem moveUp_queue (c : CoreId) (e : W64) (a : List W64) (b : List W64) : ∀ (d : List W64) (s : State),
    (s.core c).queue = a ++ b ++ e :: d →
    (moveUp c b.length (a ++ b).length s).core c = { s.core c with queue := a ++ e :: (b ++ d) } ∧
    (moveUp c b.length (a ++ b).length s).mem = s.mem := by
  induction b using List.reverseRecOn with
  | nil =>
    intro d s h
    rw [List.append_nil] at h
    rw [List.nil_append, ← h]
    exact ⟨rfl, rfl⟩
  | append_singleton b x ih =>
    intro d s h
    obtain ⟨core, mem⟩ := exchange_queue (p := a ++ b) (x := x) (e := e) (d := d) (h.trans (by simp))
    obtain ⟨core', mem'⟩ := ih (x :: d) _ (congrArg Core.queue core)
    rw [← List.append_assoc, List.length_append, List.length_append (as := a ++ b), List.length_singleton, moveUp, Nat.add_sub_cancel]
    refine ⟨core'.trans ?_, mem'.trans mem⟩
    rw [core, List.append_assoc b [x] d]
    rfl

/-- What a push makes of an entry that has its place at the tail: it moves up past those of later pushers of the same cycle (R126). -/
theorem push_placed {s t : State} {c : CoreId} {w : Pusher} {e : W64} (h : pushPlace s c w e = .ok t) :
    ∃ m u, push s c w e = .ok (moveUp c m (queueLength (t.core c) - 1) u) ∧ m ≤ queueLength (t.core c) - 1 ∧
      ((t.core c).freshAt ≠ s.cycle → m = 0) ∧ (u.core c).queue = (t.core c).queue ∧ (u.core c).spillCount = (t.core c).spillCount ∧
      (u.core c).heldPushes = (t.core c).heldPushes ∧ u.mem = t.mem := by
  unfold push
  rw [h]
  refine ⟨_, _, rfl, Nat.min_le_right .., fun stale => ?_, ?_, ?_, ?_, rfl⟩
  · rw [if_neg stale, List.filter_nil, List.length_nil, Nat.zero_min]
  all_goals rw [State.core_setCore_same]

/-- A push to a queue with room: the entry at the tail, but before those of later pushers of the same cycle (R126). -/
theorem push_room {s : State} {c : CoreId} (w : Pusher) (e : W64) (room : QueueRoom s c) :
    ∃ t, push s c w e = .ok t ∧ Pushed s t c e ∧ t.mem = s.mem := by
  obtain ⟨short, spilled, held⟩ := room
  have place : pushPlace s c w e = .ok (s.setCore c { s.core c with queue := (s.core c).queue ++ [e] }) := by
    rw [pushPlace, pushTail_room ⟨short, spilled⟩]
  obtain ⟨m, u, pushed, most, stale, queue, spill, waiting, mem⟩ := push_placed place
  rw [State.core_setCore_same] at pushed most stale queue spill waiting
  have last : queueLength { s.core c with queue := (s.core c).queue ++ [e] } - 1 = (s.core c).queue.length := by
    simp [queueLength, spilled]
  rw [last] at pushed most
  have split := List.take_append_drop ((s.core c).queue.length - m) (s.core c).queue
  have tail : ((s.core c).queue.drop ((s.core c).queue.length - m)).length = m := by rw [List.length_drop]; omega
  have moved := moveUp_queue c e _ _ [] u (by rw [split]; exact queue)
  rw [tail, split] at moved
  obtain ⟨core, mem'⟩ := moved
  refine ⟨_, pushed, ⟨⟨_, _, split.symm, ?_, fun h => ?_⟩, ?_, ?_⟩, mem'.trans mem⟩
  · rw [core, List.append_nil]
  · rw [stale h, Nat.sub_zero, List.drop_length]
  · rw [core]; exact spill.trans spilled
  · rw [core]; exact waiting.trans held

theorem pushAfterHeld_push {s : State} {c : CoreId} (w : Pusher) (e : W64) (spilled : (s.core c).spillCount = 0 ∨ spillEntries (s.core c) = 0)
    (held : (s.core c).heldPushes = []) : pushAfterHeld s c w e = push s c w e := by
  have refilled : refill 32 s c = s := by
    rw [refill, if_pos (spilled.imp_right .inr)]
  simp only [pushAfterHeld, refilled, held, List.length_nil, retryHeld]

/-- A push to a full queue with no ring fails (R127). -/
theorem push_full {s : State} {c : CoreId} (w : Pusher) (e : W64) (full : QueueFull s c) : push s c w e = .error .full := by
  obtain ⟨long, ring, -, last⟩ := full
  have tail : pushTail s c e = .error .full := by
    unfold pushTail
    simp only
    rw [if_neg (by omega), if_neg (by omega)]
  have stays : ¬((s.core c).freshAt = s.cycle ∧ (s.core c).fresh.getLast? = some Pusher.device.rank ∧ w.rank < Pusher.device.rank ∧
      queueLength (s.core c) ≠ 0) := fun h => last h.1 h.2.1
  simp only [push, pushPlace, tail, if_neg stays]

end Sys2Proof.Machine

namespace Sys2Proof.Machine

/-! Records pushed (R121, R124, R204, R205, R257, R262). -/

/-- The push of a record, as its instruction makes it when the release is done in state t. -/
def recordPush (s t : State) (va : W64) (c : CoreId) (w : Pusher) (scope : Nat) : Except PushFail State :=
  pushAfterHeld (release t s.issue.core scope everyByte) c w (queueEntry (nameOf s.issue.core va) false scope s.issue.core false)

/-- A record that fits, in the words of its instruction: the push is tried before the counter counts, and made after (R205). -/
theorem pushRecord_fits {s : State} {va : W64} {p : Place} {w : File 3 W64} (c : CoreId) (by' : Pusher) {scope : Nat}
    (fits : RecordFits (drainMe s) va p w) (done : FabricDone s scope) :
    pushRecord s va c by' scope = match pushCheck (drainMe s) c (recordPush s (blockTaken (drainMe s) va 64 p) va c by' scope) with
      | .error e => .error e
      | .ok _ => match countUp (blockTaken (drainMe s) va 64 p) (recWord w 1) with
        | .error e => .error e
        | .ok t => pushCheck (drainMe s) c (recordPush s t va c by' scope) := by
  have drained := Moves.drainMe s
  simp only [pushRecord, podClear_done (drained.fabricDone done), checkRecord_fits fits, need_ok, recordPush, drained.issuer.1] <;> rfl

theorem recordPush_room {s t : State} (va : W64) {c : CoreId} (w : Pusher) (scope : Nat) (moved : Moves s t) (room : QueueRoom s c) :
    ∃ u, recordPush s t va c w scope = .ok u ∧
      Pushed s u c (queueEntry (nameOf s.issue.core va) false scope s.issue.core false) ∧
      u.mem = (release t s.issue.core scope everyByte).mem := by
  have released := moved.trans (Moves.release t s.issue.core scope everyByte)
  obtain ⟨queue, spill, held, at', -⟩ := released.queue c
  have room' := released.queueRoom room
  obtain ⟨u, pushed, ⟨⟨l, m, old, new, stale⟩, rest⟩, mem⟩ :=
    push_room w (queueEntry (nameOf s.issue.core va) false scope s.issue.core false) room'
  refine ⟨u, ?_, ⟨⟨l, m, queue.symm.trans old, new, fun h => stale ?_⟩, rest⟩, mem⟩
  · rw [recordPush, pushAfterHeld_push w _ (.inl room'.2.1) room'.2.2, pushed]
  · rw [at', released.cycle]; exact h

theorem recordPush_full {s t : State} (va : W64) {c : CoreId} (w : Pusher) (scope : Nat) (moved : Moves s t) (full : QueueFull s c) :
    recordPush s t va c w scope = .error .full := by
  have full' := (moved.trans (Moves.release t s.issue.core scope everyByte)).queueFull full
  rw [recordPush, pushAfterHeld_push w _ (.inr full'.2.1) full'.2.2.1, push_full w _ full']

section
variable {s : State} {va : W64} {p : Place} {w : File 3 W64} {c : CoreId} {scope : Nat} (by' : Pusher)
  (fits : RecordFits (drainMe s) va p w) (done : FabricDone s scope)
include fits done

/-- A record pushed to a queue with room (R205): the counter counts, the release is made, the entry takes its place. -/
theorem pushRecord_room {u : State} (hu : u = blockTaken (drainMe s) va 64 p) (room : QueueRoom s c)
    (counter : CounterFits u (recWord w 1)) : ∃ t, pushRecord s va c by' scope = .ok t ∧
    Pushed s t c (queueEntry (nameOf s.issue.core va) false scope s.issue.core false) ∧
    t.mem = (release (counted u (recWord w 1)) s.issue.core scope everyByte).mem := by
  subst hu
  have moved := (Moves.drainMe s).trans (Moves.blockTaken (drainMe s) va 64 p)
  obtain ⟨_, tried, -⟩ := recordPush_room va by' scope moved room
  obtain ⟨t, made, pushed⟩ := recordPush_room va by' scope (moved.trans (Moves.counted _ (recWord w 1))) room
  refine ⟨t, ?_, pushed⟩
  rw [pushRecord_fits c by' fits done, tried, countUp_fits counter]
  simp only [pushCheck, made]

/-- A record whose target queue is full with no ring: QOVF before anything counts (R127, R205). -/
theorem pushRecord_full (full : QueueFull s c) : pushRecord s va c by' scope = .error (.trap .qovf (taskQovf c)) := by
  have moved := (Moves.drainMe s).trans (Moves.blockTaken (drainMe s) va 64 p)
  rw [pushRecord_fits c by' fits done, recordPush_full va by' scope moved full]
  rfl

end

/-- The test of the target core of a qpush (R204). -/
theorem qpushOk_iff (s : State) (b : W64) : qpushOk s b = true ↔ wbits b 9 55 = 0 ∧ (s.core (qpushCore b)).out = false ∧
    (s.partOf (qpushCore b)).isSome = true ∧ s.partOf (qpushCore b) = s.partOf s.issue.core := by
  simp [qpushOk, and_assoc]

/-- A qpush to a core that it may name is a push of its record there. -/
theorem exec_qpush_named {f : RRR} {s : State} (h : Executes s f.g [.s f.a, .s f.b]) (ok : qpushOk s (s.src.getS f.b) = true) :
    exec (.qpush f) s = finish s (pushRecord s (s.src.getS f.a) (qpushCore (s.src.getS f.b)) (.qpush s.issue.core)
      (max (scopeOf s.issue.core (qpushCore (s.src.getS f.b))) s.me.job.widening.toNat)) := by
  rw [exec_qpush, execQpush, slot_sourced (ds := []) (rs := [(.s f.a, f.ta), (.s f.b, f.tb)]) _ h]
  simp only [ok, Bool.not_true, Bool.false_eq_true, if_false]
  rfl

/-- A qpush of a good record to a core that it may not name raises BADREC with reason 3 (R204). -/
theorem exec_qpush_unnamed {f : RRR} {s : State} {p : Place} {w : File 3 W64} (h : Executes s f.g [.s f.a, .s f.b])
    (fits : RecordFits (drainMe s) (s.src.getS f.a) p w) (bad : qpushOk s (s.src.getS f.b) = false) :
    exec (.qpush f) s = .next (raise s .badrec 3 false) := by
  rw [exec_qpush, execQpush, slot_sourced (ds := []) (rs := [(.s f.a, f.ta), (.s f.b, f.tb)]) _ h]
  simp only [bad, Bool.not_false, if_true, checkRecord_fits fits]
  rfl

/-- A spawn is a push of its record to the own core's queue. -/
theorem exec_spawn_pushes {f : RR} {s : State} (h : Executes s f.g [.s f.a]) : exec (.spawn f) s
    = finish s (pushRecord s (s.src.getS f.a) s.issue.core .own (max 1 s.me.job.widening.toNat)) := by
  rw [exec_spawn, execSpawn, slot_sourced (ds := []) (rs := [(.s f.a, f.ta)]) _ h]
  rfl

/-! trig and susp (R125, R207). -/

theorem ownCounter_good {s : State} (hc : CodesGood s) (hp : s.poison = []) : ownCounter s = .ok s := by
  unfold ownCounter
  simp only
  split
  · rfl
  · exact ownerRead_good hc hp _ _ _

theorem exec_trig_again {f : NF} {s : State} (h : Executes s f.g []) (ht : s.src.triggered = true) : exec (.trig f) s = .next s := by
  rw [exec_trig, execTrig, slot_bare _ h, if_pos ht, finish_ok]

theorem setRegs_mem (s : State) (r : Regs) : (s.setRegs r).mem = s.mem := rfl

/-- The first trig makes the completion effects, and marks the continuation (R125). -/
theorem exec_trig_first {f : NF} {s : State} (h : Executes s f.g []) (ht : s.src.triggered = false)
    (done : FabricDone s s.me.job.scope.toNat) (hc : CodesGood (drainMe s)) (hp : (drainMe s).poison = []) :
    ∃ t, exec (.trig f) s = .next t ∧ t.me.r.triggered = true ∧
      t.mem = (completionEffects (drainMe s) s.issue.core s.issue.ctx).mem := by
  rw [exec_trig, execTrig, slot_bare _ h, if_neg (ne_true_of_eq_false ht), podClear_done done, ownCounter_good hc hp, need_ok]
  simp only [finish_ok]
  exact ⟨_, rfl, by rw [State.me_setRegs], setRegs_mem ..⟩

theorem exec_susp_cases {f : NF} {s : State} (h : Executes s f.g []) :
    exec (.susp f) s = if gangBit s.me.job.words then .next (raise s .badrec 7 false)
      else if s.src.triggered then .next (raise s .badrec 6 false) else .next (s.transfer (.leave .susp)) := by
  rw [exec_susp, execSusp, slot_bare _ h]
  split
  · rfl
  · split <;> rfl

theorem depart_mem (s : State) (r : Record) : (depart s r).mem = s.mem := by
  unfold depart
  split
  · rfl
  · simp only; split <;> rfl

theorem releaseShelf_mem (s : State) (name : W64) : (releaseShelf s name).mem = s.mem := by
  unfold releaseShelf; split <;> rfl

theorem freeCtx_mem (s : State) (c : CoreId) (x : CtxId) : (freeCtx s c x).mem = s.mem := by
  unfold freeCtx
  simp only [State.setCtx_mem, State.setCore_mem]
  split
  · exact freeArray_mem ..
  · exact freeArray_mem ..

theorem freeCtx_phase (s : State) (c : CoreId) (x : CtxId) : ((freeCtx s c x).ctx c x).phase = .idle := by
  unfold freeCtx
  simp only [State.ctx_setCtx_same]
  rfl

/-- The stop of a triggered continuation that has stored nothing since and came from no host queue changes no byte (R125). -/
theorem completeCtx_triggered {s : State} {c : CoreId} {x : CtxId} (ht : (s.ctx c x).r.triggered = true) (hg : (s.ctx c x).gate = [])
    (hh : (s.ctx c x).job.host = none) : (completeCtx s c x).mem = s.mem ∧ ((completeCtx s c x).ctx c x).phase = .idle := by
  refine ⟨?_, freeCtx_phase ..⟩
  have triggered : ((drainGate s c x).ctx c x).r.triggered = true := by rw [drainGate_ctx]; exact ht
  have lone : ((drainGate s c x).ctx c x).job.host = none := by rw [drainGate_ctx]; exact hh
  simp only [completeCtx, if_pos triggered, completeHost, lone]
  rw [freeCtx_mem, releaseShelf_mem, depart_mem, drainGate_mem s c x hg]

/-- Settles O29: spawn and qpush by `pushRecord_room` and `pushRecord_full`, which differ by the queue alone. -/
theorem recordsPushed : Obligations.RecordsPushed := by
  refine ⟨fun f s u p w scope h fits hu hs done => ?_, fun f s u p w c scope h fits hu hc hs done => ⟨fun high out part same => ?_, fun bad => ?_⟩,
    fun f s h => ⟨exec_trig_again h, fun ht done hc hp => ?_, fun gang => ?_, fun gang ht => ?_, fun gang ht => ?_⟩,
    fun s c x => completeCtx_triggered⟩
  · subst hs
    refine ⟨fun room counter => ?_, fun full => ?_⟩
    · obtain ⟨t, made, pushed⟩ := pushRecord_room .own fits done hu room counter
      exact ⟨t, by rw [exec_spawn_pushes h, made, finish_ok], pushed⟩
    · rw [exec_spawn_pushes h, pushRecord_full .own fits done full, finish_trap]
  · subst hc hs
    have named := exec_qpush_named h ((qpushOk_iff s _).2 ⟨high, out, part, same⟩)
    refine ⟨fun room counter => ?_, fun full => ?_⟩
    · obtain ⟨t, made, pushed⟩ := pushRecord_room (.qpush s.issue.core) fits done hu room counter
      exact ⟨t, by rw [named, made, finish_ok], pushed⟩
    · rw [named, pushRecord_full (.qpush s.issue.core) fits done full, finish_trap]
  · subst hc
    refine exec_qpush_unnamed h fits (Bool.eq_false_iff.2 (fun ok => ?_))
    obtain ⟨high, out, part, same⟩ := (qpushOk_iff s _).1 ok
    rcases bad with bad | bad | bad | bad
    · exact bad high
    · exact ne_true_of_eq_false out bad
    · rw [bad] at part; exact absurd part (by simp)
    · exact bad same
  · exact exec_trig_first h ht done hc hp
  · rw [exec_susp_cases h, if_pos gang]
  · rw [exec_susp_cases h, if_neg (ne_true_of_eq_false gang), if_pos ht]
  · rw [exec_susp_cases h, if_neg (ne_true_of_eq_false gang), if_neg (ne_true_of_eq_false ht)]

/-! Barriers (R136, R209, R251, R257). -/

theorem barScope_eq (f : RI) : barScope f = f.imm.setWidth 3 := BitVec.ofNat_toNat ..

theorem arrivalsOf_arrive (t : Team) (m scope : Nat) : (t.arrive m scope).arrivalsOf m scope = t.arrivalsOf m scope + 1 := by
  simp [Team.arrive, Team.arrivalsOf]

/-- The bit of a scope stands among the open arrivals. -/
theorem scopeBit_and (a : BitVec 6) (sc : BitVec 3) : a &&& scopeBit sc = 0 ↔ a.getLsbD sc.toNat = false := by
  have bit : scopeBit sc = BitVec.twoPow 6 sc.toNat := by
    apply BitVec.eq_of_toNat_eq
    rw [scopeBit, BitVec.toNat_ofNat, BitVec.toNat_twoPow]
  rw [bit, BitVec.and_twoPow]
  cases h : a.getLsbD sc.toNat with
  | false => simp
  | true =>
    have inside : sc.toNat < 6 := BitVec.lt_of_getLsbD h
    have one : (BitVec.twoPow 6 sc.toNat).getLsbD sc.toNat = true := by simp [inside]
    refine iff_of_false (fun zero => ?_) (by simp)
    rw [if_pos rfl] at zero
    rw [zero] at one
    exact absurd one (by simp)

theorem Moves.job {s t : State} (h : Moves s t) : t.me.job = s.me.job := (congrArg Ctx.job h.me :)

theorem Moves.team {s t : State} (h : Moves s t) (id : Nat) : t.team id = s.team id := by rw [State.team, State.team, h.teams]

/-- The release that an arrival at a scope makes first (R251, R257). -/
def arrivalRelease (s : State) (sc : BitVec 3) : State :=
  release (drainMe s) s.issue.core sc.toNat (bound s.me.r.bind 4 (BitVec.ofNat 64 sc.toNat))

theorem arrivalRelease_moves (s : State) (sc : BitVec 3) : Moves s (arrivalRelease s sc) :=
  (Moves.drainMe s).trans (Moves.release _ _ _ _)

/-- An arrival is its release, and one more arrival of the member in its team if it has one (R136). -/
theorem arriveHere_eq (s : State) (sc : BitVec 3) : arriveHere s sc = match s.team s.me.job.team with
    | some t => (arrivalRelease s sc).setTeam (t.arrive s.me.job.member sc.toNat)
    | none => arrivalRelease s sc := by
  have moved := arrivalRelease_moves s sc
  rw [← moved.team, ← moved.job]
  rfl

theorem arriveHere_mem (s : State) (sc : BitVec 3) : (arriveHere s sc).mem = (arrivalRelease s sc).mem := by
  rw [arriveHere_eq]; split <;> rfl

/-- A member of a team has arrived once more (R136). -/
theorem myArrivals_arriveHere {s : State} {t : Team} (sc : BitVec 3) (h : s.team s.me.job.team = some t) :
    myArrivals (arriveHere s sc) sc.toNat = myArrivals s sc.toNat + 1 := by
  have moved := arrivalRelease_moves s sc
  have id : t.id = s.me.job.team := by simpa using List.find?_some h
  have arrived : arriveHere s sc = (arrivalRelease s sc).setTeam (t.arrive s.me.job.member sc.toNat) := by rw [arriveHere_eq, h]
  have job : (arriveHere s sc).me.job = s.me.job := by rw [arrived]; exact moved.job
  have team : (arriveHere s sc).team s.me.job.team = some (t.arrive s.me.job.member sc.toNat) := by
    rw [← id, arrived]
    exact team_setTeam (by rw [moved.team, id]; exact h) rfl
  rw [myArrivals, job, team, myArrivals, h]
  exact arrivalsOf_arrive ..

section
variable {f : RI} {s : State} {sc : BitVec 3} (h : Executes s f.g []) (hsc : sc = f.imm.setWidth 3)
include h hsc

/-- While the episode of the last arrival is open, bar and barr hold their bundle. -/
theorem exec_bar_open (hold : arrivalDone s sc.toNat = false) : Holds s (exec (.bar f) s) ∧ Holds s (exec (.barr f) s) := by
  rw [exec_bar, execBar, slot_bare _ h, exec_barr, execBarr, slot_bare _ h, barScope_eq, ← hsc, hold]
  exact ⟨rfl, rfl⟩

/-- With it complete they arrive: barr leaves the arrival open, bar makes the next bundle wait. -/
theorem exec_bar_arrives (ended : arrivalDone s sc.toNat = true) (done : FabricDone s sc.toNat) :
    exec (.barr f) s = .next ((arriveHere s sc).setRegs { (arriveHere s sc).me.r with
      arrived := (arriveHere s sc).me.r.arrived ||| BitVec.ofNat 6 (2 ^ sc.toNat) }) ∧
    exec (.bar f) s = .next ((arriveHere s sc).setMe { (arriveHere s sc).me with
      barWait := some (sc, myArrivals (arriveHere s sc) sc.toNat) }) := by
  rw [exec_bar, execBar, slot_bare _ h, exec_barr, execBarr, slot_bare _ h, barScope_eq, ← hsc, ended, podClear_done done]
  exact ⟨rfl, rfl⟩

/-- barw with no open arrival, with one whose episode is open, and with one whose episode is complete. -/
theorem exec_barw_cases : (s.src.arrived.getLsbD sc.toNat = false → exec (.barw f) s = .next s) ∧
    (s.src.arrived.getLsbD sc.toNat = true → arrivalDone s sc.toNat = false → Holds s (exec (.barw f) s)) ∧
    (s.src.arrived.getLsbD sc.toNat = true → arrivalDone s sc.toNat = true →
      reported s s.issue.core (bound s.me.r.bind 4 (BitVec.ofNat 64 sc.toNat)) = none →
      ∃ t, exec (.barw f) s = .next t ∧ t.me.r.arrived = s.me.r.arrived &&& ~~~(BitVec.ofNat 6 (2 ^ sc.toNat)) ∧
        t.mem = (acquire s s.issue.core sc.toNat (bound s.me.r.bind 4 (BitVec.ofNat 64 sc.toNat))).mem) := by
  rw [exec_barw, execBarw, slot_bare _ h, barScope_eq, ← hsc]
  have bit := scopeBit_and s.src.arrived sc
  refine ⟨fun closed => ?_, fun opened hold => ?_, fun opened ended ok => ?_⟩
  · simp only [if_pos (bit.2 closed), finish_ok]
  · have mine : ¬ s.src.arrived &&& scopeBit sc = 0 := fun z => ne_true_of_eq_false (bit.1 z) opened
    simp only [if_neg mine, hold]
    rfl
  · have mine : ¬ s.src.arrived &&& scopeBit sc = 0 := fun z => ne_true_of_eq_false (bit.1 z) opened
    have same : (acquire s s.issue.core sc.toNat (bound s.me.r.bind 4 (BitVec.ofNat 64 sc.toNat))).me = s.me := by
      rw [State.me, steady_issue (acquire_steady ..)]
      exact (sameCores_acquire s _ _ _).ctx _ _
    simp only [if_neg mine, ended, Bool.not_true, Bool.false_eq_true, if_false, acquireHere_unreported ok, finish_ok]
    refine ⟨_, rfl, ?_, setRegs_mem ..⟩
    rw [State.me_setRegs, same]
    rfl

end

/-- Settles O31: bar and barr by whether the episode of the last arrival is complete, the arrival by `arriveHere_eq`, barw by its cases. -/
theorem barriers : Obligations.Barriers := by
  intro f s sc h hsc
  obtain ⟨closed, hold, ends⟩ := exec_barw_cases h hsc
  exact ⟨exec_bar_open h hsc, exec_bar_arrives h hsc, fun t ht => ⟨myArrivals_arriveHere sc ht, arriveHere_mem s sc⟩, closed, hold, ends⟩

end Sys2Proof.Machine

namespace Sys2Proof.Machine

/-! The two words of a counter or future (R124, R132). -/

theorem readRun_writeRun_inside (m : Memory) {k j n : Nat} {bs : List Byte} (h : n + j ≤ bs.length) :
    (m.writeRun k bs).readRun (k + j) n = (bs.drop j).take n := by
  apply List.ext_getElem
  · simp [Memory.readRun]; omega
  · intro i hi _
    have small : i < n := by simpa [Memory.readRun] using hi
    simp only [Memory.readRun, List.getElem_map, List.getElem_range, Memory.read_writeRun, List.getElem_take, List.getElem_drop]
    rw [if_pos (by omega), show k + j + i - k = j + i by omega, List.getD_eq_getElem _ _ (by omega)]

theorem readRun_writeRun_apart (m : Memory) {k j n : Nat} {bs : List Byte} (h : j + n ≤ k ∨ k + bs.length ≤ j) :
    (m.writeRun k bs).readRun j n = m.readRun j n := by
  refine List.map_congr_left (fun i hi => ?_)
  have := List.mem_range.1 hi
  rw [Memory.read_writeRun, if_neg (by omega)]

theorem leWord_leBytes (w : W64) : leWord 64 (leBytes 8 w.toNat) = w := by
  apply BitVec.eq_of_toNat_eq
  have := w.isLt
  rw [leWord, BitVec.toNat_ofNat, leNat_leBytes]
  omega

theorem pairAt_pairPut (s : State) (k : Nat) (a b : W64) : pairAt (pairPut s k a b) k = (a, b) := by
  have low := readRun_writeRun_inside s.mem (k := k) (j := 0) (n := 8) (bs := leBytes 8 a.toNat ++ leBytes 8 b.toNat) (by simp)
  have high := readRun_writeRun_inside s.mem (k := k) (j := 8) (n := 8) (bs := leBytes 8 a.toNat ++ leBytes 8 b.toNat) (by simp)
  rw [List.drop_zero, List.take_left' (leBytes_length ..), Nat.add_zero] at low
  rw [List.drop_left' (leBytes_length ..), List.take_of_length_le (by simp)] at high
  simp only [pairAt, pairPut, State.writeAt, low, high, leWord_leBytes]

theorem pairAt_congr {s t : State} (h : t.mem = s.mem) (k : Nat) : pairAt t k = pairAt s k := by rw [pairAt, pairAt, h]

/-- A word of a record that lies apart from the two words is written beside them. -/
theorem pairAt_recordPut {s : State} {name : W64} {k i : Nat} (w : W64) (hi : i < 8) (apart : RecordApart s name k 16) :
    pairAt (recordPut s s.issue.core name i w) k = pairAt s k := by
  unfold recordPut
  split
  · rfl
  · split
    · rfl
    · unfold deviceWrite ownerWrite
      rw [leBytes_length]
      cases hp : place s (nameCore s.issue.core name) .peek (nameAddr name + BitVec.ofNat 64 (8 * i)) 8 with
      | error _ => rfl
      | ok p =>
        have away := apart i p hi hp
        have low := readRun_writeRun_apart s.mem (k := p.key) (j := k) (n := 8) (bs := leBytes 8 w.toNat) (by rw [leBytes_length]; omega)
        have high := readRun_writeRun_apart s.mem (k := p.key) (j := k + 8) (n := 8) (bs := leBytes 8 w.toNat)
          (by rw [leBytes_length]; omega)
        exact Prod.ext (congrArg (leWord 64) low) (congrArg (leWord 64) high)

theorem Moves.recordApart {s t : State} (h : Moves s t) {name : W64} {k n : Nat} (apart : RecordApart s name k n) :
    RecordApart t name k n := by
  intro i p hi hp
  rw [h.place, h.issuer.1] at hp
  exact apart i p hi hp

/-- What a join or futwait finds is what its read-modify-write reads, when no slot before it has changed memory (R206). -/
theorem foundPair_first {s : State} {va : W64} {p : Place} (h : OwnerReady s va p) (first : s.issue.drained = false) :
    foundPair s va = pairAt (ownerTaken s va p) p.key := by
  obtain ⟨hc, hp, -⟩ := h
  have before : s.before = s := if_neg (ne_true_of_eq_false first)
  rw [foundPair, before, atOwner_placed hc hp]
  exact pairAt_congr (spendMem_mem ..).symm _

/-- The fields of the word that a waiter leaves in its future (R132, R133). -/
theorem futWord_fields {n : Nat} (name : W64) (h : n < 16384) : futState (futWord 1 n name) = 1 ∧ futWaiters (futWord 1 n name) = n ∧
    futHead (futWord 1 n name) = BitVec.ofNat 64 (wbits name 6 42 * 2 ^ 6 + nameClass name * 2 ^ 62) := by
  have name' : wbits name 6 42 < 2 ^ 42 := Nat.mod_lt _ (by decide)
  have cls : nameClass name < 4 := Nat.mod_lt _ (by decide)
  have word : (futWord 1 n name).toNat = 1 + n * 4 + wbits name 6 42 * 2 ^ 16 + nameClass name * 2 ^ 62 := by
    rw [futWord, BitVec.toNat_ofNat]; omega
  refine ⟨?_, ?_, ?_⟩
  · rw [futState, wbits, word]; omega
  · rw [futWaiters, wbits, word]; omega
  · have field : wbits (futWord 1 n name) 16 42 = wbits name 6 42 := by rw [wbits, word]; omega
    have top : wbits (futWord 1 n name) 62 2 = nameClass name := by rw [wbits, word]; omega
    rw [futHead, field, top]

/-! A join or futwait that waits leaves its continuation (R16, R206). -/

/-- What a record's words and their writes depend on: memory, the shelf, the places, and the near caches of the cores. -/
structure Alike (s t : State) : Prop where
  places : SamePlaces s t
  near : ∀ d, (t.core d).near = (s.core d).near
  mem : t.mem = s.mem
  shelf : t.shelf = s.shelf

namespace Alike
variable {s t u : State}

theorem trans (h : Alike s t) (g : Alike t u) : Alike s u :=
  ⟨h.places.trans g.places, fun d => (g.near d).trans (h.near d), g.mem.trans h.mem, g.shelf.trans h.shelf⟩

theorem setCtx (s : State) (c : CoreId) (x : CtxId) (y : Ctx) : Alike s (s.setCtx c x y) :=
  ⟨samePlaces_setCore s c _ rfl, fun d => (congrArg Core.near (core_setCtx_rest s c d x y) :), rfl, rfl⟩

theorem keepRecord (s : State) (r : Record) : Alike s (keepRecord s r) :=
  ⟨⟨fun _ => rfl, rfl, fun _ => ⟨rfl, rfl⟩⟩, fun _ => rfl, rfl, rfl⟩

theorem nameIn (h : Alike s t) (c : CoreId) (name : W64) : nameIn t c name = nameIn s c name := by
  simp only [Machine.nameIn, State.partIdOf, h.places.partOf, h.shelf]

theorem deviceRead (h : Alike s t) (c : CoreId) (va : W64) (n : Nat) : deviceRead t c va n = deviceRead s c va n := by
  have find : nearFind (t.core c) = nearFind (s.core c) := by
    funext va
    rw [nearFind, nearFind, h.near]
  have byte : nearByte (t.core c) = nearByte (s.core c) := by
    funext va
    rw [nearByte, nearByte, find]
  have held (hit : Bool) : heldByte (t.core c) hit = heldByte (s.core c) hit := by
    funext va
    rw [heldByte, heldByte, nearDirty, nearDirty, byte, find]
  have run (p : Place) : readRun t c [] va p n = readRun s c [] va p n := by
    simp only [readRun, nearHas, byte, held, h.mem]
  simp only [Machine.deviceRead, h.places.place, run]

theorem recordWords (h : Alike s t) (c : CoreId) (name : W64) : recordWords t c name = recordWords s c name := by
  simp only [Machine.recordWords, recordBytes, h.nameIn, h.shelf, h.deviceRead]

theorem recordPut_mem (h : Alike s t) (c : CoreId) (name : W64) (i : Nat) (w : W64) :
    (recordPut t c name i w).mem = (recordPut s c name i w).mem := by
  unfold recordPut
  rw [h.nameIn]
  split
  · exact h.mem
  · split
    · exact h.mem
    · unfold deviceWrite ownerWrite
      rw [h.places.place]
      cases place s (nameCore c name) .peek (nameAddr name + BitVec.ofNat 64 (8 * i)) (leBytes 8 w.toNat).length with
      | error _ => exact h.mem
      | ok p => exact congrArg (·.writeRun p.key (leBytes 8 w.toNat)) h.mem

end Alike

/-- With nothing in the near cache a release has nothing to write back. -/
theorem release_empty {s : State} {c : CoreId} (h : (s.core c).near = []) (scope : Nat) (sel : W64 → Bool) :
    release s c scope sel = s := by
  rw [release, nearWriteBack, h, List.foldl_nil, ite_self]

/-- The issuing continuation with its record kept, on its way out at this bundle's address. -/
def onLeave (s : State) (why : Why) : State :=
  (keepRecord s s.me.job).setCtx s.issue.core s.issue.ctx { s.me with phase := .suspending why s.issue.pc, bubble := 0 }

theorem onLeave_ctx (s : State) (why : Why) : (onLeave s why).ctx s.issue.core s.issue.ctx
    = { s.me with phase := .suspending why s.issue.pc, bubble := 0 } := State.ctx_setCtx_same ..

theorem onLeave_alike (s : State) (why : Why) : Alike s (onLeave s why) := (Alike.keepRecord s _).trans (Alike.setCtx _ _ _ _)

theorem onLeave_quiet (s : State) (why : Why) :
    quiet (onLeave s why) s.issue.core s.issue.ctx = quiet s s.issue.core s.issue.ctx := by
  rw [quiet, onLeave_ctx, onLeave, State.engine_setCtx]
  rfl

/-- A continuation with something outstanding waits for it. -/
theorem registered_waits {s : State} (why : Why) (h : quiet s s.issue.core s.issue.ctx = false) :
    registered s why = (onLeave s why).verdict .left := by
  have waits : leave (keepRecord s s.me.job) s.issue.core s.issue.ctx why s.issue.pc = onLeave s why :=
    if_neg (ne_true_of_eq_false ((onLeave_quiet s why).trans h))
  rw [registered, waits]

/-- One with nothing outstanding leaves at once. -/
theorem registered_leaves {s : State} {why : Why} (hw : why = .join ∨ why = .futwait) (h : quiet s s.issue.core s.issue.ctx = true)
    (hb : s.me.badStore = false) :
    registered s why = (suspendCtx (onLeave s why) s.issue.core s.issue.ctx why s.issue.pc).verdict .left := by
  have leaves : leave (keepRecord s s.me.job) s.issue.core s.issue.ctx why s.issue.pc
      = finishLeave (onLeave s why) s.issue.core s.issue.ctx why s.issue.pc := if_pos ((onLeave_quiet s why).trans h)
  have good : ((onLeave s why).ctx s.issue.core s.issue.ctx).badStore = false := by rw [onLeave_ctx]; exact hb
  rw [registered, leaves]
  rcases hw with rfl | rfl <;> exact congrArg (State.verdict · .left) (if_neg (ne_true_of_eq_false good))

/-- The suspension of a join or futwait: the gate, the release, the resume address in the record, and the context is free. -/
theorem suspendCtx_waiter {s : State} {c : CoreId} {x : CtxId} {why : Why} {pc : CodeAddr} (hw : why = .join ∨ why = .futwait) :
    suspendCtx s c x why pc = freeCtx (keepRecord (writeResume (releaseOwn (drainGate s c x) c x) c x pc)
      ((releaseOwn (drainGate s c x) c x).ctx c x).job) c x := by
  rcases hw with rfl | rfl <;> rfl

theorem suspendCtx_idle {s : State} {c : CoreId} {x : CtxId} {why : Why} {pc : CodeAddr} (hw : why = .join ∨ why = .futwait) :
    ((suspendCtx s c x why pc).ctx c x).phase = .idle := by
  rw [suspendCtx_waiter hw]
  exact freeCtx_phase ..

/-- Such a suspension with an empty gate and an empty near cache writes the resume address and no other byte. -/
theorem suspendCtx_waiter_mem {s : State} {c : CoreId} {x : CtxId} {why : Why} {pc : CodeAddr} (hw : why = .join ∨ why = .futwait)
    (hg : (s.ctx c x).gate = []) (hn : (s.core c).near = []) : (suspendCtx s c x why pc).mem = (recordPut s c (s.ctx c x).job.name 0
      (wset (recWord (recordWords s c (s.ctx c x).job.name) 0) 0 48 pc.toNat)).mem := by
  have drained : drainGate s c x = s.setCtx c x { s.ctx c x with gate := [] } := by rw [drainGate, hg]; rfl
  have alike : Alike s (drainGate s c x) := by rw [drained]; exact Alike.setCtx s c x _
  have released : releaseOwn (drainGate s c x) c x = drainGate s c x := release_empty ((alike.near c).trans hn) _ _
  have job : ((drainGate s c x).ctx c x).job = (s.ctx c x).job := by rw [drainGate_ctx]
  rw [suspendCtx_waiter hw, freeCtx_mem, (Alike.keepRecord _ _).mem, released, writeResume]
  simp only [job, alike.recordWords]
  exact alike.recordPut_mem ..

/-! Futures resolved (R133, R134, R208). -/

theorem spendMem_core (s : State) (p : PartId) (bs : List Nat) (d : CoreId) : (spendMem s p bs).core d = s.core d := by
  unfold spendMem
  split
  · rfl
  · simp only; split <;> rfl

/-- A line that has been dropped is not there. -/
theorem nearFind_nearDrop (s : State) (c : CoreId) (va : W64) : nearFind ((nearDrop s c va).core c) va = none := by
  unfold nearDrop
  split
  · assumption
  · next l found =>
    have addr : l.addr = lineOf va := by simpa using List.find?_some found
    simp only [State.core_setCore_same]
    rw [nearFind, addr, List.find?_filter, List.find?_eq_none]
    intro m _
    simp

/-- A second read-modify-write of the same bytes finds no line to drop. -/
theorem atOwner_ownerTaken {s : State} {va : W64} {p : Place} (h : OwnerReady s va p) :
    atOwner (ownerTaken s va p) s.issue.core .atomic va 16 = .ok (ownerTaken s va p, p.key) := by
  obtain ⟨hc, hp, -⟩ := h
  have gone : (if p.cached then nearDrop (ownerTaken s va p) s.issue.core va else ownerTaken s va p) = ownerTaken s va p := by
    split
    · next cached =>
      have absent : nearFind ((ownerTaken s va p).core s.issue.core) va = none := by
        rw [ownerTaken, spendMem_core, if_pos cached]
        exact nearFind_nearDrop ..
      rw [nearDrop, absent]
    · rfl
  rw [atOwner_placed hc (((Moves.ownerTaken s va p).place ..).trans hp), gone]

theorem futWord_resolved (state : Nat) : futWord state 0 0 = BitVec.ofNat 64 state := by
  simp [futWord, wbits, nameClass]

/-- A future that can be changed takes its value, and its waiters are released; one that is final raises DRESOLVE. -/
theorem resolveHere_ready {s : State} {va : W64} {p : Place} (state : Nat) (value : W64) (aligned : va.toNat % 16 = 0)
    (h : OwnerReady (release (drainMe s) s.issue.core 4 (bound s.me.r.bind 2 va)) va p) :
    let t := ownerTaken (release (drainMe s) s.issue.core 4 (bound s.me.r.bind 2 va)) va p
    resolveHere s va state value = if 2 ≤ futState (pairAt t p.key).1 then .error (.trap .dresolve va)
      else .ok (releaseChain (futWaiters (pairAt t p.key).1) (pairPut t p.key (BitVec.ofNat 64 state) value) s.issue.core
        (if futWaiters (pairAt t p.key).1 = 0 then 0 else futHead (pairAt t p.key).1)) := by
  have owner := atOwner_ownerTaken h
  have issuer := ((Moves.drainMe s).trans (Moves.release (drainMe s) s.issue.core 4 (bound s.me.r.bind 2 va))).issuer.1
  rw [issuer] at owner
  simp only [resolveHere]
  rw [owned16_ready _ aligned h, resolveFuture, owner]
  simp only [futWord_resolved]
  by_cases final : 2 ≤ futState (pairAt (ownerTaken (release (drainMe s) s.issue.core 4 (bound s.me.r.bind 2 va)) va p) p.key).1
  · simp only [if_pos final]
  · simp only [if_neg final]

/-! join and futwait (R132, R133, R206). -/

section
variable {f : RR} {s t : State} {p : Place} (h : Executes s f.g [.s f.a]) (aligned : (s.src.getS f.a).toNat % 16 = 0)
  (ready : OwnerReady s (s.src.getS f.a) p) (ht : t = ownerTaken s (s.src.getS f.a) p)
include h aligned ready ht

/-- A join decides by the count and the link that it finds. -/
theorem exec_join_found {n w : W64} (found : foundPair s (s.src.getS f.a) = (n, w)) : exec (.join f) s = finish s
    (if n = 0 then acquireHere t 4 everyByte else if w ≠ 0 then badrec 4 else if s.src.triggered then badrec 6
      else .error (suspendHere (pairPut t p.key n (linkTo s.me.job.name s.issue.core)) .join)) := by
  rw [exec_join, execJoin, slot_sourced (ds := []) (rs := [(.s f.a, f.ta)]) _ h, owned16_ready _ aligned ready, ← ht]
  simp only [found]

end

section
variable {f : RR} {s t : State} {p : Place} (h : Executes s f.g [.s f.d, .s f.a]) (aligned : (s.src.getS f.a).toNat % 16 = 0)
  (ready : OwnerReady s (s.src.getS f.a) p) (ht : t = ownerTaken s (s.src.getS f.a) p)
include h aligned ready ht

/-- A futwait on a final future takes its value after the acquire. -/
theorem exec_futwait_final {w0 w1 : W64} (found : foundPair s (s.src.getS f.a) = (w0, w1)) (final : 2 ≤ futState w0)
    (clean : reported t s.issue.core (futBytes t p.key (s.src.getS f.a)) = none) :
    exec (.futwait f) s = .next (resultS (acquire t s.issue.core 4 (futBytes t p.key (s.src.getS f.a))) f.d w1 1) := by
  have core : t.issue.core = s.issue.core := by rw [ht]; exact (Moves.ownerTaken ..).issuer.1
  have acquired := acquireHere_unreported (scope := 4) (by rw [core]; exact clean)
  rw [exec_futwait, execFutwait, slot_sourced (ds := [.s f.d]) (rs := [(.s f.a, f.ta)]) _ h, owned16_ready _ aligned ready, ← ht]
  simp only [found, if_pos final, acquired, core, finish_ok]

/-- On one that is not final it decides by the number of waiters and the mark of trig. -/
theorem exec_futwait_open {w0 w1 : W64} (found : foundPair s (s.src.getS f.a) = (w0, w1)) (open' : futState w0 < 2) :
    exec (.futwait f) s = finish s (if futWaiters w0 = 16383 then badrec 5 else if s.src.triggered then badrec 6
      else .error (suspendHere (recordPut (pairPut t p.key (futWord 1 (futWaiters w0 + 1) s.me.job.name) w1) s.issue.core s.me.job.name 3
        (linkTo (if futWaiters w0 = 0 then 0 else futHead w0) s.issue.core)) .futwait)) := by
  rw [exec_futwait, execFutwait, slot_sourced (ds := [.s f.d]) (rs := [(.s f.a, f.ta)]) _ h, owned16_ready _ aligned ready, ← ht]
  simp only [found, if_neg (Nat.not_le.2 open')]

end

/-- The record's link to the waiter before it leaves the future's words. -/
theorem pairAt_waiter {s : State} {name : W64} {k : Nat} (a b link : W64) (apart : RecordApart s name k 16) :
    pairAt (recordPut (pairPut s k a b) s.issue.core name 3 link) k = (a, b) := by
  have beside := pairAt_recordPut link (i := 3) (by decide) ((Moves.pairPut s k a b).recordApart apart)
  rw [(Moves.pairPut s k a b).issuer.1] at beside
  rw [beside, pairAt_pairPut]

section
variable {s : State} {why : Why}

theorem registered_verdict (s : State) (why : Why) : (registered s why).issue.verdict = .left := rfl

/-- What a waiting continuation leaves while something is outstanding. -/
theorem registered_busy (h : quiet s s.issue.core s.issue.ctx = false) : (registered s why).mem = s.mem ∧
    ((registered s why).ctx s.issue.core s.issue.ctx).phase = .suspending why s.issue.pc := by
  rw [registered_waits why h]
  exact ⟨rfl, congrArg Ctx.phase (onLeave_ctx s why)⟩

/-- With nothing outstanding, no store and no line, it writes its resume address alone. -/
theorem registered_quiet (hw : why = .join ∨ why = .futwait) (h : quiet s s.issue.core s.issue.ctx = true) (hb : s.me.badStore = false)
    (hg : s.me.gate = []) (hn : (s.core s.issue.core).near = []) :
    ((registered s why).ctx s.issue.core s.issue.ctx).phase = .idle ∧ (registered s why).mem = (recordPut s s.issue.core s.me.job.name 0
      (wset (recWord (recordWords s s.issue.core s.me.job.name) 0) 0 48 s.issue.pc.toNat)).mem := by
  have alike := onLeave_alike s why
  have gate : ((onLeave s why).ctx s.issue.core s.issue.ctx).gate = [] := by rw [onLeave_ctx]; exact hg
  have job : ((onLeave s why).ctx s.issue.core s.issue.ctx).job = s.me.job := by rw [onLeave_ctx]
  rw [registered_leaves hw h hb]
  refine ⟨?_, ?_⟩
  · exact suspendCtx_idle hw
  · have mem := suspendCtx_waiter_mem (pc := s.issue.pc) hw gate ((alike.near _).trans hn)
    rw [job, alike.recordWords, alike.recordPut_mem] at mem
    exact mem

end

/-! futset and futpoison (R133, R208). -/

/-- Both resolve: futset to VALUED (2), futpoison to POISONED (3). -/
theorem exec_resolves {i : Instr} {d a : BitVec 5} {g : BitVec 3} {state : Nat} {s : State}
    (hi : (∃ f, i = .futset f ∧ f.g = g ∧ f.a = a ∧ f.b = d ∧ state = 2) ∨ (∃ f, i = .futpoison f ∧ f.g = g ∧ f.a = a ∧ f.d = d ∧ state = 3))
    (h : Executes s g [.s a, .s d]) : exec i s = finish s (resolveHere s (s.src.getS a) state (s.src.getS d)) := by
  rcases hi with ⟨f, rfl, rfl, rfl, rfl, rfl⟩ | ⟨f, rfl, rfl, rfl, rfl, rfl⟩
  · rw [exec_futset, execFutset, slot_sourced (ds := []) (rs := [(.s f.a, f.ta), (.s f.b, f.tb)]) _ h]
  · rw [exec_futpoison, execFutpoison, slot_sourced (ds := []) (rs := [(.s f.a, f.ta), (.s f.d, false)]) _ h]

/-- Settles O30: join and futwait by what they find, their leaving by what is outstanding, futset and futpoison by `resolveHere_ready`. -/
theorem joinsAndFutures : Obligations.JoinsAndFutures := by
  refine ⟨fun f s t p n w h aligned ready ht found => ?_, fun f s t p w0 w1 h aligned ready ht found => ?_,
    fun n name => futWord_fields name, fun s va p => foundPair_first, fun s t why k hw ht => ?_,
    fun i d a g state s r t p hi h aligned hr ready ht => ?_⟩
  · have core : t.issue.core = s.issue.core := by rw [ht]; exact (Moves.ownerTaken ..).issuer.1
    rw [exec_join_found h aligned ready ht found]
    refine ⟨fun zero clean => ?_, fun open' taken => ?_, fun open' free again => ?_, fun open' free first => ⟨?_, pairAt_pairPut ..⟩⟩
    · rw [if_pos zero, acquireHere_unreported (by rw [core]; exact clean), finish_ok, core]
    · rw [if_neg open', if_pos taken]; rfl
    · rw [if_neg open', if_neg (not_not.2 free), if_pos again]; rfl
    · rw [if_neg open', if_neg (not_not.2 free), if_neg (ne_true_of_eq_false first)]; rfl
  · refine ⟨fun final clean => exec_futwait_final h aligned ready ht found final clean, fun open' most => ?_, fun open' more again => ?_,
      fun u open' more first hu => ⟨?_, fun apart => ?_⟩⟩
    · rw [exec_futwait_open h aligned ready ht found open', if_pos most]; rfl
    · rw [exec_futwait_open h aligned ready ht found open', if_neg (Nat.ne_of_lt more), if_pos again]; rfl
    · rw [exec_futwait_open h aligned ready ht found open', if_neg (Nat.ne_of_lt more), if_neg (ne_true_of_eq_false first), ← hu]; rfl
    · have core : t.issue.core = s.issue.core := by rw [ht]; exact (Moves.ownerTaken ..).issuer.1
      rw [hu, ← core]
      exact pairAt_waiter _ _ _ apart
  · subst ht
    refine ⟨registered_verdict s why, registered_busy, fun calm hb hg hn => ?_⟩
    obtain ⟨idle, mem⟩ := registered_quiet hw calm hb hg hn
    exact ⟨idle, mem, fun apart => (pairAt_congr mem k).trans (pairAt_recordPut _ (by decide) apart)⟩
  · subst hr
    have resolved := exec_resolves hi h
    rw [resolveHere_ready state (s.src.getS d) aligned ready, ← ht] at resolved
    have open' (lt : futState (pairAt t p.key).1 < 2) := resolved.trans (congrArg (finish s) (if_neg (Nat.not_le.2 lt)))
    refine ⟨fun final => ?_, fun lt lone => ?_, open'⟩
    · rw [resolved, if_pos final, finish_trap]
    · rw [open' lt, lone]; rfl

end Sys2Proof.Machine

namespace Sys2Proof.Machine

/-! Refresh of a die's weight store (R235, R238, R413). -/

@[simp] theorem rset_rget_self {w : Nat} {α : Type} (f : File w α) (r : BitVec w) : rset f r (rget f r) = f := Vector.set_getElem_self ..

@[simp] theorem refreshOf_setRefresh (s : State) (d : DieId) (r : Refresh) : (s.setRefresh d r).refreshOf d = r := rget_rset_same ..

theorem setRefresh_self (s : State) (d : DieId) : s.setRefresh d (s.refreshOf d) = s := by
  rw [State.setRefresh, State.refreshOf, rset_rget_self]

/-- A beat is one more, or the first again after a window without one; whose the refresh is stays. -/
theorem exec_heartbeat_next (d : DieId) (s : State) : ∃ due, exec (.heartbeat d) s = .next (s.setRefresh d { s.refreshOf d with
    beat := s.cycle, beats := if s.cycle - (s.refreshOf d).beat ≤ 6400 then (s.refreshOf d).beats + 1 else 1, due := due }) := ⟨_, rfl⟩

theorem exec_autonomousRefresh_due {d : DieId} {s : State} (h : (s.refreshOf d).auto = false) (late : 12800 ≤ s.cycle - (s.refreshOf d).beat) :
    exec (.autonomousRefresh d) s = .next (s.setRefresh d { s.refreshOf d with auto := true, origin := s.cycle, beats := 0, due := none }) := by
  rw [exec_autonomousRefresh, execAutonomousRefresh]
  exact if_neg (not_or.2 ⟨ne_true_of_eq_false h, Nat.not_lt.2 late⟩)

theorem exec_refreshOwnershipReturn_due {d : DieId} {s : State} {n : Nat} (h : (s.refreshOf d).due = some n) (auto : (s.refreshOf d).auto = true)
    (past : n ≤ s.cycle) : exec (.refreshOwnershipReturn d) s
      = .next (s.setRefresh d { s.refreshOf d with auto := false, origin := n, due := none, back := some s.cycle }) := by
  rw [exec_refreshOwnershipReturn, execRefreshOwnershipReturn]
  simp only [h]
  exact if_pos ⟨auto, past⟩

/-! Stretch (R149 to R151, R231). -/

theorem four_le_wantedStretch {k : Core} (h : k.narrow = true ∨ k.degraded ≠ []) : 4 ≤ (wantedStretch k).toNat := by
  rw [wantedStretch, if_pos h]
  refine List.foldlRecOn (motive := fun a : BitVec 3 => 4 ≤ a.toNat) k.pace _ (by decide) (fun a ha p _ => ?_)
  split
  · next lt => exact ha.trans lt.le
  · exact ha

@[simp] theorem setCore_core_self (s : State) (c : CoreId) : s.setCore c (s.core c) = s := by
  rw [State.setCore, State.core, Vector.set_getElem_self]

/-- The wanted stretch is set, and the one in force stays in force in this cycle. -/
theorem applyStretch_eq (s : State) (c : CoreId) : ∃ at' was wasFrom,
    applyStretch s c = s.setCore c { s.core c with
      stretch := wantedStretch (s.core c), stretchFrom := at', stretchWas := was, stretchWasFrom := wasFrom } ∧
    (if s.cycle < at' then (was, wasFrom) else (wantedStretch (s.core c), at')) = stretchNow s (s.core c) := by
  unfold applyStretch
  simp only
  split
  · next same => exact ⟨_, _, _, by rw [same]; exact (setCore_core_self s c).symm, by rw [same]; rfl⟩
  · exact ⟨_, _, _, rfl, if_pos (Nat.lt_succ_self _)⟩

/-- What stays, and what is requested, once the stretch of core c with its contents replaced by k has been applied. -/
structure Restretched (s : State) (c : CoreId) (k : Core) (u : State) : Prop where
  narrow : (u.core c).narrow = k.narrow
  degraded : (u.core c).degraded = k.degraded
  out : (u.core c).out = k.out
  stretch : (u.core c).stretch = wantedStretch (u.core c)
  others : ∀ d, d ≠ c → u.core d = s.core d
  outer : { u with cores := s.cores } = s
  now : stretchNow u (u.core c) = stretchNow s k

theorem restretched (s : State) (c : CoreId) (k : Core) : Restretched s c k (applyStretch (s.setCore c k) c) := by
  obtain ⟨at', was, wasFrom, eq, now⟩ := applyStretch_eq (s.setCore c k) c
  rw [State.core_setCore_same] at eq now
  have core := State.core_setCore_same (s.setCore c k) c
    { k with stretch := wantedStretch k, stretchFrom := at', stretchWas := was, stretchWasFrom := wasFrom }
  rw [eq]
  refine ⟨?_, ?_, ?_, ?_, fun d hd => ?_, rfl, ?_⟩
  iterate 4 rw [core]
  · rfl
  · rw [State.core_setCore_ne _ _ _ _ hd, State.core_setCore_ne _ _ _ _ hd]
  · rw [core]; exact now

theorem Restretched.four_le_stretch {s u : State} {c : CoreId} {k : Core} (r : Restretched s c k u) (h : k.narrow = true ∨ k.degraded ≠ []) :
    4 ≤ (u.core c).stretch.toNat := by
  rw [r.stretch]
  exact four_le_wantedStretch (by rwa [r.narrow, r.degraded])

/-- No core's test holds when it fails of each by its number. -/
theorem any_cores_false {s : State} {p : Core → Bool} (h : ∀ d, p (s.core d) = false) : s.cores.toList.any p = false := by
  rw [List.any_eq_false]
  intro k hk
  obtain ⟨i, hi, rfl⟩ := Vector.mem_iff_getElem.1 (Vector.mem_toList_iff.1 hk)
  exact ne_true_of_eq_false (h ⟨i, hi⟩)

/-! Alarms and failed banks (R151, R231, R434). -/

/-- An alarm narrows the array and requests stretch 2; the excess lasts since the first one. -/
theorem exec_powerAlarm_next (c : CoreId) (s : State) : ∃ t, exec (.powerAlarm c) s = .next t ∧ (t.core c).narrow = true ∧
    (t.core c).stretch = wantedStretch (t.core c) ∧ 4 ≤ (t.core c).stretch.toNat ∧ stretchNow t (t.core c) = stretchNow s (s.core c) ∧
    t.powerSince = some (s.powerSince.getD s.cycle) ∧ t.mem = s.mem := by
  have r := restretched s c { s.core c with narrow := true }
  have since : (applyStretch (s.setCore c { s.core c with narrow := true }) c).powerSince = s.powerSince := (congrArg State.powerSince r.outer :)
  have cycle : (applyStretch (s.setCore c { s.core c with narrow := true }) c).cycle = s.cycle := (congrArg State.cycle r.outer :)
  refine ⟨_, rfl, r.narrow, r.stretch, r.four_le_stretch (.inl rfl), r.now, ?_, (congrArg State.mem r.outer :)⟩
  rw [since, cycle, Option.or_some]

/-- An alarm's end ends the narrowing; the excess ends with the last one's. -/
theorem exec_powerAlarmEnd_next (c : CoreId) (s : State) : ∃ t, exec (.powerAlarmEnd c) s = .next t ∧ (t.core c).narrow = false ∧
    (t.core c).stretch = wantedStretch (t.core c) ∧ ((∀ d, d ≠ c → (s.core d).narrow = false) → t.powerSince = none) ∧ t.mem = s.mem := by
  have r := restretched s c { s.core c with narrow := false }
  have mem : (applyStretch (s.setCore c { s.core c with narrow := false }) c).mem = s.mem := (congrArg State.mem r.outer :)
  rw [exec_powerAlarmEnd, execPowerAlarmEnd]
  simp only
  split
  · next still =>
    refine ⟨_, rfl, r.narrow, r.stretch, fun alone => absurd still (ne_true_of_eq_false (any_cores_false fun d => ?_)), mem⟩
    by_cases hd : d = c
    · subst hd; exact r.narrow
    · rw [r.others d hd]; exact alone d hd
  · exact ⟨_, rfl, r.narrow, r.stretch, fun _ => rfl, mem⟩

theorem exec_powerExcessNotify_due {s : State} {n : Nat} (h : s.powerSince = some n) (long : n + 2000000 ≤ s.cycle) :
    exec .powerExcessNotify s = .next (s.emit .powerExcess) := by
  rw [exec_powerExcessNotify, execPowerExcessNotify]
  simp only [h]
  exact if_pos long

theorem exec_bankFailure_first {c : CoreId} {s : State} (bank : Fin 34) (h : (s.core c).degraded = []) : exec (.bankFailure c bank) s
    = .next (applyStretch (s.setCore c { s.core c with degraded := [bank.val] }) c) := by
  simp [execBankFailure, h]

/-- The state without the errors that a failed bank of core c has read as rebuilt. -/
def mended (s : State) (c : CoreId) : State :=
  { s with ecc := s.ecc.filter (fun e => !(inScratch e.1 && keyCore e.1 == c && carried s e.1)) }

theorem mem_mended {s : State} {c : CoreId} {e : Nat × Bool} (h : e ∈ (mended s c).ecc) :
    e ∈ s.ecc ∧ (inScratch e.1 = true → keyCore e.1 = c → carried s e.1 = false) := by
  obtain ⟨listed, sound⟩ := List.mem_filter.1 h
  refine ⟨listed, fun scratch core => ?_⟩
  simpa [scratch, core] using sound

theorem exec_bankRebuildDone_in {c : CoreId} {s : State} (h : (s.core c).out = false) : exec (.bankRebuildDone c) s
    = .next (applyStretch ((mended s c).setCore c { s.core c with degraded := [] }) c) := by
  rw [exec_bankRebuildDone, execBankRebuildDone, if_neg (ne_true_of_eq_false h)]
  rfl

/-! Translations of the host (R223): a completion and an invalidation. -/

@[simp] theorem dieTlb_setDieTlb (s : State) (d : DieId) (l : List TlbEntry) : dieTlb (setDieTlb s d l) d = l := rget_rset_same ..

@[simp] theorem dieTlb_emit (s : State) (o : Out) (d : DieId) : dieTlb (s.emit o) d = dieTlb s d := rfl

/-- An entry answers a request for a page of its run. -/
def answers (e : TlbEntry) (a : BitVec 20 × Nat) : Bool := a.1 == e.pasid && decide (e.page ≤ a.2) && decide (a.2 < e.page + e.count)

/-- The state with an entry put first among a die's translations, the requests that it answers gone. -/
def translationAdded (s : State) (d : DieId) (e : TlbEntry) : State :=
  setDieTlb { s with asks := rset s.asks (BitVec.ofNat 3 d.val) ((rget s.asks (BitVec.ofNat 3 d.val)).filter (fun a => !answers e a)) } d
    ((e :: (dieTlb s d).filter (fun u => !tlbMeets u e.pasid e.page e.count)).take 16384)

theorem retryCompletions_none {s : State} (h : s.completions = []) : retryCompletions s = s := by
  rw [retryCompletions, h, List.foldl_nil, ← h]

theorem retryInbox_none {s : State} (h : s.inbox = []) : retryInbox s = s := by
  rw [retryInbox, h, List.foldl_nil, ← h]

theorem retryCfg_idle {s : State} (h : cfgBusy s = false) : retryCfg s = s := if_neg fun busy => ne_true_of_eq_false h busy.1

/-- A completion that answers a request, with nothing that waits to be tried again. -/
theorem exec_atsTranslationCompletion_asked {d : DieId} {e : TlbEntry} {s : State}
    (asked : (rget s.asks (BitVec.ofNat 3 d.val)).any (answers e) = true) (hc : s.completions = []) (hi : s.inbox = []) (hb : cfgBusy s = false) :
    exec (.atsTranslationCompletion d e) s = .next (translationAdded s d e) := by
  have tried : retryInbox (retryCfg (retryCompletions (translationAdded s d e))) = translationAdded s d e := by
    rw [retryCompletions_none (s := translationAdded s d e) hc, retryCfg_idle (s := translationAdded s d e) hb,
      retryInbox_none (s := translationAdded s d e) hi]
  rw [← tried]
  exact if_neg (by rw [Bool.not_eq_true']; exact ne_false_of_eq_true asked)

theorem answered_not_asked {s : State} {d : DieId} {e : TlbEntry} {a : BitVec 20 × Nat} (h : answers e a = true) :
    a ∉ rget (translationAdded s d e).asks (BitVec.ofNat 3 d.val) := by
  have asks : rget (translationAdded s d e).asks (BitVec.ofNat 3 d.val) = (rget s.asks (BitVec.ofNat 3 d.val)).filter (fun a => !answers e a) :=
    rget_rset_same ..
  rw [asks, List.mem_filter, h]
  exact fun both => Bool.noConfusion both.2

theorem mem_translationAdded (s : State) (d : DieId) (e : TlbEntry) : e ∈ dieTlb (translationAdded s d e) d := by
  rw [translationAdded, dieTlb_setDieTlb]
  exact List.mem_cons_self

/-- With room in the IOTLB every entry without a page of the new one's run stays. -/
theorem mem_translationAdded_of_room {s : State} {d : DieId} {e u : TlbEntry} (room : (dieTlb s d).length < 16384) (hu : u ∈ dieTlb s d)
    (apart : tlbMeets u e.pasid e.page e.count = false) : u ∈ dieTlb (translationAdded s d e) d := by
  have all : ((dieTlb s d).filter (fun u => !tlbMeets u e.pasid e.page e.count)).length ≤ _ := List.length_filter_le ..
  rw [translationAdded, dieTlb_setDieTlb, List.take_of_length_le (by rw [List.length_cons]; omega)]
  exact List.mem_cons_of_mem _ (List.mem_filter.2 ⟨hu, by rw [apart]; rfl⟩)

/-- What the write-backs and stores of an invalidation leave of the state: the translations, and what the device has told the outside. -/
def told (s : State) := (s.tlb, s.out)

theorem foldl_told {β : Type} {f : State → β → State} (h : ∀ s b, told (f s b) = told s) (l : List β) (s : State) :
    told (l.foldl f s) = told s :=
  List.foldlRecOn (motive := fun t => told t = told s) l f rfl (fun t ht b _ => (h t b).trans ht)

theorem spendMem_told (s : State) (p : PartId) (bs : List Nat) : told (spendMem s p bs) = told s := by
  unfold spendMem
  split
  · rfl
  · simp only; split <;> rfl

theorem writeBack_told (s : State) (c : CoreId) (l : NearLine) : told (writeBack s c l) = told s := by
  unfold writeBack
  split
  · rfl
  · split
    · exact spendMem_told ..
    · rfl

theorem nearWriteBack_told (s : State) (c : CoreId) (sel : W64 → Bool) : told (nearWriteBack s c sel) = told s := by
  refine foldl_told (fun t l => ?_) _ s
  split
  · exact writeBack_told ..
  · rfl

theorem storeAgain_told (c : CoreId) (x : CtxId) (own : Bool) (s : State) (l : GateLine) : told (storeAgain c x own s l) = told s := by
  unfold storeAgain
  simp only
  split <;> rfl

theorem dropPages_told (page n : Nat) (s : State) (c : CoreId) : told (dropPages page n s c) = told s :=
  (foldl_told (fun s x => (foldl_told (storeAgain_told c x true) _ _).trans (foldl_told (storeAgain_told c x false) _ s)) _ _).trans
    (nearWriteBack_told ..)

namespace Alike

theorem refl (s : State) : Alike s s := ⟨.refl s, fun _ => rfl, rfl, rfl⟩

theorem nextId (s : State) (n : Nat) : Alike s { s with nextId := n } := ⟨⟨fun _ => rfl, rfl, fun _ => ⟨rfl, rfl⟩⟩, fun _ => rfl, rfl, rfl⟩

theorem foldl {β : Type} {f : State → β → State} (h : ∀ s b, Alike s (f s b)) (l : List β) (s : State) : Alike s (l.foldl f s) :=
  List.foldlRecOn (motive := Alike s) l f (refl s) (fun t ht b _ => ht.trans (h t b))

end Alike

theorem storeAgain_alike (c : CoreId) (x : CtxId) (own : Bool) (s : State) (l : GateLine) : Alike s (storeAgain c x own s l) := by
  unfold storeAgain
  simp only
  split
  · exact .refl s
  · exact (Alike.setCtx s c x _).trans (.nextId _ _)

/-- A core's near cache holds no dirty byte of some pages. -/
def CleanPages (page n : Nat) (near : List NearLine) : Prop :=
  ∀ l ∈ near, ∀ j : Nat, l.dirty.getLsbD j = true → inPages page n (l.addr + BitVec.ofNat 64 j) = false

theorem nearWriteBack_clean {s : State} {c : CoreId} {page n : Nat} (h : CleanPages page n (s.core c).near) :
    nearWriteBack s c (inPages page n) = s := by
  refine List.foldlRecOn (motive := fun t => t = s) _ _ rfl (fun t ht l hl => ?_)
  have clean : (List.range 64).any (fun i => wbit l.dirty i && inPages page n (l.addr + BitVec.ofNat 64 i)) = false := by
    rw [List.any_eq_false]
    intro j _ both
    rw [Bool.and_eq_true, wbit_eq] at both
    exact ne_true_of_eq_false (h l hl j both.1) both.2
  rw [if_neg (fun dirty => ne_true_of_eq_false clean dirty.2), ht]

theorem dropPages_alike {page n : Nat} {s : State} {c : CoreId} (h : CleanPages page n (s.core c).near) : Alike s (dropPages page n s c) := by
  rw [dropPages, nearWriteBack_clean h]
  exact .foldl (fun s x => (Alike.foldl (storeAgain_alike c x false) _ s).trans (.foldl (storeAgain_alike c x true) _ _)) _ s

/-- The cores of a die. -/
def dieCores (d : DieId) : List CoreId := (List.finRange 64).map (fun k => ⟨d.val * 64 + k.val, by omega⟩)

theorem dieOf_of_mem_dieCores {d : DieId} {c : CoreId} (h : c ∈ dieCores d) : dieOf c = d := by
  obtain ⟨k, -, rfl⟩ := List.mem_map.1 h
  exact Fin.ext (by simp only [dieOf]; omega)

/-- The accesses of a die's cores of a process that used some pages have performed, or translate afresh. -/
def pagesDropped (d : DieId) (pasid : BitVec 20) (page n : Nat) (s : State) : State :=
  ((dieCores d).filter (fun c => (s.part (s.partIdOf c)).pid == pasid)).foldl (dropPages page n) s

theorem pagesDropped_told (d : DieId) (pasid : BitVec 20) (page n : Nat) (s : State) : told (pagesDropped d pasid page n s) = told s :=
  foldl_told (dropPages_told page n) _ s

theorem pagesDropped_mem {d : DieId} (pasid : BitVec 20) {page n : Nat} {s : State} (h : ∀ c, dieOf c = d → CleanPages page n (s.core c).near) :
    (pagesDropped d pasid page n s).mem = s.mem := by
  refine Alike.mem (List.foldlRecOn (motive := Alike s) _ _ (.refl s) (fun t alike c hc => alike.trans (dropPages_alike ?_)))
  rw [alike.near]
  exact h c (dieOf_of_mem_dieCores (List.mem_filter.1 hc).1)

/-- The entries of the pages go, the others stay, and the completion returns. -/
theorem exec_atsInvalidationRequest_next (d : DieId) (pasid : BitVec 20) (page n : Nat) (s : State) : exec (.atsInvalidationRequest d pasid page n) s
    = .next ((setDieTlb (pagesDropped d pasid page n s) d ((dieTlb s d).filter (fun u => !tlbMeets u pasid page n))).emit (.atsDone d pasid)) := by
  have tlb : (pagesDropped d pasid page n s).tlb = s.tlb := congrArg Prod.fst (pagesDropped_told d pasid page n s)
  rw [dieTlb, ← tlb]
  rfl

/-! The host's answer to a page request (R224, R369). -/

/-- The state with a core's only page request answered: gone, with Success the page translated afresh. -/
def pageAnswered (s : State) (c : CoreId) (va : W64) (r : PriAnswer) : State :=
  let s := { s with pages := rset s.pages (BitVec.ofNat 3 (dieOf c).val) [] }
  if r = .success then
    setDieTlb s (dieOf c) ((dieTlb s (dieOf c)).filter (fun u => !tlbMeets u (s.part (s.partIdOf c)).pid (va.toNat / 4096) 1))
  else s

theorem pageAnswered_refused {s : State} {c : CoreId} {va : W64} {r : PriAnswer} (h : r ≠ .success) :
    pageAnswered s c va r = { s with pages := rset s.pages (BitVec.ofNat 3 (dieOf c).val) [] } := if_neg h

theorem pageAnswered_success (s : State) (c : CoreId) (va : W64) : pageAnswered s c va .success
    = setDieTlb { s with pages := rset s.pages (BitVec.ofNat 3 (dieOf c).val) [] } (dieOf c)
      ((dieTlb s (dieOf c)).filter (fun u => !tlbMeets u (s.part (s.partIdOf c)).pid (va.toNat / 4096) 1)) := rfl

@[simp] theorem pageAnswered_cores (s : State) (c : CoreId) (va : W64) (r : PriAnswer) : (pageAnswered s c va r).cores = s.cores := by
  unfold pageAnswered; simp only; split <;> rfl

@[simp] theorem pageAnswered_mem (s : State) (c : CoreId) (va : W64) (r : PriAnswer) : (pageAnswered s c va r).mem = s.mem := by
  unfold pageAnswered; simp only; split <;> rfl

@[simp] theorem pageAnswered_ctx (s : State) (c : CoreId) (va : W64) (r : PriAnswer) (d : CoreId) (x : CtxId) :
    (pageAnswered s c va r).ctx d x = s.ctx d x := by simp only [State.ctx, State.core, pageAnswered_cores]

@[simp] theorem pageAnswered_engine (s : State) (c : CoreId) (va : W64) (r : PriAnswer) (d : CoreId) (x : CtxId) :
    (pageAnswered s c va r).engine d x = s.engine d x := by simp only [State.engine, State.core, pageAnswered_cores]

theorem exec_priPageResponse_lone {c : CoreId} {x : CtxId} {s : State} {engine : Bool} {va : W64} (r : PriAnswer)
    (h : rget s.pages (BitVec.ofNat 3 (dieOf c).val) = [PageAsk.mk c x engine va]) : exec (.priPageResponse c x r) s
      = .next (if engine then answerEngine (pageAnswered s c va r) c x va r else answerCtx (pageAnswered s c va r) c x va r) := by
  have found : (rget s.pages (BitVec.ofNat 3 (dieOf c).val)).find? (fun a => a.core == c && a.ctx == x) = some (.mk c x engine va) := by
    rw [h]; exact List.find?_cons_of_pos (by simp)
  have gone : (rget s.pages (BitVec.ofNat 3 (dieOf c).val)).erase (.mk c x engine va) = [] := by rw [h, List.erase_cons_head]
  rw [exec_priPageResponse, execPriPageResponse]
  simp only [found, gone]
  rfl

theorem answerCtx_waiting {s : State} {c : CoreId} {x : CtxId} {va : W64} {f : Late} (r : PriAnswer) (asked : (s.ctx c x).asked = some (va, none))
    (waits : (s.ctx c x).phase = .waitPage f) : answerCtx s c x va r = answerPage s c x f r := by
  rw [answerCtx]
  simp only [if_neg (not_not.2 asked), waits]

/-- A context that runs on keeps the answer. -/
theorem answerCtx_running {s : State} {c : CoreId} {x : CtxId} {va : W64} (r : PriAnswer) (asked : (s.ctx c x).asked = some (va, none))
    (runs : (s.ctx c x).phase = .running) : answerCtx s c x va r = s.setCtx c x { s.ctx c x with asked := some (va, some r) } := by
  rw [answerCtx]
  simp only [if_neg (not_not.2 asked), runs]

theorem answerPage_refused {s : State} {c : CoreId} {x : CtxId} {f : Late} {r : PriAnswer} (h : r ≠ .success) : answerPage s c x f r
    = deliver (s.setCtx c x { s.ctx c x with asked := none }) c x .page (f.info ||| 1) f.pc f.words := by
  cases r with
  | success => exact absurd rfl h
  | invalidRequest => rfl
  | responseFailure => rfl

theorem answerPage_success (s : State) (c : CoreId) (x : CtxId) (f : Late) : answerPage s c x f .success
    = (s.setCtx c x { s.ctx c x with asked := none }).setCtx c x { s.ctx c x with asked := none, phase := (s.ctx c x).going } := by
  rw [answerPage, State.ctx_setCtx_same]
  rfl

theorem answerEngine_lone {s : State} {c : CoreId} {x : CtxId} {va : W64} {k : Copy} (r : PriAnswer) (h : (s.engine c x).copies = [k])
    (waits : k.page = some va) : answerEngine s c x va r
      = if r = .success then putCopy s c x { k with page := none } else failCopy s c x k .page (va ||| 1) := by
  have mine : (s.engine c x).copies.filter (fun k => k.page == some va) = [k] := by
    rw [h]; exact List.filter_eq_self.2 (by simp [waits])
  rw [answerEngine, mine, List.foldl_cons, List.foldl_nil]

theorem putCopy_lone {s : State} {c : CoreId} {x : CtxId} {q k : Copy} (h : (s.engine c x).copies = [q]) (same : q.id = k.id) :
    ((putCopy s c x k).engine c x).copies = [k] := by
  rw [putCopy, State.engine_setEngine_same]
  simp only [h, List.map_cons, List.map_nil, if_pos same]

section
variable {c : CoreId} {x : CtxId} {s : State} {va : W64} {r : PriAnswer} {f : Late}
  (h : rget s.pages (BitVec.ofNat 3 (dieOf c).val) = [PageAsk.mk c x false va]) (asked : (s.ctx c x).asked = some (va, none))
include h asked

theorem exec_priPageResponse_waiting (waits : (s.ctx c x).phase = .waitPage f) :
    exec (.priPageResponse c x r) s = .next (answerPage (pageAnswered s c va r) c x f r) := by
  rw [exec_priPageResponse_lone r h, if_neg Bool.false_ne_true,
    answerCtx_waiting r (by rw [pageAnswered_ctx, asked]) (by rw [pageAnswered_ctx, waits])]

/-- With Success a context that waits goes on, and its page is translated afresh. -/
theorem exec_priPageResponse_success (waits : (s.ctx c x).phase = .waitPage f) : ∃ t, exec (.priPageResponse c x .success) s = .next t ∧
    (t.ctx c x).phase = (s.ctx c x).going ∧ (t.ctx c x).asked = none ∧ (t.ctx c x).r = (s.ctx c x).r ∧
    rget t.pages (BitVec.ofNat 3 (dieOf c).val) = [] ∧
    (∀ e ∈ dieTlb t (dieOf c), tlbMeets e (s.part (s.partIdOf c)).pid (va.toNat / 4096) 1 = false) ∧ t.mem = s.mem := by
  rw [exec_priPageResponse_waiting h asked waits, answerPage_success, pageAnswered_ctx]
  refine ⟨_, rfl, ?_, ?_, ?_, rget_rset_same .., fun e (he : e ∈ dieTlb (pageAnswered s c va .success) (dieOf c)) => ?_, rfl⟩
  iterate 3 rw [State.ctx_setCtx_same]
  rw [pageAnswered_success, dieTlb_setDieTlb] at he
  simpa using (List.mem_filter.1 he).2

/-- With any other answer it meets PAGE. -/
theorem exec_priPageResponse_refused (waits : (s.ctx c x).phase = .waitPage f) (no : r ≠ .success) : ∃ t, exec (.priPageResponse c x r) s
    = .next (deliver t c x .page (f.info ||| 1) f.pc f.words) ∧ (t.ctx c x).asked = none ∧ (t.ctx c x).r = (s.ctx c x).r ∧ t.mem = s.mem := by
  rw [exec_priPageResponse_waiting h asked waits, answerPage_refused no, pageAnswered_ctx]
  refine ⟨_, rfl, ?_, ?_, pageAnswered_mem ..⟩
  iterate 2 rw [State.ctx_setCtx_same]

/-- The answer that comes while its context still runs is kept. -/
theorem exec_priPageResponse_running (runs : (s.ctx c x).phase = .running) : ∃ t, exec (.priPageResponse c x r) s = .next t ∧
    (t.ctx c x).asked = some (va, some r) ∧ (t.ctx c x).phase = .running ∧ (t.ctx c x).r = (s.ctx c x).r ∧ t.mem = s.mem := by
  rw [exec_priPageResponse_lone r h, if_neg Bool.false_ne_true,
    answerCtx_running r (by rw [pageAnswered_ctx, asked]) (by rw [pageAnswered_ctx, runs]), pageAnswered_ctx]
  refine ⟨_, rfl, ?_⟩
  rw [State.ctx_setCtx_same]
  exact ⟨rfl, runs, rfl, pageAnswered_mem ..⟩

end

/-- A copy that waits for its page goes on with Success, and fails with PAGE else. -/
theorem exec_priPageResponse_engine {c : CoreId} {x : CtxId} {s : State} {va : W64} {k : Copy} (r : PriAnswer)
    (h : rget s.pages (BitVec.ofNat 3 (dieOf c).val) = [PageAsk.mk c x true va]) (copies : (s.engine c x).copies = [k])
    (waits : k.page = some va) : exec (.priPageResponse c x r) s = .next (if r = .success then
      putCopy (pageAnswered s c va r) c x { k with page := none } else failCopy (pageAnswered s c va r) c x k .page (va ||| 1)) := by
  rw [exec_priPageResponse_lone r h, if_pos rfl, answerEngine_lone r (by rw [pageAnswered_engine, copies]) waits]

/-! Reported write-backs (R240, R263). -/

theorem exec_writebackPoison_tier {c : CoreId} {line : W64} {s : State} {e : Extent} {pa : Nat}
    (h : placeByte s c .peek (lineOf line) = .ok (.tier e pa)) : ∃ t, exec (.writebackPoison c line) s = .next t ∧
      (Place.tier e pa).key ∈ t.poison ∧ (t.core c).poisoned = (s.core c).poisoned ++ [lineOf line] ∧ t.mem = s.mem := by
  rw [exec_writebackPoison, execWritebackPoison]
  simp only [h]
  refine ⟨_, rfl, ?_, congrArg Core.poisoned (State.core_setCore_same ..), rfl⟩
  rw [State.setCore_poison]
  split
  · next listed => exact List.contains_iff_mem.1 listed
  · exact List.mem_cons_self

/-- Settles O47: one lemma per event, the answers of the host by who has asked. -/
theorem refreshAndPower : Obligations.RefreshAndPower := by
  refine ⟨fun d s => congrArg Host.Outcome.next (setRefresh_self s d), fun d s => ?_, fun d s h late => ?_, fun d s n h auto past => ?_,
    fun tier bank s => ⟨fun low => if_pos low, fun high => if_neg (Nat.not_lt.2 high)⟩, exec_powerAlarm_next, exec_powerAlarmEnd_next,
    fun s n h long => exec_powerExcessNotify_due h long, fun c bank s h => ?_, fun c s h => ?_, fun d e n s asked lo hi hc hi' hb => ?_,
    fun d pasid page n s => ?_, fun c x r s va h asked => ⟨fun f waits ok => ?_, fun f waits no => exec_priPageResponse_refused h asked waits no,
      exec_priPageResponse_running h asked⟩, fun c x r s va k h copies waits => ⟨fun ok => ?_, fun no => ?_⟩,
    fun c line s e pa h => exec_writebackPoison_tier h⟩
  · obtain ⟨due, next⟩ := exec_heartbeat_next d s
    refine ⟨_, next, ?_⟩
    rw [refreshOf_setRefresh]
    exact ⟨rfl, fun soon => if_pos soon, fun late => if_neg (Nat.not_le.2 late), rfl⟩
  · refine ⟨_, exec_autonomousRefresh_due h late, ?_⟩
    rw [refreshOf_setRefresh]
    exact ⟨rfl, rfl, rfl⟩
  · refine ⟨_, exec_refreshOwnershipReturn_due h auto past, ?_⟩
    rw [refreshOf_setRefresh]
    exact ⟨rfl, rfl, rfl, rfl⟩
  · have r := restretched s c { s.core c with degraded := [bank.val] }
    exact ⟨_, exec_bankFailure_first bank h, r.degraded, r.out,
      r.four_le_stretch (.inr (List.cons_ne_nil _ [])), (congrArg State.mem r.outer :)⟩
  · have r := restretched (mended s c) c { s.core c with degraded := [] }
    have ecc := (congrArg State.ecc r.outer :)
    exact ⟨_, exec_bankRebuildDone_in h, r.degraded, r.stretch, fun e he => mem_mended (ecc ▸ he), (congrArg State.mem r.outer :)⟩
  · have answer : answers e (e.pasid, n) = true := by simp [answers, lo, hi]
    exact ⟨_, exec_atsTranslationCompletion_asked (List.any_eq_true.2 ⟨_, asked, answer⟩) hc hi' hb, mem_translationAdded s d e,
      answered_not_asked answer, fun room u => mem_translationAdded_of_room room, rfl⟩
  · have out : (pagesDropped d pasid page n s).out = s.out := congrArg Prod.snd (pagesDropped_told d pasid page n s)
    refine ⟨_, exec_atsInvalidationRequest_next d pasid page n s, ?_⟩
    rw [dieTlb_emit, dieTlb_setDieTlb]
    refine ⟨fun e he => ?_, fun e he apart => List.mem_filter.2 ⟨he, by rw [apart]; rfl⟩, congrArg (· ++ [Out.atsDone d pasid]) out,
      fun clean => pagesDropped_mem pasid fun c hc l hl j => clean c l j hc hl⟩
    simpa using (List.mem_filter.1 he).2
  · subst ok
    exact exec_priPageResponse_success h asked waits
  · refine ⟨_, (exec_priPageResponse_engine r h copies waits).trans (congrArg _ (if_pos ok)), ?_, pageAnswered_mem ..⟩
    exact putCopy_lone (q := k) (by rw [pageAnswered_engine, copies]) rfl
  · rw [exec_priPageResponse_engine r h copies waits, if_neg no, pageAnswered_refused no]

end Sys2Proof.Machine

namespace Sys2Proof.Machine

/-! Tiles of a pool (R266): the tile of a handle after a write, and what leaves the pools as they are. -/

@[simp] theorem aget_aset_same {α : Type} (d : α) (l : List (Nat × α)) (n : Nat) (x : α) : aget d (aset l n x) n = x := by
  induction l with
  | nil => simp [aset, aget]
  | cons p l ih =>
    rw [aset]
    split
    · simp [aget]
    · split
      · simp [aget]
      · next other => rw [aget, if_neg (Ne.symm other), ih]

@[simp] theorem Pool.tile_setTile_same (p : Pool) (i : Nat) (t : Tile) : (p.setTile i t).tile i = t := aget_aset_same ..

@[simp] theorem State.pool_setPool_same (s : State) (c : CoreId) (q : Fin 16) (p : Pool) : (s.setPool c q p).pool c q = p := by
  simp [State.pool, State.setPool]

@[simp] theorem State.pool_setCtx (s : State) (c d : CoreId) (x : CtxId) (y : Ctx) (q : Fin 16) :
    (s.setCtx c x y).pool d q = s.pool d q :=
  (congrArg (fun k : Core => k.pools[q.val]'q.isLt) (core_setCtx_rest s c d x y) :)

@[simp] theorem State.ctx_setPool (s : State) (c d : CoreId) (q : Fin 16) (p : Pool) (x : CtxId) :
    (s.setPool c q p).ctx d x = s.ctx d x := by
  by_cases h : d = c
  · subst h; simp [State.ctx, State.setPool]
  · simp [State.ctx, State.setPool, State.core_setCore_ne _ _ _ _ h]

@[simp] theorem tileOf_setTile (s : State) (h : W64) (t : Tile) : tileOf (setTile s h t) h = t := by
  rw [tileOf, poolOf, setTile, State.pool_setPool_same, Pool.tile_setTile_same]

/-- Ending the loads that wait for a tile changes contexts alone. -/
theorem staleReads_keeps {α : Type} {g : State → α} (ctx : ∀ s c x y, g (s.setCtx c x y) = g s) (s : State) (h : W64) :
    g (staleReads s h) = g s := by
  refine List.foldlRecOn (motive := fun t => g t = g s) _ _ rfl (fun t ht r _ => ?_)
  refine List.foldlRecOn (motive := fun t => g t = g s) _ _ ht (fun u hu x _ => ?_)
  simp only
  split
  · exact (ctx ..).trans hu
  · exact hu

@[simp] theorem staleReads_mem (s : State) (h : W64) : (staleReads s h).mem = s.mem :=
  staleReads_keeps (g := State.mem) (fun _ _ _ _ => rfl) s h

@[simp] theorem poolOf_staleReads (s : State) (h k : W64) : poolOf (staleReads s h) k = poolOf s k :=
  staleReads_keeps (g := fun s => poolOf s k) (fun s c x y => State.pool_setCtx s c _ x y _) s h

@[simp] theorem tileOf_staleReads (s : State) (h k : W64) : tileOf (staleReads s h) k = tileOf s k := by
  rw [tileOf, poolOf_staleReads, tileOf]

/-! The life of a tile (R266, R271, R276, R279). -/

/-- A handle whose tile is FREE, or spent while its team is in quarantine, matches nothing (R267). -/
theorem handleMatches_gone {s : State} {h : W64} (gone : (tileOf s h).state = .free ∨ (tileOf s h).spent = true) :
    handleMatches s h = false := by
  rcases gone with free | spent
  · simp [handleMatches, free]
  · simp [handleMatches, spent]

/-- A tile whose team is not in quarantine is FREE when it is given up, and of the next generation. -/
theorem tileOf_giveUpTile {s : State} {h : W64} (live : quarantined s (tileOf s h).team = false) :
    tileOf (giveUpTile s h) h = (tileOf s h).toFree := by
  simp [giveUpTile, live]

/-- The tile that is given up is gone for its readers, in quarantine or not. -/
theorem giveUpTile_gone (s : State) (h : W64) :
    (tileOf (giveUpTile s h) h).state = .free ∨ (tileOf (giveUpTile s h) h).spent = true := by
  cases killed : quarantined s (tileOf s h).team with
  | false => exact .inl (by rw [tileOf_giveUpTile killed]; rfl)
  | true => exact .inr (by simp [giveUpTile, killed, Tile.spent])

@[simp] theorem tileOf_freeTile (s : State) (h : W64) : tileOf (freeTile s h) h = tileOf (giveUpTile s h) h := tileOf_staleReads ..

@[simp] theorem freeTile_mem (s : State) (h : W64) : (freeTile s h).mem = s.mem := staleReads_mem ..

/-- A spend that is not the last leaves one read less; the last one gives the tile up. -/
theorem spendTile_more {s : State} {h : W64} (more : 2 ≤ (tileOf s h).reads.toNat) :
    spendTile s h = setTile s h { tileOf s h with reads := (tileOf s h).reads - 1 } := if_neg (Nat.not_le.2 more)

theorem spendTile_last {s : State} {h : W64} (last : (tileOf s h).reads.toNat ≤ 1) : spendTile s h = giveUpTile s h := if_pos last

/-! talloc (R274). -/

@[simp] theorem pool_startOp (s : State) (d : OpDest) (kind : OpKind) (c : CoreId) (q : Fin 16) :
    (startOp s d kind).pool c q = s.pool c q := State.pool_setCtx ..

theorem startOp_job (s : State) (d : OpDest) (kind : OpKind) : (startOp s d kind).me.job = s.me.job :=
  (congrArg Ctx.job (State.me_setMe s _) :)

/-- A request joins the end of its pool's queue (R270) and changes no context. -/
theorem waiting_askTile (s : State) (c : CoreId) (q : Fin 16) (r : PoolReq) :
    ((askTile s c q r).pool c q).waiting = (s.pool c q).waiting ++ [r] := by rw [askTile, State.pool_setPool_same]

theorem me_askTile (s : State) (c : CoreId) (q : Fin 16) (r : PoolReq) : (askTile s c q r).me = s.me := State.ctx_setPool ..

/-- The request that a talloc makes for its context. -/
def tallocReq (f : RRI) (s : State) : PoolReq :=
  { who := .ctx s.issue.ctx, share := BitVec.ofNat 2 (f.imm.toNat / 16), reads := BitVec.ofNat 12 (wbits (s.src.getS f.a) 0 12),
    team := s.me.job.team, since := s.cycle }

/-- The operation of a talloc that waits for its grant. -/
def tallocOp (f : RRI) (s : State) : OpKind :=
  .talloc (BitVec.ofNat 4 (tallocPool f).val) (BitVec.ofNat 2 (f.imm.toNat / 16)) (BitVec.ofNat 12 (wbits (s.src.getS f.a) 0 12))

section
variable {f : RRI} {s : State} (h : Executes s f.g [.s f.d, .s f.a])
include h

/-- No reads, or a pool that is not valid. -/
theorem exec_talloc_refused
    (bad : wbits (s.src.getS f.a) 0 12 = 0 ∨ (s.pool s.issue.core (tallocPool f)).valid = false) :
    exec (.talloc f) s = .next (raise s .bounds (BitVec.ofNat 64 (f.imm.toNat + wbits (s.src.getS f.a) 0 12 * 2 ^ 8)) false) := by
  rw [exec_talloc, execTalloc, slot_sourced (ds := [.s f.d]) (rs := [(.s f.a, false)]) _ h]
  simp only [Bool.not_eq_true', if_pos bad, finish_trap]

/-- Else its operation starts, and its request is in the pool's queue. -/
theorem exec_talloc_asks (reads : wbits (s.src.getS f.a) 0 12 ≠ 0) (valid : (s.pool s.issue.core (tallocPool f)).valid = true) :
    exec (.talloc f) s = .next (askTile (startOp s (opS f.d) (tallocOp f s)) s.issue.core (tallocPool f) (tallocReq f s)) := by
  have good : ¬ (wbits (s.src.getS f.a) 0 12 = 0 ∨ (s.pool s.issue.core (tallocPool f)).valid = false) := by simp [reads, valid]
  rw [exec_talloc, execTalloc, slot_sourced (ds := [.s f.d]) (rs := [(.s f.a, false)]) _ h]
  simp only [Bool.not_eq_true', if_neg good, finish_ok, startOp_job]
  rfl

end

/-! tfin and tdrop (R275 to R277). -/

/-- What keeps a context of the issuing core from a handle, as the check asks it. -/
theorem not_usable_iff {s : State} {h : W64} :
    ¬ Usable s h ↔
      quadOf (handleCore h) ≠ quadOf s.issue.core ∨ (s.core (handleCore h)).out = true ∨ ¬ (poolOf s h).valid = true := by
  rw [Usable, not_and_or, not_and_or, Bool.not_eq_false]

theorem handleCheck_unusable {s : State} {h : W64} (bad : ¬ Usable s h) : handleCheck s h = .error (.trap .tstale (tstaleInfo h 3)) :=
  if_pos (not_usable_iff.1 bad)

theorem handleCheck_usable {s : State} {h : W64} (good : Usable s h) :
    handleCheck s h = if ¬ handleMatches s h = true then .error (.trap .tstale (tstaleInfo h 1)) else .ok () :=
  if_neg (fun bad => not_usable_iff.2 bad good)

theorem handleCheck_stale {s : State} {h : W64} (good : Usable s h) (stale : handleMatches s h = false) :
    handleCheck s h = .error (.trap .tstale (tstaleInfo h 1)) := by
  rw [handleCheck_usable good, if_pos (ne_true_of_eq_false stale)]

theorem handleCheck_matches {s : State} {h : W64} (m : Matches s h) : handleCheck s h = .ok () := by
  obtain ⟨good, same⟩ := m
  rw [handleCheck_usable good, if_neg (not_not.2 same)]

section
variable {f : RR} {s : State} (h : Executes s f.g [.s f.a])
include h

/-- A handle that the check refuses makes both raise its cause. -/
theorem exec_tile_refused {info : W64} (bad : handleCheck s (s.src.getS f.a) = .error (.trap .tstale info)) :
    exec (.tfin f) s = .next (raise s .tstale info false) ∧ exec (.tdrop f) s = .next (raise s .tstale info false) := by
  rw [exec_tfin, execTfin, slot_sourced (ds := []) (rs := [(.s f.a, f.ta)]) _ h, exec_tdrop, execTdrop,
    slot_sourced (ds := []) (rs := [(.s f.a, f.ta)]) _ h]
  simp only [bad, need_error, finish_trap, and_self]

/-- With a handle that matches, tfin and tdrop look at the tile's state. -/
theorem exec_tfin_checked (good : handleCheck s (s.src.getS f.a) = .ok ()) :
    exec (.tfin f) s = if (tileOf s (s.src.getS f.a)).state = .published
      then .next (raise s .tstale (tstaleInfo (s.src.getS f.a) 2) false)
      else .next (serveReads (publishTile (release (drainMe s) s.issue.core 2 (bound s.me.r.bind 3 (s.src.getS f.a))) (s.src.getS f.a))
        (s.src.getS f.a)) := by
  rw [exec_tfin, execTfin, slot_sourced (ds := []) (rs := [(.s f.a, f.ta)]) _ h]
  simp only [good, need_ok]
  split <;> rfl

theorem exec_tdrop_checked (good : handleCheck s (s.src.getS f.a) = .ok ()) :
    exec (.tdrop f) s = .next (if (tileOf s (s.src.getS f.a)).state = .open then freeTile s (s.src.getS f.a)
      else spendTile s (s.src.getS f.a)) := by
  rw [exec_tdrop, execTdrop, slot_sourced (ds := []) (rs := [(.s f.a, f.ta)]) _ h]
  simp only [good, need_ok, finish_ok]

end

/-- Settles O32: talloc by whether its request can be made, tfin and tdrop by the check of the handle and the tile's state, the life of a
tile by what giving it up leaves (`giveUpTile_gone`, `tileOf_giveUpTile`). -/
theorem tiles : Obligations.Tiles := by
  refine ⟨fun f s h => ⟨exec_talloc_refused h, fun n v => ?_⟩, fun f s h => ?_, fun s h => ?_⟩
  · refine ⟨_, exec_talloc_asks h n v, fun d => ?_, ?_⟩
    · rw [me_askTile, startOp_regs _ _ _ d, takeS_eq _ _ d, fullS_markS_same _ _ _ d]
    · rw [waiting_askTile, pool_startOp]; rfl
  · refine ⟨fun bad => exec_tile_refused h (handleCheck_unusable bad),
      fun good stale => exec_tile_refused h (handleCheck_stale good stale), fun m published => ?_, fun m opened => ?_⟩
    all_goals rw [exec_tfin_checked h (handleCheck_matches m), exec_tdrop_checked h (handleCheck_matches m)]
    · rw [published]; exact ⟨rfl, rfl⟩
    · rw [opened]; exact ⟨rfl, rfl⟩
  · have gone := giveUpTile_gone s h
    have freed (live : quarantined s (tileOf s h).team = false) :
        (tileOf (giveUpTile s h) h).state = .free ∧ (tileOf (giveUpTile s h) h).gen = (tileOf s h).gen + 1 := by
      rw [tileOf_giveUpTile live]; exact ⟨rfl, rfl⟩
    refine ⟨handleMatches_gone (by rwa [tileOf_freeTile]), freeTile_mem s h, by rwa [tileOf_freeTile], ?_, ?_, fun more => ?_,
      fun last => ?_⟩
    · rw [publishTile, tileOf_setTile]
    · rw [publishTile, tileOf_setTile]
    · rw [spendTile_more more, tileOf_setTile]; exact ⟨rfl, rfl, rfl⟩
    · rw [spendTile_last last]; exact ⟨handleMatches_gone gone, rfl, freed⟩

end Sys2Proof.Machine

namespace Sys2Proof.Machine

/-! What the device reset leaves (R266, R388, R428). -/

@[simp] theorem core_reset (c : CoreId) : State.reset.core c = Core.zero := Vector.getElem_replicate ..

@[simp] theorem ctx_reset (c : CoreId) (x : CtxId) : State.reset.ctx c x = Ctx.zero := by
  rw [State.ctx, core_reset]; exact Vector.getElem_replicate ..

@[simp] theorem engine_reset (c : CoreId) (x : CtxId) : State.reset.engine c x = Engine.zero := by
  rw [State.engine, core_reset]; exact Vector.getElem_replicate ..

@[simp] theorem part_reset (p : PartId) : State.reset.part p = Part.zero := Vector.getElem_replicate ..

/-- No pool of a reset device lists a tile: each is one never granted (R266). -/
@[simp] theorem tile_reset (c : CoreId) (q : Fin 16) (i : Nat) : (State.reset.pool c q).tile i = Tile.zero := by
  have empty : (State.reset.pool c q).tiles = [] := by
    rw [State.pool, core_reset]
    exact congrArg Pool.tiles (Vector.getElem_replicate ..)
  rw [Pool.tile, empty, aget]

/-- Settles O55: every core, context, engine and partition of the reset state is its zero, and every tile is one never granted. -/
theorem resetValues : Obligations.ResetValues := by
  refine ⟨rfl, rfl, rfl, rfl, reset_mem_wf, rfl, rfl, rfl, rfl, fun c x => ?_, fun c q i => ?_, fun p => ?_⟩
  · rw [ctx_reset, engine_reset, core_reset]; exact ⟨rfl, rfl, rfl, rfl, rfl, rfl⟩
  · rw [tile_reset]; exact ⟨rfl, rfl⟩
  · rw [part_reset]; exact ⟨rfl, rfl, rfl⟩

end Sys2Proof.Machine

namespace Sys2Proof.Machine

/-! Accesses that are aligned and placed, and reads of codes without an error (R230, R283). -/

theorem alignTo_aligned {n : Nat} {a : W64} (h : a.toNat % n = 0) : alignTo n a = .ok () := if_pos h

theorem alignTo_misaligned {n : Nat} {a : W64} (h : a.toNat % n ≠ 0) : alignTo n a = .error (.trap .align a) := if_neg h

theorem placed_ok {s : State} {acc : Access} {va : W64} {n : Nat} {p : Place} (h : place s s.issue.core acc va n = .ok p) :
    placed s acc va n = .ok p := by rw [placed, h]

theorem placed_error {s : State} {acc : Access} {va : W64} {n r : Nat} (h : place s s.issue.core acc va n = .error r) :
    placed s acc va n = .error (.trap .txlate (txInfo va r)) := by rw [placed, h]

theorem eccRead_good {s : State} (h : CodesGood s) (k n : Nat) : eccRead s k n = .ok s := if_pos (by rw [show s.ecc = [] from h]; rfl)

theorem eaI_eq (s : State) (f : RRI) : eaI s f = effective s f := by rw [eaI, immS_eq, effective]

/-! Scalar loads (R283, R284, R288). -/

/-- Each scalar load with a displacement is the shared operation over its rule, and those that sign-extend load less than 8 bytes. -/
theorem loadRule_exec {i : Instr} {f : RRI} {n : Nat} {signed : Bool} (h : loadRule i = some (f, n, signed)) (s : State) :
    exec i s = loadI f s n signed ∧ (signed = true → 0 < n ∧ n < 8) := by
  unfold loadRule at h
  split at h <;> cases h <;> exact ⟨rfl, by decide⟩

theorem sextN_mod {n : Nat} (h0 : 0 < n) (h : n < 64) (x : Nat) : sextN n (x % 2 ^ n) = sextN n x := by
  simp only [sextN, Nat.mod_mod, if_neg (Nat.ne_of_gt h0), if_neg (Nat.not_le.2 h)]

theorem extend_eq_loaded {n : Nat} {signed : Bool} (h : signed = true → 0 < n ∧ n < 8) (bs : List Byte) :
    extend n signed bs = loaded n signed bs := by
  cases signed with
  | false => rfl
  | true =>
    obtain ⟨h0, h8⟩ := h rfl
    have word := sextN_toNat (BitVec.ofNat (8 * n) (leNat bs)) (by omega) (by omega)
    rw [BitVec.toNat_ofNat, sextN_mod (by omega) (by omega)] at word
    exact word

/-- What a scalar load of n bytes from ea into sD answers. -/
theorem finish_loadAt (s : State) (d : BitVec 5) (ea : W64) {n : Nat} {signed : Bool} (h : signed = true → 0 < n ∧ n < 8) :
    (ea.toNat % n ≠ 0 → finish s (loadAt s d ea n signed) = .next (raise s .align ea false)) ∧
    (ea.toNat % n = 0 →
      (∀ c o, place s s.issue.core .load ea n = .ok (.scratch c o) → CodesGood s → finish s (loadAt s d ea n signed)
        = .next (resultS s d (loaded n signed (seenBytes s ea (.scratch c o) n)) (if c = s.issue.core then 6 else 14))) ∧
      (∀ p, place s s.issue.core .load ea n = .ok p → p.scratchOf = none → finish s (loadAt s d ea n signed)
        = .next (startOp (askFor s p) (opS d) (.load ea n signed (gateRun s.issue.pre.view ea n)))) ∧
      (∀ r, place s s.issue.core .load ea n = .error r →
        finish s (loadAt s d ea n signed) = .next (raise s .txlate (txInfo ea r) false))) := by
  unfold loadAt
  refine ⟨fun off => ?_, fun aligned => ?_⟩
  · rw [alignTo_misaligned off, need_error, finish_trap]
  rw [alignTo_aligned aligned, need_ok]
  refine ⟨fun c o hp good => ?_, fun p hp elsewhere => ?_, fun r hp => ?_⟩
  · simp only [placed_ok hp, eccRead_good good, finish_ok, extend_eq_loaded h, scratchLatency]
  · rw [placed_ok hp]
    cases p with
    | scratch c o => cases elsewhere
    | host pid va => rfl
    | tier e pa => rfl
  · simp only [placed_error hp, finish_trap]

theorem seenBytes_length (s : State) (va : W64) (p : Place) (n : Nat) : (seenBytes s va p n).length = n := by
  simp [seenBytes, readRun]

/-- Before a slot of the bundle has made memory change, its slots see memory as it is (R18). -/
theorem before_undrained {s : State} (h : s.issue.drained = false) : s.before = s := if_neg (ne_true_of_eq_false h)

/-- Settles O15: every scalar load is `loadAt` at its address, which `finish_loadAt` decides. -/
theorem scalarLoads : Obligations.ScalarLoads := by
  refine ⟨fun i f n signed s hi h => ?_, fun f s h => ?_, fun s va p n => ⟨seenBytes_length s va p n, fun plain => ?_⟩⟩
  · obtain ⟨run, extends'⟩ := loadRule_exec hi s
    rw [run, loadI, slot_sourced (ds := [.s f.d]) (rs := [(.s f.a, false)]) _ h, eaI_eq]
    exact finish_loadAt s f.d (effective s f) extends'
  · rw [exec_ldx, execLdx, slot_sourced (ds := [.s f.d]) (rs := [(.s f.a, f.ta), (.s f.b, f.tb)]) _ h]
    exact finish_loadAt s f.d _ (by simp)
  · rw [seenBytes, before_undrained plain]

end Sys2Proof.Machine

namespace Sys2Proof.Machine

/-! What a gate holds after a store (R368). -/

theorem lineByte_putByte (bs : Vector (Option Byte) 64) {i : Nat} (h : i < 64) (b : Byte) (j : Nat) :
    lineByte (putByte bs i b) j = if i = j then some b else lineByte bs j := by
  unfold lineByte putByte
  rw [Vector.getElem?_setIfInBounds]
  split
  · next same => simp
  · rfl

theorem lineByte_noBytes (j : Nat) : lineByte noBytes j = none := by
  unfold lineByte noBytes
  rw [Vector.getElem?_replicate]
  split <;> rfl

theorem lineOf_eq_iff (a b : W64) : lineOf a = lineOf b ↔ a.toNat / 64 = b.toNat / 64 := by
  rw [lineOf, lineOf, ← BitVec.toNat_inj, BitVec.toNat_ofNat, BitVec.toNat_ofNat]
  have := a.isLt
  have := b.isLt
  omega

/-- Two addresses of one line are the same when they have the same place in it. -/
theorem eq_of_same_line {a b : W64} (line : lineOf a = lineOf b) (byte : b.toNat % 64 = a.toNat % 64) : a = b := by
  have := (lineOf_eq_iff a b).1 line
  exact BitVec.eq_of_toNat_eq (by omega)

/-- The byte of a line at an address, after a byte of that line is put. -/
theorem lineByte_put_line {a va : W64} (bs : Vector (Option Byte) 64) (b : Byte) (line : lineOf a = lineOf va) :
    lineByte (putByte bs (va.toNat % 64) b) (a.toNat % 64) = if a = va then some b else lineByte bs (a.toNat % 64) := by
  rw [lineByte_putByte _ (Nat.mod_lt _ (by decide))]
  by_cases same : a = va
  · rw [if_pos same, if_pos (by rw [same])]
  · rw [if_neg same, if_neg (fun byte => same (eq_of_same_line line byte))]

theorem gateByte_cons (l : GateLine) (g : List GateLine) (a : W64) :
    gateByte (l :: g) a = if l.addr = lineOf a then lineByte l.bytes (a.toNat % 64) else gateByte g a := by
  unfold gateByte
  rw [List.find?_cons]
  by_cases same : l.addr = lineOf a
  · rw [if_pos same, beq_iff_eq.2 same]
  · rw [if_neg same, beq_false_of_ne same]

theorem gateByte_gatePut (g : List GateLine) (va : W64) (b : Byte) (a : W64) :
    gateByte (gatePut g va b) a = if a = va then some b else gateByte g a := by
  induction g with
  | nil =>
    rw [gatePut, gateByte_cons]
    by_cases line : lineOf va = lineOf a
    · rw [if_pos line, lineByte_put_line _ _ line.symm, lineByte_noBytes]; rfl
    · rw [if_neg line, if_neg (fun same => line (by rw [same]))]
  | cons l g ih =>
    rw [gatePut]
    by_cases here : l.addr = lineOf va
    · rw [if_pos here, gateByte_cons, gateByte_cons]
      by_cases line : l.addr = lineOf a
      · rw [if_pos line, if_pos line, lineByte_put_line _ _ (line.symm.trans here)]
      · rw [if_neg line, if_neg line, if_neg (fun same => line (by rw [here, same]))]
    · rw [if_neg here, gateByte_cons, gateByte_cons, ih]
      by_cases line : l.addr = lineOf a
      · rw [if_pos line, if_pos line, if_neg (fun same => here (by rw [line, same]))]
      · rw [if_neg line, if_neg line]

/-- Inside the run a gate holds the bytes stored, outside it what it held before. -/
theorem gateByte_gateStore (bs : List Byte) (g : List GateLine) (va a : W64) (h : bs.length < 2 ^ 64) :
    gateByte (gateStore g va bs) a = if (a - va).toNat < bs.length then some (bs.getD (a - va).toNat 0) else gateByte g a := by
  induction bs generalizing g va with
  | nil => rfl
  | cons b bs ih =>
    rw [List.length_cons] at h
    rw [gateStore, ih _ _ (by omega), gateByte_gatePut, List.length_cons]
    by_cases first : a = va
    · have wrapped : (a - (va + 1)).toNat = 2 ^ 64 - 1 := by rw [first]; bv_omega
      rw [wrapped, if_neg (by omega), if_pos first, first, BitVec.sub_self]
      simp
    · have next' : (a - va).toNat = (a - (va + 1)).toNat + 1 := by bv_omega
      rw [next', if_neg first, List.getD_cons_succ]
      simp only [Nat.add_lt_add_iff_right]

/-! Scalar stores (R223, R283, R288, R368). -/

/-- Each scalar store is the shared operation over its rule. -/
theorem storeRule_exec {i : Instr} {f : RRI} {n : Nat} (h : storeRule i = some (f, n)) (s : State) : exec i s = storeI f s n := by
  unfold storeRule at h
  split at h <;> cases h <;> rfl

theorem storeBytes_fits {s : State} {runs : List (W64 × List Byte)} (h : (stored s.me runs).view.length ≤ 512) :
    storeBytes s runs = .ok (s.setMe (stored s.me runs)) := if_neg (Nat.not_lt.2 h)

theorem storeBytes_overflows {s : State} {runs : List (W64 × List Byte)} (h : 512 < (stored s.me runs).view.length) :
    storeBytes s runs = .error (.trap .gate 0) := if_pos h

/-- A store that has its translation for writing goes on (R223). -/
theorem translated_storable {s : State} {p : Place} (h : storable s p = true) (va : W64) :
    translated s p va (fun t => t.write) = .ok () := by
  cases p with
  | scratch c o => rfl
  | tier e pa => rfl
  | host pid a =>
    simp only [storable] at h
    cases found : tlbFind s (dieOf s.issue.core) pid a with
    | none => rw [found] at h; cases h
    | some t => rw [found] at h; simp only [translated, found, if_pos (show t.write = true from h)]

/-- A store that stands in the gate starts an operation that waits for the translation of its page, where the die has none that lets it write
and no such operation waits yet (R223). -/
def storeAwaits (t : State) (u : W64 × Place × List Byte) : State :=
  if storable t u.2.1 || t.me.ops.any (fun o => match o.kind with
      | .store ea _ => ea.toNat / 4096 == u.1.toNat / 4096
      | _ => false) then t
  else startOp (askFor t u.2.1) .none (.store u.1 u.2.2.length)

theorem storeAwaits_storable {t : State} {u : W64 × Place × List Byte} (h : storable t u.2.1 = true) : storeAwaits t u = t :=
  if_pos (by rw [h, Bool.true_or])

theorem askHost_cores_mem (s : State) (d : DieId) (pid : BitVec 20) (va : Nat) :
    (askHost s d pid va).cores = s.cores ∧ (askHost s d pid va).mem = s.mem := by
  unfold askHost
  simp only
  split <;> exact ⟨rfl, rfl⟩

theorem askFor_cores_mem (s : State) (p : Place) : (askFor s p).cores = s.cores ∧ (askFor s p).mem = s.mem := by
  cases p with
  | scratch c o => exact ⟨rfl, rfl⟩
  | tier e pa => exact ⟨rfl, rfl⟩
  | host pid va => exact askHost_cores_mem s _ pid va

theorem askFor_issue (s : State) (p : Place) : (askFor s p).issue = s.issue := steady_issue (askPlace_steady s _ p)

theorem askFor_me (s : State) (p : Place) : (askFor s p).me = s.me := by
  simp only [State.me, State.ctx, State.core, askFor_issue, askFor_cores_mem]

/-- An operation without a destination joins those of its context. -/
theorem me_startOp_none (s : State) (kind : OpKind) : ∃ o, (startOp s .none kind).me = { s.me with ops := s.me.ops ++ [o] } ∧
    o.kind = if s.issue.drained then kind.sampled s.before s.issue.core else kind := ⟨_, State.me_setMe s _, rfl⟩

/-- A store's wait for its translation leaves memory, the bundle in flight and the gates. -/
theorem storeAwaits_keeps (t : State) (u : W64 × Place × List Byte) : (storeAwaits t u).mem = t.mem ∧ (storeAwaits t u).issue = t.issue ∧
    (storeAwaits t u).me.gate = t.me.gate ∧ (storeAwaits t u).me.hgate = t.me.hgate := by
  unfold storeAwaits
  split
  · exact ⟨rfl, rfl, rfl, rfl⟩
  · obtain ⟨o, me, -⟩ := me_startOp_none (askFor t u.2.1) (.store u.1 u.2.2.length)
    rw [me, askFor_me]
    exact ⟨(askFor_cores_mem t u.2.1).2, askFor_issue t u.2.1, rfl, rfl⟩

theorem foldl_storeAwaits_keeps (us : List (W64 × Place × List Byte)) (t : State) : (us.foldl storeAwaits t).mem = t.mem ∧
    (us.foldl storeAwaits t).issue = t.issue ∧ (us.foldl storeAwaits t).me.gate = t.me.gate ∧
    (us.foldl storeAwaits t).me.hgate = t.me.hgate := by
  induction us generalizing t with
  | nil => exact ⟨rfl, rfl, rfl, rfl⟩
  | cons u us ih =>
    obtain ⟨mem, issue, gate, hgate⟩ := ih (storeAwaits t u)
    obtain ⟨mem', issue', gate', hgate'⟩ := storeAwaits_keeps t u
    exact ⟨mem.trans mem', issue.trans issue', gate.trans gate', hgate.trans hgate'⟩

/-- Where a store has no translation, an operation of its context waits for that of its page. -/
theorem storeAwaits_waits {t : State} {u : W64 × Place × List Byte} (h : storable t u.2.1 = false) :
    ∃ o ∈ (storeAwaits t u).me.ops, ∃ a k, o.kind = .store a k ∧ a.toNat / 4096 = u.1.toNat / 4096 := by
  unfold storeAwaits
  rw [h, Bool.false_or]
  split
  · next waits =>
    obtain ⟨o, mem, page⟩ := List.any_eq_true.1 waits
    split at page
    · next a k kind => exact ⟨o, mem, a, k, kind, by simpa using page⟩
    · cases page
  · obtain ⟨o, me, kind⟩ := me_startOp_none (askFor t u.2.1) (.store u.1 u.2.2.length)
    rw [me]
    refine ⟨o, List.mem_append_right _ (List.mem_singleton_self o), u.1, u.2.2.length, ?_, rfl⟩
    rw [kind]
    split <;> rfl

/-- No store of a bundle is barred for its translation: it ends no checkpoint interval, or all its translations are there (R223, R366). -/
theorem storeUnits_unbarred {s : State} {us : List (W64 × Place × List Byte)}
    (can : s.issue.ckpt = true → ∀ u ∈ us, storable s u.2.1 = true) :
    storeUnits s us = match storeBytes s (us.map (fun u => (u.1, u.2.2))) with
      | .error e => .error e
      | .ok t => .ok (us.foldl storeAwaits t) := by
  unfold storeUnits
  split
  · next e barred =>
    split at barred
    · next ckpt =>
      obtain ⟨u, hu, stop⟩ := List.exists_of_findSome?_eq_some barred
      rw [translated_storable (can ckpt u hu)] at stop
      cases stop
    · cases barred
  · rfl

/-- A scalar store that is aligned and placed. -/
theorem storeI_placed {f : RRI} {s : State} {n : Nat} {p : Place} (h : Executes s f.g [.s f.a, .s f.d])
    (aligned : (effective s f).toNat % n = 0) (hp : place s s.issue.core .store (effective s f) n = .ok p) :
    storeI f s n = finish s (storeUnits s [(effective s f, p, leBytes n (s.src.getS f.d).toNat)]) := by
  rw [storeI, slot_sourced (ds := []) (rs := [(.s f.a, false), (.s f.d, false)]) _ h, eaI_eq]
  simp only [alignTo_aligned aligned, need_ok, placed_ok hp]

/-- Settles O16: a store that is not barred puts its bytes into the gate (`storeUnits_unbarred`, `storeBytes_fits`) and waits for its
translation (`storeAwaits_waits`); the gate after a store by induction on the bytes (`gateByte_gateStore`). -/
theorem scalarStores : Obligations.ScalarStores := by
  refine ⟨fun i f n s hi h => ⟨fun off => ?_, fun r aligned hp => ?_, fun p aligned hp => ⟨fun can => ⟨fun fits => ?_, fun full => ?_⟩,
    fun waits plain fits => ?_⟩⟩, fun g va bs a short => gateByte_gateStore bs g va a (by omega)⟩ <;> rw [storeRule_exec hi s]
  · rw [storeI, slot_sourced (ds := []) (rs := [(.s f.a, false), (.s f.d, false)]) _ h, eaI_eq]
    simp only [alignTo_misaligned off, need_error, finish_trap]
  · rw [storeI, slot_sourced (ds := []) (rs := [(.s f.a, false), (.s f.d, false)]) _ h, eaI_eq]
    simp only [alignTo_aligned aligned, need_ok, placed_error hp, finish_trap]
  · rw [storeI_placed h aligned hp, storeUnits_unbarred (by simp [can])]
    simp only [List.map_cons, List.map_nil, storeBytes_fits fits, List.foldl_cons, List.foldl_nil, finish_ok]
    rw [storeAwaits_storable (by cases p <;> exact can)]
  · rw [storeI_placed h aligned hp, storeUnits_unbarred (by simp [can])]
    simp only [List.map_cons, List.map_nil, storeBytes_overflows full, finish_trap]
  · rw [storeI_placed h aligned hp, storeUnits_unbarred (by simp [plain])]
    simp only [List.map_cons, List.map_nil, storeBytes_fits fits, List.foldl_cons, List.foldl_nil, finish_ok]
    obtain ⟨mem, -, gate, hgate⟩ := storeAwaits_keeps
      (s.setMe (stored s.me [(effective s f, leBytes n (s.src.getS f.d).toNat)])) (effective s f, p, leBytes n (s.src.getS f.d).toNat)
    rw [State.me_setMe] at gate hgate
    exact ⟨_, rfl, mem, gate, hgate, storeAwaits_waits (by cases p <;> exact waits)⟩

end Sys2Proof.Machine

namespace Sys2Proof.Machine

/-! The lanes of a vector access (R283, R289, R290). -/

theorem mem_activeLanes (m : W64) (l : Nat) : l ∈ activeLanes m ↔ l < 64 ∧ m.getLsbD l = true := by
  simp [activeLanes, active_eq]

theorem activeLanes_nodup (m : W64) : (activeLanes m).Nodup := List.nodup_range.filter _

theorem activeLanes_ne_nil {m : W64} (h : m ≠ 0) : activeLanes m ≠ [] := by
  intro none
  refine h (BitVec.eq_of_getLsbD_eq (fun l hl => ?_))
  have off : ¬ m.getLsbD l = true := fun on => by
    have := (mem_activeLanes m l).2 ⟨hl, on⟩
    rw [none] at this
    cases this
  simpa using off

theorem mem_runLanes (m ea : W64) (l : Nat) : (l, ea + BitVec.ofNat 64 (4 * l)) ∈ runLanes m ea ↔ l < 64 ∧ m.getLsbD l = true := by
  rw [← mem_activeLanes, runLanes, List.mem_map]
  refine ⟨fun ⟨k, hk, same⟩ => ?_, fun hl => ⟨l, hl, rfl⟩⟩
  obtain ⟨rfl, -⟩ := Prod.mk.inj same
  exact hk

theorem mem_gatherLanes (m : W64) (a : Row) (b : W64) (l : Nat) :
    (l, b + BitVec.ofNat 64 (4 * (lane a l).toNat)) ∈ gatherLanes m a b ↔ l < 64 ∧ m.getLsbD l = true := by
  rw [← mem_activeLanes, gatherLanes, List.mem_map]
  refine ⟨fun ⟨k, hk, same⟩ => ?_, fun hl => ⟨l, hl, rfl⟩⟩
  obtain ⟨rfl, -⟩ := Prod.mk.inj same
  exact hk

/-- Units of distinct lanes, each a lane of a row. -/
def Lanes (ls : List (Nat × W64)) : Prop := (ls.map Prod.fst).Nodup ∧ ∀ q ∈ ls, q.1 < 64

/-- Units of the active lanes, wherever they lie. -/
theorem lanes_activeLanes (m : W64) (at' : Nat → W64) : Lanes ((activeLanes m).map (fun l => (l, at' l))) := by
  refine ⟨?_, fun q hq => ?_⟩
  · rw [List.map_map]
    exact (List.map_id (activeLanes m)).symm ▸ activeLanes_nodup m
  · obtain ⟨l, hl, rfl⟩ := List.mem_map.1 hq
    exact ((mem_activeLanes m l).1 hl).1

theorem lanes_runLanes (m ea : W64) : Lanes (runLanes m ea) := lanes_activeLanes m _

theorem lanes_gatherLanes (m : W64) (a : Row) (b : W64) : Lanes (gatherLanes m a b) := lanes_activeLanes m _

/-- The value that a list of distinct keys gives to one of them. -/
theorem aget_of_mem {α : Type} {d : α} {l : List (Nat × α)} {k : Nat} {x : α} (distinct : (l.map Prod.fst).Nodup) (h : (k, x) ∈ l) :
    aget d l k = x := by
  induction l with
  | nil => cases h
  | cons p l ih =>
    obtain ⟨j, y⟩ := p
    obtain ⟨fresh, rest⟩ := List.nodup_cons.1 distinct
    rw [aget]
    rcases List.mem_cons.1 h with here | later
    · obtain ⟨rfl, rfl⟩ := Prod.mk.inj here
      exact if_pos rfl
    · have other : j ≠ k := by
        rintro rfl
        exact fresh (List.mem_map.2 ⟨_, later, rfl⟩)
      rw [if_neg other, ih rest later]

/-- The lane of one of the items from which a row is made, each of a lane of its own. -/
theorem lane_rowFrom_mem {β : Type} {ls : List β} {k : β → Nat} (x : β → W32) (distinct : (ls.map k).Nodup) {v : β} (hv : v ∈ ls)
    (small : k v < 64) : lane (rowFrom (ls.map (fun l => (k l, x l)))) (k v) = x v := by
  rw [lane_rowFrom _ _ small]
  refine aget_of_mem ?_ (List.mem_map.2 ⟨v, hv, rfl⟩)
  rw [List.map_map]
  exact distinct

/-- Lane l of a row made from the active lanes. -/
theorem lane_rowFrom_active (m : W64) (x : Nat → W32) {l : Nat} (hl : l < 64) (on : m.getLsbD l = true) :
    lane (rowFrom ((activeLanes m).map (fun l => (l, x l)))) l = x l :=
  lane_rowFrom_mem (k := fun l => l) x ((List.map_id (activeLanes m)).symm ▸ activeLanes_nodup m) ((mem_activeLanes m l).2 ⟨hl, on⟩) hl

theorem unit_mod4 (ea : W64) (n : Nat) : (ea + BitVec.ofNat 64 (4 * n)).toNat % 4 = ea.toNat % 4 := by
  rw [BitVec.toNat_add, BitVec.toNat_ofNat]
  omega

theorem alignLanes_aligned {ls : List (Nat × W64)} (h : ∀ q ∈ ls, q.2.toNat % 4 = 0) : alignLanes ls = .ok () := by
  match ls with
  | [] => rfl
  | q :: _ => exact alignTo_aligned (h q (List.mem_cons_self ..))

theorem alignLanes_runLanes {m ea : W64} (h : ea.toNat % 4 = 0) : alignLanes (runLanes m ea) = .ok () := by
  refine alignLanes_aligned (fun q hq => ?_)
  obtain ⟨l, -, rfl⟩ := List.mem_map.1 hq
  exact (unit_mod4 ea l).trans h

/-- A run whose base is misaligned is so at its lowest active lane. -/
theorem alignLanes_misaligned {m ea : W64} (hm : m ≠ 0) (h : ea.toNat % 4 ≠ 0) :
    ∃ a, a.toNat % 4 ≠ 0 ∧ alignLanes (runLanes m ea) = .error (.trap .align a) := by
  cases lanes : activeLanes m with
  | nil => exact absurd lanes (activeLanes_ne_nil hm)
  | cons l ls =>
    have off : (ea + BitVec.ofNat 64 (4 * l)).toNat % 4 ≠ 0 := by rwa [unit_mod4]
    refine ⟨_, off, ?_⟩
    rw [runLanes, lanes]
    exact alignTo_misaligned off

/-! Places of the lanes (R221, R283). -/

/-- Placed units `ps` are the units `ls`, each with its place. -/
def PlacedAs (s : State) (acc : Access) (ls : List (Nat × W64)) (ps : List (Nat × W64 × Place)) : Prop :=
  ps.map (fun l => (l.1, l.2.1)) = ls ∧ ∀ q ∈ ps, place s s.issue.core acc q.2.1 4 = .ok q.2.2

theorem allPlaced_all {s : State} {acc : Access} {ls : List (Nat × W64)} (h : ∀ q ∈ ls, ∃ p, place s s.issue.core acc q.2 4 = .ok p) :
    ∃ ps, allPlaced (ls.map (fun l => (l, place s s.issue.core acc l.2 4))) = some ps ∧ PlacedAs s acc ls ps := by
  induction ls with
  | nil => exact ⟨[], rfl, rfl, fun q hq => by cases hq⟩
  | cons l ls ih =>
    obtain ⟨⟨p, hp⟩, rest⟩ := List.forall_mem_cons.1 h
    obtain ⟨ps, all, same, places⟩ := ih rest
    refine ⟨(l.1, l.2, p) :: ps, ?_, ?_, List.forall_mem_cons.2 ⟨hp, places⟩⟩
    · rw [List.map_cons, hp, allPlaced, all]; rfl
    · rw [List.map_cons, same]

theorem unplaced_none {s : State} {acc : Access} {ls : List (Nat × W64)} (h : ∀ q ∈ ls, ∃ p, place s s.issue.core acc q.2 4 = .ok p) :
    unplaced (ls.map (fun l => (l, place s s.issue.core acc l.2 4))) = [] := by
  refine List.filterMap_eq_nil_iff.2 (fun u hu => ?_)
  obtain ⟨l, hl, rfl⟩ := List.mem_map.1 hu
  obtain ⟨p, hp⟩ := h l hl
  simp only [hp]

theorem apart_together {s : State} {ls : List (Nat × W64)}
    (h : ∀ q ∈ ls, ∀ r ∈ ls, zone s (s.partIdOf s.issue.core) q.2 = zone s (s.partIdOf s.issue.core) r.2) :
    apart s (ls.map (fun l => l.2)) = false := by
  match ls with
  | [] => rfl
  | q :: ls =>
    have same : ∀ r ∈ ls, zone s (s.partIdOf s.issue.core) q.2 = zone s (s.partIdOf s.issue.core) r.2 :=
      fun r hr => h q (List.mem_cons_self ..) r (List.mem_cons_of_mem _ hr)
    simpa [apart] using same

/-- Units that have places in one class, rank or extent pass the check of their places. -/
theorem placeLanes_placed {s : State} {acc : Access} {ls : List (Nat × W64)} (h : LanesPlaced s acc ls) :
    ∃ ps, placeLanes s acc ls = .ok ps ∧ PlacedAs s acc ls ps := by
  obtain ⟨units, together⟩ := h
  have placed : ∀ q ∈ ls, ∃ p, place s s.issue.core acc q.2 4 = .ok p := fun q hq => (units q hq).2
  obtain ⟨ps, all, as⟩ := allPlaced_all placed
  refine ⟨ps, ?_, as⟩
  unfold placeLanes
  simp only [unplaced_none placed, apart_together together, all]
  rfl

/-- A byte of an access that has a place has it by itself. -/
theorem placeByte_of_place {s : State} {c : CoreId} {acc : Access} {va : W64} {n : Nat} {p : Place} (h : place s c acc va n = .ok p) :
    placeByte s c acc va = .ok p := by
  obtain ⟨-, bad⟩ | ⟨-, ok⟩ := ite_eq_iff.1 h
  · cases bad
  · exact ok

/-- A place in a scratchpad is that of a class 0 address: the rank that it names. -/
theorem placeByte_scratch {s : State} {c d : CoreId} {acc : Access} {va : W64} {o : Nat} (h : placeByte s c acc va = .ok (.scratch d o)) :
    classOf va = 0 ∧ d = scratchCore c va := by
  by_cases low : classOf va = 0
  · simp only [placeByte, placeByteIn, if_pos low] at h
    split at h <;> cases h
    exact ⟨low, rfl⟩
  · simp only [placeByte, placeByteIn, if_neg low] at h
    repeat' split at h
    all_goals cases h

/-- The place of a class 0 address, where it has one. -/
theorem placeByte_class0 {s : State} {c : CoreId} {acc : Access} {va : W64} {p : Place} (low : classOf va = 0)
    (h : placeByte s c acc va = .ok p) : ∃ o, p = .scratch (scratchCore c va) o := by
  unfold placeByte placeByteIn at h
  simp only [if_pos low] at h
  split at h <;> cases h
  exact ⟨_, rfl⟩

theorem Place.scratchOf_eq {p : Place} {c : CoreId} (h : p.scratchOf = some c) : ∃ o, p = .scratch c o := by
  cases p with
  | scratch d o => cases h; exact ⟨o, rfl⟩
  | host pid a => cases h
  | tier e pa => cases h

/-- Units of one zone, one of which lies in a scratchpad, all lie in it. -/
theorem place_same_scratch {s : State} {c : CoreId} {acc : Access} {a b : W64} {o : Nat} {p : Place}
    (zones : zone s (s.partIdOf s.issue.core) a = zone s (s.partIdOf s.issue.core) b)
    (ha : place s s.issue.core acc a 4 = .ok (.scratch c o)) (hb : place s s.issue.core acc b 4 = .ok p) : ∃ o', p = .scratch c o' := by
  obtain ⟨low, rfl⟩ := placeByte_scratch (placeByte_of_place ha)
  have low' : classOf b = 0 := (congrArg Prod.fst zones).symm.trans low
  obtain ⟨o', rfl⟩ := placeByte_class0 low' (placeByte_of_place hb)
  have rank : wbits a 22 2 = wbits b 22 2 := by
    have second := congrArg Prod.snd zones
    simpa only [zone, low, low'] using second
  exact ⟨o', by simp only [scratchCore, rank]⟩

/-! Vector loads (R284, R289, R290). -/

/-- After that they see it as their bundle found it. -/
theorem before_drained {s : State} (h : s.issue.drained = true) : s.before =
    State.setCore { s with mem := s.issue.mem } s.issue.core { s.core s.issue.core with near := s.issue.near } := if_pos h

/-- A pop leaves what the slots read and where accesses go. -/
theorem seenBytes_pop (s : State) (keep : Bool) (rs : List (BitVec 5)) : seenBytes (pop s keep rs) = seenBytes s := by
  cases keep with
  | true => rfl
  | false =>
    funext va p n
    unfold seenBytes
    cases drained : s.issue.drained with
    | false => rw [before_undrained (s := pop s false rs) drained, before_undrained drained]; rfl
    | true => rw [before_drained (s := pop s false rs) drained, before_drained drained]; rfl

theorem loadUnits_scratch {t : State} {q : Nat × W64 × Place} {ps : List (Nat × W64 × Place)} {c : CoreId} (d : BitVec 5) (m : W64)
    (h : q.2.2.scratchOf = some c) (good : CodesGood t) : loadUnits t d m (q :: ps)
      = .ok (resultV t d m (rowFrom ((q :: ps).map (fun l => (l.1, unitBytes t l)))) 0 (scratchLatency t c)) := by
  obtain ⟨l, a, p⟩ := q
  rw [loadUnits, show p.scratchOf = some c from h]
  simp only [eccReads_good good]

theorem loadUnits_elsewhere {t : State} {q : Nat × W64 × Place} {ps : List (Nat × W64 × Place)} (d : BitVec 5) (m : W64)
    (h : q.2.2.scratchOf = none) : loadUnits t d m (q :: ps) = .ok (startOp (askFor t q.2.2) (.vector d m)
      (.vload ((q :: ps).map (fun l => (l.1, l.2.1))) ((q :: ps).flatMap (fun l => gateRun t.issue.pre.view l.2.1 4)))) := by
  obtain ⟨l, a, p⟩ := q
  rw [loadUnits, show p.scratchOf = none from h]

/-- What the placed units of a vector load make of the state of its slot, after the slot's pops. -/
theorem loadUnits_placed {s : State} {ls : List (Nat × W64)} {ps : List (Nat × W64 × Place)} (keep : Bool) (rs : List (BitVec 5))
    (d : BitVec 5) (m : W64) (lanes : Lanes ls) (as : PlacedAs s .load ls ps)
    (together : ∀ q ∈ ls, ∀ r ∈ ls, zone s (s.partIdOf s.issue.core) q.2 = zone s (s.partIdOf s.issue.core) r.2) (good : CodesGood s) :
    ∃ u, loadUnits (pop s keep rs) d m ps = .ok u ∧ VectorLoaded s (pop s keep rs) d m ls u := by
  obtain ⟨rfl, places⟩ := as
  obtain ⟨distinct, small⟩ := lanes
  cases ps with
  | nil => exact ⟨_, rfl, fun q rest p first => by cases first⟩
  | cons q ps =>
    have good' : CodesGood (pop s keep rs) := by cases keep <;> exact good
    have issuer : (pop s keep rs).issue.core = s.issue.core ∧ (pop s keep rs).issue.pre = s.issue.pre := by cases keep <;> exact ⟨rfl, rfl⟩
    have first : place s s.issue.core .load q.2.1 4 = .ok q.2.2 := places q (List.mem_cons_self ..)
    cases scratch : q.2.2.scratchOf with
    | none =>
      refine ⟨_, loadUnits_elsewhere d m scratch, fun r rest p same hp => ?_⟩
      obtain ⟨rfl, -⟩ := List.cons.inj same
      obtain rfl : q.2.2 = p := Except.ok.inj (first.symm.trans hp)
      refine ⟨fun c inside => (by rw [scratch] at inside; cases inside), fun _ => ?_⟩
      rw [issuer.2, List.flatMap_map]
    | some c =>
      refine ⟨_, loadUnits_scratch d m scratch good', fun r rest p same hp => ?_⟩
      obtain ⟨rfl, -⟩ := List.cons.inj same
      obtain rfl : q.2.2 = p := Except.ok.inj (first.symm.trans hp)
      refine ⟨fun c' inside => ?_, fun outside => by rw [scratch] at outside; cases outside⟩
      obtain rfl : c = c' := Option.some.inj (scratch.symm.trans inside)
      refine ⟨_, fun r hr => ?_, by rw [scratchLatency, issuer.1]⟩
      obtain ⟨o, at'⟩ := Place.scratchOf_eq scratch
      obtain ⟨v, hv, rfl⟩ := List.mem_map.1 hr
      obtain ⟨o', there⟩ := place_same_scratch (together _ (List.mem_map_of_mem (List.mem_cons_self ..)) _ hr) (at' ▸ first) (places v hv)
      refine ⟨o', by rw [places v hv, there], ?_⟩
      rw [List.map_map] at distinct
      have word := lane_rowFrom_mem (k := fun l => l.1) (unitBytes (pop s keep rs)) distinct hv (small _ hr)
      rw [unitBytes, seenBytes_pop, there] at word
      exact word

/-- A vector load of units that are aligned and placed. -/
theorem loadLanes_placed {s : State} {ls : List (Nat × W64)} (d : BitVec 5) (m : W64) (lanes : Lanes ls) (h : LanesPlaced s .load ls)
    (good : CodesGood s) : ∃ u, loadLanes s d m ls = .ok u ∧ VectorLoaded s s d m ls u := by
  obtain ⟨ps, placed, as⟩ := placeLanes_placed h
  obtain ⟨units, together⟩ := h
  obtain ⟨u, run, gives⟩ := loadUnits_placed true [] d m lanes as together good
  refine ⟨u, ?_, gives⟩
  rw [loadLanes, alignLanes_aligned (fun q hq => (units q hq).1), need_ok, placed]
  exact run

/-- The bound of a base within whose storage every unit lies. -/
theorem boundOf_within {s : State} {b : W64} {ls : List (Nat × W64)} (h : WithinBase s b ls) :
    ∃ bd, boundOf s b = .ok bd ∧ ∀ q ∈ ls, bd.holds q.2 = true := by
  unfold boundOf
  rcases h with ⟨low, units⟩ | ⟨high, zero, e, hit, units⟩
  · refine ⟨.scratch (wbits b 22 2), by simp only [low], fun q hq => ?_⟩
    obtain ⟨low', rank⟩ := units q hq
    simp [Bound.holds, low', rank]
  · refine ⟨.extent e, by simp [high, zero, hit], fun q hq => ?_⟩
    obtain ⟨high', zero', holds⟩ := units q hq
    simp [Bound.holds, high', zero', holds]

/-- The checks of a gather or scatter whose units are aligned, placed and within the base's storage. -/
theorem gatherCheck_within {s : State} {acc : Access} {b : W64} {ls : List (Nat × W64)} (h : LanesPlaced s acc ls)
    (within : WithinBase s b ls) : ∃ ps, gatherCheck s acc b ls = .ok ps ∧ PlacedAs s acc ls ps := by
  obtain ⟨ps, placed, as⟩ := placeLanes_placed h
  obtain ⟨units, -⟩ := h
  obtain ⟨bd, bound', holds⟩ := boundOf_within within
  refine ⟨ps, ?_, as⟩
  have all : ls.filter (fun l => bd.holds l.2) = ls := List.filter_eq_self.2 holds
  have none' : ls.find? (fun l => !bd.holds l.2) = none := List.find?_eq_none.2 (fun q hq => by simp [holds q hq])
  unfold gatherCheck
  simp only [alignLanes_aligned (fun q hq => (units q hq).1), bound', all, placed, none']

section
variable {s : State}

theorem exec_vld_placed {f : RRI} (h : ExecutesV s f.g [.v f.d, .s f.a])
    (placed : LanesPlaced s .load (runLanes (s.src.getG f.g) (effective s f))) (good : CodesGood s) :
    ∃ u, exec (.vld f) s = .next u ∧ VectorLoaded s s f.d (s.src.getG f.g) (runLanes (s.src.getG f.g) (effective s f)) u := by
  obtain ⟨u, run, gives⟩ := loadLanes_placed f.d _ (lanes_runLanes ..) placed good
  refine ⟨u, ?_, gives⟩
  rw [exec_vld, execVld, slotV_sourced (ds := [.v f.d]) (rs := [(.s f.a, false)]) _ h, eaI_eq, run, finish_ok]

theorem exec_vld_misaligned {f : RRI} (h : ExecutesV s f.g [.v f.d, .s f.a]) (off : (effective s f).toNat % 4 ≠ 0) :
    ∃ a, a.toNat % 4 ≠ 0 ∧ exec (.vld f) s = .next (raise s .align a false) := by
  obtain ⟨a, ha, check⟩ := alignLanes_misaligned h.1 off
  refine ⟨a, ha, ?_⟩
  rw [exec_vld, execVld, slotV_sourced (ds := [.v f.d]) (rs := [(.s f.a, false)]) _ h, eaI_eq, loadLanes, check, need_error, finish_trap]

theorem exec_vldx_within {f : RRR} (h : ExecutesV s f.g [.v f.d, .v f.a, .s f.b]) (ready : PortsReady s [f.a])
    (placed : LanesPlaced s .load (gatherLanes (s.src.getG f.g) (vsrc s f.a) (s.src.getS f.b)))
    (within : WithinBase s (s.src.getS f.b) (gatherLanes (s.src.getG f.g) (vsrc s f.a) (s.src.getS f.b))) (good : CodesGood s) :
    ∃ u, exec (.vldx f) s = .next u ∧ VectorLoaded s (pop s f.h [f.a]) f.d (s.src.getG f.g)
      (gatherLanes (s.src.getG f.g) (vsrc s f.a) (s.src.getS f.b)) u := by
  obtain ⟨ps, check, as⟩ := gatherCheck_within placed within
  obtain ⟨u, run, gives⟩ := loadUnits_placed f.h [f.a] f.d (s.src.getG f.g) (lanes_gatherLanes ..) as placed.2 good
  refine ⟨u, ?_, gives⟩
  rw [exec_vldx, execVldx, slotV_ported (ds := [.v f.d]) (rs := [(.v f.a, f.ta), (.s f.b, f.tb)]) _ h ready, check]
  simp only [run, finish_ok]

theorem exec_lds_placed {f : RR} {ra : W64} (h : ExecutesV s f.g [.v f.d]) (row : rowAddr (streamOf s f.a) = some ra)
    (placed : LanesPlaced s .load (runLanes (s.src.getG f.g) ra)) (good : CodesGood s) :
    ∃ u, exec (.lds f) s = .next (setStream u f.a (rowAfter (streamOf s f.a))) ∧
      VectorLoaded s s f.d (s.src.getG f.g) (runLanes (s.src.getG f.g) ra) u := by
  obtain ⟨u, run, gives⟩ := loadLanes_placed f.d _ (lanes_runLanes ..) placed good
  refine ⟨u, ?_, gives⟩
  rw [exec_lds, execLds, slotV_on s f.g _ _ h.1 h.2, streamRow_of_rowAddr f.a row]
  simp only [run, finish_ok]

theorem exec_vldb_aligned {f : RRI} (h : ExecutesV s f.g [.v f.d, .s f.a]) (aligned : (effective s f).toNat % 4 = 0) :
    (∀ c o, place s s.issue.core .load (effective s f) 4 = .ok (.scratch c o) → CodesGood s →
      ∃ x, (∀ l, l < 64 → lane x l = leWord 32 (seenBytes s (effective s f) (.scratch c o) 4)) ∧
        exec (.vldb f) s = .next (resultV s f.d (s.src.getG f.g) x 0 (if c = s.issue.core then 6 else 14))) ∧
    (∀ p, place s s.issue.core .load (effective s f) 4 = .ok p → p.scratchOf = none →
      exec (.vldb f) s = .next (startOp (askFor s p) (.vector f.d (s.src.getG f.g))
        (.bload (effective s f) (gateRun s.issue.pre.view (effective s f) 4)))) := by
  rw [exec_vldb, execVldb, slotV_sourced (ds := [.v f.d]) (rs := [(.s f.a, false)]) _ h]
  simp only [eaI_eq, alignTo_aligned aligned, need_ok]
  refine ⟨fun c o hp good => ⟨_, fun l hl => lane_ofLanes _ l hl, ?_⟩, fun p hp elsewhere => ?_⟩
  · simp only [placed_ok hp, eccRead_good good, finish_ok, scratchLatency]
    rfl
  · rw [placed_ok hp]
    cases p with
    | scratch c o => cases elsewhere
    | host pid va => rfl
    | tier e pa => rfl

end

/-- Settles O17: the lanes of a load are distinct, so a placed one gives each its word (`loadUnits_placed`). -/
theorem vectorLoads : Obligations.VectorLoads :=
  ⟨fun _ _ h => ⟨exec_vld_placed h, exec_vld_misaligned h⟩, fun _ _ h => exec_vldx_within h, fun _ _ _ h => exec_lds_placed h,
    fun _ _ h => exec_vldb_aligned h, mem_gatherLanes, mem_runLanes⟩

end Sys2Proof.Machine

namespace Sys2Proof.Machine

/-! Vector stores (R289, R290, R295, R297). -/

/-- The runs of bytes that a vector store of a row puts at its units. -/
def laneBytes (x : Row) (ls : List (Nat × W64)) : List (W64 × List Byte) := ls.map (fun q => (q.2, leBytes 4 (lane x q.1).toNat))

/-- What the placed units of a vector store make of the state of its slot, after the slot's pops. -/
theorem storeUnits_placed {s : State} {ls : List (Nat × W64)} {ps : List (Nat × W64 × Place)} (keep : Bool) (rs : List (BitVec 5))
    (x : Row) (as : PlacedAs s .store ls ps) (fit : StoresFit s (laneBytes x ls)) :
    ∃ u, storeUnits (pop s keep rs) (ps.map (fun l => (l.2.1, l.2.2, leBytes 4 (lane x l.1).toNat))) = .ok u ∧
      u.issue = (pop s keep rs).issue ∧ VectorStored s (laneBytes x ls) u := by
  obtain ⟨rfl, places⟩ := as
  obtain ⟨fits, can⟩ := fit
  have me : (pop s keep rs).me = s.me := by cases keep <;> rfl
  have ckpt : (pop s keep rs).issue.ckpt = s.issue.ckpt := by cases keep <;> rfl
  have mem : (pop s keep rs).mem = s.mem := by cases keep <;> rfl
  have storable' (p : Place) : storable (pop s keep rs) p = storable s p := by cases keep <;> cases p <;> rfl
  have runs : (ps.map (fun l => (l.2.1, l.2.2, leBytes 4 (lane x l.1).toNat))).map (fun u => (u.1, u.2.2))
      = laneBytes x (ps.map (fun l => (l.1, l.2.1))) := by rw [laneBytes, List.map_map, List.map_map]; rfl
  have unbarred : (pop s keep rs).issue.ckpt = true →
      ∀ u ∈ ps.map (fun l => (l.2.1, l.2.2, leBytes 4 (lane x l.1).toNat)), storable (pop s keep rs) u.2.1 = true := by
    rw [ckpt]
    intro last u hu
    obtain ⟨v, hv, rfl⟩ := List.mem_map.1 hu
    rw [storable']
    exact can last (v.2.1, _) (List.mem_map.2 ⟨(v.1, v.2.1), List.mem_map_of_mem (f := fun l => (l.1, l.2.1)) hv, rfl⟩) v.2.2 (places v hv)
  rw [storeUnits_unbarred unbarred, runs, storeBytes_fits (by rwa [me]), me]
  obtain ⟨mem', issue, gate, hgate⟩ := foldl_storeAwaits_keeps (ps.map (fun l => (l.2.1, l.2.2, leBytes 4 (lane x l.1).toNat)))
    ((pop s keep rs).setMe (stored s.me (laneBytes x (ps.map (fun l => (l.1, l.2.1))))))
  rw [State.me_setMe] at gate hgate
  exact ⟨_, rfl, issue, mem'.trans mem, gate, hgate⟩

/-- A pop changes nothing that decides where an access goes. -/
theorem placeLanes_pop (s : State) (keep : Bool) (rs : List (BitVec 5)) : placeLanes (pop s keep rs) = placeLanes s := by
  cases keep <;> rfl

/-- A vector store of units that are aligned and placed. -/
theorem storeLanes_placed {s : State} {ls : List (Nat × W64)} (keep : Bool) (rs : List (BitVec 5)) (x : Row) (h : LanesPlaced s .store ls)
    (fit : StoresFit s (laneBytes x ls)) :
    ∃ u, storeLanes (pop s keep rs) x ls = .ok u ∧ u.issue = (pop s keep rs).issue ∧ VectorStored s (laneBytes x ls) u := by
  obtain ⟨ps, placed, as⟩ := placeLanes_placed h
  obtain ⟨u, run, keeps⟩ := storeUnits_placed keep rs x as fit
  refine ⟨u, ?_, keeps⟩
  rw [storeLanes, alignLanes_aligned (fun q hq => (h.1 q hq).1), need_ok, placeLanes_pop, placed]
  exact run

section
variable {s : State}

theorem exec_vst_placed {f : RRI} (h : ExecutesV s f.g [.s f.a, .v f.d]) (ready : PortsReady s [f.d])
    (placed : LanesPlaced s .store (runLanes (s.src.getG f.g) (effective s f)))
    (fit : StoresFit s (laneBytes (vsrc s f.d) (runLanes (s.src.getG f.g) (effective s f)))) :
    ∃ u, exec (.vst f) s = .next u ∧ u.issue = (pop s false [f.d]).issue ∧
      VectorStored s (laneBytes (vsrc s f.d) (runLanes (s.src.getG f.g) (effective s f))) u := by
  obtain ⟨u, run, keeps⟩ := storeLanes_placed false [f.d] _ placed fit
  refine ⟨u, ?_, keeps⟩
  rw [exec_vst, execVst, slotV_ported (ds := []) (rs := [(.s f.a, false), (.v f.d, false)]) _ h ready, eaI_eq, run, finish_ok]

theorem exec_stq_placed {f : RRI} (h : ExecutesV s f.g [.s f.a]) (ready : PortsReady s [f.d ||| 28])
    (placed : LanesPlaced s .store (runLanes (s.src.getG f.g) (effective s f)))
    (fit : StoresFit s (laneBytes (vsrc s (f.d ||| 28)) (runLanes (s.src.getG f.g) (effective s f)))) :
    ∃ u, exec (.stq f) s = .next u ∧ u.issue = (pop s false [f.d ||| 28]).issue ∧
      VectorStored s (laneBytes (vsrc s (f.d ||| 28)) (runLanes (s.src.getG f.g) (effective s f))) u := by
  obtain ⟨u, run, keeps⟩ := storeLanes_placed false [f.d ||| 28] _ placed fit
  refine ⟨u, ?_, keeps⟩
  rw [exec_stq, execStq, slotV_ported (ds := []) (rs := [(.s f.a, false)]) _ h ready, eaI_eq, run, finish_ok]

theorem exec_vstx_within {f : RRR} (h : ExecutesV s f.g [.v f.a, .s f.b, .v f.d]) (ready : PortsReady s [f.d, f.a])
    (placed : LanesPlaced s .store (gatherLanes (s.src.getG f.g) (vsrc s f.a) (s.src.getS f.b)))
    (within : WithinBase s (s.src.getS f.b) (gatherLanes (s.src.getG f.g) (vsrc s f.a) (s.src.getS f.b)))
    (fit : StoresFit s (laneBytes (vsrc s f.d) (gatherLanes (s.src.getG f.g) (vsrc s f.a) (s.src.getS f.b)))) :
    ∃ u, exec (.vstx f) s = .next u ∧ u.issue = (pop s f.h [f.d, f.a]).issue ∧
      VectorStored s (laneBytes (vsrc s f.d) (gatherLanes (s.src.getG f.g) (vsrc s f.a) (s.src.getS f.b))) u := by
  obtain ⟨ps, check, as⟩ := gatherCheck_within placed within
  obtain ⟨u, run, keeps⟩ := storeUnits_placed f.h [f.d, f.a] _ as fit
  refine ⟨u, ?_, keeps⟩
  rw [exec_vstx, execVstx, slotV_ported (ds := []) (rs := [(.v f.a, f.ta), (.s f.b, f.tb), (.v f.d, false)]) _ h ready, check]
  simp only [run, finish_ok]

theorem exec_sts_placed {f : RR} {ra : W64} (h : ExecutesV s f.g [.v f.d]) (ready : PortsReady s [f.d])
    (row : rowAddr (streamOf s f.a) = some ra) (placed : LanesPlaced s .store (runLanes (s.src.getG f.g) ra))
    (fit : StoresFit s (laneBytes (vsrc s f.d) (runLanes (s.src.getG f.g) ra))) :
    ∃ u, exec (.sts f) s = .next (setStream u f.a (rowAfter (streamOf s f.a))) ∧ u.issue = (pop s f.h [f.d]).issue ∧
      VectorStored s (laneBytes (vsrc s f.d) (runLanes (s.src.getG f.g) ra)) u := by
  obtain ⟨u, run, keeps⟩ := storeLanes_placed f.h [f.d] _ placed fit
  refine ⟨u, ?_, keeps⟩
  have filled : ringOk [(streamOf s f.a, f.a)] = .ok () := by simp [ringOk, streamRow_of_rowAddr f.a row]
  rw [exec_sts, execSts]
  simp only [filled, need_ok]
  rw [slotV_ported (ds := []) (rs := [(.v f.d, false)]) _ h ready, streamRow_of_rowAddr f.a row]
  simp only [run, finish_ok]

end

/-- Settles O18: each vector store is `storeUnits` of its placed lanes after its pops, which fills the gate and no memory. -/
theorem vectorStores : Obligations.VectorStores :=
  ⟨fun _ _ h => exec_vst_placed h, fun _ _ h => exec_vstx_within h, fun _ _ _ h => exec_sts_placed h, fun _ _ h => exec_stq_placed h⟩

end Sys2Proof.Machine

namespace Sys2Proof.Machine

/-! Weight-store loads (R234, R237, R298). -/

section
variable {f : RRI} {s : State} (h : ExecutesV s f.g [.v f.d, .s f.a]) (aligned : (effective s f).toNat % 4 = 0)

include h aligned in
/-- An aligned wld whose 256 bytes do not lie in the store. -/
theorem exec_wld_beyond (past : 0x5FFFFFFF < (effective s f).toNat + 255) : ∃ a, exec (.wld f) s = .next (raise s .bounds a false) := by
  rw [exec_wld, execWld, slotV_sourced (ds := [.v f.d]) (rs := [(.s f.a, false)]) _ h]
  simp only [eaI_eq, alignLanes_runLanes aligned, need_ok]
  rw [if_pos (.inl past)]
  exact ⟨_, rfl⟩

variable (inside : (effective s f).toNat + 255 ≤ 0x5FFFFFFF) (bank₁ : ownsBank s s.issue.core (effective s f).toNat = true)
  (bank₂ : ownsBank s s.issue.core ((effective s f).toNat + 255) = true)
include inside bank₁ bank₂

/-- The bytes of one within the store and the partition's banks are in reach. -/
theorem wld_reaches : ¬ (0x5FFFFFFF < (effective s f).toNat + 255 ∨ ¬ ownsBank s s.issue.core (effective s f).toNat = true ∨
    ¬ ownsBank s s.issue.core ((effective s f).toNat + 255) = true) := by simp [bank₁, bank₂, Nat.not_lt.2 inside]

include h aligned

theorem exec_wld_unlocked (clear : (s.part (s.partIdOf s.issue.core)).wsLocked = false) {l : Nat}
    (lowest : (activeLanes (s.src.getG f.g)).head? = some l) :
    exec (.wld f) s = .next (raise s .wslock (effective s f + BitVec.ofNat 64 (4 * l)) false) := by
  rw [exec_wld, execWld, slotV_sourced (ds := [.v f.d]) (rs := [(.s f.a, false)]) _ h]
  simp only [eaI_eq, alignLanes_runLanes aligned, need_ok]
  rw [if_neg (wld_reaches inside bank₁ bank₂), if_pos (ne_true_of_eq_false clear), finish_trap, List.headD_eq_head?_getD, lowest, Option.getD_some]

variable (locked : (s.part (s.partIdOf s.issue.core)).wsLocked = true)
include locked

theorem exec_wld_steady (steady₁ : inWindow s (dieOf s.issue.core) (weightBank (effective s f).toNat) = false)
    (steady₂ : inWindow s (dieOf s.issue.core) (weightBank ((effective s f).toNat + 255)) = false) (good : CodesGood s) :
    exec (.wld f) s = .next (resultV s f.d (s.src.getG f.g) (weightRow s (effective s f).toNat (activeLanes (s.src.getG f.g))) 0 20) := by
  rw [exec_wld, execWld, slotV_sourced (ds := [.v f.d]) (rs := [(.s f.a, false)]) _ h]
  simp only [eaI_eq, alignLanes_runLanes aligned, need_ok]
  rw [if_neg (wld_reaches inside bank₁ bank₂), if_neg (not_not.2 locked), steady₁, steady₂, eccReads_good good]
  rfl

theorem exec_wld_refreshing (refreshes : inWindow s (dieOf s.issue.core) (weightBank (effective s f).toNat) = true ∨
      inWindow s (dieOf s.issue.core) (weightBank ((effective s f).toNat + 255)) = true) :
    exec (.wld f) s = .next (startOp s (.vector f.d (s.src.getG f.g))
      (.wload ((activeLanes (s.src.getG f.g)).map (fun l => (l, (effective s f).toNat + 4 * l))))) := by
  rw [exec_wld, execWld, slotV_sourced (ds := [.v f.d]) (rs := [(.s f.a, false)]) _ h]
  simp only [eaI_eq, alignLanes_runLanes aligned, need_ok]
  rw [if_neg (wld_reaches inside bank₁ bank₂), if_neg (not_not.2 locked), if_pos (by simpa [Bool.or_eq_true] using refreshes), finish_ok]

end

/-- Settles O20: an aligned wld by where its bytes lie, then by the lock, then by the refresh windows (R237, R298). -/
theorem weightLoads : Obligations.WeightLoads := by
  refine fun f s h aligned => ⟨exec_wld_beyond h aligned, fun inside bank₁ bank₂ => ⟨fun clear l lowest => ?_,
    fun locked w1 w2 good => ⟨_, fun l hl on => ?_, exec_wld_steady h aligned inside bank₁ bank₂ locked w1 w2 good⟩,
    exec_wld_refreshing h aligned inside bank₁ bank₂⟩⟩
  · exact exec_wld_unlocked h aligned inside bank₁ bank₂ clear lowest
  · exact lane_rowFrom_active _ _ hl on

end Sys2Proof.Machine

namespace Sys2Proof.Machine

/-! Tile loads (R267, R271, R272, R277, R299). -/

theorem acquire_codesGood {s : State} (h : CodesGood s) (c : CoreId) (n : Nat) (sel : W64 → Bool) : CodesGood (acquire s c n sel) := by
  unfold acquire
  split <;> exact h

/-- The row of a tile's unit at address a, as the issuing context reads it from the scratchpad of the handle's core. -/
def tileRow (s : State) (h m a : W64) : Row := rowFrom ((activeLanes m).map (fun l => (l, leWord 32
  (seenBytes s (a + BitVec.ofNat 64 (4 * l)) (.scratch (handleCore h) (wbits (a + BitVec.ofNat 64 (4 * l)) 0 22)) 4))))

section
variable {f : RRI} {s : State} (spend : Bool) (h : ExecutesV s f.g [.v f.d, .s f.a])
include h

theorem tileLoad_refused {info : W64} (bad : handleCheck s (s.src.getS f.a) = .error (.trap .tstale info)) :
    tileLoad f s spend = .next (raise s .tstale info false) := by
  rw [tileLoad, slotV_sourced (ds := [.v f.d]) (rs := [(.s f.a, false)]) _ h]
  simp only [bad, need_error, finish_trap]

variable (same : Matches s (s.src.getS f.a))
include same

theorem tileLoad_beyond (past : (poolOf s (s.src.getS f.a)).tsize < 256 * f.imm.toNat + 256) :
    ∃ a, tileLoad f s spend = .next (raise s .bounds a false) := by
  rw [tileLoad, slotV_sourced (ds := [.v f.d]) (rs := [(.s f.a, false)]) _ h]
  simp only [handleCheck_matches same, need_ok]
  rw [if_pos (by omega)]
  exact ⟨_, rfl⟩

variable (inside : 256 * f.imm.toNat + 256 ≤ (poolOf s (s.src.getS f.a)).tsize)
include inside

theorem tileLoad_open (opened : (tileOf s (s.src.getS f.a)).state = .open) :
    tileLoad f s spend = .next (startOp s (.vector f.d (s.src.getG f.g)) (.tile (s.src.getS f.a) f.imm.toNat spend
      ((runLanes (s.src.getG f.g) (tileAddr s (s.src.getS f.a) + BitVec.ofNat 64 (256 * f.imm.toNat))).flatMap
        (fun q => gateRun s.issue.pre.view q.2 4)) s.me.r.bind)) := by
  rw [tileLoad, slotV_sourced (ds := [.v f.d]) (rs := [(.s f.a, false)]) _ h]
  simp only [handleCheck_matches same, need_ok]
  rw [if_neg (by omega), if_pos opened, finish_ok]

theorem tileLoad_published (published : (tileOf s (s.src.getS f.a)).state = .published) (good : CodesGood s)
    (silent : reported s s.issue.core (bound s.me.r.bind 3 (s.src.getS f.a)) = none) :
    tileLoad f s spend = .next (resultV
      (if spend then spendTile (acquire s s.issue.core 2 (bound s.me.r.bind 3 (s.src.getS f.a))) (s.src.getS f.a)
        else acquire s s.issue.core 2 (bound s.me.r.bind 3 (s.src.getS f.a)))
      f.d (s.src.getG f.g) (tileRow s (s.src.getS f.a) (s.src.getG f.g) (tileAddr s (s.src.getS f.a) + BitVec.ofNat 64 (256 * f.imm.toNat)))
      0 (if handleCore (s.src.getS f.a) = s.issue.core then 6 else 14)) := by
  rw [tileLoad, slotV_sourced (ds := [.v f.d]) (rs := [(.s f.a, false)]) _ h]
  simp only [handleCheck_matches same, need_ok]
  rw [if_neg (by omega), if_neg (by simp [published]), acquireTile, acquireHere_unreported silent]
  simp only [eccReads_good (acquire_codesGood good ..), finish_ok, scratchLatency, runLanes, List.map_map]
  rfl

end

/-- Settles O21: both tile loads are `tileLoad`, by the check of the handle, then by the tile's size and state. -/
theorem tileLoads : Obligations.TileLoads := by
  intro i f spend s hi h
  have run : exec i s = tileLoad f s spend := by rcases hi with ⟨rfl, rfl⟩ | ⟨rfl, rfl⟩ <;> rfl
  rw [run]
  refine ⟨fun bad => tileLoad_refused spend h (handleCheck_unusable bad),
    fun good stale => tileLoad_refused spend h (handleCheck_stale good stale), fun same => tileLoad_beyond spend h same,
    fun same inside => ⟨tileLoad_open spend h same inside, fun published good silent =>
      ⟨_, fun l hl on => ?_, tileLoad_published spend h same inside published good silent⟩⟩⟩
  exact lane_rowFrom_active _ _ hl on

end Sys2Proof.Machine

namespace Sys2Proof.Machine

/-! Atomics (R248, R249, R300). -/

/-- Each atomic is the shared operation over its rule. -/
theorem atomicRule_exec {i : Instr} {f : AT} {op : AtomOp} (h : atomicRule i = some (f, op)) (s : State) : exec i s = atomic f s op := by
  unfold atomicRule at h
  split at h <;> cases h <;> rfl

theorem apply_eq_atomicNew (op : AtomOp) (old v c : W64) : op.apply old v c = atomicNew op old v c := by
  cases op with
  | min => exact minS_eq old v
  | max => exact maxS_eq old v
  | add => rfl
  | and => rfl
  | or => rfl
  | xor => rfl
  | swp => rfl
  | cas => rfl

theorem toHost_iff (op : AtomOp) : op.toHost = true ↔ op = .add ∨ op = .swp ∨ op = .cas := by cases op <;> decide

section
variable {f : AT} {s : State} {op : AtomOp}
  (h : Executes s f.g ([.s f.d, .s f.a] ++ if op = .cas then [.s (f.d + 1)] else []))
include h

/-- An atomic that executes answers what its checks and its read-modify-write give. -/
theorem atomic_executes : atomic f s op = finish s (need (alignTo 8 (s.src.getS f.a)) (match placed s .atomic (s.src.getS f.a) 8 with
      | .error e => .error e
      | .ok p =>
        if classOf (s.src.getS f.a) = 1 ∧ ¬ op.toHost then .error (.trap .txlate (txInfo (s.src.getS f.a) 3))
        else need (translated s p (s.src.getS f.a) (fun t => t.read && t.write)) <| need (memHold s (p.blocks 8))
          (need (if f.ord.getLsbD 1 then podClear s f.scope.toNat else .ok ()) (performAtomic f s op (s.src.getS f.a))))) := by
  have full : Executes s f.g ([Ref.s f.d] ++ ([(Ref.s f.a, false), (Ref.s f.d, false)]
      ++ if op = .cas then [(Ref.s (f.d + 1), false)] else []).map Prod.fst) := by
    refine ⟨h.1, fun r hr => h.2 r ?_⟩
    by_cases cas : op = .cas
    · simp only [if_pos cas] at hr ⊢
      simp at hr ⊢
      tauto
    · simp only [if_neg cas] at hr ⊢
      simp at hr ⊢
      tauto
  exact slot_sourced _ full

theorem atomic_misaligned (off : (s.src.getS f.a).toNat % 8 ≠ 0) : atomic f s op = .next (raise s .align (s.src.getS f.a) false) := by
  rw [atomic_executes h, alignTo_misaligned off, need_error, finish_trap]

variable (aligned : (s.src.getS f.a).toNat % 8 = 0)
include aligned

theorem atomic_unplaced {r : Nat} (hp : place s s.issue.core .atomic (s.src.getS f.a) 8 = .error r) :
    atomic f s op = .next (raise s .txlate (txInfo (s.src.getS f.a) r) false) := by
  rw [atomic_executes h, alignTo_aligned aligned, need_ok, placed_error hp]
  exact finish_trap ..

theorem atomic_not_carried {p : Place} (hp : place s s.issue.core .atomic (s.src.getS f.a) 8 = .ok p) (host : classOf (s.src.getS f.a) = 1)
    (no : ¬ op.toHost = true) : atomic f s op = .next (raise s .txlate (txInfo (s.src.getS f.a) 3) false) := by
  rw [atomic_executes h, alignTo_aligned aligned, need_ok, placed_ok hp]
  simp only
  rw [if_pos ⟨host, no⟩, finish_trap]

/-- One that its location can carry performs when its translation is there, the memory controllers take it, and its release is clear. -/
theorem atomic_performs {p : Place} (hp : place s s.issue.core .atomic (s.src.getS f.a) 8 = .ok p)
    (carried : ¬ (classOf (s.src.getS f.a) = 1 ∧ ¬ op.toHost = true))
    (there : translated s p (s.src.getS f.a) (fun t => t.read && t.write) = .ok ()) (taken : MemTaken s p 8)
    (clear : f.ord.getLsbD 1 = true → FabricDone s f.scope.toNat) :
    atomic f s op = finish s (performAtomic f s op (s.src.getS f.a)) := by
  have clear' : (if f.ord.getLsbD 1 then podClear s f.scope.toNat else .ok ()) = .ok () := by
    split
    · next rel => exact podClear_done (clear rel)
    · rfl
  rw [atomic_executes h, alignTo_aligned aligned, need_ok, placed_ok hp]
  simp only
  rw [if_neg carried, there, need_ok, memHold_taken taken, need_ok, clear', need_ok]

end

/-- What the acquire of an atomic leaves of the state: memory, and the registers and operations of its context (R249, R263). -/
theorem atomAcquire_keeps (s : State) (scope : Nat) (sel : W64 → Bool) : (atomAcquire s scope sel).mem = s.mem ∧
    (atomAcquire s scope sel).me.r = s.me.r ∧ (atomAcquire s scope sel).me.ops = s.me.ops := by
  have acquired (t : State) : (acquire t s.issue.core scope sel).mem = t.mem ∧ (acquire t s.issue.core scope sel).me = t.me := by
    refine ⟨acquire_mem .., ?_⟩
    rw [State.me, State.me, SameCores.ctx (sameCores_acquire t s.issue.core scope sel), steady_issue (acquire_steady ..)]
  unfold atomAcquire
  split
  · next l t found =>
    have same : SameCores s t ∧ t.issue = s.issue := by
      unfold reported at found
      split at found <;> cases found
      exact ⟨sameCores_setCore _ _ _ rfl, rfl⟩
    have me : t.me = s.me := by rw [State.me, State.me, same.2, same.1.ctx]
    obtain ⟨mem, ctx⟩ := acquired (t.setMe (t.me.pend { cause := .eccue, info := l ||| 1, pc := s.issue.pc, words := s.issue.words }))
    refine ⟨mem.trans (show t.mem = s.mem from reported_mem found), ?_, ?_⟩ <;> rw [ctx, State.me_setMe, me] <;> rfl
  · obtain ⟨mem, ctx⟩ := acquired s
    exact ⟨mem, by rw [ctx], by rw [ctx]⟩

/-- An atomic's operation carries its old value whenever it starts. -/
theorem me_startOp_atomic (s : State) (d : BitVec 5) (ea old : W64) : ∃ o, (startOp s (opS d) (.atomic ea old)).me.ops = s.me.ops ++ [o] ∧
    o.dest = opS d ∧ o.kind = .atomic ea old := by
  refine ⟨_, congrArg Ctx.ops (State.me_setMe s _), rfl, ?_⟩
  show (if s.issue.drained then _ else _) = _
  split <;> rfl

/-- The registers of a context whose scalar operation starts, s0 too. -/
theorem getS_startOp (s : State) (d e : BitVec 5) (kind : OpKind) : (startOp s (opS d) kind).me.r.getS e = s.me.r.getS e := by
  by_cases h0 : d = 0
  · rw [opS, if_pos h0]
    exact congrArg (fun y => y.r.getS e) (State.me_setMe s _)
  · rw [startOp_regs s d kind h0, takeS_eq _ d h0, getS_markS]; rfl

/-- The state that an atomic reads its word in comes from the state it issues in by movements of bytes. -/
theorem moves_atomicBefore (f : AT) (s : State) (p : Place) : Moves s (atomicBefore f s p) := by
  have released : Moves s (if f.ord.getLsbD 1 then
      release (drainMe s) s.issue.core f.scope.toNat (bound s.me.r.bind 1 (s.src.getS f.a)) else drainMe s) := by
    split
    · exact (Moves.drainMe s).trans (Moves.release ..)
    · exact Moves.drainMe s
  unfold atomicBefore
  simp only
  split
  · exact released.trans (Moves.nearDrop ..)
  · exact released

theorem drainMe_issue (s : State) : (drainMe s).issue = { s.issue with drained := true } := by
  rw [drainMe, steady_issue (drainStores_steady ..)]

theorem atomicBefore_src (f : AT) (s : State) (p : Place) : (atomicBefore f s p).src = s.src := by
  have drained : (drainMe s).issue.pre = s.issue.pre := by rw [drainMe_issue]
  unfold atomicBefore
  simp only [State.src]
  split <;> split <;> simp only [steady_issue (nearDrop_steady ..), steady_issue (release_steady ..), drained]

/-- The place of an 8-byte word at its owner point: the near-cache line is gone. -/
theorem atOwner_word {s : State} {c : CoreId} {va : W64} {p : Place} (hp : place s c .atomic va 8 = .ok p) :
    atOwner s c .atomic va 8 = .ok (if p.cached then nearDrop s c va else s, p.key) := by
  unfold atOwner
  rw [if_neg (by omega), hp]

theorem atomRead_good {s : State} (hc : CodesGood s) (hp : s.poison = []) (ea : W64) (key : Nat) :
    atomRead s ea key = .ok (leWord 64 (s.mem.readRun key 8), s) := by rw [atomRead, ownerRead_good hc hp]

theorem spendMem_src (s : State) (p : PartId) (bs : List Nat) : (spendMem s p bs).src = s.src := by
  rw [State.src, State.src, steady_issue (spendMem_steady ..)]

/-- The state after the read-modify-write of an atomic's word, its operation started. -/
def atomicDone (f : AT) (op : AtomOp) (s : State) (ea : W64) (key : Nat) (old : W64) : State :=
  startOp ((spendMem s (s.partIdOf s.issue.core) (keyBlocks key 8)).writeAt key
    (leBytes 8 (op.apply old (s.src.getS f.d) (s.src.getS (f.d + 1))).toNat)) (opS f.d) (.atomic ea old)

/-- An atomic whose word can be read makes its read-modify-write, then its acquire (R248, R249). -/
theorem performAtomic_ready {f : AT} {s : State} {p : Place} (op : AtomOp) (hp : place s s.issue.core .atomic (s.src.getS f.a) 8 = .ok p)
    (good : CodesGood s) (clean : s.poison = []) :
    let t := atomicDone f op (atomicBefore f s p) (s.src.getS f.a) p.key (leWord 64 ((atomicBefore f s p).mem.readRun p.key 8))
    performAtomic f s op (s.src.getS f.a) = .ok (if f.ord.getLsbD 0
      then atomAcquire t f.scope.toNat (bound s.me.r.bind 1 (s.src.getS f.a)) else t) := by
  have core : (drainMe s).issue.core = s.issue.core := by rw [drainMe_issue]
  have released : Moves s (if f.ord.getLsbD 1 then
      release (drainMe s) s.issue.core f.scope.toNat (bound s.me.r.bind 1 (s.src.getS f.a)) else drainMe s) := by
    split
    · exact (Moves.drainMe s).trans (Moves.release ..)
    · exact Moves.drainMe s
  have before := moves_atomicBefore f s p
  have owner := atOwner_word ((released.place s.issue.core .atomic (s.src.getS f.a) 8).trans hp)
  rw [performAtomic]
  simp only [core]
  rw [released.issuer.1, owner]
  simp only
  rw [show (if p.cached = true then _ else _) = atomicBefore f s p from rfl, atomRead_good (before.codesGood good) (before.poison.trans clean)]
  simp only [spendMem_src]
  rfl

theorem me_spendMem (s : State) (p : PartId) (bs : List Nat) : (spendMem s p bs).me = s.me := by
  rw [State.me, State.me, State.ctx, State.ctx, spendMem_core, steady_issue (spendMem_steady ..)]

/-- What an atomic's read-modify-write leaves: the new word in memory, its operation outstanding, sD empty, and no register changed. -/
theorem atomicDone_leaves (f : AT) (op : AtomOp) (s : State) (ea : W64) (key : Nat) (old : W64) :
    (atomicDone f op s ea key old).mem = s.mem.writeRun key (leBytes 8 (atomicNew op old (s.src.getS f.d) (s.src.getS (f.d + 1))).toNat) ∧
    (∃ o, (atomicDone f op s ea key old).me.ops = s.me.ops ++ [o] ∧ o.dest = opS f.d ∧ o.kind = .atomic ea old) ∧
    (f.d ≠ 0 → (atomicDone f op s ea key old).me.r.fullS f.d = false) ∧
    ∀ e, (atomicDone f op s ea key old).me.r.getS e = s.me.r.getS e := by
  have me : ((spendMem s (s.partIdOf s.issue.core) (keyBlocks key 8)).writeAt key
      (leBytes 8 (op.apply old (s.src.getS f.d) (s.src.getS (f.d + 1))).toNat)).me = s.me := me_spendMem ..
  refine ⟨?_, ?_, fun h0 => ?_, fun e => ?_⟩
  · rw [← apply_eq_atomicNew, ← spendMem_mem s (s.partIdOf s.issue.core) (keyBlocks key 8)]
    rfl
  · rw [← me]
    exact me_startOp_atomic ..
  · rw [atomicDone, startOp_regs _ _ _ h0, takeS_eq _ _ h0, fullS_markS_same _ _ _ h0]
  · rw [atomicDone, getS_startOp, me]

/-- An access that the host permits for reading and writing, or that does not go there, needs no translation first (R300). -/
theorem translated_permitted {s : State} {p : Place} (va : W64) (h : (∀ pid a, p ≠ .host pid a) ∨
      ∃ pid a e, p = .host pid a ∧ tlbFind s (dieOf s.issue.core) pid a = some e ∧ e.read = true ∧ e.write = true) :
    translated s p va (fun t => t.read && t.write) = .ok () := by
  rcases h with elsewhere | ⟨pid, a, e, rfl, found, read, write⟩
  · cases p with
    | host pid a => exact absurd rfl (elsewhere pid a)
    | scratch c o => rfl
    | tier e pa => rfl
  · simp [translated, found, read, write]

/-- An atomic that can perform: what its step leaves. -/
theorem atomic_leaves {f : AT} {s : State} {op : AtomOp} {p : Place}
    (h : Executes s f.g ([.s f.d, .s f.a] ++ if op = .cas then [.s (f.d + 1)] else [])) (aligned : (s.src.getS f.a).toNat % 8 = 0)
    (hp : place s s.issue.core .atomic (s.src.getS f.a) 8 = .ok p) (carried : ¬ (classOf (s.src.getS f.a) = 1 ∧ ¬ op.toHost = true))
    (permitted : (∀ pid a, p ≠ .host pid a) ∨
      ∃ pid a e, p = .host pid a ∧ tlbFind s (dieOf s.issue.core) pid a = some e ∧ e.read = true ∧ e.write = true)
    (good : CodesGood s) (clean : s.poison = []) (taken : MemTaken s p 8) (clear : f.ord.getLsbD 1 = true → FabricDone s f.scope.toNat) :
    ∃ t old, atomic f s op = .next t ∧ old = leWord 64 ((atomicBefore f s p).mem.readRun p.key 8) ∧
      t.mem = (atomicBefore f s p).mem.writeRun p.key
        (leBytes 8 (atomicNew op old (s.src.getS f.d) (s.src.getS (f.d + 1))).toNat) ∧
      (∃ o, t.me.ops = (atomicBefore f s p).me.ops ++ [o] ∧ o.dest = opS f.d ∧ o.kind = .atomic (s.src.getS f.a) old) ∧
      (f.d ≠ 0 → t.me.r.fullS f.d = false) ∧ (∀ e, t.me.r.getS e = s.me.r.getS e) := by
  obtain ⟨mem, ops, empty, regs⟩ := atomicDone_leaves f op (atomicBefore f s p) (s.src.getS f.a) p.key
    (leWord 64 ((atomicBefore f s p).mem.readRun p.key 8))
  rw [atomicBefore_src] at mem
  have same : (atomicBefore f s p).me.r = s.me.r := (congrArg Ctx.r (moves_atomicBefore f s p).me :)
  rw [same] at regs
  refine ⟨_, _, by rw [atomic_performs h aligned hp carried (translated_permitted _ permitted) taken clear,
    performAtomic_ready op hp good clean, finish_ok], rfl, ?_⟩
  split
  · obtain ⟨mem', regs', ops'⟩ := atomAcquire_keeps (atomicDone f op (atomicBefore f s p) (s.src.getS f.a) p.key
      (leWord 64 ((atomicBefore f s p).mem.readRun p.key 8))) f.scope.toNat (bound s.me.r.bind 1 (s.src.getS f.a))
    rw [mem', regs', ops']
    exact ⟨mem, ops, empty, regs⟩
  · exact ⟨mem, ops, empty, regs⟩

/-- An atomic's old value arrives in sD and changes no byte of memory (R300). -/
theorem exec_atomicResult_gives {c : CoreId} {x : CtxId} {s : State} {o : Op} {ea old : W64} {d : BitVec 5} (ho : opOf s c x o.id = some o)
    (kind : o.kind = .atomic ea old) (dest : o.dest = .scalar d) (h0 : d ≠ 0) (program : (s.ctx c x).handler = false) :
    ∃ u, exec (.atomicResult c x o.id) s = .next u ∧ (u.ctx c x).r.getS d = old ∧ (u.ctx c x).r.fullS d = true ∧
      (u.ctx c x).ops = (s.ctx c x).ops.filter (fun p => p.id != o.id) ∧ u.mem = s.mem := by
  have run : exec (.atomicResult c x o.id) s = .next (giveScalar s c x o old) := by
    rw [exec_atomicResult, execAtomicResult]; simp only [ho, kind]
  refine ⟨_, run, ?_⟩
  rw [giveScalar, endOp_program o _ program, State.ctx_setCtx_same]
  simp only [Ctx.give, dest]
  exact ⟨getS_giveS_same _ d old h0, fullS_giveS_same _ d old h0, trivial, rfl⟩

/-- Settles O22: every atomic is the shared operation, by its checks in their order; what it leaves is that of its read-modify-write
(`atomicDone_leaves`), which its acquire keeps (`atomAcquire_keeps`). -/
theorem atomics : Obligations.Atomics := by
  refine ⟨fun i f op s hi h => ?_, fun c x s o ea old d ho kind dest h0 program => exec_atomicResult_gives ho kind dest h0 program⟩
  rw [atomicRule_exec hi s]
  refine ⟨atomic_misaligned h, fun aligned => ⟨fun r hp => atomic_unplaced h aligned hp, fun p hp => ⟨fun host na ns nc => ?_,
    fun can good clean taken clear => ?_⟩⟩⟩
  · exact atomic_not_carried h aligned hp host (fun ok => ((toHost_iff op).1 ok).elim na (·.elim ns nc))
  · refine atomic_leaves h aligned hp (fun bad => ?_) (can.imp (·.2) (·.2)) good clean taken clear
    rcases can with ⟨device, -⟩ | ⟨ok, -⟩
    · exact device bad.1
    · exact bad.2 ((toHost_iff op).2 ok)

end Sys2Proof.Machine

namespace Sys2Proof.Machine

/-! Fences (R254, R256, R301). -/

/-- The issuing context with a fence more, and its token counted. -/
def fenced (f : RI) (s t : State) : State := t.setMe { t.me with
  fenceCount := s.me.fenceCount + 1,
  fences := t.me.fences ++ [{ token := s.me.fenceCount + 1, scope := f.imm.setWidth 3, before := t.nextId, pc := t.issue.pc,
                              words := t.issue.words, epoch := t.me.epoch, byHandler := t.me.handler }] }

theorem exec_fence_full {f : RI} {s : State} (h : Executes s f.g [.s f.d]) (full : 16 ≤ s.me.fences.length) :
    Holds s (exec (.fence f) s) := by
  rw [exec_fence, execFence, slot_on s f.g _ _ h.1 h.2]
  simp only
  rw [if_pos full]
  exact finish_hold s

theorem exec_fence_room {f : RI} {s : State} (h : Executes s f.g [.s f.d]) (room : s.me.fences.length < 16) :
    exec (.fence f) s = .next (resultS (fenced f s (if s.me.handler then drainMe s else s)) f.d
      (BitVec.ofNat 64 (s.me.fenceCount + 1)) 1) := by
  rw [exec_fence, execFence, slot_on s f.g _ _ h.1 h.2]
  simp only
  rw [if_neg (Nat.not_le.2 room), finish_ok, BitVec.ofNat_toNat]
  rfl

theorem exec_fwait_waits {f : RR} {s : State} (h : Executes s f.g [.s f.a])
    (waits : ∃ q ∈ s.issue.pre.fences, q.token ≤ (s.src.getS f.a).toNat) : Holds s (exec (.fwait f) s) := by
  have some' : s.issue.pre.fences.any (fun q => decide (q.token ≤ (s.src.getS f.a).toNat)) = true := by simpa using waits
  rw [exec_fwait, execFwait, slot_sourced (ds := []) (rs := [(.s f.a, f.ta)]) _ h, if_pos some']
  exact finish_hold s

theorem exec_fwait_passes {f : RR} {s : State} (h : Executes s f.g [.s f.a])
    (passed : ∀ q ∈ s.issue.pre.fences, (s.src.getS f.a).toNat < q.token) : exec (.fwait f) s = .next s := by
  have none' : ¬ s.issue.pre.fences.any (fun q => decide (q.token ≤ (s.src.getS f.a).toNat)) = true := by simpa using passed
  rw [exec_fwait, execFwait, slot_sourced (ds := []) (rs := [(.s f.a, f.ta)]) _ h, if_neg none', finish_ok]

/-! Lock words (R303). -/

/-- A transfer of the context that is not acknowledged keeps its release at .pod back (R252, R425). -/
theorem podClear_open {s : State} (h : (∃ k ∈ s.eng.copies, k.xfer ≠ none) ∨ unanswered s s.issue.core s.issue.ctx = true) :
    podClear s 5 = .error .hold := by
  refine if_pos ⟨rfl, Bool.or_eq_true_iff.2 (h.imp (fun ⟨k, hk, open'⟩ => ?_) id)⟩
  exact List.any_eq_true.2 ⟨k, hk, Option.isSome_iff_ne_none.2 open'⟩

section
variable {f : RR} {s : State} (h : Executes s f.g [.s f.a])
include h

theorem exec_rel_sourced : exec (.rel f) s = finish s (need (alignTo 8 (s.src.getS f.a)) (need (podClear s f.d.toNat)
    (.ok (release (drainMe s) s.issue.core f.d.toNat (bound s.me.r.bind 1 (s.src.getS f.a)))))) :=
  slot_sourced (ds := []) (rs := [(.s f.a, f.ta)]) _ h

theorem exec_acq_sourced : exec (.acq f) s = finish s (need (alignTo 8 (s.src.getS f.a))
    (acquireHere s f.d.toNat (bound s.me.r.bind 1 (s.src.getS f.a)))) :=
  slot_sourced (ds := []) (rs := [(.s f.a, f.ta)]) _ h

end

/-- Settles O23: a fence by the room for its token, fwait by the fences of its bundle's snapshot, rel and acq by the alignment of the lock
word and by what the release at .pod waits for (`podClear_done`, `podClear_open`). -/
theorem fencesAndLocks : Obligations.FencesAndLocks := by
  refine ⟨fun f s t h ht => ⟨exec_fence_full h, fun room => ?_⟩, fun f s h => ⟨exec_fwait_waits h, exec_fwait_passes h⟩, fun f s h => ?_⟩
  · rw [exec_fence_room h room, ht]; rfl
  · rw [exec_rel_sourced h, exec_acq_sourced h]
    refine ⟨fun off => ?_, fun aligned => ?_⟩
    · rw [alignTo_misaligned off]; exact ⟨rfl, rfl⟩
    rw [alignTo_aligned aligned, need_ok, need_ok]
    refine ⟨fun done => ?_, fun pod open' => ?_, fun silent => ?_⟩
    · rw [podClear_done done]; rfl
    · rw [pod]
      exact congrArg (fun c => finish s (need c _)) (podClear_open open')
    · rw [acquireHere_unreported silent, finish_ok]

end Sys2Proof.Machine

namespace Sys2Proof.Machine

/-! Stream registers (R287, R296). -/

/-- A value fits the field that stset writes. -/
def stsetFit (n : Nat) (v : W64) : Bool :=
  if n = 1 then decide (v.toNat < 256) else decide (16 ≤ n) || decide (v.toNat < 2 ^ (streamFieldAt n).width)

/-- A value for a whole word has a reserved bit set. -/
def stsetReserved (n : Nat) (v : W64) : Bool :=
  (n == 17 && wbits v 17 15 != 0) || (n == 21 && wbits v 32 32 != 0) || (decide (22 ≤ n) && v != 0)

/-- A value leaves a ring without one of its counts. -/
def stsetEmpties (st : File 3 W64) (n : Nat) (v : W64) : Bool :=
  let new := stPut st n v.toNat
  stField new 3 == 1 && (stField new 7 == 0 || stField new 8 == 0 || stField new 9 == 0)
    && (n == 3 || n == 7 || n == 8 || n == 9 || n == 17 || n == 19)

/-- The check of stset: an unassigned format code first, then the rest. -/
theorem stsetCheck_eq (s : State) (r : BitVec 5) (n : Nat) (v : W64) : stsetCheck s r n v =
    if (n = 1 ∨ n = 17) ∧ stsetFit n v = true ∧ formatOf (v.toNat % 256) = none then .error (.trap .ill (BitVec.ofNat 64 s.issue.slot))
    else if (!stsetFit n v || stsetReserved n v || stsetEmpties (streamOf s r) n v) = true
      then .error (.trap .bounds (streamInfo (streamOf s r) r 4)) else .ok () := by
  unfold stsetCheck
  simp only
  by_cases coded : n = 1 ∨ n = 17
  · rw [if_pos coded]
    simp only [coded, true_and, ← Option.isNone_iff_eq_none, ← Bool.and_eq_true]
    rfl
  · have known : ¬ ((n = 1 ∨ n = 17) ∧ stsetFit n v = true ∧ formatOf (v.toNat % 256) = none) := fun bad => coded bad.1
    rw [if_neg coded, if_neg known]
    rfl

theorem stsetFit_iff (n : Nat) (v : W64) : stsetFit n v = true ↔ (n < 16 → v.toNat < 2 ^ (streamFieldAt n).width) := by
  unfold stsetFit
  by_cases one : n = 1
  · have byte : 2 ^ (streamFieldAt 1).width = 256 := rfl
    rw [if_pos one, one, byte, decide_eq_true_iff]
    exact ⟨fun small _ => small, fun fits => fits (by decide)⟩
  · rw [if_neg one, Bool.or_eq_true, decide_eq_true_iff, decide_eq_true_iff]
    generalize 2 ^ (streamFieldAt n).width = bound'
    omega

theorem stsetReserved_iff (n : Nat) (v : W64) : stsetReserved n v = false ↔
    (n = 17 → wbits v 17 15 = 0) ∧ (n = 21 → wbits v 32 32 = 0) ∧ (22 ≤ n → v = 0) := by
  simp [stsetReserved, and_assoc]

theorem stsetEmpties_iff (st : File 3 W64) (n : Nat) (v : W64) : stsetEmpties st n v = false ↔
    (n ∈ [3, 7, 8, 9, 17, 19] → stField (stPut st n v.toNat) 3 = 1 →
      stField (stPut st n v.toNat) 7 ≠ 0 ∧ stField (stPut st n v.toNat) 8 ≠ 0 ∧ stField (stPut st n v.toNat) 9 ≠ 0) := by
  simp [stsetEmpties]
  tauto

theorem stsetCheck_fits {s : State} {r : BitVec 5} {n : Nat} {v : W64} (h : StsetFits (streamOf s r) n v) : stsetCheck s r n v = .ok () := by
  obtain ⟨fits, word1, word5, past, coded, counts⟩ := h
  have known : ¬ ((n = 1 ∨ n = 17) ∧ stsetFit n v = true ∧ formatOf (v.toNat % 256) = none) := fun ⟨field, _, none'⟩ => by
    simpa [none'] using coded field
  rw [stsetCheck_eq, if_neg known, (stsetFit_iff n v).2 fits, (stsetReserved_iff n v).2 ⟨word1, word5, past⟩,
    (stsetEmpties_iff _ n v).2 counts]
  rfl

theorem stsetCheck_unassigned {s : State} {r : BitVec 5} {v : W64} (small : v.toNat < 256) (h : formatOf v.toNat = none) :
    stsetCheck s r 1 v = .error (.trap .ill (BitVec.ofNat 64 s.issue.slot)) := by
  rw [stsetCheck_eq, if_pos ⟨.inl rfl, (stsetFit_iff 1 v).2 (fun _ => small), by rwa [Nat.mod_eq_of_lt small]⟩]

theorem stsetCheck_wide {s : State} {r : BitVec 5} {n : Nat} {v : W64} (field : n < 16) (h : 2 ^ (streamFieldAt n).width ≤ v.toNat) :
    stsetCheck s r n v = .error (.trap .bounds (streamInfo (streamOf s r) r 4)) := by
  have wide : stsetFit n v = false := Bool.eq_false_iff.2 (fun fits => absurd ((stsetFit_iff n v).1 fits field) (Nat.not_lt.2 h))
  rw [stsetCheck_eq, if_neg (by simp [wide]), wide]
  rfl

theorem exec_stset_sourced {f : RRI} {s : State} (h : Executes s f.g [.s f.a]) : exec (.stset f) s =
    finish s (need (stsetCheck s f.d f.imm.toNat (s.src.getS f.a)) (.ok (result s (.stream (f.d.setWidth 4) f.imm.toNat) (BitVec.allOnes 64)
      (rowOfWord (s.src.getS f.a)) 0 1))) := by
  rw [exec_stset, execStset, slot_sourced (ds := []) (rs := [(.s f.a, false)]) _ h, streamReg, BitVec.ofNat_toNat]
  rfl

/-! Binding slots (R302). -/

/-- What bind does with the word in sD: kind 0 clears the slot, the rest is checked, then written. -/
theorem exec_bind_sourced {f : RRR} {s : State} (h : Executes s f.g [.s f.a, .s f.b, .s f.d]) : exec (.bind f) s = finish s
    (let d := s.src.getS f.d
     let base := s.src.getS f.a
     let len := wbits d 32 32
     let put := fun (w : File 2 W64) => s.setRegs { s.me.r with bind := rset s.me.r.bind (d.setWidth 4) w }
     if wbits d 4 3 = 0 then .ok (put (Vector.replicate _ 0))
     else if base.toNat % 64 ≠ 0 ∨ len % 64 ≠ 0 then .error (.trap .align d)
     else if len = 0 ∨ wbits d 4 3 = 7 ∨ 2 ^ 64 < base.toNat + len ∨ classOf base ≠ classOf (base + BitVec.ofNat 64 (len - 1)) then
       .error (.trap .bounds d)
     else .ok (put #v[base, BitVec.ofNat 64 len, s.src.getS f.b, BitVec.ofNat 64 (wbits d 4 3)])) := by
  have number (d : W64) : BitVec.ofNat 4 (wbits d 0 4) = d.setWidth 4 := by
    apply BitVec.eq_of_toNat_eq
    simp [wbits]
  rw [exec_bind, execBind, slot_sourced (ds := []) (rs := [(.s f.a, f.ta), (.s f.b, f.tb), (.s f.d, false)]) _ h]
  simp only [number]

/-! Hints (R304, R386). -/

section
variable {f : RRI} {s : State} (h : Executes s f.g [.s f.a])
include h

theorem exec_prf_placed {p : Place} (hp : placeByte s s.issue.core .load (effective s f) = .ok p) : exec (.prf f) s = .next
    (if p.cached = true ∧ nearFind (s.core s.issue.core) (effective s f) = none ∧
        fetchable s p (effective s f) = true ∧ memReady s (s.partIdOf s.issue.core) (keyBlocks (p.key / 64 * 64) 64) = true
      then nearFetch (spendMem s (s.partIdOf s.issue.core) (keyBlocks (p.key / 64 * 64) 64)) s.issue.core (effective s f) else s) := by
  rw [exec_prf, execPrf, slot_sourced (ds := []) (rs := [(.s f.a, false)]) _ h]
  simp only [eaI_eq, hp, finish_ok, Bool.and_eq_true, Option.isNone_iff_eq_none, and_assoc]

theorem exec_prf_unplaced {r : Nat} (hp : placeByte s s.issue.core .load (effective s f) = .error r) : exec (.prf f) s = .next s := by
  rw [exec_prf, execPrf, slot_sourced (ds := []) (rs := [(.s f.a, false)]) _ h]
  simp only [eaI_eq, hp, finish_ok]

theorem exec_ninv_placed {p : Place} (hp : place s s.issue.core .peek (effective s f) 1 = .ok p) :
    exec (.ninv f) s = .next (if p.cached then nearDrop s s.issue.core (effective s f) else s) := by
  rw [exec_ninv, execNinv, slot_sourced (ds := []) (rs := [(.s f.a, false)]) _ h]
  simp only [eaI_eq, placed_ok hp, finish_ok]

theorem exec_ninv_unplaced {r : Nat} (hp : place s s.issue.core .peek (effective s f) 1 = .error r) :
    exec (.ninv f) s = .next (raise s .txlate (txInfo (effective s f) r) false) := by
  rw [exec_ninv, execNinv, slot_sourced (ds := []) (rs := [(.s f.a, false)]) _ h]
  simp only [eaI_eq, placed_error hp, finish_trap]

end

/-- Settles O19: stset by its check (`stsetCheck_eq`), bind by its checks in their order, prf and ninv by the place of their address. -/
theorem streamsBindingsHints : Obligations.StreamsBindingsHints := by
  refine ⟨fun f s h => ?_, fun f s h => ?_, fun f s h => ?_,
    fun f s h => ⟨fun p => exec_prf_placed h, fun r => exec_prf_unplaced h, fun p => exec_ninv_placed h, fun r => exec_ninv_unplaced h⟩⟩
  · rw [exec_stset_sourced h]
    refine ⟨fun fits => ?_, fun one small none' => ?_, fun field wide => ?_⟩
    · rw [stsetCheck_fits fits, need_ok, finish_ok]
    · rw [one, stsetCheck_unassigned small none', need_error, finish_trap]
    · rw [stsetCheck_wide (by omega) wide, need_error, finish_trap]
  · rw [exec_stget, execStget, slot_on s f.g _ _ h.1 h.2, finish_ok]
  · rw [exec_bind_sourced h]
    refine ⟨fun clear => ?_, fun kind kind7 base len some' inside class' => ?_, fun kind off => ?_⟩
    · simp only [if_pos clear, finish_ok]
    · have aligned : ¬ ((s.src.getS f.a).toNat % 64 ≠ 0 ∨ wbits (s.src.getS f.d) 32 32 % 64 ≠ 0) := by simp [base, len]
      have bounded : ¬ (wbits (s.src.getS f.d) 32 32 = 0 ∨ wbits (s.src.getS f.d) 4 3 = 7 ∨
          2 ^ 64 < (s.src.getS f.a).toNat + wbits (s.src.getS f.d) 32 32 ∨
          classOf (s.src.getS f.a) ≠ classOf (s.src.getS f.a + BitVec.ofNat 64 (wbits (s.src.getS f.d) 32 32 - 1))) := by
        rw [not_or, not_or, not_or]
        exact ⟨some', kind7, Nat.not_lt.2 inside, not_not.2 class'⟩
      simp only [if_neg kind, if_neg aligned, if_neg bounded, finish_ok]
    · simp only [if_neg kind, if_pos off, finish_trap]

end Sys2Proof.Machine

namespace Sys2Proof.Machine

/-! Reads of engines where no check code is in error, and accesses to places on the device (R223, R230, R378). -/

theorem uncorrectable_good {s : State} (good : CodesGood s) (clean : s.poison = []) (k n : Nat) : uncorrectable s k n = false := by
  rw [uncorrectable, doubleAt_good good, clean]; rfl

theorem eccCorrect_good {s : State} (good : CodesGood s) (c : CoreId) (k n : Nat) : eccCorrect s c k n = s := by
  rw [eccCorrect, eccAmong, show s.ecc = [] from good]; rfl

theorem engineRead_good {s : State} (good : CodesGood s) (clean : s.poison = []) (c : CoreId) (k n : Nat) (info : W64) :
    engineRead s c k n info = .bytes (s.mem.readRun k n) s := by
  rw [engineRead, uncorrectable_good good clean, eccCorrect_good good]; rfl

/-- A place on the device needs no translation. -/
theorem engineBar_device {p : Place} (device : ∀ pid va, p ≠ .host pid va) (s : State) (c : CoreId) (i n : Nat) (write : Bool) :
    engineBar s c p i n write = none := by
  cases p with
  | host pid va => exact absurd rfl (device pid va)
  | scratch d o => rfl
  | tier e pa => rfl

theorem readAddress_device {s : State} {c : CoreId} {va : W64} {len : Nat} {p : Place} (hp : place s c .read va len = .ok p)
    (device : ∀ pid a, p ≠ .host pid a) (good : CodesGood s) (clean : s.poison = []) (i n : Nat) :
    readAddress s c va len i n = .bytes (s.mem.readRun (p.key + i) n) s := by
  rw [readAddress, hp]
  simp only [engineBar_device device, engineRead_good good clean]

theorem writeAddress_device {s : State} {pid : PartId} {c : CoreId} {va : W64} {len : Nat} {q : Place}
    (hq : placeIn s pid c .write va len = .ok q) (device : ∀ pid a, q ≠ .host pid a) (i : Nat) (bs : List Byte) :
    writeAddress s pid c va len i bs = .ok (s.writeAt (q.key + i) bs) := by
  rw [writeAddress, hq]
  simp only [engineBar_device device]

/-! The first bytes of a walk (R310, R311). -/

/-- The first run starts at the base. -/
theorem walkOff_first (sh : File 4 W64) (stride : Nat → W64) : walkOff sh stride 0 = 0#64 := by
  simp [walkOff, walkIndex, dims]

theorem runLen_pos {sh : File 4 W64} (runs : walkRuns sh ≠ 0) : 0 < runLen sh := by
  refine Nat.pos_of_ne_zero (fun none' => runs ?_)
  rw [walkRuns, if_pos none']

theorem walkBytes_pos {sh : File 4 W64} (runs : walkRuns sh ≠ 0) : 0 < walkBytes sh :=
  Nat.mul_pos (runLen_pos runs) (Nat.pos_of_ne_zero runs)

theorem copyRead_first {s : State} {c : CoreId} {k : Copy} {p : Place} (form : k.form ≠ .gather) (data : k.data = none)
    (hp : place s c .read k.src (runLen k.shape) = .ok p) (device : ∀ pid a, p ≠ .host pid a) (good : CodesGood s) (clean : s.poison = [])
    (n : Nat) : copyRead s c k 0 0 n = .bytes (s.mem.readRun p.key n) s := by
  have read := readAddress_device hp device good clean 0 n
  unfold copyRead
  simp only [data, walkOff_first, BitVec.add_zero]
  exact read

/-- m bytes at the start of a walk that has not moved, by a copy that counts into no sync word: read, written, and spent at their controllers. -/
theorem moveSome_first {s t : State} {c : CoreId} {k : Copy} {m n : Nat} {bs : List Byte} (x : CtxId) (good : CodesGood s) (clean : s.poison = [])
    (start : k.moved = 0) (kind : k.kind ≠ 2) (size : min (max (moveUnit s k) (n / moveUnit s k * moveUnit s k)) (runLen k.shape) = m)
    (ready : memReady s (s.partIdOf c) (copyBlocks s c k 0 0 m) = true) (read : copyRead s c k 0 0 m = .bytes bs s)
    (write : copyWrite s c x k 0 0 bs = .ok t) :
    moveSome s c x k n = .go (spendMem t (t.partIdOf c) (copyBlocks s c k 0 0 m)) { k with moved := m, page := none } := by
  have fine (l : List W64) : l.find? (fun a => uncorrectable s (quadKey c a) 16) = none :=
    List.find?_eq_none.2 (fun a _ => by rw [uncorrectable_good good clean]; decide)
  have corrected (l : List W64) : l.foldl (fun s a => eccCorrect s c (quadKey c a) 16) s = s :=
    List.foldl_fixed' (fun a => eccCorrect_good good ..) l
  unfold moveSome
  simp only [start, Nat.zero_div, Nat.zero_mod, Nat.sub_zero, size, ready, fine, corrected, read, write, kind, Bool.not_true, Bool.false_eq_true,
    if_false, false_and, Nat.zero_add]

theorem moveOn_enough (c : CoreId) (x : CtxId) (f : Nat) (s : State) (k : Copy) : moveOn c x f 0 s k = .go s k := by
  cases f with
  | zero => rfl
  | succ f => exact if_pos (Or.inl rfl)

/-- A walk whose first step moves all the bytes asked for makes no other. -/
theorem moveOn_once {c : CoreId} {x : CtxId} {s t : State} {k q : Copy} {n : Nat} (some' : n ≠ 0) (left : k.moved < walkBytes k.shape)
    (step : moveSome s c x k n = .go t q) (all : q.moved - k.moved = n) (f : Nat) : moveOn c x (f + 1) n s k = .go t q := by
  rw [moveOn, if_neg (by omega), step]
  simp only [all, Nat.sub_self, moveOn_enough]

/-! A plain copy of one run (R310 to R312). -/

theorem kind_ne {kind : BitVec 2} (small : kind.toNat < 2) : kind ≠ 2 ∧ kind ≠ 3 := by
  constructor <;> rintro rfl <;> exact absurd small (by decide)

theorem noteLanded_cores (s : State) (l : Landed) : (noteLanded s l).cores = s.cores ∧ (noteLanded s l).mem = s.mem := by
  unfold noteLanded; split <;> exact ⟨rfl, rfl⟩

theorem noteCopy_cores (s : State) (k : Copy) (via : LandBy) : (noteCopy s k via).cores = s.cores ∧ (noteCopy s k via).mem = s.mem := by
  unfold noteCopy
  split
  · exact noteLanded_cores ..
  · exact ⟨rfl, rfl⟩

theorem noteEnd_cores (s : State) (c : CoreId) (x : CtxId) (k : Copy) : (noteEnd s c x k).cores = s.cores ∧ (noteEnd s c x k).mem = s.mem := by
  have token := noteCopy_cores s k (.token c x k.tok k.num)
  unfold noteEnd
  simp only
  split
  · split
    · next p _ _ =>
      have word := noteCopy_cores (noteCopy s k (.token c x k.tok k.num)) k (.word p.key)
      exact ⟨word.1.trans token.1, word.2.trans token.2⟩
    · exact token
  · exact token

/-- A plain copy that has met no error, resolves no future, and fills no ring leaves its engine and does nothing else. -/
theorem finishCopy_plain {k : Copy} (s : State) (c : CoreId) (x : CtxId) (form : k.form = .plain) (fine : k.fault = none) (kind : k.kind ≠ 3)
    (xfer : k.xfer = none) (ring : shField k.shape 9 = 0) :
    finishCopy s c x k = (noteEnd s c x k).setEngine c x ((s.engine c x).drop k.id) := by
  have resolved (t : State) : resolveCopy t c k = .ok t := if_neg kind
  have engine : (noteEnd s c x k).engine c x = s.engine c x := by
    simp only [State.engine, State.core, (noteEnd_cores s c x k).1]
  have handed : handOver s c k = s := by rw [handOver, form]
  unfold finishCopy
  simp only [fine, resolved, handed, engine, xfer, dropTransfer, ring]
  rfl

theorem completeCopy_moved {s t : State} {c : CoreId} {x : CtxId} {k q : Copy}
    (moved : moveOn c x (walkRuns k.shape + 1) (walkBytes k.shape) s k = .go t q) (all : walkBytes q.shape ≤ q.moved) (xfer : q.xfer = none) :
    completeCopy s c x k = finishCopy t c x q := by
  rw [completeCopy, moved]
  exact if_pos ⟨all, by rw [xfer]; rfl⟩

/-- The one run of a plain copy between places on the device moves whole, in one step. -/
theorem moveOn_oneRun {s : State} {c : CoreId} {x : CtxId} {k : Copy} {p q : Place} (form : k.form = .plain) (start : k.moved = 0)
    (data : k.data = none) (kind : k.kind ≠ 2) (runs : walkRuns k.shape = 1) (hp : place s c .read k.src (runLen k.shape) = .ok p)
    (hq : placeIn s (s.partIdOf c) c .write k.dst (runLen k.shape) = .ok q) (device : ∀ pid va, p ≠ .host pid va ∧ q ≠ .host pid va)
    (good : CodesGood s) (clean : s.poison = [])
    (ready : memReady s (s.partIdOf c) (copyBlocks s c k 0 0 (runLen k.shape)) = true) :
    ∃ t, moveOn c x (walkRuns k.shape + 1) (walkBytes k.shape) s k = .go t { k with moved := runLen k.shape, page := none } ∧
      t.mem = s.mem.writeRun q.key (s.mem.readRun p.key (runLen k.shape)) ∧ t.engine c x = s.engine c x := by
  have pos : 0 < runLen k.shape := runLen_pos (by omega)
  have bytes : walkBytes k.shape = runLen k.shape := by rw [walkBytes, runs, Nat.mul_one]
  have size : min (max (moveUnit s k) (runLen k.shape / moveUnit s k * moveUnit s k)) (runLen k.shape) = runLen k.shape := by
    simp only [moveUnit, form, Nat.div_one, Nat.mul_one]; omega
  have read := copyRead_first (by rw [form]; decide) data hp (fun pid a => (device pid a).1) good clean (runLen k.shape)
  have write : copyWrite s c x k 0 0 (s.mem.readRun p.key (runLen k.shape)) = .ok (s.writeAt q.key (s.mem.readRun p.key (runLen k.shape))) := by
    simp only [copyWrite, form, walkOff_first, BitVec.add_zero]
    exact writeAddress_device hq (fun pid a => (device pid a).2) 0 _
  have step := moveSome_first x good clean start kind size ready read write
  rw [bytes]
  refine ⟨_, moveOn_once (by omega) (by omega) step (by rw [start, Nat.sub_zero]) _, spendMem_mem .., ?_⟩
  rw [State.engine, spendMem_core]
  rfl

/-- Settles O40: the one run moves in one step (`moveOn_oneRun`), and the finished copy leaves memory as that step left it. -/
theorem copiesMove : Obligations.CopiesMove := by
  intro c x s k p q moving form start data fine kind xfer runs ring hp hq device _ good clean ready
  obtain ⟨count, future⟩ := kind_ne kind
  obtain ⟨t, moved, mem, engine⟩ := moveOn_oneRun (x := x) form start data count runs hp hq device good clean ready
  have all : walkBytes k.shape ≤ runLen k.shape := by rw [walkBytes, runs, Nat.mul_one]
  have length : (s.mem.readRun p.key (runLen k.shape)).length = runLen k.shape := by simp [Memory.readRun]
  have ended := (completeCopy_moved moved all xfer).trans (finishCopy_plain t c x form fine future xfer ring)
  refine ⟨completeCopy s c x k, by rw [exec_copyComplete, execCopyComplete, moving], ?_⟩
  rw [ended, State.setEngine_mem, (noteEnd_cores ..).2, mem, State.engine_setEngine_same, engine]
  refine ⟨fun j inside => ?_, fun j outside => ?_, rfl⟩
  · rw [Memory.read_writeRun, if_pos (by omega)]
    simp [Memory.readRun, inside]
  · rw [Memory.read_writeRun, if_neg (by omega)]

end Sys2Proof.Machine

namespace Sys2Proof.Machine

/-! The start of a copy's walk (R310, R314, R316, R345). -/

section
variable {c : CoreId} {x : CtxId} {s : State} {k : Copy}

theorem nextWalk_first {l m : List Copy} (copies : (s.engine c x).copies = l ++ k :: m)
    (before : ∀ q ∈ l, q.started = true ∨ q.aborted = true) (fresh : k.started = false) (live : k.aborted = false) :
    nextWalk s c x = some k := by
  have passed : l.find? (fun q => !q.started && !q.aborted) = none :=
    List.find?_eq_none.2 (fun q hq => by rcases before q hq with h | h <;> simp [h])
  rw [nextWalk, copies, List.find?_append, passed, List.find?_cons_of_pos (by simp [fresh, live])]
  rfl

variable (next : nextWalk s c x = some k)
include next

theorem exec_copyWalkStart_moving (tile : k.form ≠ .tile) (mcast : k.form ≠ .mcast)
    (plain : k.form = .plain → shField k.shape 6 ≠ 1 ∨ shField k.shape 28 = 1) :
    exec (.copyWalkStart c x k.id) s = .next (putCopy s c x { k with started := true }) := by
  rw [exec_copyWalkStart, execCopyWalkStart, next]
  simp only [ne_eq, not_true_eq_false, if_false]
  split
  · next form =>
    have kept : ¬ (shField k.shape 6 = 1 ∧ ¬ qsrc k.shape = true) := by
      rcases plain form with h | h <;> simp [qsrc, h]
    rw [if_neg kept]
  · next form => exact absurd form tile
  · next form => exact absurd form mcast
  · rfl

theorem exec_copyWalkStart_consuming (form : k.form = .plain) (reads : shField k.shape 6 = 1) (row : shField k.shape 28 ≠ 1) :
    exec (.copyWalkStart c x k.id) s = .next (startConsuming s c x k) := by
  rw [exec_copyWalkStart, execCopyWalkStart, next]
  simp [form, reads, qsrc, row]

theorem exec_copyWalkStart_tile (form : k.form = .tile) : exec (.copyWalkStart c x k.id) s = .next (startTile s c x k) := by
  rw [exec_copyWalkStart, execCopyWalkStart, next]
  simp [form]

theorem exec_copyWalkStart_mcast (form : k.form = .mcast) : exec (.copyWalkStart c x k.id) s = .next (startMulticast s c x k) := by
  rw [exec_copyWalkStart, execCopyWalkStart, next]
  simp [form]

end

/-! A consuming copy at its start (R272, R314; log 42, log 102). -/

section
variable {s : State} (c : CoreId) (x : CtxId) {k : Copy}

theorem startConsuming_stale (h : handleMatches s k.src = false) : startConsuming s c x k = failCopy s c x k .tstale (tstaleInfo k.src 1) := by
  unfold startConsuming
  simp only [h, Bool.not_false, if_true]

theorem startConsuming_open (h : handleMatches s k.src = true) (opened : (tileOf s k.src).state = .open) :
    startConsuming s c x k = putCopy s c x { k with waiting := true } := by
  unfold startConsuming
  simp only [h, Bool.not_true, Bool.false_eq_true, if_false, opened, if_true]

theorem startConsuming_granted {q : Copy} (h : handleMatches s k.src = true) (filled : (tileOf s k.src).state ≠ .open) (good : CodesGood s)
    (clean : s.poison = []) (hq : q = { k with
      started := true, waiting := false,
      data := some (s.mem.readRun (keyScratch (handleCore k.src) (tileOffset s k.src)) (poolOf s k.src).tsize) }) :
    startConsuming s c x k = spendTile (acquireCopy (putCopy s c x q) c x q) k.src := by
  have fine (key n : Nat) (l : List Nat) : l.find? (fun o => uncorrectable s (key + o) n) = none :=
    List.find?_eq_none.2 (fun o _ => by rw [uncorrectable_good good clean]; decide)
  have corrected (key n : Nat) (l : List Nat) : l.foldl (fun s o => eccCorrect s c (key + o) n) s = s :=
    List.foldl_fixed' (fun o => eccCorrect_good good ..) l
  unfold startConsuming
  simp only [h, Bool.not_true, Bool.false_eq_true, if_false, filled, fine, corrected, hq]

end

/-! The steps of a copy that moves (R317, R319, R321, R322). -/

section
variable {c : CoreId} {x : CtxId} {s : State} {k : Copy}

theorem exec_syncWordArrival_counted (moving : movingCopy s c x k.id = some k) (kind : k.kind = 2) (form : k.form ≠ .add) (n : Nat) :
    exec (.syncWordArrival c x k.id n) s = .next (moveBytes s c x k (min n (walkBytes k.shape))) := by
  rw [exec_syncWordArrival, execSyncWordArrival, moving]
  exact if_pos ⟨kind, form⟩

theorem exec_destinationAccumulate_add (moving : movingCopy s c x k.id = some k) (form : k.form = .add) :
    exec (.destinationAccumulate c x k.id) s = .next (moveBytes s c x k (accElem k.shape)) := by
  rw [exec_destinationAccumulate, execDestinationAccumulate, moving]
  exact if_pos form

theorem exec_gatherPageLanded_gather (moving : movingCopy s c x k.id = some k) (form : k.form = .gather) :
    exec (.gatherPageLanded c x k.id) s = .next (moveBytes s c x k (runLeft k)) := by
  rw [exec_gatherPageLanded, execGatherPageLanded, moving]
  exact if_pos form

theorem exec_copyError_started (live : liveCopy s c x k.id = some k) (started : k.started = true) (f : EngineFault) :
    exec (.copyError c x k.id f) s = .next (failCopy s c x k (engineCause f).1 (engineCause f).2) := by
  rw [exec_copyError, execCopyError, live]
  exact if_pos started

end

/-! An element of a cpyadd (R321). -/

theorem one_lt_accElem (sh : File 4 W64) : 1 < accElem sh := by
  unfold accElem; split <;> decide

theorem accumulate_mem (s : State) (c : CoreId) (x : CtxId) (key : Nat) (v : Num) :
    (accumulate s c x key v).mem = s.mem.writeRun key (leBytes 16 (fixedAdd (leWord 128 (s.mem.readRun key 16)) v).1.toNat) := by
  unfold accumulate
  simp only
  split <;> rfl

/-- The bytes of one element are one addition. -/
theorem accumulateAll_element (s : State) (c : CoreId) (x : CtxId) (sh : File 4 W64) (va : W64) {bs : List Byte}
    (length : bs.length = accElem sh) :
    accumulateAll s c x sh va bs.length bs = accumulate s c x (quadKey c va) (accValue sh bs) := by
  have size := one_lt_accElem sh
  obtain ⟨n, hn⟩ : ∃ n, accElem sh = n + 2 := ⟨accElem sh - 2, by omega⟩
  have some' : bs.isEmpty = false := by rw [List.isEmpty_eq_false_iff, ← List.length_pos_iff]; omega
  have rest : bs.drop (accElem sh) = [] := List.drop_of_length_le (by omega)
  have whole : bs.take (accElem sh) = bs := List.take_of_length_le (by omega)
  rw [length, hn]
  unfold accumulateAll
  simp only [some', rest, whole, Bool.false_eq_true, if_false]
  unfold accumulateAll
  rfl

theorem leWord_leBytes_128 (w : BitVec 128) : leWord 128 (leBytes 16 w.toNat) = w := by
  apply BitVec.eq_of_toNat_eq
  have := w.isLt
  rw [leWord, BitVec.toNat_ofNat, leNat_leBytes]
  omega

theorem readRun_writeRun_same (m : Memory) (key : Nat) (bs : List Byte) : (m.writeRun key bs).readRun key bs.length = bs := by
  have h := readRun_writeRun_inside m (k := key) (j := 0) (n := bs.length) (bs := bs) (by omega)
  rwa [Nat.add_zero, List.drop_zero, List.take_length] at h

theorem accumulate_word (s : State) (c : CoreId) (x : CtxId) (key : Nat) (v : Num) :
    leWord 128 ((accumulate s c x key v).mem.readRun key 16) = (fixedAdd (leWord 128 (s.mem.readRun key 16)) v).1 := by
  rw [accumulate_mem]
  have same := readRun_writeRun_same s.mem key (leBytes 16 (fixedAdd (leWord 128 (s.mem.readRun key 16)) v).1.toNat)
  rw [leBytes_length] at same
  rw [same, leWord_leBytes_128]

/-- The first element of a cpyadd is read at the source and added into the destination's word. -/
theorem moveBytes_add {c : CoreId} {x : CtxId} {s : State} {k : Copy} {p : Place} (form : k.form = .add) (start : k.moved = 0)
    (data : k.data = none) (kind : k.kind ≠ 2) (runs : walkRuns k.shape ≠ 0) (fits : accElem k.shape ≤ runLen k.shape)
    (hp : place s c .read k.src (runLen k.shape) = .ok p) (device : ∀ pid va, p ≠ .host pid va) (good : CodesGood s) (clean : s.poison = [])
    (ready : memReady s (s.partIdOf c) (copyBlocks s c k 0 0 (accElem k.shape)) = true) :
    (moveBytes s c x k (accElem k.shape)).mem =
      (accumulate s c x (quadKey c k.dst) (accValue k.shape (s.mem.readRun p.key (accElem k.shape)))).mem := by
  have size := one_lt_accElem k.shape
  have left : k.moved < walkBytes k.shape := by rw [start]; exact walkBytes_pos runs
  have length : (s.mem.readRun p.key (accElem k.shape)).length = accElem k.shape := by simp [Memory.readRun]
  have unit : min (max (moveUnit s k) (accElem k.shape / moveUnit s k * moveUnit s k)) (runLen k.shape) = accElem k.shape := by
    simp only [moveUnit, form, Nat.div_self (by omega : 0 < accElem k.shape), Nat.one_mul]; omega
  have read := copyRead_first (by rw [form]; decide) data hp device good clean (accElem k.shape)
  have write : copyWrite s c x k 0 0 (s.mem.readRun p.key (accElem k.shape)) =
      .ok (accumulate s c x (quadKey c k.dst) (accValue k.shape (s.mem.readRun p.key (accElem k.shape)))) := by
    simp only [copyWrite, form, walkOff_first, BitVec.add_zero, Nat.zero_div, Nat.mul_zero, accumulateAll_element _ _ _ _ _ length]
  have step := moveSome_first x good clean start kind unit ready read write
  have moved := moveOn_once (by omega) left step (by rw [start, Nat.sub_zero]) (accElem k.shape)
  rw [moveBytes, moved]
  exact spendMem_mem ..

/-! The engines' allocation watchdog (R387). -/

theorem overdue_late {s : State} {c : CoreId} {r : PoolReq} (on : (s.part (s.partIdOf c)).allocWdog ≠ 0)
    (late : 2000 * (s.part (s.partIdOf c)).allocWdog.toNat < s.cycle - r.since) : overdue s c r = some ((s.cycle - r.since) / 2000) := by
  have set : (s.part (s.partIdOf c)).allocWdog.toNat ≠ 0 := fun h => on (BitVec.eq_of_toNat_eq h)
  exact if_pos ⟨set, late⟩

section
variable {c : CoreId} {pool : Fin 16} {s : State} {r : PoolReq} {us : Nat} (waiting : (s.pool c pool).waiting = [r])
  (late : overdue s c r = some us)
include waiting late

theorem exec_engineAllocWatchdog_copy {d : CoreId} {x : CtxId} {k : Copy} (who : r.who = .copy d x k.id) (hk : (s.engine d x).copy k.id = some k) :
    exec (.engineAllocWatchdog c pool k.id) s =
      .next (failCopy s d x k .tstall (BitVec.ofNat 64 (pool.val + r.share.toNat * 2 ^ 4 + us % 2 ^ 32 * 2 ^ 16))) := by
  rw [exec_engineAllocWatchdog, execEngineAllocWatchdog, waiting]
  simp [who, late, hk]

theorem exec_engineAllocWatchdog_slip {it : ItinId} {p : Slip} (who : r.who = .slip it p.num) (flight : (s.itin it).flight = [p]) :
    exec (.engineAllocWatchdog c pool p.num) s = .next (failSlip s it p .tstall) := by
  rw [exec_engineAllocWatchdog, execEngineAllocWatchdog, waiting]
  simp [who, late, flight]

theorem exec_engineAllocWatchdog_xfer {q : Receive} (who : r.who = .xfer q.id) (receives : s.receives = [q]) :
    exec (.engineAllocWatchdog c pool q.id) s = .next (nackReceive (withdraw s c r.who) q .tstall
      (BitVec.ofNat 64 (pool.val + r.share.toNat * 2 ^ 4 + us % 2 ^ 32 * 2 ^ 16))) := by
  rw [exec_engineAllocWatchdog, execEngineAllocWatchdog, waiting]
  simp [who, late, receives]

end

/-! The start of a copy's transfer (R421, R424, R425). -/

section
variable {s : State} {t : Transfer} {c : CoreId} {x : CtxId} {k : Copy}
  (found : s.transfers.find? (fun u => u.id == t.id && !u.started) = some t) (mine : t.copy = some (c, x, k.id))
  (live : liveCopy s c x k.id = some k)
include found mine live

theorem exec_multicastTransferStart_open {e : File 1 W64} {u : Transfer} (group : s.group t.group.toNat = some e)
    (window : windowOpen s t.group e = true) (hu : u = { t with waiting := otherMembers s e }) :
    exec (.multicastTransferStart t.id) s = .next (startCopyTransfer
      { s with transfers := s.transfers.map (fun w => if w.id = t.id then u else w) } u e c x k) := by
  rw [exec_multicastTransferStart, execMulticastTransferStart, found]
  simp only [mine, live, group, window, hu, Bool.not_true, Bool.false_eq_true, if_false]

theorem exec_multicastTransferStart_gone (group : s.group t.group.toNat = none) : exec (.multicastTransferStart t.id) s =
    .next (failCopy s c x k .bounds (BitVec.ofNat 64 (2 * 2 ^ 56 + k.dst.toNat % 2 ^ 56))) := by
  rw [exec_multicastTransferStart, execMulticastTransferStart, found]
  simp only [mine, live, group]

end

/-- Settles O39: each step by the equation of its event in its case; the sum of a cpyadd's element by `moveBytes_add` and `accumulate_word`. -/
theorem copySteps : Obligations.CopySteps := by
  refine ⟨fun c x s k l m copies before fresh live => ?_, fun c x s k n moving => ?_,
    fun c x s k p form start data kind runs fits hp device good clean ready => ?_, fun c x s k f cause info live started hf => ?_,
    fun c pool s r info waiting on late hinfo => ?_, fun s t c x k found mine live => ?_⟩
  · have next := nextWalk_first copies before fresh live
    refine ⟨exec_copyWalkStart_moving next, fun form reads row => ?_, exec_copyWalkStart_tile next, exec_copyWalkStart_mcast next⟩
    rw [exec_copyWalkStart_consuming next form reads row]
    exact ⟨fun h => by rw [startConsuming_stale c x h], fun h opened => by rw [startConsuming_open c x h opened],
      fun q h filled good clean hq => by rw [startConsuming_granted c x h filled good clean hq]⟩
  · exact ⟨fun kind form => exec_syncWordArrival_counted moving kind form n, exec_destinationAccumulate_add moving,
      exec_gatherPageLanded_gather moving⟩
  · rw [moveBytes_add form start data (kind_ne kind).1 runs fits hp device good clean ready, accumulate_word]
  · rw [exec_copyError_started live started, hf]
  · have overdue := overdue_late on late
    subst hinfo
    exact ⟨fun d x k => exec_engineAllocWatchdog_copy waiting overdue, fun it p => exec_engineAllocWatchdog_slip waiting overdue,
      fun q => exec_engineAllocWatchdog_xfer waiting overdue⟩
  · exact ⟨fun e u => exec_multicastTransferStart_open found mine live, exec_multicastTransferStart_gone found mine live⟩

end Sys2Proof.Machine

namespace Sys2Proof.Machine

/-! The start of a slip (R326, R386, R425). -/

section
variable {it : ItinId} {s : State} {y : Itin} {q : Place} {p : Slip} (hy : s.itin it = y) (run : y.state = .running)
  (more : y.started < itPasses y * itSlips y) (good : CodesGood s) (clean : s.poison = [])
  (hq : placeIn s y.part y.core .read (itRing y + BitVec.ofNat 64 (32 * (y.started % itSlips y))) 32 = .ok q)
  (hp : p = {
    num := y.base + y.started + 1,
    words := Vector.ofFn (fun i : Fin (2 ^ 2) => leWord 64 (((s.mem.readRun q.key 32).drop (8 * i.val)).take 8)),
    waiting := false, tile := none, moved := false, xfer := none, since := s.cycle, retried := false })
  (ready : memReady s y.part (q.blocks 32) = true)
include hy run more good clean hq hp ready

theorem exec_slipStart_invalid {cause : Cause} (fault : slipFault s it y p = some cause) :
    exec (.slipStart it) s = .next (failItin s it cause) := by
  have going : ¬(y.state ≠ .running ∨ itPasses y * itSlips y ≤ y.started) := by simp [run, more]
  rw [exec_slipStart, execSlipStart, hy]
  simp only [going, if_false, hq, ready, Bool.not_true, Bool.false_eq_true, uncorrectable_good good clean, eccCorrect_good good, ← hp, fault]

/-- A valid slip, its itinerary with no other in flight, starts once a multicast's group has a slot and its source's controllers take it. -/
theorem exec_slipStart_valid {u : State} (fine : slipFault s it y p = none) (alone : y.flight = []) (window : 0 < itWindow y p.hop)
    (hu : u = refreshBudgets s y.part) (left : (u.part y.part).slipsLeft ≠ some 0) :
    exec (.slipStart it) s = .next (if p.hop = 4 ∧ ((slipGroup u p).isNone ∨
        !memReady u y.part (keyBlocks ((slipSrc u y p).getD 0) p.bytes)) then u
      else startSlip ((spendMem u y.part (q.blocks 32)).setPart y.part { (spendMem u y.part (q.blocks 32)).part y.part with
        slipsLeft := ((spendMem u y.part (q.blocks 32)).part y.part).slipsLeft.map (· - 1) }) it p) := by
  have going : ¬(y.state ≠ .running ∨ itPasses y * itSlips y ≤ y.started) := by simp [run, more]
  have free (mine : List (Nat × Nat)) : meetsFlight u it y mine = false := by rw [meetsFlight, alone]; rfl
  rw [exec_slipStart, execSlipStart, hy]
  simp only [going, if_false, hq, ready, Bool.not_true, Bool.false_eq_true, uncorrectable_good good clean, eccCorrect_good good, ← hp, fine, ← hu,
    alone, List.filter_nil, List.length_nil, Nat.not_le.2 window, free, left, false_or]
  split <;> rfl

end

/-! The bytes of a slip (R316, R326; log 82). -/

/-- The bytes of a multicast leave with its transfer: what is left is the answers of the members. -/
theorem exec_slipComplete_sent {it : ItinId} {s : State} {p : Slip} (flight : (s.itin it).flight = [p]) (granted : p.waiting = false)
    (hop : p.hop = 4) (tile : p.tile = none) : exec (.slipComplete it p.num) s = .next (slipMoved s it p) := by
  rw [exec_slipComplete, execSlipComplete, flight]
  simp [granted, hop, tile]

theorem slipData_good {it : ItinId} {s : State} {p : Slip} {k : Nat} (src : slipSrc s (s.itin it) p = some k) (good : CodesGood s)
    (clean : s.poison = []) : slipData s it p = .bytes (s.mem.readRun k p.bytes) s := by
  rw [slipData, src]
  simp only [uncorrectable_good good clean, eccCorrect_good good, Bool.not_false, if_true]

section
variable {it : ItinId} {s : State} {p : Slip} {k : Nat} (flight : (s.itin it).flight = [p]) (granted : p.waiting = false)
  (still : p.moved = false) (src : slipSrc s (s.itin it) p = some k)
  (good : CodesGood s) (clean : s.poison = []) (ready : memReady s (s.itin it).part (slipBlocks s it p) = true)
include flight granted still src good clean ready

theorem exec_slipComplete_extent {d n : Nat} (hop : p.hop ≤ 2) (tile : p.tile = none) (dst : slipDst s it (s.itin it) p = some (d, n)) :
    exec (.slipComplete it p.num) s = .next (slipMoved
      ((spendMem s (s.itin it).part (slipBlocks s it p)).writeAt d (s.mem.readRun k p.bytes)) it p) := by
  have multicast : p.hop ≠ 4 := by omega
  rw [exec_slipComplete, execSlipComplete, flight]
  simp [granted, still, multicast, ready, slipData_good src good clean, tile, dst]

theorem exec_slipComplete_tile {h : W64} (tile : p.tile = some h) :
    exec (.slipComplete it p.num) s = .next (slipMoved
      (fillTile (spendMem s (s.itin it).part (slipBlocks s it p)) it p h (s.mem.readRun k p.bytes)) it p) := by
  rw [exec_slipComplete, execSlipComplete, flight]
  simp [granted, still, ready, slipData_good src good clean, tile]

end

theorem exec_slipFailure_flight {it : ItinId} {s : State} {p : Slip} (flight : (s.itin it).flight = [p]) (f : EngineFault) :
    exec (.slipFailure it p.num f) s = .next (failSlip s it p (engineCause f).1) := by
  rw [exec_slipFailure, execSlipFailure, flight]
  simp

/-! A batch's deadline (R335). -/

theorem Gatherer.settle_expired {g : Gatherer} {b : Batch} {cycle : Nat} (only : g.batches = [b]) (late : b.expired (cycle - 1) = true) :
    g.settle cycle = { g with batches := [{ b with reason := some 1 }] } := by
  have opened : b.open? = true := by
    simp only [Batch.expired, Bool.and_eq_true] at late
    exact late.1.1
  rw [Gatherer.settle, only]
  simp [late, Gatherer.close, only, opened]

/-- A batch that waits for its tile is not written. -/
theorem flushBatches_untiled {s : State} {g : GathererId} {b : Batch} (only : (s.gatherer g).batches = [b]) (tile : b.tile = none) :
    flushBatches s g = s := by
  rw [flushBatches, only, List.foldl_cons, tile]
  cases b.reason <;> rfl

theorem exec_gathererDeadline_late {g : GathererId} {s : State} {b : Batch} (only : (s.gatherer g).batches = [b])
    (late : b.expired (s.cycle - 1) = true) (tile : b.tile = none) :
    exec (.gathererDeadline g) s = .next (s.setGatherer g { s.gatherer g with batches := [{ b with reason := some 1 }] }) := by
  have waits := flushBatches_untiled (s := s.setGatherer g { s.gatherer g with batches := [{ b with reason := some 1 }] }) (g := g)
    (b := { b with reason := some 1 }) (by rw [State.gatherer_setGatherer_same]) tile
  rw [exec_gathererDeadline, execGathererDeadline, Gatherer.settle_expired only late, waits]

/-! Demotion (R330, R331). -/

/-- A timer's bit, as a word and as a register. -/
theorem wbits_bit {b : BitVec 3} {i : Nat} : wbits (BitVec.ofNat 64 b.toNat) i 1 = 1 ↔ b.getLsbD i = true := by
  have small : b.toNat < 2 ^ 64 := by have := b.isLt; omega
  rw [wbits, BitVec.toNat_ofNat, Nat.mod_eq_of_lt small, BitVec.getLsbD, Nat.testBit_eq_decide_div_mod_eq, decide_eq_true_iff, Nat.pow_one]

theorem exec_demotionTimer_expired {e tier : Nat} {s : State} (parked : (s.shelfAt e).state = .parked) (low : 1 ≤ tier) (high : tier ≤ 3)
    (on : timerOn (s.shelfAt e).cls tier = true) (idle : (s.shelfAt e).demote = none) (first : (s.shelfAt e).timers.getLsbD (tier - 1) = false)
    (late : (s.shelfAt e).parkedAt + classTimer (s.shelfAt e).cls (tier - 1) * 2000000 < s.cycle) :
    exec (.demotionTimer e tier) s = .next (demoteNext e ((s.shelfAt e).pages + 1) (s.setShelf e { s.shelfAt e with
      timers := (s.shelfAt e).timers ||| BitVec.ofNat 3 (2 ^ (tier - 1)), demote := some (tier, 0) })) := by
  have runs : ¬((s.shelfAt e).state ≠ .parked ∨ tier = 0 ∨ 3 < tier ∨ (!timerOn (s.shelfAt e).cls tier) = true ∨
      (s.shelfAt e).demote.isSome = true ∨ wbits (BitVec.ofNat 64 (s.shelfAt e).timers.toNat) (tier - 1) 1 = 1 ∨
      s.cycle ≤ (s.shelfAt e).parkedAt + classTimer (s.shelfAt e).cls (tier - 1) * msCycles) := by
    rw [wbits_bit, first, on, idle, parked, msCycles]
    simp only [ne_eq, not_true_eq_false, Bool.not_true, Option.isSome_none, Bool.false_eq_true, false_or]
    omega
  rw [exec_demotionTimer, execDemotionTimer]
  exact if_neg runs

theorem exec_demotionRetry_due {e : Nat} {d : Nat × Nat × Nat} {s : State} (parked : (s.shelfAt e).state = .parked)
    (idle : (s.shelfAt e).demote = none) (due : (s.shelfAt e).stalled.find? (fun d => decide (d.2.2 ≤ s.cycle)) = some d) :
    exec (.demotionRetry e) s = .next (demoteNext e ((s.shelfAt e).pages + 1) (s.setShelf e { s.shelfAt e with
      demote := some (d.1, d.2.1), stalled := (s.shelfAt e).stalled.erase d })) := by
  rw [exec_demotionRetry, execDemotionRetry, due]
  exact if_neg (by simp [parked, idle])

/-! What the movement of a page leaves of the shelf and of the places (R330, R331, R391). -/

theorem SamePlaces.pageKey {s t : State} (h : SamePlaces s t) (p : PartId) (tier frame : Nat) :
    pageKey t p tier frame = pageKey s p tier frame := by
  obtain ⟨-, -, parts⟩ := h
  rw [Machine.pageKey, Machine.pageKey, pageExtent, pageExtent, (parts p).2]

/-- The shelf, and where every byte lies, stay as they are. -/
def Settled (s t : State) : Prop := SamePlaces s t ∧ t.shelf = s.shelf

theorem Settled.trans {s t u : State} (h : Settled s t) (g : Settled t u) : Settled s u := ⟨h.1.trans g.1, g.2.trans h.2⟩

theorem Settled.shelfAt {s t : State} (h : Settled s t) (e : Nat) : t.shelfAt e = s.shelfAt e := by rw [State.shelfAt, h.2, State.shelfAt]

theorem settled_spendMem (s : State) (p : PartId) (bs : List Nat) : Settled s (spendMem s p bs) := by
  refine ⟨samePlaces_spendMem s p bs, ?_⟩
  unfold spendMem
  split
  · rfl
  · simp only; split <;> rfl

theorem settled_writeAt (s : State) (k : Nat) (bs : List Byte) : Settled s (s.writeAt k bs) := ⟨⟨fun _ => rfl, rfl, fun _ => ⟨rfl, rfl⟩⟩, rfl⟩

theorem settled_deviceWrite (s : State) (c : CoreId) (va : W64) (bs : List Byte) : Settled s (deviceWrite s c va bs) := by
  unfold deviceWrite ownerWrite
  cases place s c .peek va bs.length with
  | error _ => exact ⟨SamePlaces.refl s, rfl⟩
  | ok p => exact (settled_writeAt s p.key bs).trans ⟨samePlaces_setCore _ c _ rfl, rfl⟩

theorem settled_movePage (s : State) (src dst : Nat) : Settled s (movePage s src dst) :=
  settled_writeAt (dropCrcs s (some src)) dst (s.mem.readRun src pageBytes)

theorem settled_putEntry (s : State) (h : Shelf) (i state frame : Nat) : Settled s (putEntry s h i state frame) := by
  unfold putEntry ownerWrite
  cases place s h.core .peek (h.table + BitVec.ofNat 64 (8 * i)) (leBytes 8 (entryPut (tableEntry s h i) state frame).toNat).length with
  | error _ => exact ⟨SamePlaces.refl s, rfl⟩
  | ok p => exact settled_writeAt s p.key _

theorem settled_setFl (s : State) (p : PartId) (tier : Nat) (w : W64) : Settled s (s.setPart p ((s.part p).setFl tier w)) :=
  ⟨samePlaces_setPart s p _ rfl rfl, rfl⟩

/-- A list with room takes a frame back. -/
theorem giveFrame_room {s : State} {p : PartId} {tier : Nat} (frame : Nat) (room : (s.part p).flCount tier + 1 ≠ (s.part p).flSize tier) :
    ∃ t, giveFrame s p tier frame = some t ∧ Settled s t := by
  unfold giveFrame
  simp only [room, if_false]
  exact ⟨_, rfl, (settled_deviceWrite s _ _ _).trans (settled_setFl _ p tier _)⟩

theorem part_setPart_flCtl {s : State} {p : PartId} {k : Part} (h : k.flCtl = (s.part p).flCtl) (q : PartId) :
    ((s.setPart p k).part q).flCtl = (s.part q).flCtl := by
  by_cases hq : q = p
  · subst hq; rw [State.part_setPart_same, h]
  · rw [State.part_setPart_ne _ _ _ _ hq]

theorem refreshBudgets_flCtl (s : State) (p q : PartId) : ((refreshBudgets s p).part q).flCtl = (s.part q).flCtl := by
  unfold refreshBudgets
  refine part_setPart_flCtl ?_ q
  split <;> split <;> rfl

/-- The free lists are no allowance that an access spends. -/
theorem spendMem_flCtl (s : State) (p q : PartId) (bs : List Nat) : ((spendMem s p bs).part q).flCtl = (s.part q).flCtl := by
  unfold spendMem
  split
  · rfl
  · simp only
    split
    · rfl
    · refine (part_setPart_flCtl ?_ q).trans ((refreshBudgets_flCtl _ p q).trans ?_) <;> rfl

theorem Part.flCount_congr {k j : Part} (h : k.flCtl = j.flCtl) (tier : Nat) : k.flCount tier = j.flCount tier ∧ k.flSize tier = j.flSize tier := by
  simp only [Part.flCount, Part.flSize, Part.fl, h, and_self]

/-- The frame of a page whose bytes move returns, when its list has room. -/
theorem giveFrame_moved {s : State} {p : PartId} {tier : Nat} (bs : List Nat) (frame : Nat)
    (room : (s.part p).flCount tier + 1 ≠ (s.part p).flSize tier) :
    ∃ t, giveFrame (spendMem s p bs) p tier frame = some t ∧ Settled s t := by
  obtain ⟨count, size⟩ := Part.flCount_congr (spendMem_flCtl s p p bs) tier
  obtain ⟨t, given, settled⟩ := giveFrame_room (s := spendMem s p bs) frame (by rw [count, size]; exact room)
  exact ⟨t, given, (settled_spendMem s p bs).trans settled⟩

@[simp] theorem State.shelfAt_setShelf_same (s : State) (e : Nat) (h : Shelf) : (s.setShelf e h).shelfAt e = h := aget_aset_same ..

theorem exec_demotionMoveDone_moved {e : Nat} {s : State} {h : Shelf} {m : Move} {w : W64} {src dst : Nat} (hh : s.shelfAt e = h)
    (parked : h.state = .parked) (move : h.move = some m) (hw : tableEntry s h m.page = w)
    (source : pageKey s h.part (entryState w) (entryFrame w) = some src) (target : pageKey s h.part m.tier m.frame = some dst)
    (ready : memReady s h.part (moveBlocks (some src) (some dst)) = true)
    (room : (s.part h.part).flCount (entryState w) + 1 ≠ (s.part h.part).flSize (entryState w)) :
    ∃ t u v, giveFrame (spendMem s h.part (moveBlocks (some src) (some dst))) h.part (entryState w) (entryFrame w) = some t ∧
      (demotePage t e m.page (entryState w) src dst).mem = t.mem.writeRun dst (t.mem.readRun src 16384) ∧
      u = putEntry (demotePage t e m.page (entryState w) src dst) ((demotePage t e m.page (entryState w) src dst).shelfAt e) m.page m.tier
        m.frame ∧
      v = (u.setShelf e { u.shelfAt e with move := none }) ∧
      exec (.demotionMoveDone e) s = .next (demoteNext e ((u.shelfAt e).pages + 1) (v.setShelf e { v.shelfAt e with
        demote := (u.shelfAt e).demote.map (fun d => (d.1, d.2 + 1)) })) := by
  obtain ⟨t, given, settled⟩ := giveFrame_moved (moveBlocks (some src) (some dst)) (entryFrame w) room
  refine ⟨t, _, _, given, rfl, rfl, rfl, ?_⟩
  have state : ((putEntry (demotePage t e m.page (entryState w) src dst) ((demotePage t e m.page (entryState w) src dst).shelfAt e) m.page
      m.tier m.frame).shelfAt e).state ≠ .waking := by
    rw [(settled_putEntry ..).shelfAt, demotePage, State.shelfAt_setShelf_same, settled.shelfAt, hh]
    simp [parked]
  rw [exec_demotionMoveDone, execDemotionMoveDone, hh, move]
  simp only [hw, source, target, ready, Bool.not_true, Bool.false_eq_true, if_false, given, Option.map_some, state]

/-! Wakes and promotion (R331 to R333; log 87). -/

theorem exec_wakeWrite_ready {token : W64} (value : W64) {s : State} {p : PartId} (ready : s.boot = .ready) (hp : p.val = wbits token 32 4) :
    exec (.wakeWrite token value) s = .next (wakeToken s p token value) := by
  obtain rfl : p = ⟨wbits token 32 4, Nat.mod_lt _ (by decide)⟩ := Fin.ext hp
  rw [exec_wakeWrite, execWakeWrite, hostAct, if_pos ready]

theorem wakeToken_stale {s : State} {token : W64} (stale : (s.shelfAt (wbits token 0 16)).gen.toNat ≠ wbits token 16 16) (p : PartId)
    (value : W64) :
    wakeToken s p token value = s.setPart p { s.part p with staleWake := (s.part p).staleWake + 1 } :=
  if_neg (fun h => stale h.2.1)

theorem exec_promotionResume_waking {e : Nat} {s : State} (waking : (s.shelfAt e).state = .waking) (idle : (s.shelfAt e).move = none) :
    exec (.promotionResume e) s = .next (settleWake (transit e (s.shelfAt e).pages 0 s).1 e) := by
  rw [exec_promotionResume, execPromotionResume, promote]
  exact congrArg _ (if_pos ⟨waking, by rw [idle]; rfl⟩)

theorem exec_promotionMoveDone_moved {e i f src dst : Nat} {w : W64} {rest : List (Nat × W64 × Nat)} {s : State} {h : Shelf}
    (hh : s.shelfAt e = h) (sources : h.sources = (i, w, f) :: rest) (waking : h.state = .waking) (idle : h.move = none)
    (room : (s.part h.part).flCount (entryState w) + 1 ≠ (s.part h.part).flSize (entryState w))
    (source : pageKey s h.part (entryState w) (entryFrame w) = some src) (target : pageKey s h.part 1 f = some dst)
    (ready : memReady s h.part (moveBlocks (some src) (some dst)) = true) :
    ∃ t u, giveFrame (spendMem s h.part (moveBlocks (some src) (some dst))) h.part (entryState w) (entryFrame w) = some t ∧
      u = putEntry (movePage t src dst) ((movePage t src dst).shelfAt e) i 1 f ∧
      (crcOk t h i src = true →
        exec (.promotionMoveDone e) s = .next (settleWake (u.setShelf e { u.shelfAt e with sources := rest }) e)) := by
  obtain ⟨t, given, settled⟩ := giveFrame_moved (moveBlocks (some src) (some dst)) (entryFrame w) room
  refine ⟨t, _, given, rfl, fun whole => ?_⟩
  rw [exec_promotionMoveDone, execPromotionMoveDone, hh]
  simp only [sources, source, target, waking, idle, ready, given, settled.1.pageKey, whole]
  rfl

/-- Settles O41: each step by the equation of its event in its case; a page that moves leaves the shelf and the places (`giveFrame_moved`). -/
theorem slipsAndBatches : Obligations.SlipsAndBatches := by
  refine ⟨fun it s u y q p hy run more good clean hq hp ready =>
      ⟨fun cause => ?_, fun fine alone window hu left => ⟨fun v can hv => ?_, fun hop shut => ?_⟩⟩,
    fun it s p k flight granted still src good clean ready => ⟨fun d n => ?_, ?_, fun h => ?_⟩, fun it s p f cause info flight hf => ?_,
    fun g s b only late tile => ?_, fun e tier s => ?_, fun e d s => ?_, fun e s h m w src dst => ?_, fun token value s p ready hp => ?_,
    fun e s => ?_, fun e i f src dst w rest s h => ?_⟩
  · exact exec_slipStart_invalid hy run more good clean hq hp ready
  · have starts : ¬(p.hop = 4 ∧ ((slipGroup u p).isNone = true ∨
        (!memReady u y.part (keyBlocks ((slipSrc u y p).getD 0) p.bytes)) = true)) := by
      rintro ⟨hop, bar⟩
      obtain ⟨group, source⟩ := can hop
      rw [source, ← Option.not_isSome, group] at bar
      simp at bar
    rw [exec_slipStart_valid hy run more good clean hq hp ready fine alone window hu left, if_neg starts, hv]
  · rw [exec_slipStart_valid hy run more good clean hq hp ready fine alone window hu left, if_pos ⟨hop, .inl (by rw [shut]; rfl)⟩]
  · exact exec_slipComplete_extent flight granted still src good clean ready
  · exact exec_slipComplete_sent flight granted
  · exact exec_slipComplete_tile flight granted still src good clean ready
  · rw [exec_slipFailure_flight flight, hf]
  · rw [exec_gathererDeadline_late only late tile]
    exact ⟨_, rfl, by rw [State.gatherer_setGatherer_same], rfl⟩
  · exact exec_demotionTimer_expired
  · exact exec_demotionRetry_due
  · exact exec_demotionMoveDone_moved
  · refine ⟨exec_wakeWrite_ready value ready hp, fun stale => ?_⟩
    rw [exec_wakeWrite_ready value ready hp, wakeToken_stale stale]
    exact ⟨_, rfl, by rw [State.part_setPart_same], rfl, rfl⟩
  · exact exec_promotionResume_waking
  · exact exec_promotionMoveDone_moved

end Sys2Proof.Machine

namespace Sys2Proof.Machine

/-! The checks of a copy's issue, one after the other (R314 to R317, R321, R343, R345, R346). -/

theorem copyRule_exec {s : State} {i : Instr} {f : CP} {form : CopyForm} {src : W64} {es : List W64} {a : Ref}
    (h : copyRule s i = some (f, form, src, es, a)) : exec i s = copy f s form src es a := by
  unfold copyRule at h
  split at h <;> cases h <;> rfl

theorem qsrc_eq_true {sh : File 4 W64} : qsrc sh = true ↔ shField sh 28 = 1 := by simp [qsrc]

theorem inQuad_iff (va : W64) : inQuad va = true ↔ classOf va = 0 := by simp [inQuad]

/-- What BOUNDS of chapter 16 records: the reason over the low bits of the value (R343). -/
theorem finish_asyncBounds (s : State) (reason : Nat) (v : W64) : finish s (asyncBounds reason v)
    = .next (raise s .bounds (BitVec.ofNat 64 (reason * 2 ^ 56 + v.toNat % 2 ^ 56)) false) := rfl

theorem need_asyncBounds (reason : Nat) (v : W64) (k : Except Stop State) : need (asyncBounds reason v) k = asyncBounds reason v := rfl

theorem queueSource_fits {s : State} {sh : File 4 W64} (h : QueueFits s sh) : queueSource s sh = .ok () := by
  unfold queueSource
  rcases h with plain | ⟨owns, head⟩
  · rw [if_neg (by simp [qsrc, plain])]
  · have there : (headRow s.src (BitVec.ofNat 2 (shField sh 29))).isNone = false := by
      rw [← Option.not_isSome, head]; rfl
    simp only [owns, there, Bool.not_true, Bool.false_eq_true, if_false, ite_self]

theorem queueSource_unowned {s : State} {sh : File 4 W64} (row : shField sh 28 = 1) (h : s.src.owns = false) :
    queueSource s sh = .error (.trap .array (arrayInfo 1 (BitVec.ofNat 2 (shField sh 29)).toNat)) := by
  rw [queueSource, if_pos (qsrc_eq_true.2 row), h]
  rfl

theorem queueSource_empty {s : State} {sh : File 4 W64} (row : shField sh 28 = 1) (owns : s.src.owns = true)
    (h : headRow s.src (BitVec.ofNat 2 (shField sh 29)) = none) :
    queueSource s sh = .error (.trap .qunf (BitVec.ofNat 64 (BitVec.ofNat 2 (shField sh 29)).toNat)) := by
  simp only [queueSource, qsrc_eq_true.2 row, owns, h]
  rfl

section
variable {form : CopyForm} {sh : File 4 W64} {dst caddr : W64} {kind : BitVec 2}

theorem copyAlign_aligned (h : CopyAligned form sh dst caddr kind) : copyAlign form sh dst caddr kind = .ok () := by
  obtain ⟨count, mail, acc⟩ := h
  unfold copyAlign
  rw [if_neg (fun e => e.2 (count e.1)), if_neg (fun e => e.2 (mail e.1)), if_neg]
  rintro ⟨add, off⟩
  rw [acc add] at off
  exact absurd off (by decide)

theorem copyAlign_word (counts : 2 ≤ kind.toNat) (h : caddr.toNat % 16 ≠ 0) :
    copyAlign form sh dst caddr kind = .error (.trap .align caddr) := if_pos ⟨counts, h⟩

theorem copyAlign_base (count : 2 ≤ kind.toNat → caddr.toNat % 16 = 0) (h : ¬CopyAligned form sh dst caddr kind) :
    copyAlign form sh dst caddr kind = .error (.trap .align dst) := by
  unfold copyAlign
  rw [if_neg (fun e => e.2 (count e.1))]
  by_cases mail : form = .tile ∧ dst.toNat % 8 ≠ 0
  · rw [if_pos mail]
  · rw [if_neg mail, if_pos]
    by_contra acc
    refine h ⟨count, fun tile => ?_, fun add => ?_⟩
    · by_contra off; exact mail ⟨tile, off⟩
    · by_contra off; exact acc ⟨add, by simp [off]⟩

end

/-! Bounds of a copy, in the order of its checks (R343; log 39). -/

section
variable {s : State} {form : CopyForm} {sh : File 4 W64} {src dst caddr : W64} {kind : BitVec 2}

theorem copyBounds_rowless (row : shField sh 28 = 1) (h : form = .gather ∨ form = .wstore ∨ (form = .plain ∧ shField sh 6 = 1)) :
    copyBounds s form sh src dst caddr kind = asyncBounds 2 dst := by
  unfold copyBounds
  exact if_pos ⟨qsrc_eq_true.2 row, h⟩

theorem copyBounds_word (row : shField sh 28 = 0) (counts : kind = 2) (h : classOf caddr ≠ 0) :
    copyBounds s form sh src dst caddr kind = asyncBounds 3 caddr := by
  unfold copyBounds
  rw [if_neg (by simp [qsrc, row]), if_pos ⟨counts, by simp [inQuad, h]⟩]

theorem copyBounds_mailbox (row : shField sh 28 = 0) (word : kind = 2 → classOf caddr = 0) (tile : form = .tile) (h : classOf dst ≠ 0) :
    copyBounds s form sh src dst caddr kind = asyncBounds 3 dst := by
  unfold copyBounds
  rw [if_neg (by simp [qsrc, row]), if_neg (fun e => by simp [inQuad, word e.1] at e), if_pos ⟨tile, by simp [inQuad, h]⟩]

/-- Where the form may read the row and its walk stays there, the tests of a queue source pass. -/
theorem row_passes (row : RowFits form sh) :
    ¬(qsrc sh = true ∧ (form = .gather ∨ form = .wstore ∨ (form = .plain ∧ shField sh 6 = 1))) ∧
    ¬(qsrc sh = true ∧ (!srcWithin sh 256) = true) := by
  rw [qsrc_eq_true]
  rcases row with none' | ⟨gather, wstore, plain, inside⟩
  · simp [none']
  · exact ⟨fun e => e.2.elim gather (fun e => e.elim wstore (fun e => plain e.1 e.2)), fun e => by simp [inside] at e⟩

variable (quad : InQuad form dst caddr kind)
include quad

/-- Where the sync word and the mailbox lie in the quad, their tests pass. -/
theorem quad_passes : ¬(kind = 2 ∧ (!inQuad caddr) = true) ∧ ¬(form = .tile ∧ (!inQuad dst) = true) := by
  obtain ⟨word, mail⟩ := quad
  exact ⟨fun e => by simp [inQuad, word e.1] at e, fun e => by simp [inQuad, mail e.1] at e⟩

theorem copyBounds_row (h : ¬RowFits form sh) : copyBounds s form sh src dst caddr kind = asyncBounds 2 dst := by
  have row : qsrc sh = true := by
    by_contra plain
    have bit : shField sh 28 < 2 := Nat.mod_lt _ (by decide)
    exact h (.inl (by rw [qsrc_eq_true] at plain; omega))
  unfold copyBounds
  simp only
  by_cases rowless : form = .gather ∨ form = .wstore ∨ (form = .plain ∧ shField sh 6 = 1)
  · rw [if_pos ⟨row, rowless⟩]
  · have outside : srcWithin sh 256 = false := by
      by_contra inside
      obtain ⟨gather, wstore, plain⟩ := not_or.1 rowless |>.imp_right not_or.1
      exact h (.inr ⟨gather, wstore, fun e => fun r => plain ⟨e, r⟩, by simpa using inside⟩)
    rw [if_neg (fun e => rowless e.2), if_neg (quad_passes quad).1, if_neg (quad_passes quad).2, if_pos ⟨row, by simp [outside]⟩]

variable (row : RowFits form sh)
include row

theorem copyBounds_source (h : ¬SourceFits s form sh src) : copyBounds s form sh src dst caddr kind = asyncBounds 2 src := by
  obtain ⟨plain, reads, valid, outside⟩ : form = .plain ∧ shField sh 6 = 1 ∧ (poolOf s src).valid = true ∧
      srcWithin sh (poolOf s src).tsize ≠ true := by
    simpa only [SourceFits, Classical.not_imp] using h
  have leaves : tileWalk s sh src = false := by simpa [tileWalk, valid] using outside
  unfold copyBounds
  simp only
  rw [if_neg (row_passes row).1, if_neg (quad_passes quad).1, if_neg (quad_passes quad).2, if_neg (row_passes row).2,
    if_pos ⟨plain, reads, by rw [leaves]; rfl⟩]

/-- What is left of the bounds is what the form asks. -/
theorem copyBounds_form (source : SourceFits s form sh src) :
    (FormFits s form sh dst → copyBounds s form sh src dst caddr kind = .ok ()) ∧
    (¬FormFits s form sh dst → copyBounds s form sh src dst caddr kind = asyncBounds 2 dst) := by
  have stays : ¬(form = .plain ∧ shField sh 6 = 1 ∧ (!tileWalk s sh src) = true) := by
    rintro ⟨plain, reads, leaves⟩
    have inside := source plain reads
    cases valid : (poolOf s src).valid <;> simp [tileWalk, valid] at leaves inside
    simp [inside] at leaves
  unfold copyBounds
  simp only
  rw [if_neg (row_passes row).1, if_neg (quad_passes quad).1, if_neg (quad_passes quad).2, if_neg (row_passes row).2, if_neg stays]
  have decided (b : Bool) (h : b = true ↔ FormFits s form sh dst) :
      (FormFits s form sh dst → within b 2 dst = .ok ()) ∧ (¬FormFits s form sh dst → within b 2 dst = asyncBounds 2 dst) := by
    rw [← h]
    exact ⟨fun fits => if_pos fits, fun off => if_neg off⟩
  refine decided _ ?_
  cases form <;> simp [FormFits, and_assoc]

end

/-- The last checks of a copy, and its start: the lock of a weight-store write, and the source tile (R272, R277, R314). -/
def copyChecked (s : State) (f : CP) (form : CopyForm) (src : W64) (es : List W64) : Except Stop State :=
  if form = .wstore ∧ (s.part (s.partIdOf s.issue.core)).wsLocked = true then .error (.trap .wslock 0)
  else need (if form = .plain ∧ shField (rget s.src.sh f.sh) 6 = 1 then copyTile s src else .ok ()) (.ok (startCopy s f form src (s.src.getS f.b) es))

/-- The registers that a copy reads, none of which traps when it is empty. -/
def copySources (f : CP) (a : Ref) : List (Ref × Bool) :=
  [(a, false), (.s f.b, false)] ++ if 2 ≤ f.kind.toNat then [(.s (f.b + 1), false)] else []

theorem copySources_refs (f : CP) (a : Ref) :
    (copySources f a).map Prod.fst = [a, .s f.b] ++ if 2 ≤ f.kind.toNat then [.s (f.b + 1)] else [] := by
  unfold copySources; split <;> rfl

section
variable {i : Instr} {f : CP} {form : CopyForm} {src : W64} {es : List W64} {a : Ref} {s : State}
  (hi : copyRule s i = some (f, form, src, es, a))
  (h : Executes s f.g ([a, .s f.b] ++ if 2 ≤ f.kind.toNat then [.s (f.b + 1)] else []))
include hi h

theorem exec_copy_sourced : exec i s = finish s (if 64 ≤ s.eng.copies.length then .error .hold
    else need (queueSource s (rget s.src.sh f.sh)) (need (copyAlign form (rget s.src.sh f.sh) (s.src.getS f.b) (s.src.getS (f.b + 1)) f.kind)
      (need (copyBounds s form (rget s.src.sh f.sh) src (s.src.getS f.b) (s.src.getS (f.b + 1)) f.kind) (copyChecked s f form src es)))) :=
  (copyRule_exec hi).trans (slot_sourced (ds := []) (rs := copySources f a) _ (by rw [copySources_refs]; exact h))

theorem exec_copy_full (full : 64 ≤ s.eng.copies.length) : Holds s (exec i s) := by
  rw [exec_copy_sourced hi h, if_pos full]
  rfl

variable (room : s.eng.copies.length < 64)
include room

theorem exec_copy_room : exec i s = finish s (need (queueSource s (rget s.src.sh f.sh))
    (need (copyAlign form (rget s.src.sh f.sh) (s.src.getS f.b) (s.src.getS (f.b + 1)) f.kind)
      (need (copyBounds s form (rget s.src.sh f.sh) src (s.src.getS f.b) (s.src.getS (f.b + 1)) f.kind) (copyChecked s f form src es)))) := by
  rw [exec_copy_sourced hi h, if_neg (Nat.not_le.2 room)]

theorem exec_copy_queued (queue : QueueFits s (rget s.src.sh f.sh)) : exec i s = finish s
    (need (copyAlign form (rget s.src.sh f.sh) (s.src.getS f.b) (s.src.getS (f.b + 1)) f.kind)
      (need (copyBounds s form (rget s.src.sh f.sh) src (s.src.getS f.b) (s.src.getS (f.b + 1)) f.kind) (copyChecked s f form src es))) := by
  rw [exec_copy_room hi h room, queueSource_fits queue, need_ok]

/-- A queued, aligned copy whose bounds fail raises BOUNDS. -/
theorem exec_copy_outside (queue : QueueFits s (rget s.src.sh f.sh))
    (aligned : CopyAligned form (rget s.src.sh f.sh) (s.src.getS f.b) (s.src.getS (f.b + 1)) f.kind) {reason : Nat} {v : W64}
    (bad : copyBounds s form (rget s.src.sh f.sh) src (s.src.getS f.b) (s.src.getS (f.b + 1)) f.kind = asyncBounds reason v) :
    exec i s = .next (raise s .bounds (BitVec.ofNat 64 (reason * 2 ^ 56 + v.toNat % 2 ^ 56)) false) := by
  rw [exec_copy_queued hi h room queue, copyAlign_aligned aligned, need_ok, bad, need_asyncBounds, finish_asyncBounds]

theorem exec_copy_inBounds (fits : CopyInBounds s form (rget s.src.sh f.sh) src (s.src.getS f.b) (s.src.getS (f.b + 1)) f.kind) :
    exec i s = finish s (copyChecked s f form src es) := by
  obtain ⟨queue, aligned, quad, row, source, asked⟩ := fits
  rw [exec_copy_queued hi h room queue, copyAlign_aligned aligned, need_ok, (copyBounds_form quad row source).1 asked, need_ok]

end

theorem copyTile_there {s : State} {h : W64} (out : (s.core (handleCore h)).out = false) (valid : (poolOf s h).valid = true)
    (same : handleMatches s h = true) : copyTile s h = .ok () := by
  simp [copyTile, out, valid, same]

theorem copyTile_gone {s : State} {h : W64} (gone : (s.core (handleCore h)).out = true ∨ (poolOf s h).valid = false) :
    copyTile s h = .error (.trap .tstale (tstaleInfo h 3)) := by
  rw [copyTile, if_pos (by simpa using gone)]

theorem copyTile_stale {s : State} {h : W64} (out : (s.core (handleCore h)).out = false) (valid : (poolOf s h).valid = true)
    (other : handleMatches s h = false) : copyTile s h = .error (.trap .tstale (tstaleInfo h 1)) := by
  simp [copyTile, out, valid, other]

section
variable {s : State} {f : CP} {form : CopyForm} {src : W64} {es : List W64}

theorem copyChecked_fits (unlocked : form = .wstore → (s.part (s.partIdOf s.issue.core)).wsLocked = false)
    (tile : form = .plain → shField (rget s.src.sh f.sh) 6 = 1 →
      (s.core (handleCore src)).out = false ∧ (poolOf s src).valid = true ∧ handleMatches s src = true) :
    copyChecked s f form src es = .ok (startCopy s f form src (s.src.getS f.b) es) := by
  unfold copyChecked
  rw [if_neg (fun e => by simp [unlocked e.1] at e)]
  split
  · next reads =>
    obtain ⟨out, valid, same⟩ := tile reads.1 reads.2
    rw [copyTile_there out valid same, need_ok]
  · rfl

theorem copyChecked_locked (form' : form = .wstore) (locked : (s.part (s.partIdOf s.issue.core)).wsLocked = true) :
    copyChecked s f form src es = .error (.trap .wslock 0) := if_pos ⟨form', locked⟩

theorem copyChecked_tile (form' : form = .plain) (reads : shField (rget s.src.sh f.sh) 6 = 1) {e : Stop} (bad : copyTile s src = .error e) :
    copyChecked s f form src es = .error e := by
  subst form'
  rw [copyChecked, if_neg (fun w => by simp at w), if_pos ⟨rfl, reads⟩, bad, need_error]

end

/-! What a copy adds to its engine (R305, R306, R310, R311, R345). -/

/-- The copy that an instruction issues. -/
def issuedCopy (s : State) (f : CP) (form : CopyForm) (src dst : W64) (es : List W64) : Copy :=
  { id := s.nextId, form := form, shape := rget s.src.sh f.sh, src := src, dst := dst, kind := f.kind, caddr := copyAddr s f, tok := f.tok,
    num := if f.kind = 1 then some (s.eng.issued + 1) else none, started := false, waiting := false, moved := 0,
    data := if qsrc (rget s.src.sh f.sh)
      then some (rowBytes ((headRow s.src (BitVec.ofNat 2 (shField (rget s.src.sh f.sh) 29))).getD 0)) else none,
    entries := es, tile := none, xfer := none, since := s.cycle, fault := none, page := none, retried := false, aborted := false,
    bind := s.me.r.bind }

/-- The state with the row of a queue source taken for a copy (R315). -/
def rowTaken (s : State) (k : Copy) : State :=
  if qsrc k.shape then pop { s with nextId := s.nextId + 1 } false [28#5 + BitVec.ofNat 5 (shField k.shape 29)]
  else { s with nextId := s.nextId + 1 }

/-- The state in which a copy enters its engine: its row taken, the dirty bytes of its ranges written back (R311). -/
def copyReleased (s : State) (k : Copy) : State := copyRelease (rowTaken s k) s.issue.core k

/-- The state with a copy in its engine. -/
def copyEntered (s : State) (k : Copy) : State :=
  let t := copyReleased s k
  t.setEngine s.issue.core s.issue.ctx
    { t.engine s.issue.core s.issue.ctx with copies := s.eng.copies ++ [k], issued := k.num.getD s.eng.issued }

theorem startCopy_eq (s : State) (f : CP) (form : CopyForm) (src dst : W64) (es : List W64) : startCopy s f form src dst es =
    if walkRuns (rget s.src.sh f.sh) = 0 ∧ form ≠ .tile
    then finishCopy (copyEntered s (issuedCopy s f form src dst es)) s.issue.core s.issue.ctx (issuedCopy s f form src dst es)
    else copyEntered s (issuedCopy s f form src dst es) := rfl

theorem Moves.copyRelease (s : State) (c : CoreId) (k : Copy) : Moves s (copyRelease s c k) := by
  unfold Machine.copyRelease
  exact nearWriteBack s c _

theorem rowTaken_moves (s : State) (k : Copy) : Moves s (rowTaken s k) := by
  unfold rowTaken
  split <;> exact ⟨fun _ => rfl, ⟨fun _ => rfl, rfl, fun _ => ⟨rfl, rfl⟩⟩, rfl, id⟩

theorem rowTaken_stores (s : State) (k : Copy) : (rowTaken s k).cores = s.cores ∧ (rowTaken s k).mem = s.mem := by
  unfold rowTaken
  split <;> exact ⟨rfl, rfl⟩

theorem copyReleased_moves (s : State) (k : Copy) : Moves s (copyReleased s k) :=
  (rowTaken_moves s k).trans (Moves.copyRelease ..)

/-- Where the near cache holds nothing, no byte of memory changes. -/
theorem copyReleased_mem {s : State} {k : Copy} (h : (s.core s.issue.core).near = []) : (copyReleased s k).mem = s.mem := by
  obtain ⟨cores, mem⟩ := rowTaken_stores s k
  have clean : ((rowTaken s k).core s.issue.core).near = [] := by rw [State.core, cores]; exact h
  rw [copyReleased, copyRelease, nearWriteBack, clean, List.foldl_nil, mem]

theorem copyEntered_engine (s : State) (k : Copy) : (copyEntered s k).engine s.issue.core s.issue.ctx
    = { s.eng with copies := s.eng.copies ++ [k], issued := k.num.getD s.eng.issued } := by
  have moved := copyReleased_moves s k
  have same : (copyReleased s k).engine s.issue.core s.issue.ctx = s.eng := by
    rw [← moved.eng, State.eng, moved.issuer.1, moved.issuer.2]
  rw [copyEntered, State.engine_setEngine_same, same]

theorem copyEntered_issuer (s : State) (k : Copy) :
    (copyEntered s k).issue.core = s.issue.core ∧ (copyEntered s k).issue.ctx = s.issue.ctx := (copyReleased_moves s k).issuer

theorem noteCopy_issue (s : State) (k : Copy) (via : LandBy) : (noteCopy s k via).issue = s.issue := by
  unfold noteCopy noteLanded
  split
  · dsimp only; split <;> rfl
  · rfl

theorem noteEnd_issue (s : State) (c : CoreId) (x : CtxId) (k : Copy) : (noteEnd s c x k).issue = s.issue := by
  unfold noteEnd
  dsimp only
  split
  · split
    · rw [noteCopy_issue, noteCopy_issue]
    · rw [noteCopy_issue]
  · rw [noteCopy_issue]

/-- A copy of another form than cpyt that has met no error and resolves no future leaves its engine, and no byte changes. -/
theorem finishCopy_leaves {k : Copy} (s : State) (c : CoreId) (x : CtxId) (form : k.form ≠ .tile) (fine : k.fault = none) (kind : k.kind ≠ 3)
    (xfer : k.xfer = none) : (finishCopy s c x k).issue = s.issue ∧ (finishCopy s c x k).mem = s.mem ∧
    (finishCopy s c x k).engine c x = (s.engine c x).drop k.id := by
  have resolved (t : State) : resolveCopy t c k = .ok t := if_neg kind
  have engine : (noteEnd s c x k).engine c x = s.engine c x := by
    simp only [State.engine, State.core, (noteEnd_cores s c x k).1]
  have handed : handOver s c k = s := by
    unfold handOver
    split
    · next t _ => exact absurd t form
    · rfl
  unfold finishCopy
  simp only [fine, resolved, handed, engine, xfer, dropTransfer]
  split
  · rw [State.setCtx_issue, State.setCtx_mem, State.engine_setCtx]
    exact ⟨noteEnd_issue .., (noteEnd_cores s c x k).2, State.engine_setEngine_same ..⟩
  · exact ⟨noteEnd_issue .., (noteEnd_cores s c x k).2, State.engine_setEngine_same ..⟩

/-- An engine that a copy joins and leaves again has the copies it had. -/
theorem drop_joined {e : Engine} {k : Copy} (h : ∀ q ∈ e.copies, q.id ≠ k.id) (n : Nat) :
    ({ e with copies := e.copies ++ [k], issued := n } : Engine).drop k.id = ({ e with issued := n } : Engine).settle := by
  have rest : (e.copies ++ [k]).filter (fun q => q.id != k.id) = e.copies := by
    rw [List.filter_append, List.filter_eq_self.2 (fun q hq => by simpa using h q hq)]
    simp
  rw [Engine.drop, rest]

theorem startCopy_enters {s : State} {f : CP} {form : CopyForm} (src dst : W64) (es : List W64)
    (h : walkRuns (rget s.src.sh f.sh) ≠ 0 ∨ form = .tile) :
    startCopy s f form src dst es = copyEntered s (issuedCopy s f form src dst es) := by
  rw [startCopy_eq, if_neg (fun e => h.elim (fun r => r e.1) e.2)]

/-- An empty copy that resolves no future leaves its engine as soon as it has entered (R310). -/
theorem startCopy_empty {s : State} {f : CP} {form : CopyForm} (src dst : W64) (es : List W64) (runs : walkRuns (rget s.src.sh f.sh) = 0)
    (form' : form ≠ .tile) (kind : f.kind ≠ 3) (fresh : ∀ k ∈ s.eng.copies, k.id ≠ s.nextId) :
    (startCopy s f form src dst es).mem = (copyReleased s (issuedCopy s f form src dst es)).mem ∧
    (startCopy s f form src dst es).eng =
      ({ s.eng with issued := (issuedCopy s f form src dst es).num.getD s.eng.issued } : Engine).settle := by
  obtain ⟨issue, mem, engine⟩ := finishCopy_leaves (k := issuedCopy s f form src dst es) (copyEntered s (issuedCopy s f form src dst es))
    s.issue.core s.issue.ctx form' rfl kind rfl
  obtain ⟨core, ctx⟩ := copyEntered_issuer s (issuedCopy s f form src dst es)
  rw [startCopy_eq, if_pos ⟨runs, form'⟩]
  refine ⟨mem, ?_⟩
  rw [State.eng, issue, core, ctx, engine, copyEntered_engine]
  exact drop_joined fresh _

theorem issuedCopy_count (s : State) (f : CP) (form : CopyForm) (src dst : W64) (es : List W64) :
    (issuedCopy s f form src dst es).num.getD s.eng.issued = if f.kind = 1 then s.eng.issued + 1 else s.eng.issued := by
  unfold issuedCopy
  dsimp only
  split <;> rfl

/-- Settles O24: an instruction's checks by their lemmas, one after the other; then the copy enters its engine (`startCopy_enters`), which
an empty one leaves again (`startCopy_empty`). -/
theorem copies : Obligations.Copies := by
  refine ⟨fun i f form src es a s hi h => ?_, fun s f form src dst es h => ?_, fun s f form src dst es runs form' kind fresh => ?_⟩
  · intro sh dst caddr q raises bounds
    refine ⟨exec_copy_full hi h, fun room => ⟨fun ⟨fits, unlocked, tile⟩ => ?_, fun row owns => ?_, fun row owns none' => ?_, fun queue =>
      ⟨fun counts off => ?_, fun count off => ?_, fun aligned => ?_⟩, fun fits => ⟨fun form' locked => ?_, fun form' reads => ?_⟩⟩⟩
    · rw [exec_copy_inBounds hi h room fits, copyChecked_fits unlocked tile, finish_ok]
    · exact (exec_copy_room hi h room).trans (by rw [queueSource_unowned row owns]; rfl)
    · exact (exec_copy_room hi h room).trans (by rw [queueSource_empty row owns none']; rfl)
    · exact (exec_copy_queued hi h room queue).trans (by rw [copyAlign_word counts off]; rfl)
    · exact (exec_copy_queued hi h room queue).trans (by rw [copyAlign_base count off]; rfl)
    · exact ⟨fun row rowless => exec_copy_outside hi h room queue aligned (copyBounds_rowless row rowless),
        fun row counts off => exec_copy_outside hi h room queue aligned (copyBounds_word row counts off),
        fun row word tile off => exec_copy_outside hi h room queue aligned (copyBounds_mailbox row word tile off),
        fun quad off => exec_copy_outside hi h room queue aligned (copyBounds_row quad off),
        fun quad row off => exec_copy_outside hi h room queue aligned (copyBounds_source quad row off),
        fun quad row source off => exec_copy_outside hi h room queue aligned ((copyBounds_form quad row source).2 off)⟩
    · exact (exec_copy_inBounds hi h room fits).trans (by rw [copyChecked_locked form' locked]; rfl)
    · have stale {e : Stop} (bad : copyTile s src = .error e) : exec i s = finish s (.error e) := by
        rw [exec_copy_inBounds hi h room fits, copyChecked_tile form' reads bad]
      exact ⟨fun gone => stale (copyTile_gone gone), fun out valid other => stale (copyTile_stale out valid other)⟩
  · have entered := startCopy_enters src dst es h
    obtain ⟨core, ctx⟩ := copyEntered_issuer s (issuedCopy s f form src dst es)
    rw [entered, State.eng, core, ctx, copyEntered_engine]
    exact ⟨_, rfl, rfl, rfl, rfl, rfl, rfl, rfl, rfl, rfl, rfl, rfl, rfl, issuedCopy_count ..⟩
  · obtain ⟨mem, engine⟩ := startCopy_empty src dst es runs form' kind fresh
    rw [engine, mem]
    exact ⟨rfl, issuedCopy_count .., copyReleased_mem⟩

end Sys2Proof.Machine

namespace Sys2Proof.Machine

/-! Shape registers (R67, R309, R344). -/

theorem shwFormat_assigned {n : Nat} {v : W64} (field : n = 3 → (formatOf v.toNat).isSome = true)
    (word : n = 32 → (formatOf (wbits v 48 8)).isSome = true) : shwFormat n v = true := by
  unfold shwFormat
  split
  · next e => rw [field e, Bool.or_true]
  · by_cases e : n = 32
    · rw [word e, Bool.or_true]
    · simp [e]

theorem shwFits_iff (n : Nat) (v : W64) : shwFits n v = true ↔ v.toNat < 2 ^ (shapeFieldAt n).width ∧
    (n = 32 → wbits v 35 5 = 0 ∧ wbits v 56 8 = 0) ∧ (n = 33 → wbits v 34 30 = 0) ∧ (n = 35 → wbits v 32 32 = 0) := by
  simp [shwFits, and_assoc]
  tauto

theorem exec_shw_sourced {f : RRI} {s : State} (h : Executes s f.g [.s f.a]) : exec (.shw f) s = finish s
    (need (if shwFormat f.imm.toNat (s.src.getS f.a) then within (shwFits f.imm.toNat (s.src.getS f.a)) 1 (s.src.getS f.a)
        else .error (.trap .ill (BitVec.ofNat 64 s.issue.slot)))
      (.ok (result s (.shape (f.d.setWidth 3) f.imm.toNat) (BitVec.allOnes 64) (rowOfWord (s.src.getS f.a)) 0 3))) := by
  rw [exec_shw, execShw, slot_sourced (ds := []) (rs := [(.s f.a, false)]) _ h, BitVec.ofNat_toNat]
  rfl

theorem exec_shw_fits {f : RRI} {s : State} (h : Executes s f.g [.s f.a]) (fits : ShwFits f.imm.toNat (s.src.getS f.a)) :
    exec (.shw f) s
      = .next (result s (.shape (f.d.setWidth 3) f.imm.toNat) (BitVec.allOnes 64) (rowOfWord (s.src.getS f.a)) 0 3) := by
  obtain ⟨width, word0, word1, word3, field, word⟩ := fits
  rw [exec_shw_sourced h, shwFormat_assigned field word, (shwFits_iff ..).2 ⟨width, word0, word1, word3⟩]
  rfl

theorem exec_shw_wide {f : RRI} {s : State} (h : Executes s f.g [.s f.a]) (field : f.imm.toNat < 32)
    (wide : 2 ^ (shapeFieldAt f.imm.toNat).width ≤ (s.src.getS f.a).toNat) :
    exec (.shw f) s = .next (raise s .bounds (BitVec.ofNat 64 (2 ^ 56 + (s.src.getS f.a).toNat % 2 ^ 56)) false) := by
  have format : shwFormat f.imm.toNat (s.src.getS f.a) = true := by
    unfold shwFormat
    split
    · next e =>
      rw [e] at wide
      rw [Bool.or_eq_true, decide_eq_true_iff]
      exact .inl wide
    · simp; omega
  have off : shwFits f.imm.toNat (s.src.getS f.a) = false :=
    Bool.eq_false_iff.2 (fun fits => absurd ((shwFits_iff ..).1 fits).1 (Nat.not_lt.2 wide))
  rw [exec_shw_sourced h, format, off]
  exact finish_asyncBounds s 1 _

theorem exec_shw_unassigned {f : RRI} {s : State} (h : Executes s f.g [.s f.a]) (field : f.imm.toNat = 3)
    (small : (s.src.getS f.a).toNat < 256) (none' : formatOf (s.src.getS f.a).toNat = none) :
    exec (.shw f) s = .next (raise s .ill (BitVec.ofNat 64 s.issue.slot) false) := by
  have format : shwFormat f.imm.toNat (s.src.getS f.a) = false := by
    rw [shwFormat, if_pos field, none', Bool.or_eq_false_iff, decide_eq_false_iff_not]
    exact ⟨by omega, rfl⟩
  rw [exec_shw_sourced h, format]
  rfl

/-! Timeline counters (R320, R347, R348). -/

theorem exec_tlrd_copy {f : RR} {s : State} {x : CtxId} (h : Executes s f.g [.s f.d, .s f.a]) (hx : named s (s.src.getS f.a) = some (.copy x)) :
    (wbits (s.src.getS f.a) 6 2 = 0 → exec (.tlrd f) s = .next (resultS s f.d (BitVec.ofNat 64 (s.engine s.issue.core x).counter) 2)) ∧
    (wbits (s.src.getS f.a) 6 2 = 1 → exec (.tlrd f) s = .next (resultS s f.d (BitVec.ofNat 64 (s.engine s.issue.core x).issued) 2)) ∧
    (wbits (s.src.getS f.a) 6 2 = 2 → exec (.tlrd f) s = .next (resultS s f.d (engineStatus (s.engine s.issue.core x)) 2)) ∧
    (wbits (s.src.getS f.a) 6 2 = 3 → exec (.tlrd f) s = .next ((resultS s f.d (engineStatus (s.engine s.issue.core x)) 2).setEngine
      s.issue.core x { s.engine s.issue.core x with accof := false })) := by
  rw [exec_tlrd, execTlrd, slot_sourced (ds := [.s f.d]) (rs := [(.s f.a, f.ta)]) _ h]
  simp only [hx]
  refine ⟨fun value => ?_, fun value => ?_, fun value => ?_, fun value => ?_⟩ <;> simp only [value, finish_ok]

theorem exec_tlrd_itin {f : RR} {s : State} {i : ItinId} (h : Executes s f.g [.s f.d, .s f.a]) (hi : named s (s.src.getS f.a) = some (.itin i)) :
    (wbits (s.src.getS f.a) 6 2 = 0 → exec (.tlrd f) s = .next (resultS s f.d (BitVec.ofNat 64 (s.itin i).counter) 2)) ∧
    (wbits (s.src.getS f.a) 6 2 = 1 → exec (.tlrd f) s = .next (resultS s f.d (BitVec.ofNat 64 (s.itin i).issued) 2)) := by
  rw [exec_tlrd, execTlrd, slot_sourced (ds := [.s f.d]) (rs := [(.s f.a, f.ta)]) _ h]
  simp only [hi]
  refine ⟨fun value => ?_, fun value => ?_⟩ <;> simp only [value, finish_ok]

theorem exec_tlrd_unnamed {f : RR} {s : State} (h : Executes s f.g [.s f.d, .s f.a]) (none' : named s (s.src.getS f.a) = none) :
    exec (.tlrd f) s = .next (raise s .bounds (BitVec.ofNat 64 (4 * 2 ^ 56 + (s.src.getS f.a).toNat % 2 ^ 56)) false) := by
  rw [exec_tlrd, execTlrd, slot_sourced (ds := [.s f.d]) (rs := [(.s f.a, f.ta)]) _ h]
  simp only [none']
  rfl

/-- The counter of an engine context that a selector names. -/
def Named.counter (s : State) : Named → Nat
  | .copy x => (s.engine s.issue.core x).counter
  | .itin i => (s.itin i).counter

/-- An engine context that holds no error for software to meet. -/
def Named.errorless (s : State) : Named → Prop
  | .copy x => (s.engine s.issue.core x).err = none
  | .itin i => (s.itin i).state ≠ .error

section
variable {f : RR} {s : State} (h : Executes s f.g [.s f.a, .s f.d])
include h

theorem exec_tlwait_below {w : Named} (hw : named s (s.src.getS f.d) = some w) (low : w.counter s < (s.src.getS f.a).toNat) :
    Holds s (exec (.tlwait f) s) := by
  rw [exec_tlwait, execTlwait, slot_sourced (ds := []) (rs := [(.s f.a, f.ta), (.s f.d, false)]) _ h]
  cases w with
  | copy x => simp only [hw]; exact congrArg (finish s) (if_pos low)
  | itin i => simp only [hw]; exact congrArg (finish s) (if_pos low)

/-- A counter that has been reached, of a context without an error to deliver: the wait acquires (R312, R313). -/
theorem exec_tlwait_reached {w : Named} (hw : named s (s.src.getS f.d) = some w) (reached : (s.src.getS f.a).toNat ≤ w.counter s)
    (fine : w.errorless s)
    (silent : reported s s.issue.core (counterBytes s s.issue.core w (s.src.getS f.a).toNat) = none) :
    exec (.tlwait f) s = .next (acquire s s.issue.core 4 (counterBytes s s.issue.core w (s.src.getS f.a).toNat)) := by
  rw [exec_tlwait, execTlwait, slot_sourced (ds := []) (rs := [(.s f.a, f.ta), (.s f.d, false)]) _ h]
  cases w with
  | copy x =>
    have none' : (if x = s.issue.ctx then errorUpTo (s.engine s.issue.core x) (s.src.getS f.a).toNat else none) = none := by
      rw [errorUpTo, show (s.engine s.issue.core x).err = none from fine, ite_self]
    simp only [hw, none', if_neg (Nat.not_lt.2 reached : ¬(s.engine s.issue.core x).counter < _), acquireHere_unreported silent, finish_ok]
  | itin i =>
    simp only [hw, if_neg (Nat.not_lt.2 reached : ¬(s.itin i).counter < _), if_neg (fine : (s.itin i).state ≠ .error), acquireHere_unreported silent, finish_ok]

end

/-! Sync words (R322, R323, R349, R350). -/

theorem syncAt_placed {a : W64} (aligned : a.toNat % 16 = 0) (quad : classOf a = 0) : syncAt a = .ok () := by
  rw [syncAt, alignTo_aligned aligned, (inQuad_iff a).2 quad]
  rfl

theorem errorInto_none {e : Engine} (fine : e.err = none) (a : W64) : errorInto e a = none := by rw [errorInto, fine]

theorem exec_swset_placed {f : RRR} {s : State} (h : Executes s f.g [.s f.a, .s f.b, .s f.d]) (aligned : (s.src.getS f.a).toNat % 16 = 0)
    (quad : classOf (s.src.getS f.a) = 0) (good : CodesGood s) :
    exec (.swset f) s = .next (writeSync s (quadKey s.issue.core (s.src.getS f.a))
      { readSync s (quadKey s.issue.core (s.src.getS f.a)) with
        target := wbits (s.src.getS f.b) 0 40, armed := (s.src.getS f.d).getLsbD 0, err := false,
        arrived := if (s.src.getS f.d).getLsbD 1 then 0 else (readSync s (quadKey s.issue.core (s.src.getS f.a))).arrived,
        gen := if (s.src.getS f.d).getLsbD 1 then wbits (s.src.getS f.d) 32 32
          else (readSync s (quadKey s.issue.core (s.src.getS f.a))).gen }) := by
  rw [exec_swset, execSwset, slot_sourced (ds := []) (rs := [(.s f.a, f.ta), (.s f.b, f.tb), (.s f.d, false)]) _ h]
  simp only [syncAt_placed aligned quad, need_ok, eccRead_good good, wbit_eq, finish_ok]
  cases (s.src.getS f.d).getLsbD 1 <;> rfl

section
variable {f : RR} {s : State} {w : SyncWord} {ahead : Nat} (h : Executes s f.g [.s f.a, .s f.d])
  (aligned : (s.src.getS f.a).toNat % 16 = 0) (quad : classOf (s.src.getS f.a) = 0) (good : CodesGood s)
  (hw : w = readSync s (quadKey s.issue.core (s.src.getS f.a)))
  (ha : ahead = (w.gen + 2 ^ 32 - wbits (s.src.getS f.d) 0 32) % 2 ^ 32)
include h aligned quad good hw ha

theorem exec_swwait_placed : exec (.swwait f) s = finish s
    (if !w.err && !(decide (1 ≤ ahead) && decide (ahead < 2 ^ 31)) then .error .hold
     else match errorInto s.eng (s.src.getS f.a) with
       | some (cause, info) => .error (.engine cause info)
       | none => if w.err then .error (.trap .bounds (s.src.getS f.a ||| 1))
         else acquireHere s 4 (syncBytes s (quadKey s.issue.core (s.src.getS f.a)) (s.src.getS f.a))) := by
  subst hw ha
  rw [exec_swwait, execSwwait, slot_sourced (ds := []) (rs := [(.s f.a, f.ta), (.s f.d, false)]) _ h]
  simp only [syncAt_placed aligned quad, need_ok, eccRead_good good] <;> rfl

theorem exec_swwait_early (clean : w.err = false) (early : ahead = 0 ∨ 2 ^ 31 ≤ ahead) : Holds s (exec (.swwait f) s) := by
  have waits : (!w.err && !(decide (1 ≤ ahead) && decide (ahead < 2 ^ 31))) = true := by
    rw [clean]
    simp
    omega
  rw [exec_swwait_placed h aligned quad good hw ha, if_pos waits]
  rfl

variable (fine : s.eng.err = none)
include fine

theorem exec_swwait_passed (clean : w.err = false) (passed : 1 ≤ ahead) (recent : ahead < 2 ^ 31)
    (silent : reported s s.issue.core (syncBytes s (quadKey s.issue.core (s.src.getS f.a)) (s.src.getS f.a)) = none) :
    exec (.swwait f) s
      = .next (acquire s s.issue.core 4 (syncBytes s (quadKey s.issue.core (s.src.getS f.a)) (s.src.getS f.a))) := by
  rw [exec_swwait_placed h aligned quad good hw ha, errorInto_none fine, clean, decide_eq_true passed, decide_eq_true recent,
    acquireHere_unreported silent]
  rfl

theorem exec_swwait_failed (bad : w.err = true) : exec (.swwait f) s = .next (raise s .bounds (s.src.getS f.a ||| 1) false) := by
  rw [exec_swwait_placed h aligned quad good hw ha, errorInto_none fine, bad]
  rfl

end

/-- Settles O25: shw by its check, tlrd and tlwait by what their selector names, swset and swwait on a word that is placed and read. -/
theorem timelinesAndSync : Obligations.TimelinesAndSync := by
  refine ⟨fun f s h => ⟨exec_shw_fits h, exec_shw_wide h, exec_shw_unassigned h⟩,
    fun f s h => ⟨fun x => exec_tlrd_copy h, fun i => exec_tlrd_itin h, exec_tlrd_unnamed h⟩,
    fun f s h => ⟨fun x hx => ⟨exec_tlwait_below h hx, exec_tlwait_reached h hx⟩, fun i hi => ⟨exec_tlwait_below h hi, exec_tlwait_reached h hi⟩⟩,
    fun f s => exec_swset_placed,
    fun f s ahead h aligned quad good ha => ⟨fun clean => ⟨exec_swwait_early h aligned quad good rfl ha clean, fun passed recent fine =>
      exec_swwait_passed h aligned quad good rfl ha fine clean passed recent⟩, fun bad fine =>
      exec_swwait_failed h aligned quad good rfl ha fine bad⟩⟩

end Sys2Proof.Machine

namespace Sys2Proof.Machine

/-! What the movements of bytes, the task queues, the free lists and the tiles never touch: the reserve shelf, the itineraries and the
request gatherers. -/

/-- The reserve shelf, the itineraries and the gatherers. -/
def State.engines (s : State) := (s.shelf, s.itins, s.gatherers)

theorem engines_shelfAt {s t : State} (h : t.engines = s.engines) (e : Nat) : t.shelfAt e = s.shelfAt e := by
  rw [State.shelfAt, State.shelfAt, show t.shelf = s.shelf from congrArg (·.1) h]

theorem engines_itin {s t : State} (h : t.engines = s.engines) (i : ItinId) : t.itin i = s.itin i := by
  simp only [State.itin, show t.itins = s.itins from congrArg (·.2.1) h]

theorem engines_gatherer {s t : State} (h : t.engines = s.engines) (g : GathererId) : t.gatherer g = s.gatherer g := by
  simp only [State.gatherer, show t.gatherers = s.gatherers from congrArg (·.2.2) h]

@[simp] theorem setCore_engines (s : State) (c : CoreId) (k : Core) : (s.setCore c k).engines = s.engines := rfl
@[simp] theorem setCtx_engines (s : State) (c : CoreId) (x : CtxId) (y : Ctx) : (s.setCtx c x y).engines = s.engines := rfl
@[simp] theorem setPart_engines (s : State) (p : PartId) (k : Part) : (s.setPart p k).engines = s.engines := rfl
@[simp] theorem setPool_engines (s : State) (c : CoreId) (q : Fin 16) (p : Pool) : (s.setPool c q p).engines = s.engines := rfl
@[simp] theorem setTile_engines (s : State) (h : W64) (t : Tile) : (setTile s h t).engines = s.engines := rfl
@[simp] theorem mergeAt_engines (s : State) (k : Nat) (bs : List (Option Byte)) : (s.mergeAt k bs).engines = s.engines := rfl
@[simp] theorem writeAt_engines (s : State) (k : Nat) (bs : List Byte) : (s.writeAt k bs).engines = s.engines := rfl
@[simp] theorem result_engines (s : State) (d : Dest) (m : W64) (v : Row) (f : BitVec 5) (n : Nat) :
    (result s d m v f n).engines = s.engines := rfl
@[simp] theorem askTile_engines (s : State) (c : CoreId) (q : Fin 16) (r : PoolReq) : (askTile s c q r).engines = s.engines := rfl

/-- A run of steps each of which leaves them leaves them. -/
theorem foldl_engines {β : Type} {f : State → β → State} (h : ∀ s b, (f s b).engines = s.engines) (l : List β) (s : State) :
    (l.foldl f s).engines = s.engines :=
  List.foldlRecOn (motive := fun t => t.engines = s.engines) l f rfl (fun t ht b _ => (h t b).trans ht)

/-! Reads, write-backs and drained gates. -/

@[simp] theorem spendMem_engines (s : State) (p : PartId) (bs : List Nat) : (spendMem s p bs).engines = s.engines := by
  unfold spendMem
  split
  · rfl
  · simp only; split <;> rfl

@[simp] theorem blockTaken_engines (s : State) (va : W64) (n : Nat) (p : Place) : (blockTaken s va n p).engines = s.engines := by
  unfold blockTaken; split <;> simp

@[simp] theorem writeBack_engines (s : State) (c : CoreId) (l : NearLine) : (writeBack s c l).engines = s.engines := by
  unfold writeBack
  split
  · rfl
  · split <;> simp

@[simp] theorem nearPut_engines (s : State) (c : CoreId) (l : NearLine) : (nearPut s c l).engines = s.engines := by
  unfold nearPut; simp only; split <;> simp

@[simp] theorem nearWriteBack_engines (s : State) (c : CoreId) (sel : W64 → Bool) : (nearWriteBack s c sel).engines = s.engines :=
  foldl_engines (fun t l => by simp only; split <;> simp) _ _

@[simp] theorem nearRefresh_engines (s : State) (c : CoreId) (va : W64) (bs : List Byte) : (nearRefresh s c va bs).engines = s.engines := rfl

@[simp] theorem release_engines (s : State) (c : CoreId) (n : Nat) (sel : W64 → Bool) : (release s c n sel).engines = s.engines := by
  unfold release; split <;> simp

@[simp] theorem acquire_engines (s : State) (c : CoreId) (n : Nat) (sel : W64 → Bool) : (acquire s c n sel).engines = s.engines := by
  unfold acquire; split <;> rfl

theorem ownerWrite_engines {s t : State} {c : CoreId} {a : Access} {va : W64} {bs : List Byte} (h : ownerWrite s c a va bs = .ok t) :
    t.engines = s.engines := by
  unfold ownerWrite at h; split at h <;> cases h; rfl

@[simp] theorem deviceWrite_engines (s : State) (c : CoreId) (va : W64) (bs : List Byte) : (deviceWrite s c va bs).engines = s.engines := by
  unfold deviceWrite
  split
  · rw [nearRefresh_engines, ownerWrite_engines ‹_›]
  · rfl

@[simp] theorem performLine_engines (s : State) (c : CoreId) (l : GateLine) : (performLine s c l).engines = s.engines := by
  unfold performLine
  split
  · rfl
  · split
    · exact nearPut_engines ..
    · simp

@[simp] theorem drainMe_engines (s : State) : (drainMe s).engines = s.engines := by
  have drained (t : State) : (drainStores t s.issue.core s.issue.ctx).engines = t.engines := by
    unfold drainStores drainHandler drainGate sampleLoads
    simp only
    split <;> simp [foldl_engines]
  exact drained s

@[simp] theorem handedOver_engines (s : State) : (handedOver s).engines = s.engines :=
  (release_engines ..).trans (drainMe_engines s)

/-! Task queues. -/

@[simp] theorem askPlace_engines (s : State) (d : DieId) (p : Place) : (askPlace s d p).engines = s.engines := by
  unfold askPlace askHost
  split
  · simp only; split <;> rfl
  · rfl

@[simp] theorem refill_engines : ∀ (n : Nat) (s : State) (c : CoreId), (refill n s c).engines = s.engines
  | 0, _, _ => rfl
  | n + 1, s, c => by
    unfold refill
    simp only
    split
    · rfl
    · split
      · simp
      · rfl
      · rw [refill_engines n, setCore_engines]

theorem pushTail_engines {s t : State} {c : CoreId} {e : W64} (h : pushTail s c e = .ok t) : t.engines = s.engines := by
  unfold pushTail at h
  simp only at h
  split at h
  · cases h; rfl
  · split at h
    · split at h
      · cases h
      · split at h <;> cases h; rfl
    · cases h

@[simp] theorem putEntryAt_engines (s : State) (c : CoreId) (i : Nat) (e : W64) : (putEntryAt s c i e).engines = s.engines := by
  unfold putEntryAt; split <;> simp

@[simp] theorem moveUp_engines (c : CoreId) : ∀ (m i : Nat) (s : State), (moveUp c m i s).engines = s.engines
  | 0, _, _ => rfl
  | m + 1, i, s => by rw [moveUp, moveUp_engines c m]; simp

theorem pushPlace_engines {s t : State} {c : CoreId} {w : Pusher} {e : W64} (h : pushPlace s c w e = .ok t) : t.engines = s.engines := by
  unfold pushPlace at h
  simp only at h
  split at h
  · split at h
    · split at h
      · cases h
      · cases h; rw [setCore_engines, pushTail_engines ‹_›]; rfl
    · cases h
  · exact pushTail_engines h

theorem push_engines {s t : State} {c : CoreId} {w : Pusher} {e : W64} (h : push s c w e = .ok t) : t.engines = s.engines := by
  unfold push at h
  split at h
  · cases h
  · cases h; rw [moveUp_engines, setCore_engines, pushPlace_engines ‹_›]

@[simp] theorem retryHeld_engines : ∀ (n : Nat) (s : State) (c : CoreId), (retryHeld n s c).engines = s.engines
  | 0, _, _ => rfl
  | n + 1, s, c => by
    unfold retryHeld
    split
    · rfl
    · split
      · rw [retryHeld_engines n, setCore_engines, pushTail_engines ‹_›]
      · simp
      · rfl

theorem pushAfterHeld_engines {s t : State} {c : CoreId} {w : Pusher} {e : W64} (h : pushAfterHeld s c w e = .ok t) :
    t.engines = s.engines := by
  unfold pushAfterHeld at h
  simp only at h
  split at h
  · rw [push_engines h]; simp
  · split at h <;> cases h

@[simp] theorem devicePush_engines (s : State) (c : CoreId) (e : W64) : (devicePush s c e).engines = s.engines := by
  unfold devicePush heldPush
  split
  · exact pushAfterHeld_engines ‹_›
  · simp only [setCore_engines]; split <;> simp

/-! Tiles and block tables. -/

@[simp] theorem eccCorrect_engines (s : State) (c : CoreId) (k n : Nat) : (eccCorrect s c k n).engines = s.engines := by
  unfold eccCorrect
  refine foldl_engines (fun t e => ?_) _ s
  rfl

theorem reported_engines {s t : State} {c : CoreId} {sel : W64 → Bool} {l : W64} (h : reported s c sel = some (l, t)) :
    t.engines = s.engines := by
  unfold reported at h
  split at h <;> cases h
  rfl

@[simp] theorem spendTile_engines (s : State) (h : W64) : (spendTile s h).engines = s.engines := by
  unfold spendTile; simp only; split <;> rfl

@[simp] theorem serveRead_engines (s : State) (c : CoreId) (x : CtxId) (o : Op) : (serveRead s c x o).engines = s.engines := by
  unfold serveRead
  simp only
  split
  · split
    · rfl
    · split <;> split
      · next told => simp [reported_engines told, foldl_engines]
      · simp [foldl_engines]
      · next told => simp [reported_engines told, foldl_engines]
      · simp [foldl_engines]
  · rfl

@[simp] theorem serveReads_engines (s : State) (h : W64) : (serveReads s h).engines = s.engines :=
  foldl_engines (fun _ _ => foldl_engines (fun _ _ => foldl_engines (fun _ _ => serveRead_engines ..) _ _) _ _) _ _

@[simp] theorem publishTile_engines (s : State) (h : W64) : (publishTile s h).engines = s.engines := rfl

@[simp] theorem putEntry_engines (s : State) (h : Shelf) (i state frame : Nat) : (putEntry s h i state frame).engines = s.engines := by
  unfold putEntry
  split
  · exact ownerWrite_engines ‹_›
  · rfl

theorem takeFrames_engines {s t : State} {p : PartId} {tier n : Nat} {fs : List Nat} (h : takeFrames s p tier n = some (fs, t)) :
    t.engines = s.engines := by
  unfold takeFrames at h
  simp only at h
  split at h <;> cases h
  rfl

end Sys2Proof.Machine

namespace Sys2Proof.Machine

/-! Blocks read at issue, and what a bundle hands over first (R205, R253, R368). -/

theorem blockTaken_core (s : State) (va : W64) (n : Nat) (p : Place) (d : CoreId) : (blockTaken s va n p).core d = s.core d := by
  unfold blockTaken
  split
  · rfl
  · exact spendMem_core ..

theorem blockTaken_alike (s : State) (va : W64) (n : Nat) (p : Place) : Alike s (blockTaken s va n p) := by
  refine ⟨(Moves.blockTaken s va n p).places, fun d => by rw [blockTaken_core], ?_, congrArg (·.1) (blockTaken_engines s va n p)⟩
  unfold blockTaken
  split
  · rfl
  · exact spendMem_mem ..

@[simp] theorem blockTaken_steady (s : State) (va : W64) (n : Nat) (p : Place) : (blockTaken s va n p).steady = s.steady := by
  unfold blockTaken
  split
  · rfl
  · exact spendMem_steady ..

theorem blockTaken_issue (s : State) (va : W64) (n : Nat) (p : Place) : (blockTaken s va n p).issue = s.issue :=
  steady_issue (blockTaken_steady ..)

/-- A block that is ready: what reads it goes on with its bytes, its allowance spent. -/
theorem blockAt_ready {s : State} {va : W64} {n : Nat} {p : Place} (k : State → List Byte → Except Stop State)
    (h : BlockReady s va n p) :
    blockAt s va n k = k (blockTaken s va n p) (deviceRead s s.issue.core va n) := by
  rw [blockAt, readBlock_ready h]
  simp only [(blockTaken_alike s va n p).deviceRead]

theorem handedOver_moves (s : State) : Moves s (handedOver s) := (Moves.drainMe s).trans (Moves.release (drainMe s) _ 4 everyByte)

theorem handedOver_issue (s : State) : (handedOver s).issue = { s.issue with drained := true } :=
  (steady_issue (release_steady ..)).trans (drainMe_issue s)

theorem shelfSlot_engines {s t : State} (h : t.engines = s.engines) : shelfSlot t = shelfSlot s := by
  rw [shelfSlot, shelfSlot, show t.shelf = s.shelf from congrArg (·.1) h]

/-! Parking (R329, R358). -/

theorem exec_park_sourced {f : RR} {s : State} (h : Executes s f.g [.s f.a]) : exec (.park f) s = finish s
    (need (alignTo 32 (s.src.getS f.a)) (blockAt (drainMe s) (s.src.getS f.a) 32 (fun t bs =>
      if !parkValid (words8 bs) || (shelfSlot t).isNone then asyncBounds 7 (s.src.getS f.a)
      else if t.src.triggered then badrec 6 else .ok (t.transfer (.leave (.park (s.src.getS f.a))))))) :=
  slot_sourced (ds := []) (rs := [(.s f.a, f.ta)]) _ h

theorem exec_park_misaligned {f : RR} {s : State} (h : Executes s f.g [.s f.a]) (off : (s.src.getS f.a).toNat % 32 ≠ 0) :
    exec (.park f) s = .next (raise s .align (s.src.getS f.a) false) := by
  rw [exec_park_sourced h, alignTo_misaligned off]
  rfl

/-- A park whose descriptor is there, by the checks of R358 in their order. -/
theorem exec_park_ready {f : RR} {s : State} {p : Place} (h : Executes s f.g [.s f.a]) (aligned : (s.src.getS f.a).toNat % 32 = 0)
    (ready : BlockReady (drainMe s) (s.src.getS f.a) 32 p) : exec (.park f) s = finish s
    (if !parkValid (words8 (deviceRead (drainMe s) s.issue.core (s.src.getS f.a) 32)) || (shelfSlot s).isNone then
        asyncBounds 7 (s.src.getS f.a)
      else if s.src.triggered then badrec 6
      else .ok ((blockTaken (drainMe s) (s.src.getS f.a) 32 p).transfer (.leave (.park (s.src.getS f.a))))) := by
  have shelf : shelfSlot (blockTaken (drainMe s) (s.src.getS f.a) 32 p) = shelfSlot s := shelfSlot_engines (by simp)
  have src : (blockTaken (drainMe s) (s.src.getS f.a) 32 p).src = s.src := by
    rw [State.src, blockTaken_issue, drainMe_issue]; rfl
  rw [exec_park_sourced h, alignTo_aligned aligned, need_ok, blockAt_ready _ ready, shelf, src, drainMe_issue]

/-! Wakes (R331, R333, R359). -/

theorem exec_wake_sourced {f : RR} {s : State} (h : Executes s f.g [.s f.a, .s f.d]) : exec (.wake f) s = finish s
    (if wbits (s.src.getS f.a) 36 28 ≠ 0 then asyncBounds 7 (s.src.getS f.a)
     else if wbits (s.src.getS f.a) 32 4 ≠ (s.partIdOf s.issue.core).val then .error (.trap .acl (s.src.getS f.a))
     else .ok (wakeToken (handedOver s) (s.partIdOf s.issue.core) (s.src.getS f.a) (s.src.getS f.d))) :=
  slot_sourced (ds := []) (rs := [(.s f.a, f.ta), (.s f.d, false)]) _ h

/-- A shelf entry that a wake has reached, with the value of the wake in its record. -/
def Woken (value : W64) (h : Shelf) : Prop := h.state ≠ .parked ∧ h.words[4] = value

theorem Woken.of_same {value : W64} {h k : Shelf} (w : Woken value h) (state : k.state = h.state) (word : k.words[4] = h.words[4]) :
    Woken value k := ⟨by rw [state]; exact w.1, by rw [word]; exact w.2⟩

/-- The pages sent on their way leave the entry waking. -/
theorem transit_woken {value : W64} (e : Nat) : ∀ (n i : Nat) (s : State), Woken value (s.shelfAt e) → Woken value ((transit e n i s).1.shelfAt e)
  | 0, _, _, w => w
  | n + 1, i, s, w => by
    unfold transit
    simp only
    split
    · split
      · refine transit_woken e n (i + 1) _ ?_
        unfold poisonPage
        rw [State.shelfAt_setShelf_same, engines_shelfAt (putEntry_engines ..)]
        exact w.of_same rfl (by simp)
      · split
        · next taken =>
          refine transit_woken e n (i + 1) _ ?_
          rw [State.shelfAt_setShelf_same, engines_shelfAt (putEntry_engines ..), engines_shelfAt (takeFrames_engines taken)]
          exact w.of_same rfl rfl
        · exact w
    · exact transit_woken e n (i + 1) s w

/-- The entry as a wake leaves it before its promotion starts. -/
def wokenEntry (h : Shelf) (value : W64) : Shelf :=
  { h with state := .waking, demote := none, stalled := [], words := h.words.set 4 value (by decide) }

theorem wokenEntry_woken (h : Shelf) (value : W64) : Woken value (wokenEntry h value) :=
  ⟨ShelfState.noConfusion, by simp [wokenEntry]⟩

/-- The end of a wake frees its entry, which is parked no more. -/
theorem settled_woken {value : W64} {e : Nat} {t : State} (p : Prop) [Decidable p] (w : Woken value (t.shelfAt e)) : Woken value
    ((if p then t.setShelf e { t.shelfAt e with state := .free, gen := (t.shelfAt e).gen + 1, demote := none, stalled := [] }
      else t).shelfAt e) := by
  split
  · rw [State.shelfAt_setShelf_same]
    exact ⟨ShelfState.noConfusion, w.2⟩
  · exact w

theorem settleWake_woken {value : W64} {e : Nat} {s : State} (w : Woken value (s.shelfAt e)) : Woken value ((settleWake s e).shelfAt e) := by
  unfold settleWake
  simp only
  split
  · exact w
  · refine settled_woken _ ?_
    split
    · exact w
    · rw [engines_shelfAt (devicePush_engines ..), State.shelfAt_setShelf_same]
      exact w.of_same rfl rfl

theorem promote_woken {value : W64} {e : Nat} {s : State} (w : Woken value (s.shelfAt e)) : Woken value ((promote s e).shelfAt e) := by
  unfold promote
  simp only
  split
  · exact settleWake_woken (transit_woken e _ _ s w)
  · exact w

/-- While a demotion's frame moves, no page is sent. -/
theorem promote_moving {s : State} {e : Nat} (moving : (s.shelfAt e).move.isSome = true) : promote s e = s := by
  unfold promote
  exact if_neg (fun ⟨_, still⟩ => by simp [← Option.not_isSome, moving] at still)

section
variable {s : State} {p : PartId} {token value : W64} {e : Nat} (he : e = wbits token 0 16)
include he

/-- A wake of the entry that its token names (R331): a demotion that is moving completes first. -/
theorem wakeToken_names (parked : (s.shelfAt e).state = .parked) (gen : (s.shelfAt e).gen.toNat = wbits token 16 16)
    (part : (s.shelfAt e).part = p) : ((wakeToken s p token value).shelfAt e).state ≠ .parked ∧
    ((wakeToken s p token value).shelfAt e).words[4] = value ∧
    ((s.shelfAt e).move.isSome = true → ((wakeToken s p token value).shelfAt e).state = .waking) := by
  subst he
  have promoted : wakeToken s p token value =
      promote (s.setShelf (wbits token 0 16) (wokenEntry (s.shelfAt (wbits token 0 16)) value)) (wbits token 0 16) :=
    if_pos ⟨parked, gen, part⟩
  have woken : Woken value ((wakeToken s p token value).shelfAt (wbits token 0 16)) := by
    rw [promoted]
    exact promote_woken (by rw [State.shelfAt_setShelf_same]; exact wokenEntry_woken ..)
  refine ⟨woken.1, woken.2, fun moving => ?_⟩
  rw [promoted, promote_moving, State.shelfAt_setShelf_same]
  · rfl
  · rw [State.shelfAt_setShelf_same]
    exact moving

theorem wakeToken_other (h : (s.shelfAt e).state ≠ .parked ∨ (s.shelfAt e).gen.toNat ≠ wbits token 16 16 ∨ (s.shelfAt e).part ≠ p) :
    wakeToken s p token value = s.setPart p { s.part p with staleWake := (s.part p).staleWake + 1 } := by
  subst he
  exact if_neg (fun ⟨parked, gen, part⟩ => h.elim (fun h => h parked) (fun h => h.elim (fun h => h gen) (fun h => h part)))

end

/-! Appending pages (R360, R361). -/

section
variable {f : RRR} {s : State} (h : Executes s f.g [.s f.d, .s f.a, .s f.b]) (aligned : (s.src.getS f.a).toNat % 16 = 0)
include h aligned

theorem exec_kvapp_none (zero : s.src.getS f.b = 0) : exec (.kvapp f) s = .next (startOp s (opS f.d) (.kvapp (s.src.getS f.a) 0)) := by
  rw [exec_kvapp, execKvapp, slot_sourced (ds := [.s f.d]) (rs := [(.s f.a, f.ta), (.s f.b, f.tb)]) _ h]
  simp only [alignTo_aligned aligned, need_ok, zero]
  rfl

theorem exec_kvapp_many (many : 4096 < (s.src.getS f.b).toNat) :
    exec (.kvapp f) s = .next (raise s .bounds (BitVec.ofNat 64 (8 * 2 ^ 56 + (s.src.getS f.a).toNat % 2 ^ 56)) false) := by
  rw [exec_kvapp, execKvapp, slot_sourced (ds := [.s f.d]) (rs := [(.s f.a, f.ta), (.s f.b, f.tb)]) _ h]
  simp only [alignTo_aligned aligned, need_ok, if_pos many]
  rfl

variable {p : Place} (some' : s.src.getS f.b ≠ 0) (few : (s.src.getS f.b).toNat ≤ 4096)
  (ready : BlockReady (handedOver s) (s.src.getS f.a) (16 * (s.src.getS f.b).toNat) p)
include some' few ready

theorem exec_kvapp_formed {u : State} {bs : List Byte}
    (hu : u = blockTaken (handedOver s) (s.src.getS f.a) (16 * (s.src.getS f.b).toNat) p)
    (hb : bs = deviceRead (handedOver s) s.issue.core (s.src.getS f.a) (16 * (s.src.getS f.b).toNat))
    (formed : firstBadKv bs (s.src.getS f.b).toNat = none)
    (free : kvBar u s.issue.core (s.src.getS f.a) bs (s.src.getS f.b).toNat = none) :
    exec (.kvapp f) s = .next (startOp u (opS f.d) (.kvapp (s.src.getS f.a) (s.src.getS f.b))) := by
  have core : u.issue.core = s.issue.core := by rw [hu, blockTaken_issue, handedOver_issue]
  rw [exec_kvapp, execKvapp, slot_sourced (ds := [.s f.d]) (rs := [(.s f.a, f.ta), (.s f.b, f.tb)]) _ h]
  simp only [alignTo_aligned aligned, need_ok, if_neg (Nat.not_lt.2 few), if_neg some']
  rw [show releasePkg (drainMe s) = handedOver s from rfl, blockAt_ready _ ready, ← hu, handedOver_issue]
  simp only [← hb, formed, core, free, finish_ok]

theorem exec_kvapp_malformed {bs : List Byte} {i : Nat}
    (hb : bs = deviceRead (handedOver s) s.issue.core (s.src.getS f.a) (16 * (s.src.getS f.b).toNat))
    (bad : firstBadKv bs (s.src.getS f.b).toNat = some i) : exec (.kvapp f) s = .next (raise s .bounds
      (BitVec.ofNat 64 (8 * 2 ^ 56 + (s.src.getS f.a + BitVec.ofNat 64 (16 * i)).toNat % 2 ^ 56)) false) := by
  rw [exec_kvapp, execKvapp, slot_sourced (ds := [.s f.d]) (rs := [(.s f.a, f.ta), (.s f.b, f.tb)]) _ h]
  simp only [alignTo_aligned aligned, need_ok, if_neg (Nat.not_lt.2 few), if_neg some']
  rw [show releasePkg (drainMe s) = handedOver s from rfl, blockAt_ready _ ready, handedOver_issue]
  simp only [← hb, bad]
  rfl

end

theorem firstBadKv_none {bs : List Byte} {n : Nat} (h : ∀ i, i < n → badKv (wordAt bs (2 * i)) (wordAt bs (2 * i + 1)) = false) :
    firstBadKv bs n = none :=
  List.find?_eq_none.2 (fun i hi => ne_true_of_eq_false (h i (List.mem_range.1 hi)))

theorem firstBadKv_first {bs : List Byte} {n i : Nat} (hi : i < n) (bad : badKv (wordAt bs (2 * i)) (wordAt bs (2 * i + 1)) = true)
    (before : ∀ j, j < i → badKv (wordAt bs (2 * j)) (wordAt bs (2 * j + 1)) = false) : firstBadKv bs n = some i := by
  refine List.find?_range_eq_some.2 ⟨bad, List.mem_range.2 hi, fun j hj => ?_⟩
  rw [before j hj]
  rfl

/-- Settles O28: park, wake and kvapp by their checks in order; a wake that its token names goes through every page's promotion
(`promote_woken`). -/
theorem parkingAndPages : Obligations.ParkingAndPages := by
  refine ⟨fun f s h => ⟨exec_park_misaligned h, fun p aligned ready => ?_⟩, fun f s h => ?_,
    fun s p token value e he => ⟨wakeToken_names he, wakeToken_other he⟩,
    fun f s h aligned => ⟨exec_kvapp_none h aligned, exec_kvapp_many h aligned, fun p bs u some' few ready hu hb => ⟨fun formed => ?_,
      fun i hi bad before => ?_⟩⟩⟩
  · rw [exec_park_ready h aligned ready]
    refine ⟨fun bad => ?_, fun valid room => ⟨fun live => ?_, fun triggered => ?_⟩⟩
    · rw [if_pos (by rcases bad with bad | full <;> simp [*])]
      rfl
    all_goals rw [if_neg (by simp [valid, ← Option.not_isSome, room])]
    · rw [live]; rfl
    · rw [triggered]; rfl
  · rw [exec_wake_sourced h]
    refine ⟨fun wide => ?_, fun fits own => ?_, fun fits other => ?_⟩
    · rw [if_pos wide]; rfl
    · rw [if_neg (not_not.2 fits), if_neg (not_not.2 own)]; rfl
    · rw [if_neg (not_not.2 fits), if_pos other]; rfl
  · exact exec_kvapp_formed h aligned some' few ready hu hb (firstBadKv_none formed)
  · exact exec_kvapp_malformed h aligned some' few ready hb (firstBadKv_first hi bad before)

end Sys2Proof.Machine

namespace Sys2Proof.Machine

/-! Batches of a gatherer (R335, R336). -/

theorem Batch.expired_open {b : Batch} {cycle : Nat} (h : b.expired cycle = true) : b.open? = true := by
  simp only [Batch.expired, Bool.and_eq_true] at h
  exact h.1.1

/-- No batch is open. -/
def NoneOpen (l : List Batch) : Prop := ∀ b ∈ l, b.open? = false

theorem noneOpen_iff {l : List Batch} : l.find? Batch.open? = none ↔ NoneOpen l := by
  simp [NoneOpen, List.find?_eq_none]

theorem Gatherer.settle_part (x : Gatherer) (cycle : Nat) : (x.settle cycle).part = x.part := by
  unfold Gatherer.settle; split <;> rfl

theorem Gatherer.settle_config (x : Gatherer) (cycle : Nat) : (x.settle cycle).config = x.config := by
  unfold Gatherer.settle; split <;> rfl

theorem Gatherer.settle_batches (x : Gatherer) (cycle : Nat) : (x.settle cycle).batches.isEmpty = x.batches.isEmpty := by
  unfold Gatherer.settle
  split
  · simp [Gatherer.close]
  · rfl

theorem Gatherer.settle_early {x : Gatherer} {cycle : Nat} (h : ∀ q ∈ x.batches, q.expired (cycle - 1) = false) : x.settle cycle = x :=
  if_neg (by simpa using h)

/-- A deadline closes an open batch only. -/
theorem Gatherer.settle_noneOpen {x : Gatherer} (h : NoneOpen x.batches) (cycle : Nat) : x.settle cycle = x :=
  settle_early (fun q hq => Bool.eq_false_iff.2 (fun late => Bool.false_ne_true ((h q hq).symm.trans (Batch.expired_open late))))

theorem Gatherer.close_noneOpen (x : Gatherer) (reason : BitVec 2) : NoneOpen (x.close reason).batches := by
  intro b hb
  obtain ⟨q, -, rfl⟩ := List.mem_map.1 hb
  split
  · rfl
  · next shut => exact Bool.eq_false_iff.2 shut

/-- A batch that its flush writes. -/
def Batch.full (b : Batch) : Prop := b.reason.isSome = true ∧ b.tile.isSome = true

/-- A gatherer y after the full batches of a list left gatherer x. -/
structure Flushed (l : List Batch) (x y : Gatherer) : Prop where
  config : y.config = x.config
  part : y.part = x.part
  fewer : ∀ b ∈ y.batches, b ∈ x.batches
  stays : ∀ b ∈ x.batches, (∀ q ∈ l, q.full → q.num ≠ b.num) → b ∈ y.batches

theorem Flushed.refl (x : Gatherer) : Flushed [] x x := ⟨rfl, rfl, fun _ => id, fun _ hb _ => hb⟩

theorem Flushed.cons {b : Batch} {l : List Batch} {x y z : Gatherer} (h : Flushed [b] x y) (k : Flushed l y z) : Flushed (b :: l) x z :=
  ⟨k.config.trans h.config, k.part.trans h.part, fun q hq => h.fewer q (k.fewer q hq), fun q hq apart =>
    k.stays q (h.stays q hq (fun r hr => apart r (by simp [List.mem_singleton.1 hr]))) (fun r hr => apart r (List.mem_cons_of_mem b hr))⟩

/-- The state with the bytes of a full batch written, published and pushed. -/
def batchSent (s : State) (b : Batch) (h : W64) : State :=
  let t := s.writeAt (keyScratch (handleCore h) (tileOffset s h)) (batchRecord b h ++ b.words.flatMap (fun w => leBytes 8 w.toNat))
  devicePush (serveReads (publishTile t h) h) (gCore b.config)
    (queueEntry (nameOf (gCore b.config) (tileAddr s h)) false 4 (gCore b.config) false)

theorem batchSent_engines (s : State) (b : Batch) (h : W64) : (batchSent s b h).engines = s.engines := by
  rw [batchSent, devicePush_engines, serveReads_engines, publishTile_engines, writeAt_engines]

/-- The gatherer with a written batch taken out. -/
def Gatherer.without (x : Gatherer) (b : Batch) : Gatherer :=
  let rest := x.batches.filter (fun q => q.num != b.num)
  { x with batches := rest, counter := match (rest.map (fun q => q.num)).min? with
    | some n => n - 1
    | none => x.opened }

theorem writeBatch_eq (s : State) (g : GathererId) (b : Batch) (h : W64) :
    writeBatch s g b h = (batchSent s b h).setGatherer g (((batchSent s b h).gatherer g).without b) := by
  unfold writeBatch
  simp only
  generalize sent : devicePush _ _ _ = t
  rw [show batchSent s b h = t from sent]
  rfl

theorem Gatherer.without_flushed (x : Gatherer) {b : Batch} (full : b.full) : Flushed [b] x (x.without b) := by
  refine ⟨rfl, rfl, fun q hq => (List.mem_filter.1 hq).1, fun q hq apart => List.mem_filter.2 ⟨hq, ?_⟩⟩
  simpa using (apart b (List.mem_singleton.2 rfl) full).symm

/-- One step of a flush. -/
def flushBatch (g : GathererId) (s : State) (b : Batch) : State :=
  match b.reason, b.tile with
  | some _, some h => writeBatch s g b h
  | _, _ => s

theorem flushBatches_eq (s : State) (g : GathererId) : flushBatches s g = (s.gatherer g).batches.foldl (flushBatch g) s := rfl

theorem flushBatch_flushed (g : GathererId) (s : State) (b : Batch) : Flushed [b] (s.gatherer g) ((flushBatch g s b).gatherer g) := by
  unfold flushBatch
  split
  · next reason tile =>
    rw [writeBatch_eq, State.gatherer_setGatherer_same, engines_gatherer (batchSent_engines ..)]
    exact Gatherer.without_flushed _ ⟨by rw [reason]; rfl, by rw [tile]; rfl⟩
  · exact ⟨rfl, rfl, fun _ => id, fun _ hb _ => hb⟩

theorem foldl_flushed (g : GathererId) : ∀ (l : List Batch) (s : State), Flushed l (s.gatherer g) ((l.foldl (flushBatch g) s).gatherer g)
  | [], _ => Flushed.refl _
  | b :: l, s => (flushBatch_flushed g s b).cons (foldl_flushed g l _)

/-- A flush writes full batches of its gatherer, and no other batch leaves it. -/
theorem flushBatches_flushed (s : State) (g : GathererId) (x : Gatherer) :
    Flushed x.batches x ((flushBatches (s.setGatherer g x) g).gatherer g) := by
  rw [flushBatches_eq]
  have h := foldl_flushed g ((s.setGatherer g x).gatherer g).batches (s.setGatherer g x)
  rwa [State.gatherer_setGatherer_same] at h ⊢

theorem Flushed.noneOpen {l : List Batch} {x y : Gatherer} (h : Flushed l x y) (shut : NoneOpen x.batches) :
    y.batches.find? Batch.open? = none :=
  noneOpen_iff.2 (fun b hb => shut b (h.fewer b hb))

/-! Configuring a gatherer (R334, R356). -/

/-- A movement of bytes makes no configuration valid or invalid. -/
theorem gValid_moves {s t : State} (h : Moves s t) (p : PartId) (w : File 3 W64) : gValid t p w = gValid s p w := by
  have pools : (t.core (gCore w)).pools = (s.core (gCore w)).pools := (congrArg Core.pools (h.cores (gCore w)) :)
  simp only [gValid, h.places.partOf, State.pool, pools]

/-- A gatherer as a configuration leaves it, its open batch closed with reason 2. -/
def Gatherer.reset (x : Gatherer) (p : PartId) (config : Option (File 3 W64)) (team : Nat) : Gatherer :=
  { x.close 2 with config := config, part := p, team := team }

section
variable {f : RRR} {s : State} {g : GathererId} (h : Executes s f.g [.s f.a, .s f.b]) (aligned : (s.src.getS f.b).toNat % 64 = 0)
  (hg : g = gathererOf s.issue.core (s.src.getS f.a))
include h aligned hg

theorem exec_gcfg_sourced {x : Gatherer} (hx : x = (s.gatherer g).settle s.cycle) : exec (.gcfg f) s = finish s
    (if x.part ≠ s.partIdOf s.issue.core ∧ (x.config.isSome ∨ !x.batches.isEmpty) then asyncBounds 4 (s.src.getS f.a)
      else blockAt (handedOver s) (s.src.getS f.b) 64 (fun t bs =>
        if gTarget (words8 bs) = 0 then .ok (flushBatches (t.setGatherer g (x.reset (s.partIdOf s.issue.core) none x.team)) g)
        else if !gValid t (s.partIdOf s.issue.core) (words8 bs) then asyncBounds 4 (s.src.getS f.a)
        else .ok (flushBatches ({ t with nextId := t.nextId + 1 }.setGatherer g
          (x.reset (s.partIdOf s.issue.core) (some (words8 bs)) (if x.team = 0 then t.nextId else x.team))) g))) := by
  subst hg hx
  rw [exec_gcfg, execGcfg, slot_sourced (ds := []) (rs := [(.s f.a, f.ta), (.s f.b, f.tb)]) _ h]
  simp only [alignTo_aligned aligned, need_ok]
  rfl

theorem exec_gcfg_used (other : (s.gatherer g).part ≠ s.partIdOf s.issue.core)
    (used : (s.gatherer g).config.isSome = true ∨ (s.gatherer g).batches ≠ []) : exec (.gcfg f) s =
    .next (raise s .bounds (BitVec.ofNat 64 (4 * 2 ^ 56 + (s.src.getS f.a).toNat % 2 ^ 56)) false) := by
  rw [exec_gcfg_sourced h aligned hg rfl, Gatherer.settle_part, Gatherer.settle_config, Gatherer.settle_batches, if_pos ⟨other, by simpa using used⟩,
    finish_asyncBounds]

variable {p : Place} {w : File 3 W64}
  (free : (s.gatherer g).part = s.partIdOf s.issue.core ∨ (s.gatherer g).config = none ∧ (s.gatherer g).batches = [])
  (ready : BlockReady (handedOver s) (s.src.getS f.b) 64 p) (hw : w = words8 (deviceRead (handedOver s) s.issue.core (s.src.getS f.b) 64))
include free ready hw

theorem exec_gcfg_ready {t : State} {x : Gatherer} (ht : t = blockTaken (handedOver s) (s.src.getS f.b) 64 p)
    (hx : x = (s.gatherer g).settle s.cycle) : exec (.gcfg f) s = finish s
    (if gTarget w = 0 then .ok (flushBatches (t.setGatherer g (x.reset (s.partIdOf s.issue.core) none x.team)) g)
      else if !gValid (handedOver s) (s.partIdOf s.issue.core) w then asyncBounds 4 (s.src.getS f.a)
      else .ok (flushBatches ({ t with nextId := t.nextId + 1 }.setGatherer g
        (x.reset (s.partIdOf s.issue.core) (some w) (if x.team = 0 then t.nextId else x.team))) g)) := by
  have mine : ¬(x.part ≠ s.partIdOf s.issue.core ∧ (x.config.isSome ∨ !x.batches.isEmpty)) := by
    rw [hx, Gatherer.settle_part, Gatherer.settle_config, Gatherer.settle_batches]
    rcases free with own | ⟨none, empty⟩
    · simp [own]
    · simp [none, empty]
  rw [exec_gcfg_sourced h aligned hg hx, if_neg mine, blockAt_ready _ ready, handedOver_issue, ← hw, ← ht,
    gValid_moves (ht ▸ Moves.blockTaken ..)]

end

/-! Submitting a request word (R335, R357). -/

/-- A gatherer whose batch b a word joins. -/
def Gatherer.joined (x : Gatherer) (b : Batch) (w : W64) : Gatherer :=
  { x with batches := x.batches.map (fun q => if q.num = b.num then q.append w else q) }

section
variable {f : RRR} {s : State} {g : GathererId} (h : Executes s f.g [.s f.d, .s f.a, .s f.b])
  (hg : g = gathererOf s.issue.core (s.src.getS f.a))
include h hg

theorem exec_gsub_unconfigured (none : (s.gatherer g).config = none) : exec (.gsub f) s =
    .next (raise s .bounds (BitVec.ofNat 64 (4 * 2 ^ 56 + (s.src.getS f.a).toNat % 2 ^ 56)) false) := by
  subst hg
  rw [exec_gsub, execGsub, slot_sourced (ds := [.s f.d]) (rs := [(.s f.a, f.ta), (.s f.b, f.tb)]) _ h]
  simp only [Gatherer.settle_config, none, finish_asyncBounds]

theorem exec_gsub_other (other : (s.gatherer g).part ≠ s.partIdOf s.issue.core) : exec (.gsub f) s =
    .next (raise s .bounds (BitVec.ofNat 64 (4 * 2 ^ 56 + (s.src.getS f.a).toNat % 2 ^ 56)) false) := by
  cases configured : (s.gatherer g).config with
  | none => exact exec_gsub_unconfigured h hg configured
  | some cfg =>
    subst hg
    rw [exec_gsub, execGsub, slot_sourced (ds := [.s f.d]) (rs := [(.s f.a, f.ta), (.s f.b, f.tb)]) _ h]
    simp only [Gatherer.settle_config, Gatherer.settle_part, configured, if_pos other, finish_asyncBounds]

variable {cfg : File 3 W64} (configured : (s.gatherer g).config = some cfg) (own : (s.gatherer g).part = s.partIdOf s.issue.core)
include configured own

theorem exec_gsub_joins {b : Batch} (joins : (s.gatherer g).batches.find? Batch.open? = some b)
    (early : ∀ q ∈ (s.gatherer g).batches, q.expired (s.cycle - 1) = false) : exec (.gsub f) s =
    .next (resultS (flushBatches ((handedOver s).setGatherer g ((s.gatherer g).joined b (s.src.getS f.b))) g) f.d
       (receipt b.words.length b.num) 2) := by
  subst hg
  rw [exec_gsub, execGsub, slot_sourced (ds := [.s f.d]) (rs := [(.s f.a, f.ta), (.s f.b, f.tb)]) _ h]
  simp only [Gatherer.settle_early early, configured, own, joins, ne_eq, not_true_eq_false, if_false, finish_ok, Gatherer.joined]
  rfl

variable (shut : (s.gatherer g).batches.find? Batch.open? = none)
include shut

theorem exec_gsub_full (two : 2 ≤ (s.gatherer g).batches.length) : Holds s (exec (.gsub f) s) := by
  subst hg
  rw [exec_gsub, execGsub, slot_sourced (ds := [.s f.d]) (rs := [(.s f.a, f.ta), (.s f.b, f.tb)]) _ h]
  simp only [Gatherer.settle_noneOpen (noneOpen_iff.1 shut), configured, own, shut, ne_eq, not_true_eq_false, if_false, if_pos two]
  rfl

theorem exec_gsub_opens (few : (s.gatherer g).batches.length < 2) (valid : (s.pool (gCore cfg) (gPool cfg)).valid = true) :
    exec (.gsub f) s = .next (resultS (openBatch ((handedOver s).setGatherer g (s.gatherer g)) g cfg (s.src.getS f.b)) f.d
      (receipt 0 ((s.gatherer g).opened + 1)) 2) := by
  subst hg
  rw [exec_gsub, execGsub, slot_sourced (ds := [.s f.d]) (rs := [(.s f.a, f.ta), (.s f.b, f.tb)]) _ h]
  simp only [Gatherer.settle_noneOpen (noneOpen_iff.1 shut), configured, own, shut, ne_eq, not_true_eq_false, if_false,
    if_neg (Nat.not_le.2 few), valid, Bool.not_true, Bool.false_eq_true]
  rfl

end

/-- The open batch with a word that does not fill it. -/
theorem Batch.append_open {b : Batch} (w : W64) (opened : b.open? = true) (room : b.words.length + 1 < gTarget b.config) :
    b.append w = { b with words := b.words ++ [w] } := by
  obtain ⟨num, first, words, tile, reason, config⟩ := b
  have none : reason = none := Option.isNone_iff_eq_none.1 opened
  rw [Batch.append, none, if_neg (Nat.not_le.2 room)]

/-- The word that joins an open batch stands in it after the flush: no batch that the flush writes has its number. -/
theorem flushed_joined {x y : Gatherer} {b : Batch} {w : W64} (joins : x.batches.find? Batch.open? = some b)
    (room : b.words.length + 1 < gTarget b.config) (nums : (x.batches.map (fun q => q.num)).Nodup)
    (hy : Flushed (x.joined b w).batches (x.joined b w) y) :
    { b with words := b.words ++ [w] } ∈ y.batches := by
  have opened : b.open? = true := List.find?_some joins
  have mem : b ∈ x.batches := List.mem_of_find?_eq_some joins
  have joined := Batch.append_open w opened room
  refine hy.stays _ ?_ (fun q hq full same => ?_)
  · rw [← joined]
    exact List.mem_map.2 ⟨b, mem, if_pos rfl⟩
  · obtain ⟨r, hr, rfl⟩ := List.mem_map.1 hq
    split at same
    · next num =>
      have only : r = b := List.inj_on_of_nodup_map nums hr mem num
      rw [if_pos num, only, joined] at full
      rw [Batch.open?, Option.isNone_iff_eq_none] at opened
      simp [Batch.full, opened] at full
    · next num => exact num same

/-- Settles O27: a configuration and a word by their checks; what a flush leaves of the batches is `flushBatches_flushed`. -/
theorem gatherers : Obligations.Gatherers := by
  refine ⟨fun f s p g w h aligned hg hw => ⟨exec_gcfg_used h aligned hg, fun free ready => ?_⟩, fun f s g h hg => ⟨fun bad => ?_,
    fun cfg configured own => ⟨fun b joins early => ?_, exec_gsub_full h hg configured own, fun shut few valid => ?_⟩⟩⟩
  · have run := exec_gcfg_ready h aligned hg free ready hw rfl rfl
    refine ⟨fun zero => ⟨_, by rw [run, if_pos zero, finish_ok], ?_⟩, fun some' valid => ⟨_, by
      rw [run, if_neg some', valid, if_neg (by decide), finish_ok], ?_⟩, fun some' invalid => ?_⟩
    · have flush := flushBatches_flushed (blockTaken (handedOver s) (s.src.getS f.b) 64 p) g
        (((s.gatherer g).settle s.cycle).reset (s.partIdOf s.issue.core) none ((s.gatherer g).settle s.cycle).team)
      exact ⟨flush.config, flush.noneOpen (Gatherer.close_noneOpen _ 2)⟩
    · rw [(flushBatches_flushed ..).config, (flushBatches_flushed ..).part]
      exact ⟨rfl, rfl, (flushBatches_flushed ..).noneOpen (Gatherer.close_noneOpen _ 2)⟩
    · rw [run, if_neg some', invalid, if_pos (by decide), finish_asyncBounds]
  · exact bad.elim (exec_gsub_unconfigured h hg) (exec_gsub_other h hg)
  · refine ⟨_, exec_gsub_joins h hg configured own joins early, fun room nums => ?_⟩
    exact flushed_joined joins room nums (flushBatches_flushed ..)
  · refine ⟨_, (exec_gsub_opens h hg configured own shut few valid).trans (by rw [receipt, Nat.zero_mod, Nat.zero_add]), ?_⟩
    rw [openBatch, engines_gatherer (askTile_engines ..), State.gatherer_setGatherer_same, State.gatherer_setGatherer_same]
    exact ⟨_, List.mem_append_right _ (List.mem_singleton.2 rfl), rfl, rfl, rfl⟩

end Sys2Proof.Machine

namespace Sys2Proof.Machine

/-! Itineraries and the planner (R324, R328, R351 to R353). -/

theorem handedOver_now (s : State) : (handedOver s).now = s.now := by
  have cycle : (handedOver s).cycle = s.cycle := congrArg (·.2.2.1) (handedOver_moves s).outer
  rw [State.now, State.now, cycle]

theorem blockTaken_now (s : State) (va : W64) (n : Nat) (p : Place) : (blockTaken s va n p).now = s.now := by
  have cycle : (blockTaken s va n p).cycle = s.cycle := congrArg (·.2.1) (blockTaken_steady s va n p)
  rw [State.now, State.now, cycle]

section
variable {f : RR} {s : State} {p : Place} {i : ItinId} {w : File 3 W64} (h : Executes s f.g [.s f.a, .s f.d])
  (aligned : (s.src.getS f.a).toNat % 64 = 0) (hi : i = itinOf s.issue.core (wbits (s.src.getS f.d) 0 4))
  (owned : itOwned s s.issue.core (wbits (s.src.getS f.d) 0 4) = true) (ready : BlockReady (handedOver s) (s.src.getS f.a) 64 p)
  (hw : w = words8 (deviceRead (handedOver s) s.issue.core (s.src.getS f.a) 64))
include h aligned hi owned ready hw

theorem exec_itstart_owned {t : State} {x : Itin} (ht : t = blockTaken (handedOver s) (s.src.getS f.a) 64 p)
    (hx : x = (handedOver s).itin i) : exec (.itstart f) s = finish s
    (if !itValid w || x.state = .running || x.state = .draining then asyncBounds 5 (s.src.getS f.a)
      else
        let y : Itin := { x with
          state := .running, cause := 0, lateness := 0, maxLate := none, desc := w, part := t.partIdOf s.issue.core, core := s.issue.core,
          t0 := t.now, base := x.issued, started := 0, pace := 0,
          team := if x.team = 0 ∨ x.part ≠ t.partIdOf s.issue.core then t.nextId else x.team }
        .ok ({ t with nextId := t.nextId + 1 }.setItin i { y with issued := x.issued + itPasses y * itSlips y })) := by
  have kept : t.itin i = x := ht ▸ hx ▸ engines_itin (blockTaken_engines ..) i
  rw [exec_itstart, execItstart, slot_sourced (ds := []) (rs := [(.s f.a, f.ta), (.s f.d, false)]) _ h]
  simp only [alignTo_aligned aligned, within, owned, if_true, need_ok]
  rw [show releasePkg (drainMe s) = handedOver s from rfl, blockAt_ready _ ready, ← ht, handedOver_issue]
  simp only [← hw, ← hi, kept]

theorem exec_itstart_runs (valid : itValid w = true) (still : ((handedOver s).itin i).state ≠ .running)
    (done : ((handedOver s).itin i).state ≠ .draining) :
    ∃ t, exec (.itstart f) s = .next t ∧ (t.itin i).state = .running ∧ (t.itin i).desc = w ∧ (t.itin i).started = 0 ∧
      (t.itin i).cause = 0 ∧ (t.itin i).lateness = 0 ∧ (t.itin i).t0 = s.now ∧
      (t.itin i).issued = ((handedOver s).itin i).issued + itPasses (t.itin i) * itSlips (t.itin i) := by
  rw [exec_itstart_owned h aligned hi owned ready hw rfl rfl, if_neg (by simp [valid, still, done])]
  refine ⟨_, rfl, ?_⟩
  rw [State.itin_setItin_same]
  exact ⟨rfl, rfl, rfl, rfl, rfl, (blockTaken_now ..).trans (handedOver_now s), rfl⟩

theorem exec_itstart_barred
    (bad : itValid w = false ∨ ((handedOver s).itin i).state = .running ∨ ((handedOver s).itin i).state = .draining) :
    exec (.itstart f) s = .next (raise s .bounds (BitVec.ofNat 64 (5 * 2 ^ 56 + (s.src.getS f.a).toNat % 2 ^ 56)) false) := by
  rw [exec_itstart_owned h aligned hi owned ready hw rfl rfl, if_pos, finish_asyncBounds]
  rcases bad with bad | bad | bad <;> simp [bad]

end

theorem exec_itstat_sourced {f : RR} {s : State} (h : Executes s f.g [.s f.d, .s f.a]) : exec (.itstat f) s = finish s
    (need (within (itOwned s s.issue.core (wbits (s.src.getS f.a) 0 4)) 4 (s.src.getS f.a))
      (.ok (resultS s f.d (itWord (s.itin (itinOf s.issue.core (wbits (s.src.getS f.a) 0 4)))) 2))) :=
  slot_sourced (ds := [.s f.d]) (rs := [(.s f.a, f.ta)]) _ h

theorem exec_plan_sourced {f : RRR} {s : State} (h : Executes s f.g [.s f.d, .s f.a]) : exec (.plan f) s = finish s
    (need (alignTo 8 (s.src.getS f.a)) (.ok (startOp (handedOver s) (opS f.d) (.plan (s.src.getS f.a))))) :=
  slot_sourced (ds := [.s f.d]) (rs := [(.s f.a, f.ta)]) _ h

/-! Template bundles (R41, R42, R339, R354). -/

theorem map_range_eq {α : Type} {get : Nat → α} {ws : List α} (h : ∀ i, i < ws.length → ws[i]? = some (get i)) :
    (List.range ws.length).map get = ws := by
  refine List.ext_getElem (by simp) (fun i hi hj => ?_)
  have := h i hj
  rw [List.getElem?_eq_getElem hj, Option.some.injEq] at this
  simp [this]

/-- The first element of a list that satisfies p, where one of its first n elements does. -/
theorem findIdx?_of_take {α : Type} {p : α → Bool} {l : List α} {n k : Nat} (h : (l.take n).findIdx? p = some k) :
    l.findIdx? p = some k := by
  rw [← List.take_append_drop n l, List.findIdx?_append, h]
  rfl

/-- The bundles that stand at an address are what the reading of the template finds. -/
theorem readTemplates_at {s : State} : ∀ (ts : List (List W32)) (va : W64), BundlesAt s ts va →
    readTemplates s s.issue.core (readBlock s) ts.length va = .ok ts
  | [], _, _ => rfl
  | ws :: ts, va, h => by
    obtain ⟨⟨k, len, stop⟩, short, words, ⟨p, ready⟩, rest⟩ := h
    let get := fun (i : Nat) => leWord 32 (deviceRead s s.issue.core (va + BitVec.ofNat 64 (4 * i)) 4)
    have slots : ((List.range 8).map get).take (k + 1) = ws.take (k + 1) := by
      rw [← map_range_eq (get := get) words, ← List.map_take, ← List.map_take, List.take_range, List.take_range]
      congr 2
      omega
    have first : ((List.range 8).map get).findIdx? stopBit = some k := findIdx?_of_take (by rw [slots, stop])
    have whole : min 8 (k + 1 + ((ws.take (k + 1)).filter litBit).length) = ws.length := by omega
    rw [List.length_cons, readTemplates]
    simp only [get] at first slots
    simp only [first, slots, whole, readBlock_ready ready, readTemplates_at ts _ rest, map_range_eq words]

/-- No context but the own one, running or saved, replays a position of the range: the test of the model. -/
theorem othersReplaying_false {s : State} {first n : Nat} (others : ∀ x, x ≠ s.issue.ctx → replaying (s.ctx s.issue.core x) first n = false)
    (saved : ∀ v ∈ (s.core s.issue.core).saved, replaying v.ctx first n = false) :
    ((s.core s.issue.core).ctx.toList.zipIdx.any (fun k => k.2 != s.issue.ctx.val && replaying k.1 first n)
      || (s.core s.issue.core).saved.any (fun v => replaying v.ctx first n)) = false := by
  rw [Bool.or_eq_false_iff, List.any_eq_false, List.any_eq_false]
  refine ⟨fun ⟨k, i⟩ hk => ?_, fun v hv => ne_true_of_eq_false (saved v hv)⟩
  obtain ⟨hi, at'⟩ := List.getElem?_eq_some_iff.1 (List.mem_zipIdx_iff_getElem?.1 hk)
  simp only at hi at'
  subst at'
  rw [Bool.and_eq_true, not_and]
  intro apart
  exact ne_true_of_eq_false (others ⟨i, by simpa using hi⟩ (fun same => by simp [← same] at apart))

section
variable {f : RRI} {s u : State} {p : Place} (h : Executes s f.g [.s f.a]) (aligned : (s.src.getS f.a).toNat % 16 = 0)
include h aligned

section
variable {w0 w1 : W64} (ready : BlockReady s (s.src.getS f.a) 16 p) (hu : u = blockTaken s (s.src.getS f.a) 16 p)
  (h0 : w0 = wordAt (deviceRead s s.issue.core (s.src.getS f.a) 16) 0)
  (h1 : w1 = wordAt (deviceRead s s.issue.core (s.src.getS f.a) 16) 1)
include ready hu h0 h1

theorem exec_lnscfgTemplate_ready : exec (.lnscfgTemplate f) s = finish s
    (if 256 < wbits w0 0 8 + (wbits w0 8 8 + 1) then asyncBounds 6 (s.src.getS f.a)
      else if (s.core s.issue.core).ctx.toList.zipIdx.any (fun k => k.2 != s.issue.ctx.val && replaying k.1 (wbits w0 0 8) (wbits w0 8 8 + 1))
          || (s.core s.issue.core).saved.any (fun v => replaying v.ctx (wbits w0 0 8) (wbits w0 8 8 + 1)) then .error .hold
      else (readTemplates u s.issue.core (readBlock u) (wbits w0 8 8 + 1) w1).map
        (fun ts => u.setCore s.issue.core (withTemplates (u.core s.issue.core) (wbits w0 0 8) ts))) := by
  have cores : u.core s.issue.core = s.core s.issue.core := hu ▸ blockTaken_core ..
  have issue : u.issue = s.issue := hu ▸ blockTaken_issue ..
  rw [exec_lnscfgTemplate, execLnscfgTemplate, slot_sourced (ds := []) (rs := [(.s f.a, false)]) _ h]
  simp only [alignTo_aligned aligned, need_ok]
  rw [blockAt_ready _ ready, ← hu]
  simp only [← h0, ← h1, cores, issue]
  cases readTemplates u s.issue.core (readBlock u) (wbits w0 8 8 + 1) w1 <;> rfl

theorem exec_lnscfgTemplate_loads {ts : List (List W32)} (fits : wbits w0 0 8 + (wbits w0 8 8 + 1) ≤ 256)
    (others : ∀ x, x ≠ s.issue.ctx → replaying (s.ctx s.issue.core x) (wbits w0 0 8) (wbits w0 8 8 + 1) = false)
    (saved : ∀ v ∈ (s.core s.issue.core).saved, replaying v.ctx (wbits w0 0 8) (wbits w0 8 8 + 1) = false)
    (len : ts.length = wbits w0 8 8 + 1) (bundles : BundlesAt u ts w1) : exec (.lnscfgTemplate f) s =
    .next (u.setCore s.issue.core (withTemplates (u.core s.issue.core) (wbits w0 0 8) ts)) := by
  have issue : u.issue = s.issue := hu ▸ blockTaken_issue ..
  have read := readTemplates_at ts w1 bundles
  rw [issue, len] at read
  rw [exec_lnscfgTemplate_ready h aligned ready hu h0 h1, if_neg (Nat.not_lt.2 fits), othersReplaying_false others saved, read]
  rfl

end

theorem exec_lnscfgDescriptor_ready {d : List W64} (ready : BlockReady s (s.src.getS f.a) 304 p)
    (hu : u = blockTaken s (s.src.getS f.a) 304 p)
    (hd : d = (List.range 38).map (wordAt (deviceRead s s.issue.core (s.src.getS f.a) 304))) : exec (.lnscfgDescriptor f) s = finish s
    (if badDescriptor d then asyncBounds 6 (s.src.getS f.a) else .ok (u.setMe { u.me with seqDesc := some d })) := by
  rw [exec_lnscfgDescriptor, execLnscfgDescriptor, slot_sourced (ds := []) (rs := [(.s f.a, false)]) _ h]
  simp only [alignTo_aligned aligned, need_ok]
  rw [blockAt_ready _ ready, ← hu, ← hd]

end

/-! The start of a replay (R340, R355). -/

/-- A read that the host permits, or that does not go there, needs no translation first. -/
theorem translated_read {s : State} {p : Place} (va : W64)
    (h : ∀ pid a, p = .host pid a → ∃ t, tlbFind s (dieOf s.issue.core) pid a = some t ∧ t.read = true) :
    translated s p va (fun t => t.read) = .ok () := by
  cases p with
  | host pid a =>
    obtain ⟨t, found, read⟩ := h pid a rfl
    simp [translated, found, read]
  | scratch c o => rfl
  | tier e pa => rfl

section
variable {s : State} {d : List W64} (trips : TripsReadable s d) (good : CodesGood s) (clean : s.poison = [])
include trips good clean

theorem tripRead_readable (l : Nat) : tripRead s d l = .ok s := by
  unfold tripRead
  split
  · rfl
  · next va at' =>
    obtain ⟨p, hp, host⟩ := trips l va at'
    simp only [placed_ok hp, translated_read va host, uncorrectable_good good clean, Bool.and_false, Bool.false_eq_true, if_false]

theorem seqTrip_readable (l : Nat) : ∃ n, seqTrip s s.issue.core s.issue.ctx d l = .ok n := by
  unfold seqTrip
  split
  · exact ⟨_, rfl⟩
  · next va at' =>
    obtain ⟨p, hp, -⟩ := trips l va at'
    simp only [hp, uncorrectable_good good clean, Bool.and_false, Bool.false_eq_true, if_false]
    exact ⟨_, rfl⟩

/-- Trip counts that can be read delay no replay. -/
theorem tripsRead_readable : ∀ l, tripsRead s d l = .ok s
  | 0 => rfl
  | l + 1 => by
    obtain ⟨n, trip⟩ := seqTrip_readable trips good clean l
    rw [tripsRead, tripRead_readable trips good clean l]
    simp only [trip, tripsRead_readable l, ite_self]

end

theorem popQueues_replay (r : Regs) (pops : BitVec 4) : (popQueues r pops).replay = r.replay :=
  List.foldlRecOn (motive := fun (k : Regs) => k.replay = r.replay) (List.range 4) _ rfl (fun k hk q _ => by split <;> exact hk)

/-- A replay at its first iteration: no counter has moved, and there is a trip count for each of the six levels. -/
structure Replay.Fresh (p : Replay) : Prop where
  pos : p.pos = 0
  counters : p.counters = List.replicate 6 0
  trips : p.trips.length = 6

theorem seqOrigin_fresh (d : List W64) (r : Regs) (resume : CodeAddr) : (seqOrigin d r resume).Fresh := ⟨rfl, rfl, rfl⟩

/-- The replay with level l entered, whose trip count is n. -/
def Replay.enter (p : Replay) (l : Nat) (n : W32) : Replay := { p with trips := p.trips.set l n, counters := p.counters.set l 0 }

theorem Replay.Fresh.enter {p : Replay} (h : p.Fresh) (l : Nat) (n : W32) : (p.enter l n).Fresh := by
  refine ⟨h.pos, ?_, (List.length_set ..).trans h.trips⟩
  rw [Replay.enter, h.counters]
  exact List.set_replicate_self

/-- Levels whose trip counts stand in the descriptor and are not zero are entered at position 0, with those trip counts. -/
theorem seqEnter_fresh (s : State) (c : CoreId) (x : CtxId) (d : List W64) : ∀ (l : Nat) (p : Replay), l ≤ 6 → p.Fresh →
    (∀ i, i < l → tripAddr d i = none ∧ wbits (descWord d (2 + 2 * i)) 0 32 ≠ 0) →
    ∃ q, seqEnter s c x d l p = .ok (some q) ∧ q.Fresh ∧ q.resume = p.resume ∧ (∀ i, l ≤ i → q.trips[i]? = p.trips[i]?) ∧
      ∀ i, i < l → q.trips[i]? = some (BitVec.ofNat 32 (wbits (descWord d (2 + 2 * i)) 0 32))
  | 0, p, _, fresh, _ => ⟨p, rfl, fresh, rfl, fun _ _ => rfl, fun _ h => absurd h (Nat.not_lt_zero _)⟩
  | l + 1, p, six, fresh, h => by
    obtain ⟨word, counts⟩ := h l (Nat.lt_succ_self l)
    have trip : seqTrip s c x d l = .ok (BitVec.ofNat 32 (wbits (descWord d (2 + 2 * l)) 0 32)) := by rw [seqTrip, word]
    have entered : BitVec.ofNat 32 (wbits (descWord d (2 + 2 * l)) 0 32) ≠ 0 := fun zero => counts (by
      have value := congrArg BitVec.toNat zero
      rwa [BitVec.toNat_ofNat, Nat.mod_eq_of_lt (show wbits (descWord d (2 + 2 * l)) 0 32 < 2 ^ 32 from Nat.mod_lt _ (by decide))] at value)
    obtain ⟨q, run, new, resume, above, below⟩ := seqEnter_fresh s c x d l
      (p.enter l (BitVec.ofNat 32 (wbits (descWord d (2 + 2 * l)) 0 32))) (Nat.le_of_succ_le six) (fresh.enter ..)
      (fun i hi => h i (Nat.lt_succ_of_lt hi))
    refine ⟨q, ?_, new, resume, fun i hi => (above i (Nat.le_of_succ_le hi)).trans (List.getElem?_set_ne (by omega)), fun i hi => ?_⟩
    · rw [seqEnter, trip]
      exact (if_neg entered).trans run
    · rcases Nat.lt_succ_iff_lt_or_eq.1 hi with low | rfl
      · exact below i low
      · exact (above i (Nat.le_refl i)).trans (List.getElem?_set_self (by rw [fresh.trips]; omega))

/-- A bundle that starts a replay: its registers are those of the replay's first iteration. -/
theorem advance_starts {s : State} {d : List W64} (on : s.issue.replay = true) (idle : s.me.r.replay = none) (hd : s.me.seqDesc = some d)
    {r : Regs} (hr : r = (advanceCode s (popQueues s.me.r s.issue.pops)).1) {q : Replay}
    (enters : seqEnter s s.issue.core s.issue.ctx d (seqLevels d) (seqOrigin d r r.pc) = .ok (some q)) :
    (advance s).1.replay = some q ∧ (advance s).2.2 = none := by
  have start : seqStart s s.issue.core s.issue.ctx r = ({ r with replay := some q, st := seqBases d q r.st }, none) := by
    rw [seqStart, show (s.ctx s.issue.core s.issue.ctx).seqDesc = some d from hd]
    exact congrArg (seqSettle d _ r) enters
  have run : advance s = ({ r with replay := some q, st := seqBases d q r.st }, (advanceCode s (popQueues s.me.r s.issue.pops)).2, none) := by
    unfold advance
    simp only [popQueues_replay, idle, on, if_true, ← hr, start]
  exact ⟨by rw [run], by rw [run]⟩

/-- Settles O26: each start by its checks; a template's bundles are what its reading finds (`readTemplates_at`), and a replay enters its
levels afresh (`seqEnter_fresh`). -/
theorem enginesStarted : Obligations.EnginesStarted := by
  refine ⟨fun f s p i w h aligned hi owned ready hw =>
      ⟨exec_itstart_runs h aligned hi owned ready hw, exec_itstart_barred h aligned hi owned ready hw⟩,
    fun f s h => ?_, fun f s h => ?_, fun f s u p w0 w1 ts h aligned ready hu h0 h1 => ⟨fun far => ?_,
      exec_lnscfgTemplate_loads h aligned ready hu h0 h1⟩, fun f s u p d h aligned ready hu hd => ?_, fun f s h => ?_,
    fun s d on idle hd six words => ?_⟩
  · rw [exec_itstat_sourced h]
    refine ⟨fun own => ?_, fun own => ?_⟩ <;> rw [own] <;> rfl
  · rw [exec_plan_sourced h]
    exact ⟨fun aligned => by rw [alignTo_aligned aligned]; rfl, fun off => by rw [alignTo_misaligned off]; rfl⟩
  · rw [exec_lnscfgTemplate_ready h aligned ready hu h0 h1, if_pos far, finish_asyncBounds]
  · rw [exec_lnscfgDescriptor_ready h aligned ready hu hd]
    refine ⟨fun good => ?_, fun bad => ?_⟩
    · rw [good]; rfl
    · rw [if_pos bad, finish_asyncBounds]
  · rw [exec_lnsgo, execLnsgo, slot_bare _ h]
    refine ⟨fun d hd trips good clean => ?_, fun none => ?_⟩
    · simp only [hd, tripsRead_readable trips good clean, finish_ok]
    · simp only [none]; rfl
  · obtain ⟨q, enters, fresh, resume, -, trips⟩ := seqEnter_fresh s s.issue.core s.issue.ctx d (seqLevels d) _ six
      (seqOrigin_fresh d (advanceCode s (popQueues s.me.r s.issue.pops)).1 _) words
    obtain ⟨replay, clear⟩ := advance_starts on idle hd rfl enters
    exact ⟨q, replay, clear, fresh.pos, fresh.counters, resume, trips⟩

end Sys2Proof.Machine

namespace Sys2Proof.Machine

/-! A context taken back to its checkpoint (R366 to R369, R378). -/

/-- An update of a core that keeps its contexts. -/
theorem ctx_setCore_keeps (s : State) (c d : CoreId) (k : Core) (y : CtxId) (h : k.ctx = (s.core c).ctx) :
    (s.setCore c k).ctx d y = s.ctx d y := by
  by_cases e : d = c
  · subst e; simp only [State.ctx, State.core_setCore_same, h]
  · simp only [State.ctx, State.core_setCore_ne _ _ _ _ e]

@[simp] theorem withdraw_ctx (s : State) (c d : CoreId) (w : Asker) (y : CtxId) : (withdraw s c w).ctx d y = s.ctx d y :=
  ctx_setCore_keeps _ _ _ _ _ rfl

@[simp] theorem freeArray_ctx (s : State) (c d : CoreId) (x y : CtxId) (b : Bool) : (freeArray s c x b).ctx d y = s.ctx d y := by
  unfold freeArray
  split
  · exact ctx_setCore_keeps _ _ _ _ _ rfl
  · rfl

/-- A rolled-back context among the others, which stay as they are. -/
theorem rollBack_ctx (s : State) (c : CoreId) (x : CtxId) : (rollBack s c x).ctx c x = (s.ctx c x).rolledBack := by
  unfold rollBack; simp only; split <;> simp

theorem rollBack_ctx_ne (s : State) (c d : CoreId) (x y : CtxId) (h : (d, y) ≠ (c, x)) : (rollBack s c x).ctx d y = s.ctx d y := by
  unfold rollBack; simp only; split <;> simp [ctx_setCtx_ne _ _ _ _ _ _ h]

@[simp] theorem rollBack_mem (s : State) (c : CoreId) (x : CtxId) : (rollBack s c x).mem = s.mem := by
  unfold rollBack; simp only; split
  · exact freeArray_mem ..
  · exact freeArray_mem ..

theorem steady_cycle {s t : State} (h : t.steady = s.steady) : t.cycle = s.cycle := congrArg (·.2.1) h

/-- An array that the context has had and has no longer is free from now on. -/
theorem freeArray_frees {s : State} {c : CoreId} {x : CtxId} (h : (s.ctx c x).keepsArray = true) :
    freeArray s c x false = s.setCore c { s.core c with arrayLast := x, arrayFreed := s.cycle } := by
  rw [freeArray, h]; rfl

/-- The core of a context whose checkpoint commits after the array has been given up. -/
theorem commit_frees {s : State} {c : CoreId} {x : CtxId} (had : (s.ctx c x).ck.owns = true ∨ (s.ctx c x).arrayKept = true)
    (gone : (s.ctx c x).r.owns = false) :
    ((commit s c x).core c).arrayFreed = s.cycle ∧ ((commit s c x).core c).arrayLast = x := by
  have drained : (drainGate (sampleLoads s c x) c x).ctx c x = { s.ctx c x with
      ops := (s.ctx c x).ops.map (fun o => { o with kind := o.kind.sampled s c }), gate := [] } := by
    rw [drainGate_ctx, sampleLoads_ctx]
  have keeps : ((drainGate (sampleLoads s c x) c x).ctx c x).keepsArray = true := by
    rw [drained]
    rcases had with h | h <;> simp [Ctx.keepsArray, h]
  have now : (drainGate (sampleLoads s c x) c x).cycle = s.cycle := steady_cycle (by simp)
  have owns : ((drainGate (sampleLoads s c x) c x).ctx c x).r.owns = false := by rw [drained]; exact gone
  simp only [commit, owns, freeArray_frees keeps, now]
  have rest := core_setCtx_rest ((drainGate (sampleLoads s c x) c x).setCore c
    { (drainGate (sampleLoads s c x) c x).core c with arrayLast := x, arrayFreed := s.cycle }) c c x
  refine ⟨(congrArg Core.arrayFreed (rest _) :).trans ?_, (congrArg Core.arrayLast (rest _) :).trans ?_⟩ <;>
    rw [State.core_setCore_same]

/-- Settles O51: what a commit leaves of its context and core, and the rolled-back context. -/
theorem checkpointAndRollback : Obligations.CheckpointAndRollback := by
  refine ⟨fun s c x => ?_, fun s c x => ?_⟩
  · rw [commit_ctx]
    exact ⟨rfl, rfl, rfl, rfl, rfl, rfl, commit_mem s c x, rfl, commit_frees⟩
  · rw [rollBack_ctx]
    refine ⟨rfl, rfl, rfl, rfl, rfl, rfl, rfl, fun i => ?_, rollBack_mem s c x, steady_cycle (rollBack_steady s c x),
      fun d y => rollBack_ctx_ne s c d x y⟩
    simp [Ctx.rolledBack, Ctx.badAfter]

/-! Taking an exception (R369 to R374, R390). -/

@[simp] theorem deviceWrite_ctx (s : State) (c d : CoreId) (y : CtxId) (va : W64) (bs : List Byte) :
    (deviceWrite s c va bs).ctx d y = s.ctx d y := (sameCores_deviceWrite s c va bs).ctx d y

/-- The trap registers of a context as a trap writes them; the frame lies in memory. -/
theorem writeTrap_ctx (s : State) (c : CoreId) (x : CtxId) (r : Regs) (t : Trap) : (writeTrap s c x r t).ctx c x = { s.ctx c x with
    trapCause := BitVec.ofNat 64 (t.cause.toNat + t.words % 16 * 2 ^ 8 + t.replay.toNat * 2 ^ 12), trapPc := t.pc,
    trapInfo := t.info, trapWords := t.words } := by
  rw [writeTrap, deviceWrite_ctx, State.ctx_setCtx_same]

/-- The context that a handler is entered in. -/
theorem enterHandler_ctx (s : State) (c : CoreId) (x : CtxId) (pc : CodeAddr) (replay : Bool) :
    (enterHandler s c x pc replay).ctx c x = { s.ctx c x with
      r := { (s.ctx c x).r with pc := pc, latches := [], rep := none, replay := none }, handler := true, replayEntry := replay,
      frame := some (s.ctx c x).r, hgate := [], arrayWait := none, eretCtl := 0, eretPc := BitVec.ofNat 64 (s.ctx c x).trapPc.toNat,
      bubble := 0 } := by
  simp only [enterHandler, deviceWrite_ctx, State.ctx_setCtx_same]

/-- A continuation that ends because what a rollback restores cannot be read: at its checkpoint, with ECCUE in its trap registers. -/
theorem endBad_ends (s : State) (c : CoreId) (x : CtxId) (pc : CodeAddr) (words : Nat) :
    ∃ t, endBad s c x pc words = endWith t c x (Cause.code .eccue) 0x8000000000000000 false false ∧
      (t.ctx c x).r = (s.ctx c x).ck ∧ (t.ctx c x).trapPc = pc ∧ (t.ctx c x).trapInfo = 0x8000000000000000 := by
  refine ⟨_, rfl, ?_⟩
  rw [writeTrap_ctx, State.ctx_setCtx_same, rollBack_ctx]
  exact ⟨rfl, rfl, rfl⟩

/-- A context whose rollback is good, with its frame written. -/
theorem framed_ctx (s : State) (c : CoreId) (x : CtxId) (cause : Cause) (info : W64) (pc : CodeAddr) (words : Nat) :
    (framed s c x cause info pc words).ctx c x = { (s.ctx c x).rolledBack with
      phase := .running, bubble := 0, paused := none, trapCause := BitVec.ofNat 64 (cause.code.toNat + words % 16 * 2 ^ 8),
      trapPc := pc, trapInfo := info, trapWords := words } := by
  rw [framed]
  simp only [writeTrap_ctx, State.ctx_setCtx_same, rollBack_ctx, Bool.toNat_false, Nat.zero_mul, Nat.add_zero]

theorem deliver_framed {s : State} {c : CoreId} {x : CtxId} (good : (s.ctx c x).badStore = false) (cause : Cause) (info : W64)
    (pc : CodeAddr) (words : Nat) : deliver s c x cause info pc words
      = if (s.ctx c x).handler then endWith (framed s c x cause info pc words) c x cause.code info true false
        else if handlerAt (framed s c x cause info pc words) c cause.code = 0
          then endWith (framed s c x cause info pc words) c x cause.code info false false
        else enterHandler (framed s c x cause info pc words) c x (handlerAt (framed s c x cause info pc words) c cause.code) false := by
  have regs (k : Ctx → Ctx) (h : ∀ y, (k y).r = y.r) :
      (((rollBack s c x).setCtx c x (k ((rollBack s c x).ctx c x))).ctx c x).r = (s.ctx c x).ck := by
    rw [State.ctx_setCtx_same, h, rollBack_ctx]; rfl
  rw [deliver, if_neg (ne_true_of_eq_false good)]
  simp only [regs (fun y => { y with phase := .running, bubble := 0, paused := none }) (fun _ => rfl)]
  rfl

/-- Settles O52: a delivery goes by the frame that it has written, `endBad` apart. -/
theorem exceptionEntry : Obligations.ExceptionEntry := by
  refine fun s c x cause info pc words => ⟨fun bad => ?_, fun good => ?_⟩
  · rw [deliver, if_pos bad]
    exact endBad_ends s c x pc words
  · rw [deliver_framed good]
    refine ⟨fun h => if_pos h, fun h none => ?_, fun h some => ?_⟩
    · rw [h, if_neg Bool.false_ne_true, if_pos none]
    · rw [h, if_neg Bool.false_ne_true, if_neg some]
      refine ⟨_, (enterHandler_ctx ..).trans (by rw [framed_ctx]), ?_⟩
      exact ⟨rfl, rfl, rfl, rfl, rfl, fun _ => rfl, fun _ => rfl, rfl, rfl, rfl, rfl, rfl, rfl, rfl, rfl, rfl⟩

/-! The return from an exception (R274, R374, R375, R392). -/

/-- The context that handler mode is left in. -/
theorem leaveHandler_ctx (s : State) (c : CoreId) (x : CtxId) (r : Regs) : (leaveHandler s c x r).ctx c x = { s.ctx c x with
    r := r, phase := (s.ctx c x).going, handler := false, replayEntry := false, frame := none, held := none, commitDue := false,
    gate := gateOver (s.ctx c x).gate (s.ctx c x).hgate, hgate := [],
    ops := (s.ctx c x).ops.filter (fun o => decide (o.epoch ≤ (s.ctx c x).epoch)), lastIssue := s.cycle } := State.ctx_setCtx_same ..

theorem checkpoint_good {s : State} {c : CoreId} {x : CtxId} (h : (s.ctx c x).badStore = false) : checkpoint s c x = commit s c x :=
  if_neg (ne_true_of_eq_false h)

theorem checkpoint_bad {s : State} {c : CoreId} {x : CtxId} (h : (s.ctx c x).badStore = true) :
    checkpoint s c x = endBad s c x (s.ctx c x).r.pc 0 := if_pos h

/-- A checkpoint at which handler mode is left: the registers given commit, or cannot. -/
theorem checkpoint_leaves {s t : State} {c : CoreId} {x : CtxId} {r : Regs} {moved : Bool}
    (h : t.ctx c x = { (leaveHandler s c x r).ctx c x with moved := moved }) :
    ((s.ctx c x).badStore = false → ((checkpoint t c x).ctx c x).r = r ∧ ((checkpoint t c x).ctx c x).ck = ((checkpoint t c x).ctx c x).r ∧
      ((checkpoint t c x).ctx c x).handler = false ∧ ((checkpoint t c x).ctx c x).phase = (s.ctx c x).going) ∧
    ((s.ctx c x).badStore = true → ∃ u, checkpoint t c x = endBad u c x r.pc 0) := by
  rw [leaveHandler_ctx] at h
  refine ⟨fun good => ?_, fun bad => ⟨t, ?_⟩⟩
  · rw [checkpoint_good (by rw [h]; exact good), commit_ctx, h]
    exact ⟨rfl, rfl, rfl, rfl⟩
  · rw [checkpoint_bad (by rw [h]; exact bad), h]

/-- A run goes on with what a replay entry found it doing, where no answer of the host has come meanwhile. -/
theorem resumePaused_goes {s : State} {c : CoreId} {x : CtxId}
    (h : (s.ctx c x).paused.isSome = true → (s.ctx c x).asked.any (fun a => a.2.isSome) = false) :
    (resumePaused s c x).ctx c x = { s.ctx c x with paused := none, phase := (s.ctx c x).paused.getD (s.ctx c x).phase } ∧
      (resumePaused s c x).mem = s.mem := by
  unfold resumePaused
  simp only
  split
  · next e => rw [State.ctx_setCtx_same, e]; exact ⟨rfl, rfl⟩
  · next f e =>
    split
    · next ans => simp [e, ans] at h
    · rw [State.ctx_setCtx_same, State.ctx_setCtx_same, e]; exact ⟨rfl, rfl⟩
  · next p _ e => rw [State.ctx_setCtx_same, State.ctx_setCtx_same, e]; exact ⟨rfl, rfl⟩

/-- A fault that was held is delivered as one found after issue is. -/
theorem faultAfter_outside {s : State} {c : CoreId} {x : CtxId} (f : Late) (h : (s.ctx c x).handler = false) :
    (f.cause = .page → faultAfter s c x f = waitHost s c x f) ∧
    (f.cause = .eccue → (s.ctx c x).eccRetried = false → f.info.getLsbD 0 = false → faultAfter s c x f = retry s c x f) ∧
    (f.cause = .eccue → (s.ctx c x).eccRetried = true ∨ f.info.getLsbD 0 = true →
      faultAfter s c x f = deliver s c x f.cause f.info f.pc f.words) ∧
    (f.cause ≠ .page → f.cause ≠ .eccue → faultAfter s c x f = deliver s c x f.cause f.info f.pc f.words) := by
  have outside : ¬ (s.ctx c x).handler = true := ne_true_of_eq_false h
  unfold faultAfter
  simp only [if_neg outside, wbit_eq]
  refine ⟨fun e => ?_, fun e r i => ?_, fun e again => ?_, fun p e => ?_⟩
  · rw [e]
  · rw [e]; exact if_neg (by rw [r, i]; decide)
  · rw [e]; exact if_pos (by simpa using again)
  · split
    · exact absurd ‹_› p
    · exact absurd ‹_› e
    · rfl

section
variable {s : State} {c : CoreId} {x : CtxId}

/-- Form 0 with no fault held, after an entry by rollback. -/
theorem eretCtx_resumes (form : wbits (s.ctx c x).eretCtl 0 2 = 0) (held : (s.ctx c x).held = none)
    (entry : (s.ctx c x).replayEntry = false) :
    eretCtx s c x = checkpoint (leaveHandler s c x { reload s c x with pc := (s.ctx c x).ck.pc }) c x := by
  simp only [eretCtx, form, held, entry, if_true, Bool.false_eq_true, if_false]

/-- Form 0 with no fault held, after an entry by replay. -/
theorem eretCtx_replays (form : wbits (s.ctx c x).eretCtl 0 2 = 0) (held : (s.ctx c x).held = none)
    (entry : (s.ctx c x).replayEntry = true) :
    eretCtx s c x = resumePaused (if (s.ctx c x).commitDue
      then checkpoint (leaveHandler s c x { reload s c x with pc := (s.ctx c x).trapPc }) c x
      else leaveHandler s c x { reload s c x with pc := (s.ctx c x).trapPc }) c x := by
  simp only [eretCtx, form, held, entry, if_true]

/-- Form 0 with a fault held. -/
theorem eretCtx_delivers {f : Late} (form : wbits (s.ctx c x).eretCtl 0 2 = 0) (held : (s.ctx c x).held = some f) :
    eretCtx s c x = faultAfter (leaveHandler s c x (((s.ctx c x).frame).getD (s.ctx c x).r)) c x f := by
  simp only [eretCtx, form, held, if_true]

/-- Where form 1 leaves the context before its checkpoint commits. -/
def eretMoved (s : State) (c : CoreId) (x : CtxId) : State :=
  let t := leaveHandler s c x { reload s c x with pc := BitVec.ofNat 48 (s.ctx c x).eretPc.toNat }
  t.setCtx c x { t.ctx c x with moved := true }

/-- Form 1 after an entry by rollback. -/
theorem eretCtx_moves (form : wbits (s.ctx c x).eretCtl 0 2 = 1) (entry : (s.ctx c x).replayEntry = false)
    (aligned : (s.ctx c x).eretPc.toNat % 4 = 0) : eretCtx s c x = checkpoint (eretMoved s c x) c x := by
  simp only [eretCtx, form, entry, aligned, one_ne_zero, if_false, if_true, Bool.false_eq_true, ne_eq, not_true_eq_false]
  rfl

/-- A return that may not be made ends the continuation in its handler. -/
theorem eretCtx_fails :
    (wbits (s.ctx c x).eretCtl 0 2 = 1 → (s.ctx c x).replayEntry = false → (s.ctx c x).eretPc.toNat % 4 ≠ 0 →
      ∃ t, eretCtx s c x = endWith t c x (Cause.code .align) (s.ctx c x).eretPc true false) ∧
    ((wbits (s.ctx c x).eretCtl 0 2 = 3 ∨ wbits (s.ctx c x).eretCtl 0 2 = 1 ∧ (s.ctx c x).replayEntry = true) →
      ∃ t, eretCtx s c x = endWith t c x (Cause.code .ill) 0 true false) := by
  refine ⟨fun form entry off => ?_, ?_⟩
  · simp only [eretCtx, form, entry, one_ne_zero, if_false, if_true, Bool.false_eq_true, if_pos off]
    exact ⟨_, rfl⟩
  · rintro (form | ⟨form, entry⟩)
    · simp only [eretCtx, form, OfNat.ofNat_ne_zero, OfNat.ofNat_ne_one, Nat.reduceEqDiff, if_false]
      exact ⟨_, rfl⟩
    · simp only [eretCtx, form, entry, one_ne_zero, if_false, if_true]
      exact ⟨_, rfl⟩

/-- Form 2: completion as by a stop, or the end with the status given, both from the registers that the entry kept. -/
theorem eretCtx_ends (form : wbits (s.ctx c x).eretCtl 0 2 = 2) :
    eretCtx s c x =
      let t := leaveHandler s c x (((s.ctx c x).frame).getD (s.ctx c x).r)
      if wbits (s.ctx c x).eretCtl 8 8 = 0 then t.setCtx c x { t.ctx c x with phase := .suspending .stop (s.ctx c x).trapPc }
      else endWith (rollBack t c x) c x (BitVec.ofNat 8 (wbits (s.ctx c x).eretCtl 8 8)) (s.ctx c x).trapInfo false false := by
  have status : BitVec.ofNat 8 (wbits (s.ctx c x).eretCtl 8 8) = 0 ↔ wbits (s.ctx c x).eretCtl 8 8 = 0 := by
    have small : wbits (s.ctx c x).eretCtl 8 8 < 256 := Nat.mod_lt _ (by decide)
    constructor
    · intro h
      have := congrArg BitVec.toNat h
      rwa [BitVec.toNat_ofNat, Nat.mod_eq_of_lt small] at this
    · intro h; rw [h]; rfl
  simp only [eretCtx, form, OfNat.ofNat_ne_zero, OfNat.ofNat_ne_one, if_false, if_true, status]

end

/-- Settles O53: each form leaves handler mode with its registers, or fails; what commits then is `checkpoint_leaves`. -/
theorem exceptionReturn : Obligations.ExceptionReturn := by
  intro s c x
  have moved : (eretMoved s c x).ctx c x
      = { (leaveHandler s c x { reload s c x with pc := BitVec.ofNat 48 (s.ctx c x).eretPc.toNat }).ctx c x with moved := true } :=
    State.ctx_setCtx_same ..
  refine ⟨fun form held entry => eretCtx_resumes form held entry ▸ (checkpoint_leaves rfl).1,
    fun form held entry => eretCtx_resumes form held entry ▸ (checkpoint_leaves rfl).2, fun form held entry good answer => ?_,
    fun f form held => ?_, fun form entry aligned good => ?_,
    fun form entry aligned => eretCtx_moves form entry aligned ▸ (checkpoint_leaves moved).2,
    eretCtx_fails.1, fun form => ⟨fun zero => ?_, fun status => ?_⟩, eretCtx_fails.2⟩
  · rw [eretCtx_replays form held entry]
    have left := leaveHandler_ctx s c x { reload s c x with pc := (s.ctx c x).trapPc }
    cases due : (s.ctx c x).commitDue with
    | false =>
      obtain ⟨ctx, mem⟩ := resumePaused_goes (s := leaveHandler s c x { reload s c x with pc := (s.ctx c x).trapPc }) (c := c) (x := x)
        (by rw [left]; exact answer)
      rw [if_neg Bool.false_ne_true, ctx, mem, left]
      exact ⟨rfl, rfl, rfl, fun _ => ⟨rfl, rfl⟩, fun h => absurd h (by simp)⟩
    | true =>
      have commits : checkpoint (leaveHandler s c x { reload s c x with pc := (s.ctx c x).trapPc }) c x
          = commit (leaveHandler s c x { reload s c x with pc := (s.ctx c x).trapPc }) c x :=
        checkpoint_good (by rw [left]; exact good due)
      obtain ⟨ctx, -⟩ := resumePaused_goes (s := commit (leaveHandler s c x { reload s c x with pc := (s.ctx c x).trapPc }) c x)
        (c := c) (x := x) (by rw [commit_ctx, left]; exact answer)
      rw [if_pos rfl, commits, ctx, commit_ctx, left]
      exact ⟨rfl, rfl, rfl, fun h => absurd h (by simp), fun _ => rfl⟩
  · have left := leaveHandler_ctx s c x (((s.ctx c x).frame).getD (s.ctx c x).r)
    have out := faultAfter_outside (s := leaveHandler s c x (((s.ctx c x).frame).getD (s.ctx c x).r)) (c := c) (x := x) f (by rw [left])
    rw [left] at out
    exact ⟨_, (congrArg Ctx.handler left :), (congrArg Ctx.ck left :), rfl, eretCtx_delivers form held ▸ out⟩
  · rw [eretCtx_moves form entry aligned]
    obtain ⟨r, ck, handler, -⟩ := (checkpoint_leaves moved).1 good
    exact ⟨r, ck, handler⟩
  · rw [eretCtx_ends form]
    simp only [if_pos zero]
    rw [State.ctx_setCtx_same, leaveHandler_ctx]
    exact ⟨rfl, rfl, rfl⟩
  · rw [eretCtx_ends form]
    refine ⟨_, ?_, ?_, if_neg status⟩
    · rw [rollBack_ctx, leaveHandler_ctx]; rfl
    · rw [rollBack_mem]; rfl

end Sys2Proof.Machine

namespace Sys2Proof.Machine

/-! Causes found after issue (R224, R263, R369, R375). -/

/-- A context taken back with its trap written (R369 steps 1 to 4). -/
theorem backWith_ctx (s : State) (c : CoreId) (x : CtxId) (f : Late) (p : Phase) : (backWith s c x f p).ctx c x = {
    (s.ctx c x).rolledBack with
      trapCause := BitVec.ofNat 64 (f.cause.code.toNat + f.words % 16 * 2 ^ 8), trapPc := f.pc, trapInfo := f.info, trapWords := f.words,
      phase := p, bubble := 0, paused := none } := by
  simp only [backWith, State.ctx_setCtx_same, writeTrap_ctx, rollBack_ctx, Bool.toNat_false, Nat.zero_mul, Nat.add_zero]

/-- A retry takes the context back to go on from its checkpoint. -/
theorem retry_ctx {s : State} {c : CoreId} {x : CtxId} (f : Late) (good : (s.ctx c x).badStore = false) :
    (retry s c x f).ctx c x = { (backWith s c x f (s.ctx c x).going).ctx c x with eccRetried := true } := by
  rw [retry, if_neg (ne_true_of_eq_false good)]
  exact State.ctx_setCtx_same ..

/-- The wait for the host, where it has not answered yet. -/
theorem waitHost_waits {s : State} {c : CoreId} {x : CtxId} (f : Late) (good : (s.ctx c x).badStore = false)
    (h : ∀ va a, (s.ctx c x).asked ≠ some (va, some a)) : waitHost s c x f = backWith s c x f (.waitPage f) := by
  rw [waitHost, if_neg (ne_true_of_eq_false good)]
  simp only
  split
  · next va a e =>
    rw [backWith_ctx] at e
    exact absurd e (h va a)
  · rfl

theorem exec_rollback_delivers {s : State} {c : CoreId} {x : CtxId} {f : Late} (pend : (s.ctx c x).pendFault = some f)
    (own : (s.ctx c x).ownFault = none) (out : (s.ctx c x).handler = false) (there : atBoundary (s.ctx c x) = true) :
    exec (.rollback c x) s = .next (faultAfter (s.setCtx c x { s.ctx c x with pendFault := none }) c x f) := by
  rw [exec_rollback]
  simp only [execRollback, own, pend, there, out]
  rfl

/-- A first fault of the interrupted run is held. -/
theorem holdFault_ctx {s : State} {c : CoreId} {x : CtxId} (f : Late) (h : (s.ctx c x).held = none) :
    (holdFault s c x f).ctx c x = { s.ctx c x with held := some f, trapCause := (s.ctx c x).trapCause ||| 0x2000 } := by
  rw [holdFault, if_neg (by rw [h]; decide)]
  simp only [deviceWrite_ctx, State.ctx_setCtx_same]

theorem exec_heldFault_holds {s : State} {c : CoreId} {x : CtxId} {f : Late} (pend : (s.ctx c x).pendFault = some f)
    (inside : (s.ctx c x).handler = true) (entry : (s.ctx c x).replayEntry = true) :
    exec (.heldFault c x) s = .next (holdFault (s.setCtx c x { s.ctx c x with pendFault := none }) c x f) := by
  rw [exec_heldFault]
  simp only [execHeldFault, pend, inside, entry, Bool.and_self, if_true]

/-- A talloc that has waited too long. -/
theorem exec_tstall_overdue {c : CoreId} {x : CtxId} {s : State} {o : Op} {q : BitVec 4} {sh : BitVec 2} {n : BitVec 12} {r : PoolReq}
    (ops : (s.ctx c x).ops = [o]) (kind : o.kind = .talloc q sh n) (req : (s.pool c ⟨q.toNat, q.isLt⟩).waiting = [r]) (who : r.who = .ctx x)
    (on : (s.part (s.partIdOf c)).allocWdog ≠ 0) (late : 2000 * (s.part (s.partIdOf c)).allocWdog.toNat < s.cycle - r.since)
    (out : (s.ctx c x).handler = false) (calm : (s.ctx c x).pendFault = none) :
    exec (.tstall c x) s = .next (deliver s c x .tstall
      (BitVec.ofNat 64 (q.toNat + sh.toNat * 2 ^ 4 + (s.cycle - r.since) / 2000 % 2 ^ 32 * 2 ^ 16)) o.pc o.words) := by
  rw [exec_tstall]
  have limit : (s.part (s.partIdOf c)).allocWdog.toNat ≠ 0 := fun h => on (BitVec.eq_of_toNat_eq h)
  have us : overdue s c r = some ((s.cycle - r.since) / 2000) := by
    rw [overdue]; exact if_pos ⟨limit, late⟩
  simp only [execTstall, ops, List.findSome?_cons, kind, req, List.find?_cons, who, decide_true, Option.bind_some, us, out, calm,
    Bool.false_and, Bool.false_eq_true, if_false, Option.isSome_none]

/-! Entries by replay (R374, R376, R377, R382). -/

theorem deliverReplay_none {s : State} {c : CoreId} {x : CtxId} {cause : Cause} {info : W64} (h : handlerAt s c cause.code = 0) :
    deliverReplay s c x cause info = none := if_pos h

/-- A handler entered by replay: it keeps the registers as they stand, and what the context was doing. -/
theorem deliverReplay_enters {s : State} {c : CoreId} {x : CtxId} {cause : Cause} {info : W64} (h : handlerAt s c cause.code ≠ 0)
    (good : (s.ctx c x).badStore = false) :
    ∃ t, deliverReplay s c x cause info = some t ∧ t.ctx c x = { s.ctx c x with
      phase := .running, paused := if (s.ctx c x).phase = .running then none else some (s.ctx c x).phase,
      trapCause := BitVec.ofNat 64 (cause.code.toNat + 0 % 16 * 2 ^ 8 + 1 * 2 ^ 12), trapPc := (s.ctx c x).r.pc, trapInfo := info,
      trapWords := 0, r := { (s.ctx c x).r with pc := handlerAt s c cause.code, latches := [], rep := none, replay := none },
      handler := true, replayEntry := true, frame := some (s.ctx c x).r, hgate := [], arrayWait := none, eretCtl := 0,
      eretPc := BitVec.ofNat 64 (s.ctx c x).r.pc.toNat, bubble := 0 } := by
  rw [deliverReplay]
  simp only [if_neg h, if_neg (ne_true_of_eq_false good)]
  refine ⟨_, rfl, ?_⟩
  rw [enterHandler_ctx, writeTrap_ctx, State.ctx_setCtx_same]
  rfl

/-- What a replayable context is. -/
theorem replayable_outside {k : Ctx} (h : replayable k = true) : k.handler = false ∧ k.pendFault = none ∧ running k = true := by
  simp only [replayable, Bool.and_eq_true, Bool.not_eq_true', Option.isNone_iff_eq_none] at h
  obtain ⟨⟨out, calm⟩, phase⟩ := h
  refine ⟨out, calm, ?_⟩
  unfold running
  split at phase <;> simp_all

theorem exec_int_ready {s : State} {c : CoreId} {x : CtxId} {v : BitVec 32} (pend : (s.ctx c x).pendInt = some v)
    (alone : (s.ctx c x).pendPreempt = none) (ready : replayable (s.ctx c x) = true) :
    exec (.int c x) s = .next ((deliverReplay (s.setCtx c x { s.ctx c x with pendInt := none }) c x .int (BitVec.ofNat 64 v.toNat)).getD
      (s.setCtx c x { s.ctx c x with pendInt := none })) := by
  rw [exec_int]
  simp only [execInt, pend, alone, ready]
  rfl

theorem exec_watchdog_ready {s : State} {c : CoreId} {x : CtxId} {n : Nat} (calm : (s.ctx c x).pendInt = none)
    (alone : (s.ctx c x).pendPreempt = none)
    (due : (s.ctx c x).pendWatchdog = some n ∨ (s.ctx c x).pendWatchdog = none ∧ (s.part (s.partIdOf c)).blkWdog ≠ 0 ∧
      2000 * (s.part (s.partIdOf c)).blkWdog.toNat < s.cycle - (s.ctx c x).lastIssue ∧ n = (s.cycle - (s.ctx c x).lastIssue) / 2000)
    (ready : replayable (s.ctx c x) = true) :
    exec (.watchdog c x) s = .next ((deliverReplay (s.setCtx c x { s.ctx c x with pendWatchdog := none, lastIssue := s.cycle }) c x .watchdog
      (BitVec.ofNat 64 n)).getD (s.setCtx c x { s.ctx c x with pendWatchdog := none, lastIssue := s.cycle })) := by
  rw [exec_watchdog]
  obtain ⟨out, -, runs⟩ := replayable_outside ready
  rcases due with pend | ⟨pend, on, late, rfl⟩
  · simp only [execWatchdog, pend, out, runs, ready, alone, calm]
    rfl
  · have limit : (s.part (s.partIdOf c)).blkWdog.toNat ≠ 0 := fun h => on (BitVec.eq_of_toNat_eq h)
    simp only [execWatchdog, pend, if_pos (And.intro limit late), out, runs, ready, alone, calm]
    rfl

theorem exec_preempt_ready {s : State} {c : CoreId} {x : CtxId} {a : BitVec 2} {us : BitVec 32} (pend : (s.ctx c x).pendPreempt = some (a, us))
    (ready : replayable (s.ctx c x) = true) (stays : ∀ why pc, (s.ctx c x).phase ≠ .suspending why pc) :
    exec (.preempt c x) s = .next ((deliverReplay
      (s.setCtx c x { s.ctx c x with pendPreempt := none, action := some a, drainFrom := some s.cycle }) c x .preempt
      (BitVec.ofNat 64 (a.toNat + us.toNat * 2 ^ 32))).getD
      (s.setCtx c x { s.ctx c x with pendPreempt := none, action := some a, drainFrom := some s.cycle })) := by
  rw [exec_preempt]
  simp only [execPreempt, pend, ready]
  split
  · next h =>
    simp only [Bool.not_true, Bool.false_or] at h
    exact absurd h Bool.false_ne_true
  · rfl

theorem exec_preemptHandlerTimeout_late {s : State} {c : CoreId} {x : CtxId} {a : BitVec 2} {since : Nat} (act : (s.ctx c x).action = some a)
    (drain : (s.ctx c x).drainFrom = some since) (inside : (s.ctx c x).handler = true) (entry : (s.ctx c x).replayEntry = true)
    (cause : wbits (s.ctx c x).trapCause 0 8 = 0x21) (late : 2000 * wbits (s.ctx c x).trapInfo 32 32 < s.cycle - since) :
    exec (.preemptHandlerTimeout c x) s = .next (resumePaused (leaveHandler (s.setCtx c x { s.ctx c x with hgate := [] }) c x
      (((s.ctx c x).frame).getD (s.ctx c x).r)) c x) := by
  rw [exec_preemptHandlerTimeout]
  simp only [execPreemptHandlerTimeout, act, drain]
  exact if_pos ⟨inside, entry, cause, late⟩

/-- Settles O37: a fault found after issue by its cause, an entry by replay by whether there is a handler. -/
theorem lateCauses : Obligations.LateCauses := by
  refine ⟨fun c x s f pend own out there => ?_, fun c x s f pend inside entry none => ?_,
    fun c x s o q sh n r ops kind req who on late out calm => exec_tstall_overdue ops kind req who on late out calm,
    fun c x s u v pend alone ready good hu => ?_, fun c x s u n calm alone due ready good hu => ?_,
    fun c x s u a us pend ready stays good hu => ?_, fun c x s a since act drain inside entry cause late alone => ?_⟩
  · rw [exec_rollback_delivers pend own out there]
    generalize hu : s.setCtx c x { s.ctx c x with pendFault := none } = u
    have ctx : u.ctx c x = { s.ctx c x with pendFault := none } := by rw [← hu, State.ctx_setCtx_same]
    obtain ⟨page, once, again, other⟩ := faultAfter_outside (s := u) (c := c) (x := x) f (by rw [ctx]; exact out)
    rw [ctx] at once again
    refine ⟨fun hp he => by rw [other hp he], fun he hr => by rw [again he (.inl hr), he], fun he hr hi good => ?_, fun hp good free => ?_⟩
    · refine ⟨_, congrArg _ (once he hr hi), ?_⟩
      rw [retry_ctx f (by rw [ctx]; exact good), backWith_ctx, ctx]
      exact ⟨rfl, rfl, rfl, out, rfl, rfl, rfl⟩
    · refine ⟨_, congrArg _ (page hp), ?_⟩
      rw [waitHost_waits f (by rw [ctx]; exact good) (by rw [ctx]; exact free), backWith_ctx, ctx]
      exact ⟨rfl, rfl, rfl, rfl⟩
  · refine ⟨_, exec_heldFault_holds pend inside entry, ?_⟩
    rw [holdFault_ctx f (by rw [State.ctx_setCtx_same]; exact none), State.ctx_setCtx_same]
    exact ⟨rfl, rfl, rfl⟩
  · rw [exec_int_ready pend alone ready, ← hu]
    have ctx : u.ctx c x = { s.ctx c x with pendInt := none } := by rw [hu, State.ctx_setCtx_same]
    refine ⟨fun h => by rw [deliverReplay_none (cause := .int) h]; rfl, fun h => ?_⟩
    obtain ⟨t, run, at_t⟩ := deliverReplay_enters (info := BitVec.ofNat 64 v.toNat) (cause := .int) h (by rw [ctx]; exact good)
    rw [ctx] at at_t
    refine ⟨t, by rw [run]; rfl, ?_⟩
    rw [at_t]
    exact ⟨rfl, rfl, rfl, BitVec.ofNat_toNat .., rfl, rfl, rfl⟩
  · rw [exec_watchdog_ready calm alone due ready, ← hu]
    have ctx : u.ctx c x = { s.ctx c x with pendWatchdog := none, lastIssue := s.cycle } := by rw [hu, State.ctx_setCtx_same]
    refine ⟨fun h => by rw [deliverReplay_none (cause := .watchdog) h]; rfl, fun h => ?_⟩
    obtain ⟨t, run, at_t⟩ := deliverReplay_enters (info := BitVec.ofNat 64 n) (cause := .watchdog) h (by rw [ctx]; exact good)
    rw [ctx] at at_t
    refine ⟨t, by rw [run]; rfl, ?_⟩
    rw [at_t]
    exact ⟨rfl, rfl, rfl, rfl⟩
  · rw [exec_preempt_ready pend ready stays, ← hu]
    have ctx : u.ctx c x = { s.ctx c x with pendPreempt := none, action := some a, drainFrom := some s.cycle } := by
      rw [hu, State.ctx_setCtx_same]
    refine ⟨fun h => by rw [deliverReplay_none (cause := .preempt) h]; rfl, fun h => ?_⟩
    obtain ⟨t, run, at_t⟩ := deliverReplay_enters (info := BitVec.ofNat 64 (a.toNat + us.toNat * 2 ^ 32)) (cause := .preempt) h
      (by rw [ctx]; exact good)
    rw [ctx] at at_t
    refine ⟨t, by rw [run]; rfl, ?_⟩
    rw [at_t]
    exact ⟨rfl, rfl, rfl, rfl⟩
  · have left : ((leaveHandler (s.setCtx c x { s.ctx c x with hgate := [] }) c x (((s.ctx c x).frame).getD (s.ctx c x).r)).ctx c x).paused
        = none := by rw [leaveHandler_ctx, State.ctx_setCtx_same]; exact alone
    obtain ⟨ctx, mem⟩ := resumePaused_goes (c := c) (x := x) (fun h => by rw [left] at h; exact absurd h (by decide))
    refine ⟨_, exec_preemptHandlerTimeout_late act drain inside entry cause late, ?_, fun r h => ?_, mem⟩
    · rw [ctx, leaveHandler_ctx]
    · rw [ctx, leaveHandler_ctx, h]; rfl

end Sys2Proof.Machine

namespace Sys2Proof.Machine

/-! The dispatcher's choices (R379 to R381). -/

/-- With no ring that lacks its translation nothing is asked for. -/
theorem askRings_none {s : State} {p : PartId} (h : ∀ q ∈ servedQueues s p, ringReach s q ≠ .missing) : askRings s p = s := by
  rw [askRings, List.filter_eq_nil_iff.2 (fun q hq => by simpa using h q hq)]
  rfl

theorem runningCount_le (k : Core) : runningCount k ≤ 4 := by
  have h := List.length_filter_le running k.ctx.toList
  rwa [Vector.length_toList] at h

/-- The cores of a partition come in ascending order. -/
theorem coresOf_sorted (s : State) (p : PartId) (f : CoreId → Bool) : ((coresOf s p).filter f).Pairwise (· < ·) :=
  ((List.pairwise_lt_finRange 512).filter _).filter f

/-- The first core in order with the fewest running continuations takes the record. -/
theorem placeCore_fewest {s : State} {p : PartId} {w : File 3 W64} {c : CoreId} (hc : c ∈ coresOf s p) (fits : placeable s w c = true)
    (least : ∀ d ∈ coresOf s p, placeable s w d = true → runningCount (s.core c) < runningCount (s.core d) ∨
      runningCount (s.core c) = runningCount (s.core d) ∧ c ≤ d) : placeCore s p w = some c := by
  have fewest : ∀ d ∈ (coresOf s p).filter (placeable s w), runningCount (s.core c) < runningCount (s.core d) ∨
      runningCount (s.core c) = runningCount (s.core d) ∧ c ≤ d :=
    fun d hd => least d (List.mem_of_mem_filter hd) (List.mem_filter.1 hd).2
  obtain ⟨above, counts⟩ : ∃ m, 5 = runningCount (s.core c) + (m + 1) :=
    ⟨4 - runningCount (s.core c), by have := runningCount_le (s.core c); omega⟩
  simp only [placeCore]
  rw [List.findSome?_eq_some_iff]
  refine ⟨List.range (runningCount (s.core c)), runningCount (s.core c), _,
    (by rw [counts, List.range_add, List.range_succ_eq_map]; rfl), ?_, fun m hm => ?_⟩
  · obtain ⟨as, bs, split⟩ := List.mem_iff_append.1 (List.mem_filter.2 ⟨hc, fits⟩)
    rw [List.find?_eq_some_iff_append]
    refine ⟨beq_self_eq_true _, as, bs, split, fun d hd => ?_⟩
    have before : d < c := by
      have sorted := coresOf_sorted s p (placeable s w)
      rw [split, List.pairwise_append] at sorted
      exact sorted.2.2 d hd c List.mem_cons_self
    rcases fewest d (by rw [split]; exact List.mem_append_left _ hd) with fewer | ⟨-, later⟩
    · simpa using fewer.ne'
    · exact absurd later (not_le_of_gt before)
  · rw [List.find?_eq_none]
    intro d hd same
    have same := (beq_iff_eq.1 same)
    have below := List.mem_range.1 hm
    rcases fewest d hd with fewer | ⟨equal, -⟩ <;> omega

theorem placeCore_none {s : State} {p : PartId} {w : File 3 W64} (h : ∀ d ∈ coresOf s p, placeable s w d = false) :
    placeCore s p w = none := by
  have none : (coresOf s p).filter (placeable s w) = [] := List.filter_eq_nil_iff.2 (fun d hd => ne_true_of_eq_false (h d hd))
  rw [placeCore, none]
  rfl

/-- The next record of the host, once every ring can be read. -/
theorem exec_dispatch_next {s : State} {p : PartId} {h : HostHead} (on : serving s p = true) (free : (s.part p).reserving = none)
    (alive : deadQueue s p = none) (here : ∀ q ∈ servedQueues s p, ringReach s q ≠ .missing) (next : nextHost s p = some h)
    (token : hasToken s p = true) :
    (badRecord h.words h.addr = true → exec (.dispatch p) s = .next (refuseHost s p h)) ∧
    (badRecord h.words h.addr = false → gangBit h.words = true → exec (.dispatch p) s = .next (arriveGang (takeHost s p h) p h)) ∧
    (∀ c x, badRecord h.words h.addr = false → gangBit h.words = false → placeCore s p h.words = some c → freeCtxOf (s.core c) = some x →
      exec (.dispatch p) s = .next (beginRecord (spendToken (takeHost s p h) p) c x h.taken.name false 0 h.taken.host)) := by
  rw [exec_dispatch]
  simp only [execDispatch, joinGang_none free, on, askRings_none here, alive, next, token, Bool.not_true, Bool.false_eq_true, if_false]
  refine ⟨fun bad => if_pos bad, fun good gang => ?_, fun c x good lone place room => ?_⟩
  · rw [if_neg (ne_true_of_eq_false good), if_pos gang]
  · simp only [if_neg (ne_true_of_eq_false good), if_neg (ne_true_of_eq_false lone), place, room]

/-- The head of a queue that an earlier push of core w left there starts on the idle core, widened. -/
theorem exec_steal_widened {s : State} {p : PartId} {o c : CoreId} {x : CtxId} {e : W64} {rest : List W64} (on : serving s p = true)
    (start : startable s c = true) (free : (s.part p).reserving = none) (calm : nextHost s p = none) (mine : s.partOf c = some p)
    (idle : queueLength (s.core c) = 0) (token : hasToken s p = true) (there : stealable s p c o = true)
    (first : ∀ d ∈ coresOf s p, stealable s p c d = true → stealRank c o ≤ stealRank c d) (room : freeCtxOf (s.core c) = some x)
    (head : (s.core o).queue = e :: rest) (pushed : wbit e 57 = false)
    (grant : canGrant s c (startWords (release s (linkCore e) (scopeOf (linkCore e) c) everyByte) c (entryName e)) = true) :
    exec (.steal p o c) s = .next (
      let u := popQueue (release (spendToken s p) (linkCore e) (scopeOf (linkCore e) c) everyByte) o
      beginRecord (u.setCore o { u.core o with fullSince := none }) c x (entryName e) false (scopeOf (linkCore e) c) none) := by
  have wide (t : State) : widen t c e = (release t (linkCore e) (scopeOf (linkCore e) c) everyByte, scopeOf (linkCore e) c) := by
    rw [widen, entryOrigin, if_neg (ne_true_of_eq_false pushed)]
  have nearest : (coresOf s p).any (fun d => stealable s p c d && decide (stealRank c d < stealRank c o)) = false := by
    rw [List.any_eq_false]
    intro d hd h
    rw [Bool.and_eq_true, decide_eq_true_eq] at h
    exact absurd (first d hd h.1) (not_le_of_gt h.2)
  rw [exec_steal]
  simp only [execSteal, joinGang_none free, calm, on, start, mine, idle, token, there, nearest, room, head, wide, grant, bne_self_eq_false,
    Bool.not_true, Bool.or_self, Bool.false_eq_true, if_false]

/-- A newcomer that no core can start takes the victim's place. -/
theorem exec_preemption_victim {s : State} {p : PartId} {h : HostHead} {c : CoreId} {x : CtxId} (on : serving s p = true)
    (token : hasToken s p = true) (next : nextHost s p = some h) (good : badRecord h.words h.addr = false) (lone : gangBit h.words = false)
    (full : ∀ d ∈ coresOf s p, placeable s h.words d = false) (loses : victim s p (recPrio h.words) = some (c, x)) :
    exec (.preemption p) s = .next (
      let u := spendToken (takeHost s p h) p
      chooseAction (u.setCtx c x { u.ctx c x with newcomer := some h.taken }) c x) := by
  rw [exec_preemption]
  simp only [execPreemption, on, token, next, good, lone, placeCore_none full, loses, Bool.not_true, Bool.or_self, Bool.false_eq_true,
    if_false, Option.isSome_none]

/-- A complete gang of a partition that reserves nothing starts whole. -/
theorem exec_gangPlacement_whole {s : State} {p : PartId} {gang : Nat} {g : Gang} {n gs acc scratch : Nat} {places : List (CoreId × CtxId)}
    (found : s.gangs.find? (fun g => g.part == p && g.gangid.toNat == gang) = some g) (entry : gangEntry s p gang = (n, gs, acc, scratch))
    (complete : n ≤ g.records.length) (on : serving s p = true) (free : (s.part p).reserving = none) (some : places ≠ [])
    (all : places.length = n)
    (fit : places = assignGroups ((coresOf s p).map (fun c => (c, gangRoom s c g.ticket none acc scratch))) n gs)
    (token : hasToken s p = true) : exec (.gangPlacement p gang) s = .next (startGang s p g n places) := by
  have go : ¬ (g.records.length < n ∨ places.isEmpty = true) := by
    rw [List.isEmpty_iff]
    exact not_or.2 ⟨not_lt_of_ge complete, some⟩
  rw [exec_gangPlacement]
  simp only [execGangPlacement, joinGang_none free, on, if_true, found, entry, free, ← fit, if_neg go, all, token]
  simp

/-- What a new period gives (R379, R386). -/
theorem refreshBudgets_tokens {s : State} {p : PartId} (new : (s.part p).tokenAt ≠ s.cycle / 200000 + 1) (limit : (s.part p).tokens ≠ 0) :
    ((refreshBudgets s p).part p).tokensLeft = some (s.part p).tokens.toNat := by
  simp only [refreshBudgets, State.part_setPart_same, if_neg new, allowance, if_neg limit]
  split <;> rfl

theorem refreshBudgets_period {s : State} {p : PartId} (new : (s.part p).slipAt ≠ s.cycle / 2000 + 1) :
    ((refreshBudgets s p).part p).slipsLeft = allowance (s.part p).budSlip ∧ ((refreshBudgets s p).part p).memSpent = [] ∧
      ((refreshBudgets s p).part p).lugilSpent = [] := by
  simp only [refreshBudgets, State.part_setPart_same]
  have same : (if (s.part p).tokenAt = s.cycle / 200000 + 1 then s.part p
      else { s.part p with tokenAt := s.cycle / 200000 + 1, tokensLeft := allowance (s.part p).tokens }).slipAt = (s.part p).slipAt ∧
    (if (s.part p).tokenAt = s.cycle / 200000 + 1 then s.part p
      else { s.part p with tokenAt := s.cycle / 200000 + 1, tokensLeft := allowance (s.part p).tokens }).budSlip = (s.part p).budSlip := by
    split <;> exact ⟨rfl, rfl⟩
  rw [if_neg (by rw [same.1]; exact new), same.2]
  exact ⟨rfl, rfl, rfl⟩

theorem exec_budgetPeriod_empty {s : State} {p : PartId} (inn : s.inbox = []) (out : s.outbox = []) :
    exec (.budgetPeriod p) s = .next (refreshBudgets s p) := by
  have flushed : flushOutbox (refreshBudgets s p) = refreshBudgets s p := by
    rw [flushOutbox, show (refreshBudgets s p).outbox = [] from out]
    exact congrArg (fun l => { refreshBudgets s p with outbox := l }) out.symm
  rw [exec_budgetPeriod, execBudgetPeriod, flushed, retryInbox_none]
  exact inn

end Sys2Proof.Machine

namespace Sys2Proof.Machine

/-! DRAIN, SAVE and KILL (R381 to R383). -/

theorem exec_drainLimit_over {s : State} {c : CoreId} {x : CtxId} {since : Nat} (act : (s.ctx c x).action = some 0)
    (drain : (s.ctx c x).drainFrom = some since) (late : 2000 * (s.part (s.partIdOf c)).drainLim.toNat < s.cycle - since) :
    (∀ a, strongAction s c x = some a → exec (.drainLimit c x) s = .next (beginAction s c x a)) ∧
    (strongAction s c x = none → exec (.drainLimit c x) s = .next (s.setCtx c x { s.ctx c x with drainFrom := none })) := by
  rw [exec_drainLimit]
  simp only [execDrainLimit, act, drain]
  exact ⟨fun a strong => (if_neg (not_le_of_gt late)).trans (by rw [strong]),
    fun weak => (if_neg (not_le_of_gt late)).trans (by rw [weak])⟩

theorem freeSlot_lowest {k : Core} {n : Nat} (small : n < 8) (free : n ∉ slotsUsed k) (below : ∀ m, m < n → m ∈ slotsUsed k) :
    freeSlot k = some n := by
  rw [freeSlot, List.find?_range_eq_some]
  exact ⟨by simpa using free, List.mem_range.2 small, fun m hm => by simpa using below m hm⟩

/-- A save that begins takes its slot and its deadline, and is late where the memory of the slot retrains for its heat. -/
theorem exec_save_begins {s : State} {c : CoreId} {x : CtxId} {n : Nat} (act : (s.ctx c x).action = some 1)
    (out : (s.ctx c x).handler = false) (runs : (s.ctx c x).phase = .running) (none : (s.core c).saves = [])
    (slot : freeSlot (s.core c) = some n) :
    exec (.save c x) s = .next (
      let met := s.retrains.any (fun r => r.running && r.thermal && saveTarget s c n == some r.target)
      let u := s.setCore c { s.core c with
        saves := [{ ctx := x, slot := n, deadline := s.cycle + 2000 * saveCost (s.ctx c x), late := met }] }
      u.setCtx c x { s.ctx c x with phase := .saving n }) := by
  rw [exec_save]
  simp [execSave, act, out, none, runs, savedPhase, slot, ctx_setCore_keeps]

/-- A save whose context is quiet commits and writes its slot. -/
theorem exec_save_finishes {s : State} {c : CoreId} {x : CtxId} {n : Nat} {v : SaveRun} (act : (s.ctx c x).action = some 1)
    (out : (s.ctx c x).handler = false) (saving : (s.ctx c x).phase = .saving n) (mine : (s.core c).saves = [v]) (who : v.ctx = x)
    (calm : quiet s c x = true) (there : ∀ m, saveTarget s c v.slot = some m → stopped s m = false) (fences : (s.ctx c x).fences = [])
    (good : (s.ctx c x).pendFault = none) : exec (.save c x) s = .next (finishSave s c x v) := by
  have target : (saveTarget s c v.slot).any (stopped s) = false := by
    cases h : saveTarget s c v.slot with
    | none => rfl
    | some m => exact there m h
  rw [exec_save]
  simp [execSave, act, out, saving, mine, who, calm, fences, good, target]

theorem exec_saveResume_first {s : State} {c : CoreId} {x : CtxId} {v : Saved} {rest : List Saved}
    (free : (s.part (s.partIdOf c)).reserving = none) (first : (s.core c).saved = v :: rest) (acc : v.ctx.acc ≤ accFree (s.core c))
    (array : v.ctx.r.owns = false ∨ arrayOwner (s.core c) = none) (start : startable s c = true) (room : freeCtxOf (s.core c) = some x) :
    ∃ t, exec (.saveResume c x) s = .next t ∧ (t.ctx c x).r = slotRegs (fullAcquire s c).2 c v.slot v.ctx.r ∧
      (t.ctx c x).ck = (t.ctx c x).r ∧ (t.ctx c x).phase = v.ctx.phase ∧ (t.ctx c x).job = v.ctx.job ∧ (t.ctx c x).acc = v.ctx.acc := by
  have next : resumable s c = some v := by
    rw [resumable, first]
    exact if_pos ⟨acc, array.imp_right Option.isNone_iff_eq_none.2⟩
  rw [exec_saveResume]
  simp only [execSaveResume, joinGang_none free, next, start, room, Bool.not_true, bne_self_eq_false, Bool.or_self, Bool.false_eq_true,
    if_false]
  refine ⟨_, rfl, ?_⟩
  rw [State.ctx_setCtx_same]
  dsimp only
  exact ⟨rfl, rfl, rfl, rfl, rfl⟩

/-- A slot without a place gives the registers that the device kept. The size of a slot is generalised before the definition is unfolded:
over the literal Lean would compute the place of every byte of it. -/
theorem slotRegs_misplaced {s : State} {c : CoreId} {slot q : Nat} {r : Regs}
    (h : place s c .peek (saveSlotAddr s c slot) 0x2C000 = .error q) : slotRegs s c slot r = r := by
  obtain ⟨F, hF⟩ : ∃ F, F = slotRegs := ⟨_, rfl⟩
  rw [← hF]
  delta slotRegs at hF
  generalize 0x2C000 = n at h hF
  subst hF
  simp only [h]
/-- Where it has one, the scalar registers are the words of its image. -/
theorem slotRegs_getS {s : State} {c : CoreId} {slot : Nat} {q : Place} {r : Regs} {n : BitVec 5}
    (h : place s c .peek (saveSlotAddr s c slot) 0x2C000 = .ok q) (hn : n ≠ 0) :
    (slotRegs s c slot r).getS n = wordAt (deviceRead s c (saveSlotAddr s c slot + 0xC100) 352) n.toNat := by
  have pos : 0 ≠ n.toNat := fun e => hn (BitVec.eq_of_toNat_eq e.symm)
  obtain ⟨F, hF⟩ : ∃ F, F = slotRegs := ⟨_, rfl⟩
  rw [← hF]
  delta slotRegs at hF
  generalize 0x2C000 = size at h hF
  subst hF
  simp only [h, Regs.getS, if_neg hn, rget, Regs.withImage]
  rw [Vector.getElem_set_ne _ _ pos, Vector.getElem_ofFn]
  rfl

theorem exec_kill_team {s : State} {c : CoreId} {x : CtxId} {t : Team} (act : (s.ctx c x).action = some 2)
    (out : (s.ctx c x).handler = false) (runs : running (s.ctx c x) = true) (team : s.team (s.ctx c x).job.team = some t) :
    exec (.kill c x) s = .next (killTeam s t false) := by
  have go : ¬ ((s.ctx c x).action ≠ some 2 ∨ (s.ctx c x).handler = true ∨ ¬ running (s.ctx c x) = true) := by
    rw [act, out, runs]; decide
  rw [exec_kill]
  simp only [execKill, if_neg go, team]

theorem exec_teamAbort_team {s : State} {t : Team} (team : s.team t.id = some t) : exec (.teamAbort t.id) s = .next (killTeam s t true) := by
  rw [exec_teamAbort, execTeamAbort, team]

/-! A killed team that has drained (R279, R383). -/

@[simp] theorem setTile_replaced (s : State) (h : W64) (t : Tile) : (setTile s h t).replaced = s.replaced := rfl

theorem foldl_replaced {β : Type} {f : State → β → State} (h : ∀ s b, (f s b).replaced = s.replaced) :
    ∀ (l : List β) (s : State), (l.foldl f s).replaced = s.replaced
  | [], _ => rfl
  | b :: l, s => (foldl_replaced h l (f s b)).trans (h s b)

@[simp] theorem dropTransfer_replaced (s : State) (id : Option Nat) : (dropTransfer s id).replaced = s.replaced := by
  cases id <;> rfl

@[simp] theorem drainEngine_replaced (s : State) (m : CoreId × CtxId) : (drainEngine s m).replaced = s.replaced :=
  foldl_replaced (fun s (q : Copy) => dropTransfer_replaced s q.xfer) _ _

@[simp] theorem reclaimSilently_replaced (s : State) (team : Nat) : (reclaimSilently s team).replaced = s.replaced := by
  unfold reclaimSilently
  simp only
  split
  · exact foldl_replaced (fun s h => setTile_replaced s h _) _ _
  · exact foldl_replaced (fun s h => setTile_replaced s h _) _ _

/-- The members are placed again in their order, before the records that were placed again earlier. -/
theorem placeAgain_all (p : PartId) (es : List Exit) (s : State) : es.reverse.foldl (fun s e => placeAgain s p e) s
    = { s with replaced := es.map (fun e => (p, { name := e.record.name, host := e.record.host })) ++ s.replaced } := by
  induction es with
  | nil => rfl
  | cons e es ih => rw [List.reverse_cons, List.foldl_append, ih]; rfl

theorem team_forgotten (s : State) (id : Nat) : ({ s with teams := s.teams.filter (fun u => u.id != id) } : State).team id = none := by
  rw [State.team, List.find?_eq_none]
  intro u hu same
  have kept := (List.mem_filter.1 hu).2
  rw [beq_iff_eq] at same
  simp [same] at kept

theorem exec_killDrainDone_replaces {s : State} {t : Team} (team : s.team t.id = some t) (killed : t.killed = true) (kill : t.abort = false) :
    ∃ u, exec (.killDrainDone t.id) s = .next u ∧ u.team t.id = none ∧
      u.replaced = t.exits.map (fun e => (t.part, { name := e.record.name, host := e.record.host })) ++ s.replaced := by
  rw [exec_killDrainDone]
  simp only [execKillDrainDone, team, killed, kill, Bool.not_true, Bool.false_eq_true, if_false, placeAgain_all]
  refine ⟨_, rfl, team_forgotten .., congrArg (_ ++ ·) ?_⟩
  rw [State.setPart_replaced, reclaimSilently_replaced]
  exact foldl_replaced drainEngine_replaced _ _

/-- Settles O38: each event by its equation in its case; the core that takes a record is `placeCore_fewest`'s. -/
theorem dispatching : Obligations.Dispatching := by
  refine ⟨fun p s h on free alive here next token => ?_,
    fun p o c w s u x e rest on start free calm mine idle token there first room head pushed hw grant hu => ?_,
    fun p s u h c x on token next good lone full loses hu => hu ▸ exec_preemption_victim on token next good lone full loses,
    fun p gang s g n gs acc scratch places found entry complete on free some all fit token =>
      exec_gangPlacement_whole found entry complete on free some all fit token,
    fun p s => ⟨fun new limit => ⟨_, rfl, refreshBudgets_tokens new limit, rfl⟩, fun new inn out => ?_⟩,
    fun c x s since act drain late => exec_drainLimit_over act drain late,
    fun c x s act out => ⟨fun n runs none small slot below => ?_,
      fun n v saving mine who calm there fences good => exec_save_finishes act out saving mine who calm there fences good⟩,
    fun c x s u v rest free first acc array start room hu => ?_,
    fun c x s t act out runs team => exec_kill_team act out runs team, fun s t team => exec_teamAbort_team team,
    fun s t team killed kill => exec_killDrainDone_replaces team killed kill⟩
  · obtain ⟨refused, gang, placed⟩ := exec_dispatch_next on free alive here next token
    exact ⟨refused, gang, fun c x good lone hc fits least => placed c x good lone (placeCore_fewest hc fits least)⟩
  · subst hw hu
    exact exec_steal_widened on start free calm mine idle token there first room head pushed grant
  · obtain ⟨slips, mem, lugil⟩ := refreshBudgets_period new
    exact ⟨_, exec_budgetPeriod_empty inn out, fun limit => slips.trans (if_neg limit), mem, lugil, rfl⟩
  · refine ⟨_, exec_save_begins act out runs none (freeSlot_lowest small slot below), ?_⟩
    dsimp only
    rw [State.ctx_setCtx_same]
    refine ⟨rfl, rfl, rfl, s.retrains.any (fun r => r.running && r.thermal && saveTarget s c n == some r.target),
      (congrArg Core.saves (core_setCtx_rest _ c c x _) :).trans ?_, ?_⟩
    · rw [State.core_setCore_same]
    · simp only [List.any_eq_true, Bool.and_eq_true, beq_iff_eq, and_assoc]
  · subst hu
    obtain ⟨t, run, regs, ck, phase, job, units⟩ := exec_saveResume_first free first acc array start room
    exact ⟨t, run, ck, phase, job, units, fun q h => regs.trans (slotRegs_misplaced h), fun q n h hn => regs ▸ slotRegs_getS h hn⟩

end Sys2Proof.Machine

namespace Sys2Proof.Machine

/-! Fields of a word after a field of it is written. -/

theorem wbits_testBit (w : W64) (lo n i : Nat) : (wbits w lo n).testBit i = (decide (i < n) && w.getLsbD (lo + i)) := by
  rw [wbits, Nat.testBit_mod_two_pow, Nat.testBit_div_two_pow, BitVec.getLsbD, Nat.add_comm]

theorem wbits_lt (w : W64) (lo n : Nat) : wbits w lo n < 2 ^ n := Nat.mod_lt _ (Nat.two_pow_pos n)

/-- The field that is written. -/
theorem wbits_wset_same (w : W64) (lo n x : Nat) (h : lo + n ≤ 64) : wbits (wset w lo n x) lo n = x % 2 ^ n := by
  apply Nat.eq_of_testBit_eq
  intro i
  rw [wbits_testBit, Nat.testBit_mod_two_pow]
  by_cases hi : i < n
  · rw [getLsbD_wset _ _ _ _ _ (by omega), if_pos (by omega), Nat.add_sub_cancel_left]
  · simp [hi]

/-- A field apart from the one that is written. -/
theorem wbits_wset_apart (w : W64) (lo n x at_ m : Nat) (inside : at_ + m ≤ 64) (apart : at_ + m ≤ lo ∨ lo + n ≤ at_) :
    wbits (wset w lo n x) at_ m = wbits w at_ m := by
  apply Nat.eq_of_testBit_eq
  intro i
  rw [wbits_testBit, wbits_testBit]
  by_cases hi : i < m
  · rw [getLsbD_wset _ _ _ _ _ (by omega), if_neg (by omega)]
  · simp [hi]

theorem wbit_wset_same (w : W64) (k x : Nat) (h : k < 64) : wbit (wset w k 1 x) k = x.testBit 0 := by
  rw [wbit_eq, getLsbD_wset _ _ _ _ _ h, if_pos (by omega), Nat.sub_self]

theorem wbit_wset_toNat (w : W64) (k : Nat) (b : Bool) (h : k < 64) : wbit (wset w k 1 b.toNat) k = b := by
  rw [wbit_wset_same w k _ h]; cases b <;> rfl

/-! A package register that is written changes nothing else. -/

theorem State.part_withPkg (s : State) (k : PkgRegs) (p : PartId) : ({ s with pkg := k } : State).part p = s.part p := rfl

theorem State.pool_withPkg (s : State) (k : PkgRegs) (c : CoreId) (q : Fin 16) : ({ s with pkg := k } : State).pool c q = s.pool c q := rfl

/-! Configuration operations (R394). -/

/-- What the host does once boot has enabled its port. -/
theorem hostAct_ready {s : State} (h : s.boot = .ready) (f : State → State) : hostAct s f = f s := if_pos h

theorem hostAct_early {s : State} (h : s.boot ≠ .ready) (f : State → State) : hostAct s f = s := if_neg h

/-- The busy bit and the result in cfg_op. -/
theorem cfgWord_fields (v : W64) (busy : Bool) (n : Nat) (h : n < 256) :
    wbit (cfgWord v busy n) 31 = busy ∧ wbits (cfgWord v busy n) 32 8 = n := by
  have low := wbits_lt v 0 21
  have mid := wbits_lt v 24 6
  have one := Bool.toNat_le busy
  rw [wbit_eq]
  refine ⟨getLsbD_of_toNat ?_, ?_⟩ <;> simp only [cfgWord, wbits, BitVec.toNat_ofNat] at * <;> omega

/-- An operation that has ended: it is no longer busy and reports its result. -/
theorem cfgEnd_reports (s : State) (v : W64) : cfgBusy (cfgEnd s v 0) = false ∧ wbits (cfgEnd s v 0).pkg.cfgOp 32 8 = 0 :=
  cfgWord_fields v false 0 (by decide)

theorem cfgEnd_part (s : State) (v : W64) (n : Nat) (p : PartId) : (cfgEnd s v n).part p = s.part p :=
  State.part_withPkg s { s.pkg with cfgOp := cfgWord v false n } p

theorem cfgEnd_pool (s : State) (v : W64) (n : Nat) (c : CoreId) (q : Fin 16) : (cfgEnd s v n).pool c q = s.pool c q :=
  State.pool_withPkg s { s.pkg with cfgOp := cfgWord v false n } c q

theorem cfgRuns_part (s : State) (v : W64) (p : PartId) : (cfgRuns s v).part p = s.part p :=
  State.part_withPkg s { s.pkg with cfgOp := cfgWord v true 0 } p

theorem cfgBusy_of_pkg {s t : State} (h : t.pkg = s.pkg) : cfgBusy t = cfgBusy s := by rw [cfgBusy, cfgBusy, h]

theorem cfgBusy_setPart (s : State) (p : PartId) (x : Part) : cfgBusy (s.setPart p x) = cfgBusy s :=
  cfgBusy_of_pkg (s := s) (t := s.setPart p x) rfl

theorem cfgRuns_busy (s : State) (v : W64) : cfgBusy (cfgRuns s v) = true := (cfgWord_fields v true 0 (by decide)).1

/-- A word of a known operation. -/
theorem cfgKnown {v : W64} {k : Nat} (good : cfgBad v = false) (kind : cfgKind v = k) : ¬ (cfgBad v = true ∨ cfgKind v ≠ k) := by
  rw [good, kind]; simp

/-- An operation that the host starts while none is running. -/
theorem startCfg_idle {s : State} (h : cfgBusy s = false) (f : State → State) : startCfg s f = f s := if_neg (ne_true_of_eq_false h)

theorem exec_cfgTranslationTable_begins {v : W64} {s : State} (ready : s.boot = .ready) (idle : cfgBusy s = false) (good : cfgBad v = false)
    (kind : cfgKind v = 1) :
    exec (.cfgTranslationTable v) s = .next ((cfgRuns s v).setPart (cfgPart v) { (cfgRuns s v).part (cfgPart v) with loading := true }) := by
  rw [exec_cfgTranslationTable, execCfgTranslationTable, hostAct_ready ready, startCfg_idle idle, tableOp, if_neg (cfgKnown good kind)]

/-- A partition whose loaded table is in force. -/
def tableLoaded (s : State) (p : PartId) (es : List Extent) : State :=
  (s.setPart p { s.part p with loading := false }).setPart p
    { (s.setPart p { s.part p with loading := false }).part p with table := es }

theorem tableLoaded_part (s : State) (p : PartId) (es : List Extent) :
    (tableLoaded s p es).part p = { s.part p with loading := false, table := es } := by
  rw [tableLoaded, State.part_setPart_same, State.part_setPart_same]

/-- The literal 8,192 is generalised before the operation is unfolded: Lean would otherwise count it down. -/
theorem exec_tableInstall_installs {p : PartId} {s : State} {bs : List Byte} (busy : cfgBusy s = true) (kind : cfgKind s.pkg.cfgOp = 1)
    (part : cfgPart s.pkg.cfgOp = p) (idle : partIdle s p = true) (bytes : cfgBytes s p 8192 = .bytes bs)
    (each : ((tableOf bs).filter (fun e => e.valid)).all (extentOk s) = true)
    (apart : disjoint ((tableOf bs).filter (fun e => e.valid)) = true) :
    exec (.tableInstall p) s = .next (cfgEnd (tableLoaded s p ((tableOf bs).filter (fun e => e.valid))) s.pkg.cfgOp 0) := by
  obtain ⟨F, hF⟩ : ∃ F, F = execTableInstall := ⟨_, rfl⟩
  rw [exec_tableInstall, ← hF]
  delta execTableInstall at hF
  generalize 8192 = n at bytes hF
  subst hF
  simp only [busy, kind, part, idle, bytes, bne_self_eq_false, Bool.not_true, Bool.or_self, Bool.false_eq_true, if_false]
  exact if_pos (by rw [each, apart]; rfl)

theorem exec_cfgPoolDescriptor_installs {v : W64} {s : State} {bs : List Byte} {n : Pool} (ready : s.boot = .ready) (idle : cfgBusy s = false)
    (good : cfgBad v = false) (kind : cfgKind v = 2) (mine : s.partOf (cfgCore v) = some (cfgPart v))
    (bytes : cfgBytes s (cfgPart v) 32 = .bytes bs) (hn : n = poolOfWords (Vector.ofFn (fun i : Fin (2 ^ 2) => wordAt bs i.val)))
    (fits : poolOk s (cfgCore v) (cfgPool v) n = true) :
    exec (.cfgPoolDescriptor v) s = .next (cfgEnd (s.setPool (cfgCore v) (cfgPool v)
      { s.pool (cfgCore v) (cfgPool v) with desc := n.desc }) v 0) := by
  subst hn
  have known : ¬ (cfgBad v = true ∨ cfgKind v ≠ 2 ∨ s.partOf (cfgCore v) ≠ some (cfgPart v)) := by
    rw [good, kind, mine]; simp
  rw [exec_cfgPoolDescriptor, execCfgPoolDescriptor, hostAct_ready ready, startCfg_idle idle, poolOp, if_neg known]
  simp only [bytes, if_pos fits]

theorem exec_cfgParkClass_installs {v : W64} {s : State} {bs : List Byte} (ready : s.boot = .ready) (idle : cfgBusy s = false)
    (good : cfgBad v = false) (kind : cfgKind v = 3) (bytes : cfgBytes s (cfgPart v) 16 = .bytes bs)
    (fits : classOk #v[wordAt bs 0, wordAt bs 1] = true) :
    exec (.cfgParkClass v) s = .next (cfgEnd (s.setPart (cfgPart v) { s.part (cfgPart v) with
      park := rset (s.part (cfgPart v)).park (cfgClass v) #v[wordAt bs 0, wordAt bs 1] }) v 0) := by
  rw [exec_cfgParkClass, execCfgParkClass, hostAct_ready ready, startCfg_idle idle, classOp, if_neg (cfgKnown good kind)]
  simp only [bytes, if_pos fits]

/-! Weight-store locks (R395). -/

theorem exec_wsLockEffect_ready {p : PartId} {s : State} (differs : (s.part p).wsWant ≠ (s.part p).wsLocked)
    (copied : (s.part p).wsWant = true → writingStore s p = false)
    (empty : (s.part p).wsWant = false → ∀ c ∈ coresOf s p, (s.core c).ctx.toList.any running = false) :
    exec (.wsLockEffect p) s = .next (
      let t := s.setPart p { s.part p with wsLocked := (s.part p).wsWant }
      { t with pkg := { t.pkg with wsLock := wset t.pkg.wsLock p.val 1 (s.part p).wsWant.toNat } }) := by
  have ready : (if (s.part p).wsWant then !writingStore s p else !(coresOf s p).any (fun c => (s.core c).ctx.toList.any running)) = true := by
    cases want : (s.part p).wsWant with
    | true => rw [if_pos rfl, copied want]; rfl
    | false =>
      rw [if_neg Bool.false_ne_true, Bool.not_eq_true', List.any_eq_false]
      exact fun c hc => ne_true_of_eq_false (empty want c hc)
  rw [exec_wsLockEffect, execWsLockEffect]
  simp only [ready]
  exact if_neg (by simpa using differs)

/-- Settles O43: each operation by its equation where its checks pass. -/
theorem configuration : Obligations.Configuration := by
  refine ⟨fun v s ready idle good kind => ?_, fun p s bs busy kind part idle bytes each apart => ?_,
    fun v s bs n ready idle good kind mine bytes hn fits => ?_, fun v s bs ready idle good kind bytes fits => ?_,
    fun p s ready => ⟨?_, ?_⟩, fun p s differs copied empty => ⟨_, exec_wsLockEffect_ready differs copied empty, ?_, ?_, rfl⟩⟩
  · refine ⟨_, exec_cfgTranslationTable_begins ready idle good kind, ?_, ?_⟩
    · rw [cfgBusy_setPart, cfgRuns_busy]
    · rw [State.part_setPart_same, cfgRuns_part]
      exact ⟨rfl, rfl⟩
  · obtain ⟨done, result⟩ := cfgEnd_reports (tableLoaded s p ((tableOf bs).filter (fun e => e.valid))) s.pkg.cfgOp
    have installed := tableLoaded_part s p ((tableOf bs).filter (fun e => e.valid))
    refine ⟨_, exec_tableInstall_installs busy kind part idle bytes each apart, ?_, ?_, done, result, rfl⟩
    · rw [cfgEnd_part, installed]
    · rw [cfgEnd_part, installed]
  · have installed := State.pool_setPool_same s (cfgCore v) (cfgPool v) { s.pool (cfgCore v) (cfgPool v) with desc := n.desc }
    refine ⟨_, exec_cfgPoolDescriptor_installs ready idle good kind mine bytes hn fits, ?_, ?_, (cfgEnd_reports _ v).2⟩
    · rw [cfgEnd_pool, installed]
    · rw [cfgEnd_pool, installed]
  · have installed := State.part_setPart_same s (cfgPart v) { s.part (cfgPart v) with
      park := rset (s.part (cfgPart v)).park (cfgClass v) #v[wordAt bs 0, wordAt bs 1] }
    refine ⟨_, exec_cfgParkClass_installs ready idle good kind bytes fits, ?_, (cfgEnd_reports _ v).2⟩
    rw [cfgEnd_part, installed]
    exact rget_rset_same ..
  · rw [exec_wsLockSet, execWsLockSet, hostAct_ready ready]
  · rw [exec_wsLockClear, execWsLockClear, hostAct_ready ready]
  · exact (congrArg Part.wsLocked (State.part_setPart_same s p _) :)
  · exact wbit_wset_toNat _ _ _ (by omega)

end Sys2Proof.Machine

namespace Sys2Proof.Machine

/-- A field of one bit. -/
theorem wbits_one (w : W64) (k : Nat) : wbits w k 1 = (w.getLsbD k).toNat := (Nat.toNat_testBit ..).symm

/-! Host queue pages (R416, R417). -/

theorem State.queue_setQueue_ne (s : State) (q p : QueueId) (h : HostQueue) (ne : p ≠ q) : (s.setQueue q h).queue p = s.queue p := by
  simp only [State.queue, State.setQueue]
  exact Vector.getElem_set_ne q.isLt p.isLt (fun e => ne (Fin.ext e.symm))

/-- The host rings the tail of a queue that no packet feeds; the head stays. -/
theorem ringTail_host {q : QueueId} {s : State} (host : (s.queue q).fabric = false) (tail : BitVec 16) :
    ((ringTail q tail.toNat s).queue q).tail = tail.toNat ∧ ((ringTail q tail.toNat s).queue q).head = (s.queue q).head ∧
      (ringTail q tail.toNat s).mem = s.mem := by
  rw [ringTail, if_neg (ne_true_of_eq_false host), State.queue_setQueue_same]
  refine ⟨?_, ?_, rfl⟩
  · exact (wbits_wset_same _ _ _ _ (by decide)).trans (Nat.mod_eq_of_lt tail.isLt)
  · exact wbits_wset_apart _ _ _ _ _ _ (by decide) (by decide)

/-- The fields of a written q1. -/
theorem queueWord_fields (h : HostQueue) (v : W64) (size : Nat) (small : size < 16)
    (hw : h.q1 = BitVec.ofNat 64 (size + wbits v 8 4 * 2 ^ 8 + wbits v 12 1 * 2 ^ 12 + wbits v 13 1 * 2 ^ 13 + wbits v 16 11 * 2 ^ 16)) :
    h.en = v.getLsbD 12 ∧ h.part.val = wbits v 8 4 ∧ h.fabric = v.getLsbD 13 ∧ h.vec.toNat = wbits v 16 11 ∧ h.size = size := by
  have part := wbits_lt v 8 4
  have en := Bool.toNat_le (v.getLsbD 12)
  have fabric := Bool.toNat_le (v.getLsbD 13)
  have vec := wbits_lt v 16 11
  rw [wbits_one, wbits_one] at hw
  simp only [HostQueue.en, HostQueue.fabric, wbit_eq, HostQueue.size, HostQueue.vec, HostQueue.part, hw]
  generalize wbits v 8 4 = p at *
  generalize wbits v 16 11 = k at *
  refine ⟨getLsbD_of_toNat ?_, ?_, getLsbD_of_toNat ?_, ?_, ?_⟩ <;> simp only [wbits, BitVec.toNat_ofNat] <;> omega

/-- A disabled queue takes the fields of q1. -/
theorem writeQueueCtl_disabled {h : HostQueue} (off : h.en = false) (v : W64) :
    (writeQueueCtl h v).en = v.getLsbD 12 ∧ (writeQueueCtl h v).part.val = wbits v 8 4 ∧ (writeQueueCtl h v).fabric = v.getLsbD 13 ∧
    (writeQueueCtl h v).vec.toNat = wbits v 16 11 ∧ (writeQueueCtl h v).size = (if wbits v 0 4 < 4 then h.size else wbits v 0 4) ∧
    (writeQueueCtl h v).q0 = h.q0 ∧ (writeQueueCtl h v).q3 = h.q3 ∧
    ((writeQueueCtl h v).en = true ∨ (writeQueueCtl h v).size ≠ h.size → (writeQueueCtl h v).q2 = 0 ∧ (writeQueueCtl h v).q4 = 0) := by
  generalize hsize : (if wbits v 0 4 < 4 then h.size else wbits v 0 4) = size
  have small : size < 16 := by
    rw [← hsize]; split
    · exact wbits_lt _ 0 4
    · exact wbits_lt _ 0 4
  obtain ⟨w, hw⟩ : ∃ w, w = writeQueueCtl h v := ⟨_, rfl⟩
  rw [← hw]
  rw [writeQueueCtl, if_neg (ne_true_of_eq_false off), hsize] at hw
  dsimp only at hw
  by_cases restart : wbit v 12 = true ∨ size ≠ h.size
  · rw [if_pos restart] at hw
    obtain ⟨en, part, fabric, vec, sz⟩ := queueWord_fields w v size small (by rw [hw])
    subst hw
    exact ⟨en, part, fabric, vec, sz, rfl, rfl, fun _ => ⟨rfl, rfl⟩⟩
  · rw [if_neg restart] at hw
    obtain ⟨en, part, fabric, vec, sz⟩ := queueWord_fields w v size small (by rw [hw])
    subst hw
    refine ⟨en, part, fabric, vec, sz, rfl, rfl, fun h' => absurd ?_ restart⟩
    rwa [en, sz, ← wbit_eq] at h'

end Sys2Proof.Machine

namespace Sys2Proof.Machine

/-! Partition registers that the host writes (R388, R414). -/

/-- A partition's registers, in the order of their numbers from 0x200. -/
def Part.regs (k : Part) : List W64 :=
  [k.hbase, k.pasid, k.tokens, k.pushLim, k.stealDly, k.drainLim, k.blkWdog, k.allocWdog, k.abandoned, k.staleWake, k.sringBase, k.sringCtl,
    k.sringLost, k.gangBase, k.budMem, k.budSlip, k.flBase[0], k.flBase[1], k.flBase[2], k.itOwn, k.flCtl[0], k.flCtl[1], k.flCtl[2],
    k.saveLate, k.budLugil, k.podGrp, k.flBase[3], k.flCtl[3]]

theorem readPartReg_regs (s : State) (p : PartId) (n : Nat) :
    readPartReg s p n = if 0x200 ≤ n then (s.part p).regs.getD (n - 0x200) 0 else 0 := by
  unfold readPartReg
  split
  case h_29 =>
    split
    · have outside : (s.part p).regs.length ≤ n - 0x200 := by
        show 28 ≤ _
        simp only [imp_false] at *
        omega
      rw [List.getD_eq_default _ _ outside]
    · rfl
  all_goals rfl

/-- A change of one register, as the registers read before and after it. -/
theorem readPartReg_set {s t : State} {p : PartId} {v : W64} (i : Nat) (inside : i < 28)
    (set : (t.part p).regs = (s.part p).regs.set i v) :
    readPartReg t p (0x200 + i) = v ∧ ∀ m, m ≠ 0x200 + i → readPartReg t p m = readPartReg s p m := by
  have length : (s.part p).regs.length = 28 := rfl
  constructor
  · rw [readPartReg_regs, if_pos (by omega), set, Nat.add_sub_cancel_left, List.getD_eq_getElem _ _ (by rw [List.length_set]; omega),
      List.getElem_set_self]
  · intro m ne
    rw [readPartReg_regs, readPartReg_regs, set]
    split
    · rw [List.getD_eq_getElem?_getD, List.getElem?_set_ne (by omega), List.getD_eq_getElem?_getD]
    · rfl

theorem refreshBudgets_regs (s : State) (p : PartId) : ((refreshBudgets s p).part p).regs = (s.part p).regs := by
  by_cases tokens : (s.part p).tokenAt = s.cycle / 200000 + 1 <;> by_cases slips : (s.part p).slipAt = s.cycle / 2000 + 1 <;>
    simp only [refreshBudgets, tokens, slips, if_true, if_false, State.part_setPart_same, Part.regs]

/-- The registers that take the low bits of what the host writes, with their widths. -/
def narrowRegs : List (Nat × Nat) := [(0x201, 20), (0x202, 16), (0x203, 6), (0x204, 32), (0x205, 32), (0x206, 32), (0x207, 32), (0x20E, 32),
  (0x20F, 32), (0x218, 32), (0x219, 8)]

/-- A written base of a free list; the fourth stands behind the others (R388). -/
theorem regs_flBase (k : Part) (i : Fin 4) (v : W64) :
    ({ k with flBase := k.flBase.set i.val v i.isLt } : Part).regs = k.regs.set (if i = 3 then 26 else 16 + i.val) v := by
  match i with
  | 0 | 1 | 2 | 3 => simp [Part.regs]

/-- The registers that take what the host writes. -/
def wholeRegs : List Nat := [0x200, 0x20A, 0x20D, 0x210, 0x211, 0x212, 0x21A]

theorem writePart_narrow {n w : Nat} (narrow : (n, w) ∈ narrowRegs) (s : State) (p : PartId) (v : W64) :
    ((writePart s p n v).part p).regs = (s.part p).regs.set (n - 0x200) (BitVec.ofNat 64 (wbits v 0 w)) ∧ (writePart s p n v).mem = s.mem := by
  simp only [narrowRegs, List.mem_cons, Prod.mk.injEq, List.not_mem_nil, or_false] at narrow
  rw [← refreshBudgets_regs s p]
  rcases narrow with ⟨rfl, rfl⟩ | ⟨rfl, rfl⟩ | ⟨rfl, rfl⟩ | ⟨rfl, rfl⟩ | ⟨rfl, rfl⟩ | ⟨rfl, rfl⟩ | ⟨rfl, rfl⟩ | ⟨rfl, rfl⟩ | ⟨rfl, rfl⟩ |
    ⟨rfl, rfl⟩ | ⟨rfl, rfl⟩ <;>
    exact ⟨(congrArg Part.regs (State.part_setPart_same ..)).trans rfl, rfl⟩

theorem writePart_whole {n : Nat} (whole : n ∈ wholeRegs) (s : State) (p : PartId) (v : W64) :
    ((writePart s p n v).part p).regs = (s.part p).regs.set (n - 0x200) v ∧ (writePart s p n v).mem = s.mem := by
  simp only [wholeRegs, List.mem_cons, List.not_mem_nil, or_false] at whole
  rw [← refreshBudgets_regs s p]
  rcases whole with rfl | rfl | rfl | rfl | rfl | rfl | rfl
  · exact ⟨(congrArg Part.regs (State.part_setPart_same ..)).trans rfl, rfl⟩
  · exact ⟨(congrArg Part.regs (State.part_setPart_same ..)).trans rfl, rfl⟩
  · exact ⟨(congrArg Part.regs (State.part_setPart_same ..)).trans rfl, rfl⟩
  · exact ⟨(congrArg Part.regs (State.part_setPart_same ..)).trans (regs_flBase _ 0 v), rfl⟩
  · exact ⟨(congrArg Part.regs (State.part_setPart_same ..)).trans (regs_flBase _ 1 v), rfl⟩
  · exact ⟨(congrArg Part.regs (State.part_setPart_same ..)).trans (regs_flBase _ 2 v), rfl⟩
  · exact ⟨(congrArg Part.regs (State.part_setPart_same ..)).trans (regs_flBase _ 3 v), rfl⟩

end Sys2Proof.Machine

namespace Sys2Proof.Machine

/-- The low bits of a word. -/
theorem lowBits_and (v : W64) (n : Nat) : BitVec.ofNat 64 (wbits v 0 n) = v &&& BitVec.ofNat 64 (2 ^ n - 1) := by
  apply BitVec.eq_of_getLsbD_eq
  intro i hi
  rw [BitVec.getLsbD_ofNat, wbits_testBit, BitVec.getLsbD_and, BitVec.getLsbD_ofNat, Nat.testBit_two_pow_sub_one, Nat.zero_add,
    decide_eq_true hi, Bool.true_and, Bool.true_and, Bool.and_comm]

/-! Register writes of the host through BAR0 (R388, R414). -/

theorem exec_registerWrite_part {s : State} (ready : s.boot = .ready) (p : PartId) {n : Nat} (scope : 0x200 ≤ n ∧ n < 0x300) (v : W64) :
    exec (.registerWrite (1 + p.val) n v) s = .next (writePart s p n v) := by
  have block : (1 + p.val) - 1 < 16 := by omega
  have part : (⟨(1 + p.val) - 1, block⟩ : PartId) = p := Fin.ext (by simp only; omega)
  rw [exec_registerWrite, execRegisterWrite, hostAct_ready ready, hostWrite, if_neg (by omega), dif_pos block, if_pos scope, part]

theorem exec_registerWrite_core {s : State} (ready : s.boot = .ready) (c : CoreId) {n : Nat} (scope : 0x120 ≤ n ∧ n < 0x200) (v : W64) :
    exec (.registerWrite (32 + c.val) n v) s = .next (writeCore s c n v) := by
  have block : (32 + c.val) - 32 < 512 := by omega
  have core : (⟨(32 + c.val) - 32, block⟩ : CoreId) = c := Fin.ext (by simp only; omega)
  rw [exec_registerWrite, execRegisterWrite, hostAct_ready ready, hostWrite, if_neg (by omega), dif_neg (by omega), dif_pos block,
    if_pos ⟨by omega, scope⟩, core]

/-- A register that stands in another scope than its block is not written. -/
theorem exec_registerWrite_outside {block n : Nat} (pkg : block = 0 → n < 0x300) (part : 1 ≤ block → block ≤ 16 → n < 0x200 ∨ 0x300 ≤ n)
    (core : 32 ≤ block → block < 544 → n < 0x120 ∨ 0x200 ≤ n) (v : W64) (s : State) : exec (.registerWrite block n v) s = .next s := by
  have ignored : hostWrite block n v s = s := by
    unfold hostWrite
    split
    · exact if_neg (by omega)
    · split
      · exact if_neg (by omega)
      · split
        · exact if_neg (by omega)
        · rfl
  rw [exec_registerWrite, execRegisterWrite, hostAct, ignored, ite_self]

/-- The 64 route registers (R414). -/
theorem writePkg_route (s : State) (n : BitVec 6) (v : W64) :
    writePkg s (0x310 + n.toNat) v = { s with pkg := { s.pkg with route := rset s.pkg.route n (v &&& 0x3F) } } := by
  have low : BitVec.ofNat 64 (wbits v 0 6) = v &&& 0x3F := lowBits_and v 6
  have number : BitVec.ofNat 6 (0x310 + n.toNat - 0x310) = n := by simp
  have small := n.isLt
  unfold writePkg
  split
  case h_9 => rw [if_pos (by omega), number, low]
  all_goals omega

/-! Reads of the host through BAR0 (R8, R414). -/

theorem exec_rcRegisterRead_part {s : State} (ready : s.boot = .ready) (p : PartId) {n : Nat} (scope : 0x200 ≤ n ∧ n < 0x300) :
    exec (.rcRegisterRead (1 + p.val) n) s = .next ((clearReg s 0 p n).emit (.regRead (1 + p.val) n (readPartReg s p n))) := by
  have block : (1 + p.val) - 1 < 16 := by omega
  have part : (⟨(1 + p.val) - 1, block⟩ : PartId) = p := Fin.ext (by simp only; omega)
  rw [exec_rcRegisterRead, execRcRegisterRead, hostAct_ready ready, hostRead, if_neg (by omega), dif_pos block, if_pos scope, part]

theorem exec_rcRegisterRead_core {s : State} (ready : s.boot = .ready) (c : CoreId) {n : Nat} (scope : 0x120 ≤ n ∧ n < 0x200) :
    exec (.rcRegisterRead (32 + c.val) n) s = .next ((clearReg s c 0 n).emit (.regRead (32 + c.val) n (readCoreReg s c n))) := by
  have block : (32 + c.val) - 32 < 512 := by omega
  have core : (⟨(32 + c.val) - 32, block⟩ : CoreId) = c := Fin.ext (by simp only; omega)
  rw [exec_rcRegisterRead, execRcRegisterRead, hostAct_ready ready, hostRead, if_neg (by omega), dif_neg (by omega), dif_pos block,
    if_pos ⟨by omega, scope⟩, core]

/-- A partition register that a read clears. -/
theorem clearReg_regs {n : Nat} (rc : n = 0x208 ∨ n = 0x209 ∨ n = 0x20C ∨ n = 0x217) (s : State) (p : PartId) :
    ((clearReg s 0 p n).part p).regs = (s.part p).regs.set (n - 0x200) 0 := by
  rcases rc with rfl | rfl | rfl | rfl <;> exact (congrArg Part.regs (State.part_setPart_same ..)).trans rfl

/-! Itineraries of a partition (R388). -/

theorem foldl_bits (v : W64) (n : Nat) : (List.range n).foldl (fun a i => a + (wbit v i).toNat * 2 ^ i) 0 = v.toNat % 2 ^ n := by
  induction n with
  | zero => simp [Nat.mod_one]
  | succ n ih =>
    rw [List.range_succ, List.foldl_append, ih, List.foldl_cons, List.foldl_nil, Nat.mod_pow_succ, wbit_eq, ← wbits_one, wbits,
      Nat.pow_one, Nat.mul_comm]

/-- Where no itinerary runs and no other partition holds one, it_own takes what is written. -/
theorem writeItOwn_free {s : State} {p : PartId} (idle : ∀ it, (s.itin it).state = .idle) (free : ∀ o, o ≠ p → (s.part o).itOwn = 0)
    (v : W64) : writeItOwn s p v = s.setPart p { s.part p with itOwn := v &&& 0xFFFF } := by
  have still (i : Nat) : (diesOf s p).any (fun d => itBusy s d i) = false :=
    List.any_eq_false.2 (fun d _ => by simp only [itBusy, idle]; decide)
  have clear (i : Nat) : wbit (0 : W64) i = false := by simp [wbit]
  have apart (i : Nat) : (List.finRange 16).any
      (fun o => o != p && wbit (s.part o).itOwn i && (diesOf s o).any ((diesOf s p).contains ·)) = false := by
    rw [List.any_eq_false]
    intro o _
    by_cases same : o = p
    · simp [same]
    · rw [free o same, clear]; simp
  have word : BitVec.ofNat 64 (v.toNat % 2 ^ 16) = v &&& 0xFFFF :=
    (congrArg _ (by rw [wbits, Nat.pow_zero, Nat.div_one])).trans (lowBits_and v 16)
  have bit (i : Nat) : (if wbit v i == wbit (s.part p).itOwn i then wbit (s.part p).itOwn i else wbit v i) = wbit v i := by
    split
    · exact (eq_of_beq ‹_›).symm
    · rfl
  rw [writeItOwn]
  simp only [still, apart, bit, Bool.and_false, Bool.or_self, Bool.false_eq_true, if_false, foldl_bits, word]

end Sys2Proof.Machine

namespace Sys2Proof.Machine

/-! Spill rings (R127). -/

theorem writeSpill_allowed {s : State} {c : CoreId} {n : Nat} {v : W64} (queue : (s.core c).queue = []) (ring : (s.core c).spillCount = 0)
    (held : (s.core c).heldPushes = []) (allowed : n = 0x121 ∨ wbits v 0 5 = 0 ∨ (6 ≤ wbits v 0 5 ∧ wbits v 0 5 ≤ 16)) :
    writeSpill s c n v = s.setCore c { s.core c with
      spillBase := if n = 0x121 then v else (s.core c).spillBase,
      spillSize := if n = 0x121 then (s.core c).spillSize else BitVec.ofNat 5 (wbits v 0 5),
      spillHead := 0, spillTail := 0, spillCount := 0, spillRefused := false } := by
  rw [writeSpill]
  exact if_pos ⟨allowed, by rw [queue]; rfl, ring, by rw [held]; rfl⟩

theorem writeSpill_refused {s : State} {c : CoreId} (filled : (s.core c).queue ≠ [] ∨ (s.core c).spillCount ≠ 0) (n : Nat) (v : W64) :
    writeSpill s c n v = s.setCore c { s.core c with spillRefused := true } := by
  rw [writeSpill]
  refine if_neg (fun h => ?_)
  obtain ⟨-, queue, ring, -⟩ := h
  exact filled.elim (fun f => f (List.isEmpty_iff.1 queue)) (fun f => f ring)

theorem spillSize_written (v : W64) : BitVec.ofNat 5 (wbits v 0 5) = v.setWidth 5 := by
  apply BitVec.eq_of_toNat_eq
  simp [wbits]

theorem exec_spillConfigWrite_ready {s : State} (ready : s.boot = .ready) (c : CoreId) {n : Nat} (number : n = 0x121 ∨ n = 0x122) (v : W64) :
    exec (.spillConfigWrite c n v) s = .next (writeSpill s c n v) := by
  rw [exec_spillConfigWrite, execSpillConfigWrite, hostAct_ready ready, if_pos number]

/-! Ring pointers (R391). -/

/-- The tail that the host writes; the head stays. -/
theorem writeFlCtl_fields (k : Part) (i : Fin 4) (v : W64) :
    wbits ((writeFlCtl k i v).flCtl[i.val]'i.isLt) 28 28 = wbits v 28 28 ∧
    wbits ((writeFlCtl k i v).flCtl[i.val]'i.isLt) 0 28 = wbits (k.flCtl[i.val]'i.isLt) 0 28 := by
  simp only [writeFlCtl, Vector.getElem_set_self]
  rw [wbits_wset_apart _ _ _ _ 28 _ (by decide) (by decide), wbits_wset_apart _ 56 _ _ 0 _ (by decide) (by decide),
    wbits_wset_apart _ _ _ _ 0 _ (by decide) (by decide), wbits_wset_same _ _ _ _ (by decide), Nat.mod_eq_of_lt (wbits_lt _ _ _)]
  exact ⟨rfl, rfl⟩

/-- The head and the size that the host writes; the tail stays. -/
theorem writeSringCtl_fields (k : Part) (v : W64) :
    wbits (writeSringCtl k v).sringCtl 0 16 = wbits v 0 16 ∧ wbits (writeSringCtl k v).sringCtl 16 16 = wbits k.sringCtl 16 16 ∧
    wbits (writeSringCtl k v).sringCtl 32 5 =
      (if 6 ≤ wbits v 32 5 ∧ wbits v 32 5 ≤ 16 then wbits v 32 5 else wbits k.sringCtl 32 5) := by
  simp only [writeSringCtl]
  rw [wbits_wset_apart _ _ _ _ 0 _ (by decide) (by decide), wbits_wset_apart _ 32 _ _ 16 _ (by decide) (by decide),
    wbits_wset_apart _ _ _ _ 16 _ (by decide) (by decide), wbits_wset_same _ _ _ _ (by decide), wbits_wset_same _ _ _ _ (by decide),
    Nat.mod_eq_of_lt (wbits_lt _ _ _)]
  refine ⟨rfl, rfl, Nat.mod_eq_of_lt ?_⟩
  split <;> exact wbits_lt _ _ _

/-- Before boot has enabled the host port, nothing that the host does has an effect. -/
theorem exec_host_early {s : State} (early : s.boot ≠ .ready) (v : W64) (q : QueueId) (tail : BitVec 16) (w : Fin 5) (c : CoreId) (p : PartId)
    (tier : Fin 4) (b n : Nat) :
    exec (.interruptPageWrite v) s = .next s ∧ exec (.hostQueueDoorbell q tail) s = .next s ∧
    exec (.hostQueuePageWrite q w v) s = .next s ∧ exec (.registerWrite b n v) s = .next s ∧ exec (.rcRegisterRead b n) s = .next s ∧
    exec (.spillConfigWrite c n v) s = .next s ∧ exec (.itOwnWrite p v) s = .next s ∧ exec (.freeListTailWrite p tier v) s = .next s := by
  refine ⟨?_, ?_, ?_, ?_, ?_, ?_, ?_, ?_⟩
  · rw [exec_interruptPageWrite, execInterruptPageWrite, hostAct_early early]
  · rw [exec_hostQueueDoorbell, execHostQueueDoorbell, hostAct_early early]
  · rw [exec_hostQueuePageWrite, execHostQueuePageWrite, hostAct_early early]
  · rw [exec_registerWrite, execRegisterWrite, hostAct_early early]
  · rw [exec_rcRegisterRead, execRcRegisterRead, hostAct_early early]
  · rw [exec_spillConfigWrite, execSpillConfigWrite, hostAct_early early]
  · rw [exec_itOwnWrite, execItOwnWrite, hostAct_early early]
  · rw [exec_freeListTailWrite, execFreeListTailWrite, hostAct_early early]

theorem exec_hostQueuePageWrite_ready {s : State} (ready : s.boot = .ready) (q : QueueId) (w : Fin 5) (v : W64) :
    exec (.hostQueuePageWrite q w v) s = .next (writeQueuePage q w v s) := by
  rw [exec_hostQueuePageWrite, execHostQueuePageWrite, hostAct_ready ready]

/-- A request of the host and one that was sent reach the same context (R393, R415). -/
theorem exec_interrupt {v : W64} {s : State} {i : Instr} (h : i = .interruptPageWrite v ∧ s.boot = .ready ∨ i = .intSend v) :
    exec i s = .next (postInt s (intCore v) (intCtx v) ((v >>> 32).setWidth 32)) := by
  rcases h with ⟨rfl, ready⟩ | rfl
  · rw [exec_interruptPageWrite, execInterruptPageWrite, hostAct_ready ready, intVector_eq]
  · rw [exec_intSend, execIntSend, intVector_eq]

theorem writeQueuePage_ctl (q : QueueId) (v : W64) (s : State) : writeQueuePage q 1 v s = s.setQueue q (writeQueueCtl (s.queue q) v) := rfl

/-- The registers that take the low w bits of what the host writes, with w. -/
def plainRegs : List (Nat × Nat) := [(0x200, 64), (0x201, 20), (0x202, 16), (0x203, 6), (0x204, 32), (0x205, 32),
  (0x206, 32), (0x207, 32), (0x20A, 64), (0x20D, 64), (0x20E, 32), (0x20F, 32), (0x210, 64), (0x211, 64), (0x212, 64), (0x218, 32),
  (0x219, 8), (0x21A, 64)]

theorem plainRegs_cases {r : Nat × Nat} (h : r ∈ plainRegs) :
    (r ∈ narrowRegs ∨ r.1 ∈ wholeRegs ∧ r.2 = 64) ∧ 0x200 ≤ r.1 ∧ r.1 < 0x200 + 28 ∧ r.2 ≤ 64 := by
  revert r
  decide

/-- A plain register as it reads once the host has written it, the others as they were. -/
theorem writePart_plain {n w : Nat} (h : (n, w) ∈ plainRegs) (s : State) (p : PartId) (v : W64) :
    (readPartReg (writePart s p n v) p n).toNat = v.toNat % 2 ^ w ∧
    (∀ m, m ≠ n → readPartReg (writePart s p n v) p m = readPartReg s p m) ∧ (writePart s p n v).mem = s.mem := by
  obtain ⟨kind, low, high, width⟩ := plainRegs_cases h
  obtain ⟨x, value, set, mem⟩ : ∃ x : W64, x.toNat = v.toNat % 2 ^ w ∧
      ((writePart s p n v).part p).regs = (s.part p).regs.set (n - 0x200) x ∧ (writePart s p n v).mem = s.mem := by
    rcases kind with narrow | ⟨whole, rfl⟩
    · refine ⟨_, ?_, writePart_narrow narrow s p v⟩
      have fits : v.toNat % 2 ^ w < 2 ^ 64 :=
        lt_of_lt_of_le (Nat.mod_lt _ (Nat.two_pow_pos w)) (Nat.pow_le_pow_right (by decide) width)
      rw [BitVec.toNat_ofNat, wbits, Nat.pow_zero, Nat.div_one, Nat.mod_eq_of_lt fits]
    · exact ⟨v, (Nat.mod_eq_of_lt v.isLt).symm, writePart_whole whole s p v⟩
  obtain ⟨i, rfl⟩ := Nat.exists_eq_add_of_le low
  rw [Nat.add_sub_cancel_left] at set
  obtain ⟨written, others⟩ := readPartReg_set i (Nat.lt_of_add_lt_add_left high) set
  exact ⟨by rw [written, value], others, mem⟩

theorem clearReg_out (s : State) (c : CoreId) (p : PartId) (n : Nat) : (clearReg s c p n).out = s.out := by
  unfold clearReg
  split <;> rfl

/-- A partition register that a read clears, and the others as they were. -/
theorem clearReg_reads {n : Nat} (rc : n = 0x208 ∨ n = 0x209 ∨ n = 0x20C ∨ n = 0x217) (s : State) (p : PartId) :
    readPartReg (clearReg s 0 p n) p n = 0 ∧ ∀ m, m ≠ n → readPartReg (clearReg s 0 p n) p m = readPartReg s p m := by
  obtain ⟨i, rfl⟩ : ∃ i, n = 0x200 + i := ⟨n - 0x200, by omega⟩
  have set := clearReg_regs rc s p
  rw [Nat.add_sub_cancel_left] at set
  exact readPartReg_set i (by omega) set

/-- Settles O42: each page, register and ring by what a write or read of it does. -/
theorem hostWrites : Obligations.HostWrites := by
  refine ⟨fun v s i h => ⟨fun held => ?_, fun empty => ?_⟩, fun q tail v s ready host => ?_, fun q v s ready => ?_, fun q v s ready => ?_,
    fun n v s ready => ?_, fun p n w v s plain ready => ?_, fun p v s ready => ?_, fun block n v s pkg part core => ?_, fun c v s ready => ?_,
    fun c s ready => ⟨?_, ?_, ?_, ?_⟩, fun p n s rc ready => ?_, fun c v s ready queue ring held => ⟨?_, fun size => ?_⟩,
    fun c n v s number ready filled => ?_, fun p v s ready idle free => ?_, fun p tier v s ready => ?_,
    fun s v q tail w c p tier b n early => exec_host_early early v q tail w c p tier b n⟩
  · rw [exec_interrupt h, postInt, if_neg (ne_true_of_eq_false held)]
  · rw [exec_interrupt h, postInt, if_pos empty]
  · obtain ⟨rung, head, mem⟩ := ringTail_host host tail
    refine ⟨_, by rw [exec_hostQueueDoorbell, execHostQueueDoorbell, hostAct_ready ready], rung, head, mem, fun same => ?_⟩
    rw [exec_hostQueuePageWrite_ready ready, ← same]
    show Host.Outcome.next (ringTail q (wbits v 0 16) s) = _
    rw [wbits, Nat.pow_zero, Nat.div_one]
  · have word := fun w => exec_hostQueuePageWrite_ready ready q w v
    refine ⟨word 0, fun off => (word 3).trans ?_, fun on => (word 3).trans ?_, word 4⟩
    · exact congrArg Host.Outcome.next (if_neg (ne_true_of_eq_false off))
    · exact congrArg Host.Outcome.next (if_pos on)
  · refine ⟨_, exec_hostQueuePageWrite_ready ready q 1 v, rfl, fun p ne => State.queue_setQueue_ne _ _ _ _ ne, fun on => ?_, fun off => ?_⟩
    · rw [writeQueuePage_ctl, State.queue_setQueue_same, writeQueueCtl, if_pos on]
    · rw [writeQueuePage_ctl, State.queue_setQueue_same]
      exact writeQueueCtl_disabled off v
  · rw [exec_registerWrite, execRegisterWrite, hostAct_ready ready, hostWrite, if_pos rfl, if_pos (by omega), writePkg_route]
  · obtain ⟨-, low, high, -⟩ := plainRegs_cases plain
    exact ⟨_, exec_registerWrite_part ready p ⟨low, by simp only at high; omega⟩ v, writePart_plain plain s p v⟩
  · obtain ⟨head, tail, size⟩ := writeSringCtl_fields ((refreshBudgets s p).part p) v
    have written : (writePart s p 0x20B v).part p = writeSringCtl ((refreshBudgets s p).part p) v := State.part_setPart_same ..
    have kept : ((refreshBudgets s p).part p).sringCtl = (s.part p).sringCtl :=
      congrArg (fun regs : List W64 => regs.getD 11 0) (refreshBudgets_regs s p)
    rw [← written] at head tail size
    rw [kept] at tail size
    exact ⟨_, exec_registerWrite_part ready p (by decide) v, head, tail, size⟩
  · exact exec_registerWrite_outside pkg part core v s
  · exact exec_registerWrite_core ready c (by decide) v
  · exact exec_rcRegisterRead_core ready c (by decide)
  · exact exec_rcRegisterRead_core ready c (by decide)
  · exact exec_rcRegisterRead_core ready c (by decide)
  · rw [exec_rcRegisterRead, execRcRegisterRead, hostAct_ready ready]
    rfl
  · obtain ⟨cleared, others⟩ := clearReg_reads rc s p
    exact ⟨_, exec_rcRegisterRead_part ready p (by omega),
      congrArg (· ++ [Out.regRead (1 + p.val) n (readPartReg s p n)]) (clearReg_out s 0 p n), cleared, others⟩
  · rw [exec_spillConfigWrite_ready ready c (.inl rfl), writeSpill_allowed queue ring held (.inl rfl)]
    rfl
  · rw [exec_spillConfigWrite_ready ready c (.inr rfl), writeSpill_allowed queue ring held (.inr size), ← spillSize_written]
    rfl
  · rw [exec_spillConfigWrite_ready ready c number, writeSpill_refused filled]
  · rw [exec_itOwnWrite, execItOwnWrite, hostAct_ready ready, writeItOwn_free idle free]
  · obtain ⟨tail, head⟩ := writeFlCtl_fields (s.part p) tier v
    refine ⟨s.setPart p (writeFlCtl (s.part p) tier v), by rw [exec_freeListTailWrite, execFreeListTailWrite, hostAct_ready ready], ?_, ?_, rfl⟩
    · rw [State.part_setPart_same, tail]
    · rw [State.part_setPart_same, head]

end Sys2Proof.Machine

namespace Sys2Proof.Machine

/-! The fabric's tables (R421 to R423). -/

/-- The entries of a loaded access-control table. -/
def aclRows (bs : List Byte) : List (File 1 W64) := (List.range 1024).map (fun i => #v[wordAt bs (2 * i), wordAt bs (2 * i + 1)])

/-- The literal 16,384 is generalised before the load is unfolded: Lean would otherwise count it down. -/
theorem loadAcl_installs {s : State} {bs : List Byte} (bytes : fabricBytes s s.pkg.aclBase 16384 = some bs)
    (each : (aclRows bs).all aclOk = true) : loadAcl s = ({ s with acl := aclRows bs }, true) := by
  obtain ⟨F, hF⟩ : ∃ F, F = loadAcl := ⟨_, rfl⟩
  rw [← hF]
  delta loadAcl at hF
  generalize 16384 = n at bytes hF
  subst hF
  simp only [bytes]
  exact if_pos each

/-- A row of the group table (R423). -/
def groupRow (bs : List Byte) (i : Nat) : File 1 W64 := #v[wordAt bs (4 * i), wordAt bs (4 * i + 1)]

/-- The valid groups of a loaded table. -/
def groupRows (bs : List Byte) : List (Nat × File 1 W64) :=
  (((List.range 255).map (fun i => i + 1)).filter (fun i => groupValid (groupRow bs i))).map (fun i => (i, groupRow bs i))

/-- With no transfer in flight, no group is held. -/
theorem groupHeld_none {s : State} (none : s.transfers = []) (new : List (Nat × File 1 W64)) : groupHeld s new = false := by
  rw [groupHeld, none]; rfl

theorem loadGroups_installs {s : State} {bs : List Byte} (bytes : fabricBytes s s.pkg.grpBase 8192 = some bs) (empty : s.transfers = [])
    (each : ∀ i, 1 ≤ i → i ≤ 255 → groupEntryOk (groupRow bs i) (wordAt bs (4 * i + 2)) (wordAt bs (4 * i + 3)) = true) :
    loadGroups s = (setBusy { s with groups := groupRows bs, groupLoad := none } false, true) := by
  have rows : ((List.range 255).map (fun i => i + 1)).all
      (fun i => groupEntryOk (groupRow bs i) (wordAt bs (4 * i + 2)) (wordAt bs (4 * i + 3))) = true := by
    rw [List.all_eq_true]
    intro i hi
    obtain ⟨k, hk, rfl⟩ := List.mem_map.1 hi
    have := List.mem_range.1 hk
    exact each _ (by omega) (by omega)
  have held := groupHeld_none empty (groupRows bs)
  obtain ⟨F, hF⟩ : ∃ F, F = loadGroups := ⟨_, rfl⟩
  rw [← hF]
  delta loadGroups at hF
  generalize 8192 = n at bytes hF
  subst hF
  simp only [bytes]
  refine (if_neg (by rw [Bool.not_eq_true', Bool.not_eq_false]; exact rows)).trans ?_
  exact if_neg (ne_true_of_eq_false held)

/-- The entry that a filtered list of numbered rows has for a number. -/
theorem find_rows (valid : Nat → Bool) (row : Nat → File 1 W64) (l : List Nat) {i : Nat} (h : i ∈ l) :
    (((l.filter valid).map (fun j => (j, row j))).find? (fun e => e.1 == i)).map (fun e => e.2) = if valid i then some (row i) else none := by
  have same : (fun j => valid j && j == i) = fun j => valid i && j == i := by
    funext j
    by_cases e : j = i
    · rw [e]
    · rw [beq_eq_false_iff_ne.2 e, Bool.and_false, Bool.and_false]
  rw [List.find?_map, List.find?_filter]
  simp only [Function.comp_def, Bool.decide_and, Bool.decide_eq_true, same, Option.map_map]
  cases hv : valid i with
  | false => simp
  | true =>
    have found : l.find? (fun j => j == i) = some i := by
      cases first : l.find? (fun j => j == i) with
      | none => exact absurd (beq_self_eq_true i) (List.find?_eq_none.1 first i h)
      | some j => rw [eq_of_beq (List.find?_some (p := fun j => j == i) first)]
    simp only [Bool.true_and, found, if_true, Option.map_some]

/-- The group that a loaded table has in a row. -/
theorem find_groupRows (bs : List Byte) {i : Nat} (low : 1 ≤ i) (high : i ≤ 255) :
    ((groupRows bs).find? (fun e => e.1 == i)).map (fun e => e.2) = if groupValid (groupRow bs i) then some (groupRow bs i) else none := by
  exact find_rows (fun i => groupValid (groupRow bs i)) (groupRow bs) _ (List.mem_map.2 ⟨i - 1, List.mem_range.2 (by omega), by omega⟩)

theorem setRefused_clear (s : State) : wbit (setRefused s false).pkg.fabLoad 9 = false := wbit_wset_toNat _ _ _ (by omega)

theorem setRefused_acl (s : State) (a : List (File 1 W64)) (r : Bool) : (setRefused { s with acl := a } r).acl = a := rfl

theorem setBusy_clear (s : State) : wbit (setBusy s false).pkg.fabLoad 8 = false := wbit_wset_toNat _ _ _ (by omega)

theorem exec_ldacl_installs {s : State} {bs : List Byte} (ready : s.boot = .ready) (bytes : fabricBytes s s.pkg.aclBase 16384 = some bs)
    (each : (aclRows bs).all aclOk = true) : exec .ldacl s = .next (setRefused { s with acl := aclRows bs } false) := by
  rw [exec_ldacl, execLdacl, hostAct_ready ready, loadTables]
  simp only [if_true, loadAcl_installs bytes each, Bool.or_false, Bool.and_self, Bool.not_true, Bool.false_eq_true, if_false]

theorem exec_ldgrp_installs {s : State} {bs : List Byte} (ready : s.boot = .ready) (bytes : fabricBytes s s.pkg.grpBase 8192 = some bs)
    (empty : s.transfers = [])
    (each : ∀ i, 1 ≤ i → i ≤ 255 → groupEntryOk (groupRow bs i) (wordAt bs (4 * i + 2)) (wordAt bs (4 * i + 3)) = true) :
    exec .ldgrp s = .next (setRefused (setBusy { s with groups := groupRows bs, groupLoad := none } false) false) := by
  rw [exec_ldgrp, execLdgrp, hostAct_ready ready, loadTables]
  simp only [Bool.false_eq_true, if_false, if_true, loadGroups_installs bytes empty each, Bool.false_or, Bool.and_self, Bool.not_true]

/-! Retrains (R409 to R412). -/

/-- The rate change that a word of mc_req asks for. -/
def requestedRetrain (v : W64) : Retrain :=
  { target := wbits v 0 5, rate := BitVec.ofNat 2 (wbits v 8 2), thermal := false, running := false, since := 0 }

theorem writeMcReq_requests {v : W64} {s : State} (idle : wbit s.pkg.mcReq 31 = false) (asks : v.getLsbD 31 = true) (inside : wbits v 0 5 < 20) :
    (writeMcReq s v).retrains = s.retrains ++ [requestedRetrain v] ∧ wbit (writeMcReq s v).pkg.mcReq 31 = true := by
  have low := wbits_lt v 0 5
  have rate := wbits_lt v 8 2
  have busy : (v.getLsbD 31 && decide (wbits v 0 5 < 20)) = true := by rw [asks, decide_eq_true inside]; rfl
  rw [writeMcReq, if_neg (ne_true_of_eq_false idle)]
  simp only [busy, if_true, wbit_eq, Bool.toNat_true]
  refine ⟨rfl, getLsbD_of_toNat ?_⟩
  simp only [BitVec.toNat_ofNat, Bool.toNat_true]
  generalize wbits v 0 5 = x at *
  generalize wbits v 8 2 = y at *
  omega

/-- Saves that change leave the rest of the state. -/
theorem mapSaves_keeps (s : State) (target : Nat) (f : SaveRun → SaveRun) :
    (mapSaves s target f).retrains = s.retrains ∧ (mapSaves s target f).mem = s.mem := by
  rw [mapSaves]
  generalize List.finRange 512 = cs
  induction cs generalizing s with
  | nil => exact ⟨rfl, rfl⟩
  | cons c cs ih =>
    rw [List.foldl_cons]
    obtain ⟨retrains, mem⟩ := ih _
    rw [retrains, mem]
    split <;> exact ⟨rfl, rfl⟩

theorem exec_thermalRetrain_starts {target : Nat} {s : State} (inside : target < 20) (free : retraining s target = false) :
    exec (.thermalRetrain target) s = .next (mapSaves { s with retrains :=
      { target := target, rate := 0, thermal := true, running := true, since := s.cycle } :: s.retrains } target
      (fun v => { v with late := true })) := by
  rw [exec_thermalRetrain, execThermalRetrain, if_neg]
  rw [free]
  simpa using inside

/-- The only retrain, which is requested and which no save holds back, starts. -/
theorem exec_retrainStart_only {s : State} {r : Retrain} (only : s.retrains = [r]) (requested : r.running = false)
    (free : saveHolds s r.target = false) :
    exec .retrainStart s = .next { s with retrains := [{ r with running := true, since := s.cycle }] } := by
  have found : [r].find? (fun q => !q.running && !saveHolds s q.target && !retraining s q.target) = some r := by
    simp [requested, free, retraining, only]
  rw [exec_retrainStart, execRetrainStart, only]
  simp only [found, List.erase_cons_head]

/-- The rate of the only retrain, which has run, is in force. -/
theorem exec_retrainDone_only {s : State} {r : Retrain} (only : s.retrains = [r]) (running : r.running = true) (cool : r.thermal = false)
    (inbox : s.inbox = []) :
    exec (.retrainDone r.target) s = .next { s with
      retrains := [], rates := s.rates.setIfInBounds r.target r.rate, pkg := { s.pkg with mcReq := wset s.pkg.mcReq 31 1 0 } } := by
  have found : [r].find? (fun q => q.running && q.target == r.target) = some r := by simp [running]
  rw [exec_retrainDone, execRetrainDone, only]
  simp only [found, cool, Bool.false_eq_true, if_false, List.erase_cons_head]
  rw [retryInbox_none]
  exact inbox

theorem exec_mcReq_ready {v : W64} {s : State} (ready : s.boot = .ready) : exec (.mcReq v) s = .next (writeMcReq s v) := by
  rw [exec_mcReq, execMcReq, hostAct_ready ready]

/-- Settles O44: each load, retrain and port event by its equation. -/
theorem fabricTablesAndPorts : Obligations.FabricTablesAndPorts := by
  refine ⟨fun s bs ready bytes each => ?_, fun s bs ready bytes empty each => ?_, fun s new waits free => ?_,
    fun v s ready idle asks inside => ?_, fun s r only requested free => exec_retrainStart_only only requested free,
    fun target s inside free => ?_, fun target s r only running at_ cool inside inbox => ?_, fun p s im image enabled => ?_,
    fun p n s => ⟨?_, rfl, rfl⟩⟩
  · refine ⟨_, exec_ldacl_installs ready bytes each, ?_, setRefused_clear _, rfl⟩
    rw [setRefused_acl, aclRows]
  · exact ⟨_, exec_ldgrp_installs ready bytes empty each, setRefused_clear _, fun i low high => find_groupRows bs low high⟩
  · refine ⟨setBusy { s with groups := new, groupLoad := none } false, ?_, rfl, rfl, setBusy_clear _⟩
    rw [exec_groupTableInstall, execGroupTableInstall, waits]
    exact if_neg (ne_true_of_eq_false free)
  · obtain ⟨asked, busy⟩ := writeMcReq_requests idle asks inside
    refine ⟨_, _, exec_mcReq_ready ready, asked, rfl, ?_, rfl, busy⟩
    exact (BitVec.toNat_ofNat ..).trans (Nat.mod_eq_of_lt (wbits_lt _ _ _))
  · obtain ⟨retrains, mem⟩ := mapSaves_keeps { s with retrains :=
      { target := target, rate := 0, thermal := true, running := true, since := s.cycle } :: s.retrains } target
      (fun v => { v with late := true })
    exact ⟨_, _, exec_thermalRetrain_starts inside free, retrains, rfl, rfl, rfl, mem⟩
  · subst at_
    refine ⟨_, exec_retrainDone_only only running cool inbox, rfl, ?_, wbit_wset_toNat _ 31 false (by omega), rfl⟩
    show (s.rates.setIfInBounds r.target r.rate)[r.target]? = _
    rw [Vector.getElem?_setIfInBounds_self_of_lt inside]
  · refine ⟨{ s with pkg := { s.pkg with linkUp := wset s.pkg.linkUp p.val 1 1 } }, ?_, wbit_wset_toNat _ _ true (by omega), rfl⟩
    rw [exec_portTrained, execPortTrained, image]
    exact if_pos enabled
  · exact ⟨_, rfl, wbit_wset_toNat _ _ false (by omega)⟩

end Sys2Proof.Machine

namespace Sys2Proof.Machine

/-! Packets that this package takes in (R420, R422). -/

/-- A packet of kind k that the access table admits, as kind number n, performs. -/
theorem accept_admitted {s : State} {p : Packet} {k n : Nat} (here : received s p = true) (kind : pktKind p = k) (known : 1 ≤ k ∧ k ≤ 6)
    (fits : counterFits s p n = true) (f : State → State) : accept s p k n f = .next (f s) := by
  rw [accept, here, kind, if_neg (by decide), if_neg (by omega), if_neg (not_not.2 rfl), if_pos fits]

/-- One that the table refuses is counted and answered with NACK ACL. -/
theorem accept_refused {s : State} {p : Packet} {k n : Nat} (here : received s p = true) (kind : pktKind p = k) (known : 1 ≤ k ∧ k < 6)
    (fits : counterFits s p n = false) (f : State → State) :
    accept s p k n f = .next (answerPacket (denyPacket s) p 3 Cause.acl.code 0) := by
  rw [accept, here, kind, if_neg (by decide), if_neg (by omega), if_neg (not_not.2 rfl), if_neg (ne_true_of_eq_false fits), if_neg (by omega)]

/-- A packet waits behind one of its source that waits (log 41). -/
theorem takeIn_behind {f : State → Packet → Arrival} {s : State} {p : Packet} (ahead : ∃ q ∈ s.inbox, pktSpkg q = pktSpkg p) :
    takeIn f s p = { s with inbox := s.inbox ++ [p] } := by
  have waits : s.inbox.any (fun q => pktSpkg q == pktSpkg p) = true := by simpa using ahead
  exact if_pos waits

theorem takeIn_done {f : State → Packet → Arrival} {s t : State} {p : Packet} (first : ∀ q ∈ s.inbox, pktSpkg q ≠ pktSpkg p)
    (done : f s p = .done t) : takeIn f s p = t := by
  have free : s.inbox.any (fun q => pktSpkg q == pktSpkg p) = false := by simpa using first
  rw [takeIn, free, done]
  rfl

theorem takeIn_wait {f : State → Packet → Arrival} {s t : State} {p : Packet} (first : ∀ q ∈ s.inbox, pktSpkg q ≠ pktSpkg p)
    (wait : f s p = .wait t) : takeIn f s p = { t with inbox := t.inbox ++ [p] } := by
  have free : s.inbox.any (fun q => pktSpkg q == pktSpkg p) = false := by simpa using first
  rw [takeIn, free, wait]
  rfl

/-! Copies, slips and records (R424). -/

theorem performPacket_copy {s : State} {p : Packet} (kind : pktKind p = 1) (copy : p.h3.getLsbD 63 = false) :
    performPacket s p = dataCopy s p := by
  rw [performPacket, if_neg (by omega), wbit_eq, copy]
  exact if_neg Bool.false_ne_true

theorem performPacket_slip {s : State} {p : Packet} (kind : pktKind p = 1) (slip : p.h3.getLsbD 63 = true) :
    performPacket s p = .done (dataSlip s p) := by
  rw [performPacket, if_neg (by omega), wbit_eq, slip]
  exact if_pos rfl

/-- A copy whose scratchpad belongs to another partition (log 46). -/
theorem dataCopy_foreign {s : State} {p : Packet} (scratch : classOf p.h1 = 0) (other : s.partOf (auxCore p) ≠ some (pktDpart p)) :
    dataCopy s p = .done (answerPacket s p 3 Cause.txlate.code (txInfo p.h1 6)) := by
  have foreign : auxOwned s p = false := by
    rw [auxOwned, scratch, beq_eq_false_iff_ne.2 other]; rfl
  rw [dataCopy, foreign]
  exact if_pos rfl

/-- The bytes of a copy written at a place, within the budget of the partition. -/
def copyWritten (s : State) (p : Packet) (q : Place) : State :=
  (spendMem s (pktDpart p) (q.blocks p.payload.length)).writeAt q.key p.payload

theorem auxOwned_of_part {s : State} {p : Packet} (own : s.partOf (auxCore p) = some (pktDpart p)) : auxOwned s p = true := by
  rw [auxOwned, own, beq_self_eq_true, Bool.or_true]

theorem dataCopy_waits {s : State} {p : Packet} {q : Place} (own : auxOwned s p = true)
    (placed : placeIn s (pktDpart p) (auxCore p) .write p.h1 p.payload.length = .ok q)
    (spent : memReady s (pktDpart p) (q.blocks p.payload.length) = false) : dataCopy s p = .wait s := by
  rw [dataCopy, own, if_neg (by decide), placed]
  simp only [spent, Bool.not_false, if_true]

theorem dataCopy_plain {s : State} {p : Packet} {q : Place} (own : auxOwned s p = true)
    (placed : placeIn s (pktDpart p) (auxCore p) .write p.h1 p.payload.length = .ok q)
    (ready : memReady s (pktDpart p) (q.blocks p.payload.length) = true) (plain : p.h3.getLsbD 62 = false) :
    dataCopy s p = .done (ackLast (copyWritten s p q) p) := by
  rw [dataCopy, own, if_neg (by decide), placed]
  simp only [ready, auxSync, wbit_eq, plain, Bool.not_true, Bool.false_eq_true, if_false]
  rfl

theorem dataCopy_counted {s : State} {p : Packet} {q : Place} (own : auxOwned s p = true)
    (placed : placeIn s (pktDpart p) (auxCore p) .write p.h1 p.payload.length = .ok q)
    (ready : memReady s (pktDpart p) (q.blocks p.payload.length) = true) (counted : p.h3.getLsbD 62 = true) {k : Nat}
    (key : k = quadKey (auxCore p) (BitVec.ofNat 64 (wbits p.h3 0 24))) :
    dataCopy s p = .done (ackLast (countSync (noteLanded (copyWritten s p q)
      { via := .word k, dst := p.h1, shape := shPut (Vector.replicate _ 0) 0 1, run := p.payload.length }) k p.payload.length) p) := by
  rw [dataCopy, own, if_neg (by decide), placed]
  simp only [ready, auxSync, wbit_eq, counted, Bool.not_true, Bool.false_eq_true, if_false, if_true, ← key]
  rfl

/-- The first packet of a slip, and not its last, is kept. -/
theorem dataSlip_first {s : State} {p : Packet} (more : pktLast p = false) (new : ∀ r ∈ s.receives, r.spkg ≠ pktSpkg p) :
    dataSlip s p = { s with
      receives := s.receives.filter (fun r => r.id != s.nextId) ++ [{ id := s.nextId, spkg := pktSpkg p, xfer := pktXfer p, packets := [p] }],
      nextId := s.nextId + 1 } := by
  have none : s.receives.find? (fun r => r.spkg == pktSpkg p && r.xfer == pktXfer p) = none := by
    rw [List.find?_eq_none]
    intro r hr
    rw [beq_eq_false_iff_ne.2 (new r hr), Bool.false_and]
    exact Bool.false_ne_true
  rw [dataSlip]
  simp only [none, more, Bool.not_false, if_true]

/-- A record goes into its queue, waits, or is answered with NACK QOVF. -/
theorem performPacket_record {s : State} {p : Packet} (kind : pktKind p = 4) (length : p.payload.length = 64) :
    (∀ t, fillSlot s (pktDpart p) (queueAt p.h1) p.payload = .ok t → performPacket s p = .done (ackLast t p)) ∧
    (∀ t, fillSlot s (pktDpart p) (queueAt p.h1) p.payload = .wait t → performPacket s p = .wait t) ∧
    (fillSlot s (pktDpart p) (queueAt p.h1) p.payload = .full → performPacket s p = .done (answerPacket s p 3 Cause.qovf.code 0)) := by
  rw [performPacket, if_pos kind, launchRecord, if_pos length]
  refine ⟨fun t h => ?_, fun t h => ?_, fun h => ?_⟩ <;> rw [h]

/-- A queue whose slots are taken. -/
theorem fillSlot_full {s : State} {p : PartId} {q : QueueId} (taken : 2 ^ (s.queue q).size ≤ (s.queue q).busy + (s.queue q).pending)
    (bs : List Byte) : fillSlot s p q bs = .full := by
  rw [fillSlot]
  exact if_pos (by rw [decide_eq_true taken, Bool.or_true])

/-- Where the next record of a queue goes in its ring. -/
def slotAddress (h : HostQueue) : Nat := h.q0.toNat + 64 * (h.tail % 2 ^ h.size)

/-- A record in its slot, and the tail behind it. -/
def slotFilled (s : State) (p : PartId) (q : QueueId) (bs : List Byte) : State :=
  (s.writeAt (keyHost (s.part p).pid (slotAddress (s.queue q))) bs).setQueue q { s.queue q with
    q2 := wset (s.queue q).q2 0 16 (((s.queue q).tail + 1) % 2 ^ (s.queue q).size),
    full := ((s.queue q).tail + 1) % 2 ^ (s.queue q).size == (s.queue q).head % 2 ^ (s.queue q).size }

theorem slotFilled_tail (s : State) (p : PartId) (q : QueueId) (bs : List Byte) :
    ((slotFilled s p q bs).queue q).tail = ((s.queue q).tail + 1) % 2 ^ (s.queue q).size := by
  have small : ((s.queue q).tail + 1) % 2 ^ (s.queue q).size < 2 ^ 16 := by
    have := wbits_lt (s.queue q).q1 0 4
    exact lt_of_lt_of_le (Nat.mod_lt _ (Nat.two_pow_pos _)) (Nat.pow_le_pow_right (by decide) (by rw [HostQueue.size]; omega))
  rw [slotFilled, State.queue_setQueue_same]
  exact (wbits_wset_same _ _ _ _ (by decide)).trans (Nat.mod_eq_of_lt small)

theorem fillSlot_ready {s : State} {p : PartId} {q : QueueId} (fabric : (s.queue q).fabric = true) (part : (s.queue q).part = p)
    (room : (s.queue q).busy + (s.queue q).pending < 2 ^ (s.queue q).size)
    (reach : hostReach s p (slotAddress (s.queue q)) true = .ready) (bs : List Byte) : fillSlot s p q bs = .ok (slotFilled s p q bs) := by
  rw [slotAddress] at reach
  rw [fillSlot, if_neg (by rw [fabric, part, decide_eq_false (Nat.not_le.2 room)]; simp)]
  simp only [reach]
  rfl

/-- The transfer that an answer names. -/
theorem exec_ack_answers {s : State} {p : Packet} {t : Transfer} (here : received s p = true) (kind : pktKind p = 2)
    (answers : answeredTransfer s p = some t) : exec (.ack p) s = .next (memberAnswered s t (pktSpkg p).toNat) := by
  rw [exec_ack, execAck]
  simp only [here, kind, beq_self_eq_true, Bool.and_self, if_true, answers]

theorem exec_nack_copy {s : State} {p : Packet} {t : Transfer} {c : CoreId} {x : CtxId} {k : Copy} (here : received s p = true)
    (kind : pktKind p = 3) (answers : answeredTransfer s p = some t) (copy : t.copy = some (c, x, k.id))
    (live : liveCopy (memberAnswered s t (pktSpkg p).toNat) c x k.id = some k) :
    exec (.nack p) s = .next (failCopy (memberAnswered s t (pktSpkg p).toNat) c x k (Cause.ofCode (pktCause p)) p.h3) := by
  rw [exec_nack, execNack]
  simp only [here, kind, beq_self_eq_true, Bool.and_self, if_true, answers, copy, live]

theorem exec_nack_slip {s : State} {p : Packet} {t : Transfer} {it : ItinId} {q : Slip} (here : received s p = true)
    (kind : pktKind p = 3) (answers : answeredTransfer s p = some t) (copy : t.copy = none) (slip : t.slip = some (it, q.num))
    (flight : ((memberAnswered s t (pktSpkg p).toNat).itin it).flight = [q]) :
    exec (.nack p) s = .next (failSlip (memberAnswered s t (pktSpkg p).toNat) it q (Cause.ofCode (pktCause p))) := by
  have found : [q].find? (fun r => r.num == q.num) = some q := by simp
  rw [exec_nack, execNack]
  simp only [here, kind, beq_self_eq_true, Bool.and_self, if_true, answers, copy, slip, flight, found]

theorem exec_barrier_noted {s : State} {p : Packet} (here : received s p = true) (kind : pktKind p = 6) (fits : counterFits s p 3 = true) :
    ∃ t, exec (.barrier p) s = .next t ∧
    (pktDpart p, BitVec.ofNat 12 (wbits p.h3 0 12), BitVec.ofNat 16 (wbits p.h3 16 16), pktSpkg p) ∈ t.barriers ∧ t.mem = s.mem := by
  rw [exec_barrier, execBarrier, accept_admitted here kind (by decide) fits]
  refine ⟨_, rfl, ?_⟩
  dsimp only
  split
  next known => exact ⟨List.contains_iff_mem.1 known, rfl⟩
  next => exact ⟨List.mem_append_right _ (List.mem_singleton_self _), rfl⟩

theorem exec_wakePacket_wakes {s : State} {p : Packet} (here : received s p = true) (kind : pktKind p = 5) (fits : counterFits s p 2 = true)
    (mine : wbits (leWord 64 (p.payload.take 8)) 32 4 = (pktDpart p).val) : exec (.wakePacket p) s = .next (ackLast
      (wakeToken s (pktDpart p) (leWord 64 (p.payload.take 8)) (leWord 64 ((p.payload.drop 8).take 8))) p) := by
  rw [exec_wakePacket, execWakePacket, accept_admitted here kind (by decide) fits]
  exact congrArg Host.Outcome.next (if_neg (not_not.2 mine))

theorem exec_data_admitted {s : State} {p : Packet} (here : received s p = true) (kind : pktKind p = 1) (fits : counterFits s p 0 = true) :
    exec (.data p) s = .next (takeIn performPacket s p) := by
  rw [exec_data, execData, accept_admitted here kind (by decide) fits]

theorem exec_launch_admitted {s : State} {p : Packet} (here : received s p = true) (kind : pktKind p = 4) (fits : counterFits s p 1 = true) :
    exec (.launch p) s = .next (takeIn performPacket s p) := by
  rw [exec_launch, execLaunch, accept_admitted here kind (by decide) fits]

/-- Settles O45: each packet by its admission and by what its kind performs. -/
theorem packets : Obligations.Packets := by
  refine ⟨fun p s here fits ahead => ⟨fun kind => ?_, fun kind => ?_⟩,
    fun p s u q c here kind fits first copy core placed hu => ⟨fun scratch other => ?_, fun own spent => ?_, fun ready => ⟨?_, ?_⟩⟩,
    fun p s here kind fits first slip more new => ?_, fun p s here kind fits length first => ?_,
    fun s p q bs fabric part => ⟨fun taken => fillSlot_full taken bs, fun room reach =>
      ⟨_, fillSlot_ready fabric part room reach bs, slotFilled_tail s p q bs, rfl⟩⟩,
    fun p s here kind fits mine => exec_wakePacket_wakes here kind fits mine, fun p s here kind fits => exec_barrier_noted here kind fits,
    fun p s here kind fits => ?_,
    fun p s t here answers => ⟨fun kind => exec_ack_answers here kind answers, fun cause c x k kind code copy live => ?_,
      fun cause it q kind code copy slip flight => ?_⟩⟩
  · rw [exec_data_admitted here kind (fits.resolve_right (fun h => absurd (kind.symm.trans h.1) (by decide))).2, takeIn_behind ahead]
  · rw [exec_launch_admitted here kind (fits.resolve_left (fun h => absurd (kind.symm.trans h.1) (by decide))).2, takeIn_behind ahead]
  · subst hu
    obtain rfl : c = auxCore p := Fin.ext core
    rw [exec_data_admitted here kind fits, takeIn_done first ((performPacket_copy kind copy).trans (dataCopy_foreign scratch other))]
  · obtain rfl : c = auxCore p := Fin.ext core
    rw [exec_data_admitted here kind fits,
      takeIn_wait first ((performPacket_copy kind copy).trans (dataCopy_waits (auxOwned_of_part own) placed spent))]
  · intro plain owned
    obtain rfl : c = auxCore p := Fin.ext core
    have own : auxOwned s p = true := by
      rcases owned with other | own
      · rw [auxOwned, wbit_eq, plain, beq_eq_false_iff_ne.2 other]; rfl
      · exact auxOwned_of_part own
    rw [exec_data_admitted here kind fits,
      takeIn_done first ((performPacket_copy kind copy).trans (dataCopy_plain own placed ready plain)), copyWritten, hu]
  · intro k counted own key
    obtain rfl : c = auxCore p := Fin.ext core
    rw [exec_data_admitted here kind fits, takeIn_done first ((performPacket_copy kind copy).trans
      (dataCopy_counted (auxOwned_of_part own) placed ready counted key)), copyWritten, hu]
  · rw [exec_data_admitted here kind fits, takeIn_done first (performPacket_slip kind slip), dataSlip_first more new]
  · obtain ⟨ok, wait, full⟩ := performPacket_record kind length
    rw [exec_launch_admitted here kind fits]
    refine ⟨fun t h => ?_, fun t h => ?_, fun h => ?_⟩
    · rw [takeIn_done first (ok t h)]
    · rw [takeIn_wait first (wait t h)]
    · rw [takeIn_done first (full h)]
  · rw [exec_data, execData, accept_refused here kind (by decide) fits]
    rfl
  · subst code
    exact exec_nack_copy here kind answers copy live
  · subst code
    exact exec_nack_slip here kind answers copy slip flight

end Sys2Proof.Machine

namespace Sys2Proof.Machine

/-! Boot (R428, R429). -/

/-- Step n of a boot fails (R428). -/
def bootFails (b : BootInput) (n : Nat) : Bool :=
  b.broken.contains n || (n == 2 && !Config.signed b.firmware) || (n == 4 && !imageOk b) || (n == 5 && !b.linksOk)

theorem bootStop_eq (b : BootInput) : bootStop b = (List.range' 1 7).find? (bootFails b) := by
  refine congrArg (fun p => [1, 2, 3, 4, 5, 6, 7].find? p) (funext fun n => ?_)
  rw [bootFails, Bool.or_assoc, Bool.or_assoc]
  refine congrArg (b.broken.contains n || ·) ?_
  split
  case h_4 n2 n4 n5 => simp_all
  all_goals simp

theorem bootFails_iff (b : BootInput) (n : Nat) : bootFails b n = true ↔
    n ∈ b.broken ∨ (n = 2 ∧ Config.signed b.firmware = false) ∨ (n = 4 ∧ imageOk b = false) ∨ (n = 5 ∧ b.linksOk = false) := by
  simp only [bootFails, Bool.or_eq_true, Bool.and_eq_true, beq_iff_eq, Bool.not_eq_true', List.contains_iff_mem, or_assoc]

theorem bootStop_first {b : BootInput} {n : Nat} (low : 1 ≤ n) (high : n ≤ 7) (fails : bootFails b n = true)
    (first : ∀ m, 1 ≤ m → m < n → ¬ bootFails b m = true) : bootStop b = some n := by
  rw [bootStop_eq, List.find?_range'_eq_some]
  refine ⟨fails, List.mem_range'_1.2 ⟨low, by omega⟩, fun m hm lt => ?_⟩
  rw [Bool.eq_false_iff.2 (first m hm lt)]; rfl

theorem bootStop_none {b : BootInput} (good : ∀ n, 1 ≤ n → n ≤ 7 → ¬ bootFails b n = true) : bootStop b = none := by
  rw [bootStop_eq, List.find?_range'_eq_none]
  intro n low high
  rw [Bool.eq_false_iff.2 (good n low (by omega))]; rfl

/-- A core that is left out stays so, whatever others are. -/
theorem foldl_out (cs : List CoreId) (s : State) (c : CoreId) (h : c ∈ cs ∨ (s.core c).out = true) :
    ((cs.foldl (fun s c => s.setCore c { s.core c with out := true }) s).core c).out = true := by
  induction cs generalizing s with
  | nil => exact h.resolve_left (List.not_mem_nil)
  | cons d cs ih =>
    rw [List.foldl_cons]
    apply ih
    by_cases same : c = d
    · subst same
      rw [State.core_setCore_same]
      exact .inr rfl
    · rw [State.core_setCore_ne _ _ _ _ same]
      exact h.imp_left (fun m => (List.mem_cons.1 m).resolve_left same)

/-- What a boot sets beside the cores: it stays while cores are left out and weight-store banks granted. -/
def State.booted (s : State) := (s.boot, s.image, s.firmware, s.devices, s.mem)

theorem foldl_out_booted (cs : List CoreId) (s : State) :
    (cs.foldl (fun s c => s.setCore c { s.core c with out := true }) s).booted = s.booted :=
  List.foldlRecOn (motive := fun (t : State) => t.booted = s.booted) _ _ rfl (fun _ h _ _ => h)

theorem foldl_grantBanks (gs : List (PartId × BitVec 128)) (s : State) :
    (gs.foldl grantBanks s).booted = s.booted ∧ (gs.foldl grantBanks s).cores = s.cores :=
  List.foldlRecOn (motive := fun (t : State) => t.booted = s.booted ∧ t.cores = s.cores) _ _ ⟨rfl, rfl⟩ (fun _ h _ _ => h)

theorem Memory.read_filter_not (m : Memory) (p : Nat → Bool) (k : Nat) (h : p k = false) :
    Memory.read (m.filter (fun c => p c.1)) k = 0 :=
  Memory.read_absent _ k (fun c hc e => by
    have kept := (List.mem_filter.1 hc).2
    rw [e, h] at kept
    exact Bool.false_ne_true kept)

theorem exec_boot_fails {b : BootInput} {s : State} {n : Nat} (off : s.boot = .powerOn) (stop : bootStop b = some n) :
    exec (.boot b) s = .next (bootFail s n) := by
  rw [exec_boot, execBoot, if_neg (not_not.2 off), stop]

/-- A boot whose steps all pass. -/
theorem exec_boot_completes {b : BootInput} {s : State} (off : s.boot = .powerOn) (good : bootStop b = none) :
    ∃ t, exec (.boot b) s = .next t ∧
    t.booted = (.ready, some (imageOf b.image), b.firmware, b.devices, s.mem.filter (fun e => decide (2 ^ 31 ≤ e.1))) ∧
    ∀ c ∈ bootOut b, (t.core c).out = true := by
  rw [exec_boot, execBoot, if_neg (not_not.2 off), good]
  simp only
  refine ⟨_, rfl, ?_, fun c hc => ?_⟩
  · rw [(foldl_grantBanks ..).1, foldl_out_booted]
    rfl
  · rw [State.core, (foldl_grantBanks ..).2]
    exact foldl_out _ _ c (.inl hc)

theorem mem_bootOut {b : BootInput} {c : CoreId} (h : c ∈ b.failed ∨ dieOf c ∉ reached b) : c ∈ bootOut b := by
  rw [bootOut, List.mem_append, List.mem_filter]
  refine h.imp_right (fun away => ⟨List.mem_finRange c, ?_⟩)
  simpa using away

/-! A partition's reset (R328). -/

/-- The itineraries and the memory: what the slips' ends, a reclaim and a stretch leave alone. -/
def State.routes (s : State) := (s.itins, s.mem)

theorem dropTransfer_routes (s : State) (id : Option Nat) : (dropTransfer s id).routes = s.routes := by
  cases id <;> rfl

theorem freeTile_routes (s : State) (h : W64) : (freeTile s h).routes = s.routes :=
  (staleReads_keeps (g := State.routes) (fun _ _ _ _ => rfl) (giveUpTile s h) h).trans rfl

theorem stopSlip_routes (s : State) (it : ItinId) (q : Slip) : (stopSlip s it q).routes = s.routes := by
  rw [stopSlip, dropTransfer_routes]
  cases q.tile with
  | none => rfl
  | some h =>
    simp only
    split
    · rfl
    · exact freeTile_routes _ h

theorem reclaimSilently_routes (s : State) (team : Nat) : (reclaimSilently s team).routes = s.routes := by
  have freed : ((heldTiles s team).foldl (fun s h => setTile s h (tileOf s h).toFree) s).routes = s.routes :=
    List.foldlRecOn (motive := fun (t : State) => t.routes = s.routes) _ _ rfl (fun _ h _ _ => h)
  unfold reclaimSilently
  simp only
  split
  · exact freed
  · exact freed

theorem applyStretch_routes (s : State) (c : CoreId) : (applyStretch s c).routes = s.routes := by
  obtain ⟨_, _, _, h, -⟩ := applyStretch_eq s c
  rw [h]; rfl

theorem State.itin_setItin_ne (s : State) (i o : ItinId) (x : Itin) (ne : o ≠ i) : (s.setItin i x).itin o = s.itin o := by
  simp only [State.itin, State.setItin]
  exact Vector.getElem_set_ne i.isLt o.isLt (fun e => ne (Fin.ext e.symm))

theorem State.itin_of_routes {s t : State} (h : t.routes = s.routes) (o : ItinId) : t.itin o = s.itin o := by
  have itins : t.itins = s.itins := congrArg Prod.fst h
  simp only [State.itin, itins]

/-- A changed pace touches its itinerary's own pace and the cores that it names. -/
theorem pace_routes (s : State) (it : ItinId) (code : BitVec 3) :
    (pace s it code).routes = (s.setItin it { s.itin it with pace := code }).routes := by
  unfold pace
  simp only
  split
  next same =>
    have still : s.setItin it { s.itin it with pace := code } = s := by
      rw [← same, State.setItin, State.itin, Vector.set_getElem_self]
    rw [still]
  next =>
    refine List.foldlRecOn (motive := fun (t : State) => t.routes = (s.setItin it { s.itin it with pace := code }).routes) _ _ rfl
      (fun t h k _ => ?_)
    split
    · exact (applyStretch_routes ..).trans h
    · exact h

/-- Itinerary `it` returned to IDLE for a reset of its partition p, its slips dropped and its tiles reclaimed. -/
def resetItin (p : PartId) (s : State) (it : ItinId) : State :=
  let y := s.itin it
  if y.part ≠ p ∨ y.state = .idle then s
  else
    let s := y.flight.foldl (fun s q => stopSlip s it q) (pace s it 0)
    let tiles := if y.team = 0 then [] else heldTiles s y.team
    let s := if y.team = 0 then s else reclaimSilently s y.team
    let s := s.setPart p { s.part p with abandoned := (s.part p).abandoned + BitVec.ofNat 64 tiles.length }
    s.setItin it { s.itin it with state := .idle, cause := 0, flight := [], counter := y.issued }

theorem exec_partitionReset_eq (p : PartId) (s : State) :
    exec (.partitionReset p) s = .next ((List.finRange 128).foldl (resetItin p) s) := rfl

/-- An itinerary that a reset of partition p returns to IDLE. -/
def Itin.resets (p : PartId) (y : Itin) : Prop := y.part = p ∧ y.state ≠ .idle

/-- A reset leaves alone an itinerary that is idle or of another partition. -/
theorem resetItin_rest {p : PartId} {s : State} {it : ItinId} (h : ¬ (s.itin it).resets p) : resetItin p s it = s := by
  rw [resetItin]
  refine if_pos ?_
  by_cases part : (s.itin it).part = p
  · exact .inr (not_not.1 (fun run => h ⟨part, run⟩))
  · exact .inl part

/-- What a reset makes of an itinerary that it returns to IDLE. -/
theorem resetItin_itin {p : PartId} {s : State} {it : ItinId} (h : (s.itin it).resets p) :
    (resetItin p s it).mem = s.mem ∧ (∀ o, o ≠ it → (resetItin p s it).itin o = s.itin o) ∧
    ((resetItin p s it).itin it).part = p ∧ ((resetItin p s it).itin it).state = .idle ∧ ((resetItin p s it).itin it).flight = [] ∧
    ((resetItin p s it).itin it).cause = 0 := by
  obtain ⟨part, runs⟩ := h
  have stopped : ((s.itin it).flight.foldl (fun s q => stopSlip s it q) (pace s it 0)).routes
      = (s.setItin it { s.itin it with pace := 0 }).routes :=
    List.foldlRecOn (motive := fun (t : State) => t.routes = (s.setItin it { s.itin it with pace := 0 }).routes) _ _ (pace_routes s it 0)
      (fun t h q _ => (stopSlip_routes t it q).trans h)
  have reclaimed : ∀ u : State, (if (s.itin it).team = 0 then u else reclaimSilently u (s.itin it).team).routes = u.routes := by
    intro u
    split
    · rfl
    · exact reclaimSilently_routes _ _
  rw [resetItin, if_neg (by rw [not_or]; exact ⟨not_not.2 part, runs⟩)]
  generalize hu : (s.itin it).flight.foldl (fun s q => stopSlip s it q) (pace s it 0) = u at stopped ⊢
  have routes := (reclaimed u).trans stopped
  generalize hv : (if (s.itin it).team = 0 then u else reclaimSilently u (s.itin it).team) = v at routes
  simp only [hv]
  have itin (k : Part) (o : ItinId) : (v.setPart p k).itin o = (s.setItin it { s.itin it with pace := 0 }).itin o :=
    State.itin_of_routes (t := v.setPart p k) routes o
  refine ⟨congrArg Prod.snd routes, fun o ne => ?_, ?_⟩
  · rw [State.itin_setItin_ne _ _ _ _ ne, itin, State.itin_setItin_ne _ _ _ _ ne]
  · rw [State.itin_setItin_same, itin, State.itin_setItin_same]
    exact ⟨part, rfl, rfl, rfl⟩

/-- An itinerary z after a reset of partition p, where it was y before. -/
def ResetFrom (p : PartId) (y z : Itin) : Prop :=
  z = y ∨ y.resets p ∧ z.part = p ∧ z.state = .idle ∧ z.flight = [] ∧ z.cause = 0

theorem ResetFrom.trans {p : PartId} {x y z : Itin} (h : ResetFrom p x y) (g : ResetFrom p y z) : ResetFrom p x z := by
  rcases h with rfl | ⟨run, ended⟩
  · exact g
  · exact .inr ⟨run, g.elim (fun same => same ▸ ended) And.right⟩

theorem resetItin_from (p : PartId) (s : State) (it o : ItinId) : ResetFrom p (s.itin o) ((resetItin p s it).itin o) := by
  by_cases run : (s.itin it).resets p
  · obtain ⟨-, others, ended⟩ := resetItin_itin run
    by_cases same : o = it
    · subst same
      exact .inr ⟨run, ended⟩
    · exact .inl (others o same)
  · rw [resetItin_rest run]
    exact .inl rfl

theorem resetItin_mem (p : PartId) (s : State) (it : ItinId) : (resetItin p s it).mem = s.mem := by
  by_cases run : (s.itin it).resets p
  · exact (resetItin_itin run).1
  · rw [resetItin_rest run]

theorem resetItin_self (p : PartId) (s : State) (it : ItinId) : ¬ ((resetItin p s it).itin it).resets p := by
  by_cases run : (s.itin it).resets p
  · obtain ⟨-, -, -, idle, -⟩ := resetItin_itin run
    exact fun h => h.2 idle
  · rwa [resetItin_rest run]

/-- The reset of a list of itineraries: each of them ends, the others stay. -/
theorem foldl_resetItin (p : PartId) (its : List ItinId) (s : State) :
    (its.foldl (resetItin p) s).mem = s.mem ∧ ∀ o, ResetFrom p (s.itin o) ((its.foldl (resetItin p) s).itin o) ∧
    (o ∈ its → ¬ ((its.foldl (resetItin p) s).itin o).resets p) := by
  induction its generalizing s with
  | nil => exact ⟨rfl, fun o => ⟨.inl rfl, fun h => absurd h List.not_mem_nil⟩⟩
  | cons it its ih =>
    obtain ⟨mem, each⟩ := ih (resetItin p s it)
    refine ⟨mem.trans (resetItin_mem p s it), fun o => ?_⟩
    obtain ⟨from_, ended⟩ := each o
    refine ⟨(resetItin_from p s it o).trans from_, fun h => ?_⟩
    rcases List.mem_cons.1 h with rfl | later
    · have idle := resetItin_self p s o
      rw [List.foldl_cons, from_.resolve_right (fun r => idle r.1)]
      exact idle
    · exact ended later

theorem exec_partitionReset_ends (p : PartId) (s : State) : ∃ t, exec (.partitionReset p) s = .next t ∧ t.mem = s.mem ∧ ∀ it,
    ((s.itin it).part = p → (t.itin it).state = .idle) ∧
    ((s.itin it).part = p → (s.itin it).state ≠ .idle → (t.itin it).flight = [] ∧ (t.itin it).cause = 0) ∧
    ((s.itin it).part ≠ p → t.itin it = s.itin it) := by
  obtain ⟨mem, each⟩ := foldl_resetItin p (List.finRange 128) s
  refine ⟨_, exec_partitionReset_eq p s, mem, fun it => ?_⟩
  obtain ⟨from_, ended⟩ := each it
  have done := ended (List.mem_finRange it)
  rcases from_ with same | ⟨run, part, idle, flight, cause⟩
  · rw [same] at done ⊢
    exact ⟨fun part => not_not.1 (fun run => done ⟨part, run⟩), fun part run => absurd ⟨part, run⟩ done, fun _ => rfl⟩
  · exact ⟨fun _ => idle, fun _ _ => ⟨flight, cause⟩, fun other => absurd run.1 other⟩

/-! A frozen package (R431, R432). -/

theorem completeIssue_still {t u : State} (still : u.issue.live = false) : completeIssue exec t u = .next u := by
  rw [completeIssue, still]; rfl

/-- Where no bundle is in flight after the event, the step ends with it. -/
theorem step_event {s u : State} (event : nextEvent s (dropEvent s) = .next u) (still : u.issue.live = false) : step s = .next u := by
  rw [step]
  simp only [event, completeIssue_still still]

theorem issueSlot_frozen {s : State} (frozen : s.frozen = true) (c : CoreId) : issueSlot s c = s.calm := by
  rw [issueSlot]
  exact if_pos frozen

theorem step_frozen {s : State} (frozen : s.frozen = true) (noReset : s.agenda.head? ≠ some .packageReset) :
    ∃ t, step s = .next t ∧ t.frozen = true ∧ t.mem = s.mem ∧ t.cycle = s.cycle ∧ t.cores = s.cores := by
  have slot : execBundleIssue s.turn (dropEvent s) = .next (dropEvent s).calm :=
    congrArg Host.Outcome.next (issueSlot_frozen (s := dropEvent s) frozen s.turn)
  cases agenda : s.agenda with
  | nil =>
    refine ⟨(dropEvent s).calm, step_event ?_ rfl, frozen, rfl, rfl, rfl⟩
    rw [nextEvent, agenda]
    simp only [frozen, Bool.not_true, Bool.and_false, Bool.false_eq_true, if_false]
    exact slot
  | cons e rest =>
    rw [agenda, List.head?_cons] at noReset
    have next : nextEvent s = if isEvent e && whileFrozen e then exec e else execBundleIssue s.turn := by
      rw [nextEvent, agenda]
      simp only [frozen, Bool.not_true, Bool.false_or]
    by_cases reaches : (isEvent e && whileFrozen e) = true
    · rw [if_pos reaches] at next
      obtain ⟨-, jtag⟩ := Bool.and_eq_true_iff.1 reaches
      revert jtag noReset
      cases e
      case freezeSignal | freeze =>
        intro _ _
        exact ⟨_, step_event (congrFun next _) rfl, rfl, rfl, rfl, rfl⟩
      case idcode | status | scanout | bypass =>
        intro _ _
        exact ⟨_, step_event (congrFun next _) rfl, frozen, rfl, rfl, rfl⟩
      case packageReset => exact fun h => absurd rfl h
      all_goals exact fun _ h => absurd h Bool.false_ne_true
    · rw [if_neg reaches] at next
      exact ⟨(dropEvent s).calm, step_event (by rw [next, slot]) rfl, frozen, rfl, rfl, rfl⟩

/-! Attestation and read-out (R430, R432). -/

/-- Each request for evidence is answered with its number of words. -/
theorem exec_attestation {i : Instr} {code : BitVec 8} {n : Nat} (h : attestation i = some (code, n)) (s : State) :
    ∃ ws, ws.length = n ∧ exec i s = .next (s.emit (.spdm code ws)) := by
  have words (nonce : BitVec 256) : ((List.range n).map (Config.spdmWord code nonce)).length = n := by simp
  revert h
  cases i
  case getVersion | getCapabilities | negotiateAlgorithms | getDigests | getCertificate | challenge =>
    intro h
    obtain ⟨rfl, rfl⟩ := Prod.mk.inj (Option.some.inj h)
    exact ⟨_, words _, rfl⟩
  case getMeasurements =>
    intro h
    obtain ⟨rfl, rfl⟩ := Prod.mk.inj (Option.some.inj h)
    exact ⟨_, by simp [digests, digest, leftOut], rfl⟩
  all_goals exact fun h => absurd h (Option.some_ne_none _).symm

/-- What a scan of n bits shifts out. -/
theorem exec_scanout_bits (s : State) (n : Nat) :
    (s.frozen = true → readoutOk s = true →
      exec (.scanout n) s = .next ({ s with ir := 0x04 }.emit (.jtag ((List.range n).map (Config.scanBit (chains s)))))) ∧
    (s.frozen = false ∨ readoutOk s = false →
      exec (.scanout n) s = .next ({ s with ir := 0x04 }.emit (.jtag (List.replicate n false)))) := by
  rw [exec_scanout, execScanout]
  constructor
  · intro frozen permitted
    simp only [frozen, permitted, Bool.and_self, Bool.true_and]
  · intro shut
    have zero : (s.frozen && readoutOk s) = false := by
      rcases shut with h | h <;> rw [h]
      · rfl
      · exact Bool.and_false _
    simp only [zero, Bool.false_and, List.map_const', List.length_range]

/-- Settles O46: boot by its first failing step, resets by what they leave, a frozen package by the events that reach it. -/
theorem bootAndReadOut : Obligations.BootAndReadOut := by
  refine ⟨fun b s fails off hf => ⟨fun n low high failed first => ?_, fun good => ?_⟩, fun s => rfl, fun s => ⟨rfl, rfl⟩,
    fun s => ⟨rfl, ?_⟩, exec_scanout_bits, fun s b => rfl, fun s code => ?_, fun s i code n h => exec_attestation h s,
    exec_partitionReset_ends, fun s frozen noReset => step_frozen frozen noReset⟩
  · obtain rfl : fails = (fun n => bootFails b n = true) := hf.trans (funext fun n => propext (bootFails_iff b n).symm)
    exact exec_boot_fails off (bootStop_first low high failed first)
  · obtain rfl : fails = (fun n => bootFails b n = true) := hf.trans (funext fun n => propext (bootFails_iff b n).symm)
    obtain ⟨t, run, booted, out⟩ := exec_boot_completes off (bootStop_none good)
    have mem : t.mem = s.mem.filter (fun e => decide (2 ^ 31 ≤ e.1)) := congrArg (fun x => x.2.2.2.2) booted
    refine ⟨t, run, congrArg (fun x => x.1) booted, congrArg (fun x => x.2.1) booted, congrArg (fun x => x.2.2.1) booted,
      congrArg (fun x => x.2.2.2.1) booted, fun c h => out c (mem_bootOut h), fun k low => ?_, fun k high => ?_⟩
    · rw [mem]
      exact Memory.read_filter_not s.mem (fun k => decide (2 ^ 31 ≤ k)) k (decide_eq_false (by omega))
    · rw [mem]
      exact Memory.read_filter s.mem (fun k => decide (2 ^ 31 ≤ k)) k (decide_eq_true high)
  · rw [exec_status, execStatus, Nat.mul_comm]
  · rw [exec_sessionRequest, execSessionRequest]
    exact congrArg (fun w => Host.Outcome.next (s.emit (.spdm 0x7F [0x07, w]))) (BitVec.eq_of_toNat_eq (by simp))

end Sys2Proof.Machine
